-- ==== Sys2Proof/Word.lean ====
section
/-! DEFINITION. The word types of the DQ4 (spec 00 R3, R4): bytes, 32-bit status and address words,
128-bit Mehros words. -/
namespace Sys2Proof

/-- One byte of tensor data, parcels and frame bodies. -/
abbrev Byte := BitVec 8

/-- A 32-bit register, address or status word. -/
abbrev Word := BitVec 32

/-- A Mehros head or descriptor word (R208). -/
abbrev Word128 := BitVec 128

end Sys2Proof
end

