-- ==== Sys2Proof/Syntax.lean ====
section
/-! DEFINITION. The commands of the DQ4: one constructor per row of spec/opcode_table.json, and the
operand types they carry. Operands that only time or physics fix (cycle counts, which accesses met in
a cycle, whether a signature verifies, what a sensor read) are carried by the command (log 1, 13). -/
namespace Sys2Proof

/-- One meeting of scheduled accesses at a bank port in which an access of the command was delayed (R152). -/
structure BankMeet where
  bank  : Nat
  write : Bool
  deriving DecidableEq, Repr

/-- Bits of a core's memories that have flipped before the command reads them (R173, R178): 64-bit words of the
scratchpad, each with whether two of its bits are wrong, 32-bit words of the tile registers, and register rows whose
tag is wrong. -/
structure Upset where
  spad : List (Nat × Bool)
  treg : List Nat
  tags : List Nat
  deriving DecidableEq, Repr

/-- What the cycle in which an access ran decides: the conflicts met (R152), the requester cycles
waited at tile-register ports (R176) and at the vector interlock (R299), the scratchpad lines read in the very cycle of
the last write to them (R150), and the bits that have flipped. -/
structure Timing where
  meets     : List BankMeet
  portWait  : Nat
  interlock : Nat
  same      : List Nat
  upset     : Upset
  deriving DecidableEq, Repr

/-- An error of the logic of an engine in one pass (R67): the engine, an output `n` of the plane whose sum it changes, or
the number of outputs for the near unit's residue sum, and by how much. -/
structure ArrayErr where
  e     : Nat
  n     : Nat
  delta : Int
  deriving DecidableEq, Repr

/-- A golden block found uncorrectable where it is read (R333): the placement, the 4 KiB page of its staged object, and
which of the page's two copies. -/
structure GoldLoss where
  handle : Nat
  page   : Nat
  copy   : Nat
  deriving DecidableEq, Repr

/-- A queued instruction is pushed by the control core (`issue`, R220, R244) and later, started at the
head of its queue (R243), has its effect (`run`). -/
inductive Phase where
  | issue
  | run (tm : Timing)
  deriving DecidableEq, Repr

/-- What timing decides of a pass start (R275, R176, R392, R393). -/
structure PassTiming where
  /-- the engine ran no pass in the cycle before: a start under R393 -/
  start    : Bool
  penWait  : Nat
  portWait : Nat
  upset    : Upset
  deriving DecidableEq, Repr

/-- What the Yoke reads of power in a tick (R377, R381, R388), in mW: the standing draws of the seven domains in their present
sleep states, the same with the clusters that the work needs in RUN, and the power of slices and maintenance in progress and
queued in each of the seven. -/
structure TickPower where
  standing : List Nat
  needed   : List Nat
  slices   : List Nat
  queued   : List Nat
  deriving DecidableEq, Repr

/-- What the Yoke counts in a tick (R68, R377): hub links and accesses, HBM links and accesses; the ballast passes that failed
their check: core, engine, plane. -/
structure TickCounts where
  counts : List Nat
  fails  : List (Nat × Nat × Nat)
  deriving DecidableEq, Repr

/-- Halt records that reach the hub in one cycle: that of core `k`, and those of `same` (R247, R248). -/
structure RecordsIn where
  k    : Nat
  same : List Nat
  deriving DecidableEq, Repr

/-- The pass result of lead engine `e`, with the errors of the engines' logic in it (R48, R67). -/
structure ResultIn where
  e    : Nat
  errs : List ArrayErr
  deriving DecidableEq, Repr

/-- A drain of engine `e`, with what its cycle decides (R124, R176). -/
structure DrainIn where
  e  : Nat
  tm : Timing
  deriving DecidableEq, Repr

/-- A field tile's writes that coalesced (R292), and what its cycle decides. -/
structure TileIn where
  coalesced : Nat
  tm        : Timing
  deriving DecidableEq, Repr

/-- A deposit by its number, and what the cycle of its read decides (R167). -/
structure LandIn where
  id : Nat
  tm : Timing
  deriving DecidableEq, Repr

/-- A commit by its number, and the time from its frame's last byte to its answer in microseconds (R353, R375). -/
structure CommitTime where
  cseq : Nat
  time : Nat
  deriving DecidableEq, Repr

/-- One of the four parcel copies of an entry (R358): of its input or its result, the mirror or the first. -/
structure ParcelCopy where
  input  : Bool
  mirror : Bool
  deriving DecidableEq, Repr

/-- The end of a diagnosis: whether the sweep passed (R70), and the golden blocks lost to it (R333). -/
structure SweepIn where
  ok   : Bool
  lost : List GoldLoss
  deriving DecidableEq, Repr

/-- A substitution: its length in microseconds (R443), and the golden blocks lost to it (R333). -/
structure RepairIn where
  us   : Nat
  lost : List GoldLoss
  deriving DecidableEq, Repr

/-- A line of a bank of die shared memory (R183). -/
structure BankLine where
  bank : Nat
  line : Nat
  deriving DecidableEq, Repr

/-- The numbers of a CONFIRM (R428): the highest commit held, and the one assigned. -/
structure ConfirmIn where
  highest  : Nat
  assigned : Nat
  deriving DecidableEq, Repr

/-- The fields of the DQ4 header of a segment (R342). `rsvd` is 0 when every reserved field is 0. -/
structure Hdr where
  ver     : Nat
  kind    : Nat
  tsid    : Nat
  stream  : Nat
  incarn  : Nat
  segidx  : Nat
  segcnt  : Nat
  bodylen : Nat
  seq     : Nat
  iv      : Nat
  rsvd    : Nat
  deriving DecidableEq, Repr

/-- The encapsulations in which a frame can arrive (R340). -/
inductive EncapKind where
  | ipv4 | ipv6 | tagged | untagged
  deriving DecidableEq, Repr

/-- How a segment arrives (R340 to R342): its encapsulation, the UDP port or EtherType to which it goes, whether it is an
IP fragment or carries IP options or an IPv6 extension header, whether its UDP checksum is right (none: the checksum is
0), its source address, and the 40 bytes of its DQ4 header; `sec`: it came under MACsec protection that verifies (R489). -/
structure Wire where
  encap : EncapKind
  dest  : Nat
  extra : Bool
  sum   : Option Bool
  src   : Nat
  head  : List Byte
  sec   : Bool
  deriving DecidableEq, Repr

/-- A segment received at a port: its body, whether its tag verifies (R343), the time in hub fast
clock cycles until the answer leaves (R375 ADMIT_MAX), and the bytes of WORK segments at the hub that are
not yet copied to the other one (R354). -/
structure SegIn where
  port : Nat
  wire : Wire
  body : List Byte
  auth : Bool
  time : Nat
  backlog : Nat
  deriving DecidableEq, Repr

/-- A BULK frame received (R324): the body is the bytes of the frame. -/
structure BulkIn where
  port : Nat
  wire : Wire
  auth : Bool
  body : List Byte
  deriving DecidableEq, Repr

/-- What the key units and Moult find while a COMMIT runs (R330, R323): whether `WKEY` unwraps, the
first record whose tag fails, whether the owner's signature of a PATCH verifies, and the plaintexts
(power signature table and weight rows; tables; region; patch; routine image). -/
structure CommitIn where
  wkeyOk     : Bool
  badRecord  : Option Nat
  /-- the first record of the waiting TABLES object, else of REGION, whose tag fails (R331 step 4) -/
  badPart    : Option Nat
  sigOk      : Bool
  plain      : List Byte
  tables     : List Byte
  region     : List Byte
  deriving DecidableEq, Repr

/-- A MGMT frame received (R535, R536): whether its tag verifies, and the bytes of its body. -/
structure MgmtIn where
  port : Nat
  wire : Wire
  auth : Bool
  body : List Byte
  /-- as many requests wait for an answer as the hub holds (R537) -/
  busy : Bool
  deriving DecidableEq, Repr

/-- A COMMAND (R541): the request, whose body holds the envelope, and what Sphinx computes of it. -/
structure Envelope where
  req    : MgmtIn
  /-- the signing key: the SHA-512 digest of its modulus `CSIGNER`, as a number -/
  signer : Nat
  /-- `CSIG` verifies -/
  sigOk  : Bool
  deriving DecidableEq, Repr

/-- A PAIR frame received (R429): whether it verifies under the pair link key, the bytes of its body, and the digest of the
profile in force at its sender (R524; DESIGN CHOICE, log 119). -/
structure PairIn where
  port  : Nat
  wire  : Wire
  auth  : Bool
  body  : List Byte
  prof  : Nat
  deriving DecidableEq, Repr

/-- One record of a PAIR COMMIT (R429): the fields of a ledger entry (R360), `CSEQ` being 0 when the sender is not the leader,
`ipar` and `rpar` with the stack in bits 27 to 24, and the stream state sent with it; `away`: the frame runs on the package
that is not its home (R22, R418). -/
structure PairRecord where
  cseq    : Nat
  stream  : Nat
  incarn  : Nat
  seq     : Nat
  tsid    : Nat
  opc     : Nat
  state   : Nat
  status  : Nat
  wreason : Nat
  tag     : Nat
  replays : Nat
  tadmit  : Nat
  epoch   : Nat
  ipar    : Nat
  rpar    : Nat
  ilen    : Nat
  rlen    : Nat
  away    : Bool
  sstate  : Nat
  nextSeq : Nat
  credit  : Nat
  outst   : Nat
  deriving DecidableEq, Repr

/-- A Grazer slice or march target (R446, R459): physical numbers; `handle` for DIGEST. -/
structure Target where
  kind    : Nat
  die     : Nat
  cluster : Nat
  core    : Nat
  engine  : Nat
  bank    : Nat
  handle  : Nat
  deriving DecidableEq, Repr

/-- An NVM image (R507 to R509): target 0 header, 1 and 2 firmware slots, 3 to 6 profiles (R546); the bytes of the
region, followed for a slot by its signature block; whether its signature verifies under the key that R509 names, and
whether every CAK that it carries for a port with MACsec unwraps. -/
structure NvmImage where
  target : Nat
  data   : List Byte
  sigOk  : Bool
  cakOk  : Bool
  deriving DecidableEq, Repr

/-- What is read from outside at a start (R506 to R519, R559): straps, memories and test results. `modPower`: Max
Power of the eight modules in 0.25 W. Defective units are physical: (die, cluster, core, engine, column), as far
as each needs them; `badRows`: the rows that the destructive march finds faulty (R463). -/
structure StartIn where
  psel       : Nat
  pairRole   : Nat
  aonKept    : Bool
  /-- the ROM self-test of HA fails (R512) -/
  bootHubB   : Bool
  chainOk    : Bool
  nvmMbit    : Nat
  sfdpOk     : Bool
  /-- the images programmed by the integrator while `PORST_N` was low (R510) -/
  images     : List NvmImage
  /-- the bytes of the slot record (R516) -/
  slotRec    : List Byte
  regs       : Nat
  hbmStacks     : Nat
  mods       : Nat
  modPower   : List Nat
  hot        : Bool
  badColumns : List (Nat × Nat × Nat × Nat × Nat)
  badEngines : List (Nat × Nat × Nat × Nat)
  badCores   : List (Nat × Nat × Nat)
  badClusters : List (Nat × Nat)
  badRows    : List (Target × Nat)
  deriving DecidableEq, Repr

/-- A unit that a diagnosis or a test names (R412, R414): level 1 column, 2 engine, 3 core,
4 cluster; logical core index `k`, logical engine `e`, column slot `slot`. -/
structure FaultUnit where
  level : Nat
  k     : Nat
  e     : Nat
  slot  : Nat
  deriving DecidableEq, Repr

/-- One command of the DQ4: a row of spec/opcode_table.json. -/
inductive Instr where
  -- Mehros, control core (R229): core `k` issues the instruction that is due
  | nop (k : Nat)
  | ldi (k : Nat)
  | add (k : Nat)
  | sub (k : Nat)
  | shl (k : Nat)
  | shr (k : Nat)
  | sra (k : Nat)
  | madd (k : Nat)
  | min (k : Nat)
  | max (k : Nat)
  | and (k : Nat)
  | smov (k : Nat)
  | qdepth (k : Nat)
  | setinc (k : Nat)
  | cset (k : Nat)
  | loop (k : Nat)
  | lbrk (k : Nat)
  | br (k : Nat)
  | call (k : Nat)
  | ret (k : Nat)
  | halt (k : Nat)
  | sheets (k : Nat)
  | windowDeclare (k : Nat)
  | windowUndeclare (k : Nat)
  | grant (k : Nat)
  -- Mehros, queued
  | accbase (k : Nat) (ph : Phase)
  | accstride (k : Nat) (ph : Phase)
  | accslots (k : Nat) (ph : Phase)
  | txfer (k : Nat) (ph : Phase)
  | matmul (k : Nat) (ph : Phase)
  | dmatmul (k : Nat) (ph : Phase)
  | wplane (k : Nat) (ph : Phase)
  | combine (k : Nat) (ph : Phase)
  | vxfer (k : Nat) (ph : Phase)
  | ccount (k : Nat) (ph : Phase)
  | vecAdd (k : Nat) (ph : Phase)
  | vecMul (k : Nat) (ph : Phase)
  | vecFma (k : Nat) (ph : Phase)
  | vecMin (k : Nat) (ph : Phase)
  | vecMax (k : Nat) (ph : Phase)
  | cmpeq (k : Nat) (ph : Phase)
  | cmpne (k : Nat) (ph : Phase)
  | cmplt (k : Nat) (ph : Phase)
  | cmple (k : Nat) (ph : Phase)
  | cmpgt (k : Nat) (ph : Phase)
  | cmpge (k : Nat) (ph : Phase)
  | select (k : Nat) (ph : Phase)
  | convert (k : Nat) (ph : Phase)
  | exp2 (k : Nat) (ph : Phase)
  | recip (k : Nat) (ph : Phase)
  | rsqrt (k : Nat) (ph : Phase)
  | emask (k : Nat) (ph : Phase)
  | rmask (k : Nat) (ph : Phase)
  | maskall (k : Nat) (ph : Phase)
  | reduceSum (k : Nat) (ph : Phase)
  | reduceMax (k : Nat) (ph : Phase)
  | reduceMin (k : Nat) (ph : Phase)
  | reduceCount (k : Nat) (ph : Phase)
  | reduceTop1 (k : Nat) (ph : Phase)
  | send (k : Nat) (ph : Phase)
  | emit (k : Nat) (ph : Phase)
  | move (k : Nat) (ph : Phase)
  | cfg (k : Nat) (ph : Phase)
  -- sequencing of a core
  | queueHeadStart (k q : Nat)
  | waitSatisfied (k : Nat)
  | instructionComplete (k id : Nat)
  | waitTimeout (k q : Nat)
  | runLimit (k : Nat)
  | stopTimeout (cseq : Nat)
  | haltRecord (r : RecordsIn)
  -- the Drover and the arrays
  | passIssue (k : Nat) (tm : PassTiming)
  | dynamicRowWrite (k : Nat) (tm : Timing)
  | passResultComplete (k : Nat) (r : ResultIn)
  | resultSetSwap (k e waited : Nat)
  | drain (k : Nat) (d : DrainIn)
  | penTileLoad (k : Nat) (tm : Timing)
  | fieldTile (k : Nat) (t : TileIn)
  -- deposits, sheets and frames
  | depositLand (d : LandIn)
  | creditTimeout (id : Nat)
  | hubInputDelivery (cseq : Nat)
  | sheetWakeDone (k sheet : Nat)
  | frameStart (cseq k : Nat)
  | frameBind (cseq : Nat)
  -- streams and the Fold
  | workRun (g : SegIn)
  | workOpen (g : SegIn)
  | workCancel (g : SegIn)
  | workClose (g : SegIn)
  | segmentTimeout (hub : Nat) (h : Hdr)
  | ledgerConfirm (c : CommitTime) (hub : Nat)
  | commitDeadline (c : CommitTime)
  | dispatch (cseq : Nat)
  | frameEnd (cseq : Nat)
  | resultParcelWritten (cseq : Nat)
  | resultTransmit (stream : Nat)
  | release (g : SegIn)
  | resend (g : SegIn)
  | parcelReadError (cseq : Nat) (p : ParcelCopy) (both : Bool)
  -- installing models
  | bulkOpen (b : BulkIn)
  | burst (b : BulkIn)
  | bulkClose (b : BulkIn)
  | abort (b : BulkIn)
  | query (b : BulkIn)
  | bulkCommit (b : BulkIn) (o : CommitIn)
  | remove (b : BulkIn)
  | notes (b : BulkIn)
  | installDone (handle : Nat) (sweepFail : Option Nat)
  | routineCommit (tenant name : Nat)
  | patchApply (handle : Nat)
  | placementRetire (handle : Nat)
  | planeEmpty (k e p : Nat)
  | bulkIdle (session : Option Nat) (tenant target name : Nat)
  | absorbWait (k e p : Nat)
  | fenceWait (k : Nat)
  | planeDiagnosis (k e p : Nat) (o : SweepIn)
  | dynamicPlaneTest (k e : Nat)
  | columnSubstitution (k e slot : Nat) (r : RepairIn)
  | substitutionDone (u : FaultUnit) (r : RepairIn) (verifyOk : Bool)
  | coreDiagnosisDone (k : Nat) (faulty : Bool)
  -- faults
  | fabricTimeout (path unit : Nat) (cores : List Nat)
  | dsmEccError (die bank line : Nat) (dbl mirrorBad : Bool) (core : Option Nat)
  | dsmAccessDenied (die master : Nat) (l : BankLine) (write : Bool) (core : Option Nat)
  | dsmPriorityEscalate (die bank master waited : Nat)
  | stackLost (st : Nat)
  | dieLost (d : Nat)
  | hubHeartbeat (h : Nat) (bridge relay : Bool)
  | hubHeartbeatLoss (h : Nat)
  | digestExchange
  | bridgeRestored (b : Nat) (logsEqual : Bool)
  | faultPulseEnd
  -- the Yoke
  | yokeTick (p : TickPower) (c : TickCounts)
  | avsSample (group volts amps : Nat)
  | pmbusSample (rail milliwatts : Nat)
  | envHold
  | combWindow (d amps : Nat)
  | tempReport (die temp : Nat)
  | thermtrip (die : Nat)
  | voltageAlarm (d : Nat)
  | voltageAlarmPersist (d : Nat)
  | clockLoss (die cluster : Nat)
  | relockTimeout (die cluster : Nat)
  | dozeEntry (die cluster : Nat)
  | clusterOff (die cluster : Nat)
  | clusterWakeDone (die cluster : Nat)
  | stackSelfRefresh (st : Nat)
  -- self-test and repair
  | grazerSliceStart (t : Target)
  | sliceUnitDone (t : Target) (ok : Bool) (row : Nat)
  | sliceEnd (t : Target)
  | sliceStop (t : Target)
  | roundOverrun
  | marchStart (t : Target) (transparent : Bool)
  | marchDone (t : Target) (badRows : List Nat)
  | bellwetherSweep (k e : Nat) (vectorsOk : Bool)
  | fuseBurn (die : Nat) (record : Nat) (readBackOk : Bool)
  | secureWipeDone
  | profileSwitch
  | firmwareActivation
  | maintDefer (id : Nat)
  -- trust, start-up and pins
  | tamper (source : Nat)
  | coldStart (i : StartIn)
  | bootReportTimeout
  | readyAssert
  | porstAssert
  | wrstPin
  | warmRestartDoze
  | moduleInsert (n power : Nat)
  | portLinkDown (n : Nat)
  -- status space and commands
  | mgmtRead (m : MgmtIn) (addr count : Nat)
  | admitMaxRead (m : MgmtIn) (hub : Nat)
  | substMaxRead (m : MgmtIn)
  | timeLoRead (m : MgmtIn)
  | clear (e : Envelope) (pairs : List (Nat × Nat))
  | warmRestart (e : Envelope)
  | useProfile (e : Envelope) (slot : Nat)
  | activateFirmware (e : Envelope) (slot : Nat)
  | raiseSvn (e : Envelope) (floor : Nat)
  | nvmBegin (e : Envelope) (target len digest : Nat)
  | nvmData (m : MgmtIn) (offset : Nat) (data : List Byte)
  | nvmProgramDone (ok sigOk cakOk : Bool)
  | pairBind (e : Envelope) (partner : List Nat) (wseed : Nat) (unwrapOk : Bool)
  | pairUnbind (e : Envelope)
  | takeOwnership (e : Envelope) (voucherOk : Bool)
  | rotateOwner (e : Envelope) (newDigest : Nat)
  | returnPkg (e : Envelope)
  | retire (e : Envelope)
  | attest (m : MgmtIn) (nonce first nlist : Nat) (busy : Bool)
  | certs (m : MgmtIn) (busy : Bool)
  | sessionOpen (m : MgmtIn) (tenant wskSerial : Nat) (sigOk unwrapOk busy : Bool)
  | sessionClose (m : MgmtIn)
  -- the redundant pair
  | pairHeartbeatTimer
  | pairHeartbeatMiss
  | pairHeartbeat (p : PairIn) (pstate leader quiet lastCseq : Nat)
  | pairCommit (p : PairIn) (recs : List PairRecord)
  | pairConfirm (p : PairIn) (c : ConfirmIn) (time : Nat)
  | pairSegment (p : PairIn) (h : Hdr) (body : List Byte)
  | pairObject (p : PairIn) (tenant target name offset : Nat) (data : List Byte)
  | pairObjcommit (p : PairIn) (tenant target name status : Nat) (o : CommitIn)
  | pairDigest (p : PairIn) (cseq run digest : Nat)
  | pairParcel (p : PairIn) (cseq offset : Nat) (data : List Byte)
  | pairSyncdone (p : PairIn) (cseq : Nat)
  | pairStrike (p : PairIn) (cseq stream incarn seq : Nat)
  | pairKeysync (p : PairIn) (tsid tenant : Nat) (opened : Bool)
  -- rows at the end of the table
  | workSegment (g : SegIn)
  | inputParcelWritten (cseq : Nat)
  | portLinkUp (n : Nat) (mka : Bool)
  | hubSelfCheckFail (h : Nat)
  | clusterRelocked (die cluster : Nat)
  | boundaryScan (tap ir : Nat) (drIn : Nat)
  | dsmBankWakeDone (die bank : Nat)
  deriving DecidableEq, Repr

end Sys2Proof
end

