-- ==== Sys2Proof/Decode.lean ====
section
/-! DEFINITION. The command a word of the opcode table spells: no row of spec/opcode_table.json gives
bits, so no word spells a command. -/
namespace Sys2Proof

/-- The command spelled by a word of the table: none, since the table gives no row any bits. -/
def decodeTableWord (_nbits _w : Nat) : Option Instr := none

end Sys2Proof
end

