-- ==== Sys2Proof/Machine/Bits.lean ====
section
/-! DEFINITION. Bit fields, two's complement values and byte orders (00 R3, R4). -/
namespace Sys2Proof.Machine
open Sys2Proof

/-- Bits `hi` to `lo` of `w`. -/
def bits (w hi lo : Nat) : Nat := (w / 2 ^ lo) % 2 ^ (hi + 1 - lo)

/-- Bit `i` of `w`. -/
def bitAt (w i : Nat) : Bool := (w / 2 ^ i) % 2 == 1

/-- The value of an `n`-bit two's complement field. -/
def signedVal (n w : Nat) : Int := if w % 2 ^ n < 2 ^ (n - 1) then (w % 2 ^ n : Nat) else ((w % 2 ^ n : Nat) : Int) - (2 ^ n : Nat)

/-- The `n`-bit two's complement pattern of an integer. -/
def pattern (n : Nat) (v : Int) : Nat := (v % (2 ^ n : Nat)).toNat

/-- A number as a 32-bit word, modulo 2^32. -/
def word (n : Nat) : Word := BitVec.ofNat 32 n

/-- `1` when the condition holds. -/
def flag (b : Bool) : Nat := if b then 1 else 0

/-- The lowest bit of `w` that is set, among the lowest `n` bits. -/
def lowestSet : Nat → Nat → Nat → Option Nat
  | 0, _, _ => none
  | n + 1, i, w => if bitAt w i then some i else lowestSet n (i + 1) w

/-- The number of bits set among the lowest `n`. -/
def popCount : Nat → Nat → Nat
  | 0, _ => 0
  | n + 1, w => w % 2 + popCount n (w / 2)

/-- `n` bytes of `v`, lowest first. -/
def leBytes : Nat → Nat → List Byte
  | 0, _ => []
  | n + 1, v => BitVec.ofNat 8 v :: leBytes n (v / 256)

/-- The number that bytes give, lowest first. -/
def leNat : List Byte → Nat
  | [] => 0
  | b :: r => b.toNat + 256 * leNat r

/-- The number that bytes give in network byte order. -/
def beNat (l : List Byte) : Nat := l.foldl (fun a b => a * 256 + b.toNat) 0

/-- `n` bytes of `v` in network byte order. -/
def beBytes (n v : Nat) : List Byte := (leBytes n v).reverse

/-- Fields one after another, each a length in bytes and a value, in network byte order (R3). -/
def fieldBytes (l : List (Nat × Nat)) : List Byte := l.flatMap (fun x => beBytes x.1 x.2)

/-- Every value fits its field. -/
def fieldsFit (l : List (Nat × Nat)) : Bool := l.all (fun x => decide (x.2 < 256 ^ x.1))

/-- Bit fields from the most significant downwards, each a width in bits and a value, as one number. -/
def bitFields (l : List (Nat × Nat)) : Nat := l.foldl (fun a x => a * 2 ^ x.1 + x.2 % 2 ^ x.1) 0

/-- Every value fits its bit field. -/
def bitsFit (l : List (Nat × Nat)) : Bool := l.all (fun x => decide (x.2 < 2 ^ x.1))

/-- `len` bytes from offset `off`. -/
def slice (l : List Byte) (off len : Nat) : List Byte := (l.drop off).take len

/-- The unsigned number of the `len` bytes at `off` in network byte order. -/
def beAt (l : List Byte) (off len : Nat) : Nat := beNat (slice l off len)

/-- The unsigned number of the `len` bytes at `off`, lowest first. -/
def leAt (l : List Byte) (off len : Nat) : Nat := leNat (slice l off len)

/-- A list in pieces of `n`. -/
def pieces {α : Type} (n : Nat) (l : List α) : List (List α) :=
  (List.range ((l.length + n - 1) / n)).map (fun i => (l.drop (n * i)).take n)

/-- The least multiple of `q` at or above `n`, divided by `q`. -/
def ceilDiv (n q : Nat) : Nat := (n + q - 1) / q

/-- Element `i` of a list, or `d`. -/
def at' {α : Type} (l : List α) (i : Nat) (d : α) : α := (l[i]?).getD d

/-- `l` with element `i` changed by `f`. -/
def modAt {α : Type} (l : List α) (i : Nat) (f : α → α) : List α :=
  match l, i with
  | [], _ => []
  | x :: r, 0 => f x :: r
  | x :: r, i + 1 => x :: modAt r i f

/-- `x` in its place in a rising list. -/
def insertNat (x : Nat) : List Nat → List Nat
  | [] => [x]
  | y :: r => if x ≤ y then x :: y :: r else y :: insertNat x r

/-- The numbers in rising order. -/
def sortNat (l : List Nat) : List Nat := l.foldr insertNat []

/-- The distinct numbers in rising order. -/
def sortedSet (l : List Nat) : List Nat := (sortNat l).eraseDups

/-- `[f a, f (a+1), …]` of length `n`. -/
def tabulate {α : Type} (n : Nat) (f : Nat → α) : List α := (List.range n).map f

end Sys2Proof.Machine
end

