-- ==== Sys2Proof/Machine/Flags.lean ====
section
/-! DEFINITION. Comparisons: branch conditions (R237) and the orders of the relations (R162), and the
vector engine's exception bits (R312). -/
namespace Sys2Proof.Machine
open Sys2Proof

/-- A binary format's exponent and fraction widths and its bias. -/
structure FpShape where
  ebits : Nat
  fbits : Nat
  bias  : Nat
  /-- all-ones exponent holds infinities and NaNs; E4M3 has only its all-ones pattern as NaN -/
  ieee  : Bool
  deriving DecidableEq, Repr

/-- FP32. -/
def fp32Shape : FpShape := ⟨8, 23, 127, true⟩

/-- The magnitude bits of a pattern. -/
def FpShape.mag (f : FpShape) (w : Nat) : Nat := w % 2 ^ (f.ebits + f.fbits)

/-- The sign bit of a pattern. -/
def FpShape.neg (f : FpShape) (w : Nat) : Bool := bitAt w (f.ebits + f.fbits)

/-- The pattern is a NaN. -/
def FpShape.isNan (f : FpShape) (w : Nat) : Bool :=
  if f.ieee then decide ((2 ^ f.ebits - 1) * 2 ^ f.fbits < f.mag w)
  else f.mag w == 2 ^ (f.ebits + f.fbits) - 1

/-- A key that orders the patterns that are no NaN, with −0 and +0 equal. -/
def FpShape.key (f : FpShape) (w : Nat) : Int := if f.neg w then -(f.mag w : Int) else (f.mag w : Int)

/-- Less than as IEEE 754 values; false when either is a NaN. -/
def FpShape.lt (f : FpShape) (a b : Nat) : Bool :=
  !f.isNan a && !f.isNan b && decide (f.key a < f.key b)

/-- Equal as IEEE 754 values; false when either is a NaN. -/
def FpShape.eq (f : FpShape) (a b : Nat) : Bool :=
  !f.isNan a && !f.isNan b && decide (f.key a = f.key b)

/-- The branch condition `sub` on two 32-bit values (R237). -/
def branchCond (sub : Nat) (x y : Nat) : Bool :=
  match sub with
  | 0 => true
  | 1 => x == y
  | 2 => x != y
  | 3 => decide (signedVal 32 x < signedVal 32 y)
  | 4 => decide (signedVal 32 y ≤ signedVal 32 x)
  | 5 => decide (x < y)
  | 6 => decide (y ≤ x)
  | 7 => fp32Shape.lt x y
  | 8 => fp32Shape.lt y x || fp32Shape.eq x y
  | _ => false

/-- A relation (0 EQ, 1 NE, 2 LT, 3 LE, 4 GT, 5 GE) from "comparable", "equal" and "less" (R162): with an
incomparable operand NE is true and every other relation is false. -/
def relation (rel : Nat) (comparable eq lt : Bool) : Bool :=
  match rel with
  | 0 => comparable && eq
  | 1 => !comparable || !eq
  | 2 => comparable && lt
  | 3 => comparable && (lt || eq)
  | 4 => comparable && !(lt || eq)
  | 5 => comparable && !lt
  | _ => false

end Sys2Proof.Machine
end

