-- ==== Sys2Proof/Config.lean ====
section
/-! DEFINITION. What an implementation fixes and what the manual leaves open. Every `opaque` constant
here is a FREE VALUE: it has no body, so no proof can use a value of it (log 4, 5, 10, 13). -/
namespace Sys2Proof.Config

/-- A fresh value drawn from the DRBG of Sphinx: the challenge (R542), PBOOT (R430), pair seeds (R547).
Applied to the draw counter `free` of the state. -/
opaque drbg : Nat → Nat

/-- Row `r` of the filler pattern of an EMPTY plane (R42): 256 data bits as a number. -/
opaque filler : Nat → Nat

/-- SHA-512 (R474), uninterpreted. -/
opaque sha512 : List Nat → Nat

/-- The running digest of the commits of a hub (R424). -/
opaque digestStep : Nat → Nat → Nat

/-- IDCODE values and boundary cells as a TAP shifts them out (R562), by TAP and draw counter. -/
opaque tapOut : Nat → Nat → Nat

/-- Where the manual states no result of an operation on some operands: the value, by a tag of the
operation, the draw counter and the operand. -/
opaque openValue : Nat → Nat → Nat → Nat

/-- Clusters, cores and engines (R13). -/
def nCores : Nat := 512
def nEngines : Nat := 32
def nDies : Nat := 4
def nClusters : Nat := 8
def coresPerCluster : Nat := 16
def nStacks : Nat := 16
def nPorts : Nat := 8

/-- Entries of the Fold (R358). -/
def ledgerEntries : Nat := 262144

/-- Free RS lines of an empty routine store (R207). -/
def rsLines : Nat := 720896

end Sys2Proof.Config
end

