-- ==== Sys2Proof/Machine/State.lean ====
section
/-! DEFINITION. The state of the DQ4: every register, buffer, counter, mode and pin the spec gives the
package, as plain data, and the machine right after reset. Sparse tables are sorted association lists;
what an unlisted key holds is named beside each field. -/
namespace Sys2Proof.Machine
open Sys2Proof

/-- A sparse table: pairs of key and value with rising keys. -/
abbrev Tbl (α : Type) := List (Nat × α)

/-- Sparse byte memory: rising addresses, no listed byte 0 (DESIGN CHOICE, log 9). -/
abbrev Mem := List Host.Cell

/-! ### Arrays, planes and near units -/

/-- Plane states (R316). -/
inductive PlaneSt where
  | empty | programming | live | fenced | retired
  deriving DecidableEq, Repr

/-- Number formats (R84), by their 4-bit codes. -/
inductive Fmt where
  | int2 | tern | int4 | uint4 | int8 | uint8 | cb4 | cb8 | e4m3 | e5m2 | bf16 | fp16 | fp32 | acc32 | bfp12
  deriving DecidableEq, Repr

/-- A span entry (R321); positions are logical. -/
structure Span where
  die     : Nat
  cluster : Nat
  core    : Nat
  engine  : Nat
  plane   : Nat
  dyn     : Bool
  off     : Nat
  cnt     : Nat
  kb      : Nat
  j       : Nat
  deriving DecidableEq, Repr

/-- A span as it lies on a plane: the placement and its plane outputs (R321, R568). -/
structure SpanOn where
  handle : Nat
  off    : Nat
  cnt    : Nat
  kb     : Nat
  j      : Nat
  deriving DecidableEq, Repr

/-- One plane of an engine (R35 to R65). `rows` lists the cells written: row number and 264 bits, data
columns in bits 0 to 255 and the row residue in bits 256 to 263; an unlisted row is all zero. In an EMPTY
plane the rows hold the filler pattern (R42) instead. -/
structure Plane where
  st      : PlaneSt
  wfmt    : Option Fmt
  tenant  : Option Nat
  spans   : List SpanOn
  dyn     : Option Nat
  rows    : Tbl Nat
  written : Nat
  tag     : Nat
  thr     : Nat
  /-- a failed check, sweep or verify of it is not yet diagnosed (R68 to R70, R73) -/
  doubt   : Bool
  /-- diagnosed, it waits for a patch (R70) -/
  absorb  : Bool
  /-- both golden copies of a block of it are lost (R333) -/
  lost    : Bool
  deriving DecidableEq, Repr

/-- A physical cell that reads a fixed value (R67, R70): plane, row, physical column, value. -/
structure StuckCell where
  plane : Nat
  row   : Nat
  col   : Nat
  val   : Bool
  deriving DecidableEq, Repr

/-- A threshold bank (R98): the count and the thresholds. -/
structure Bank where
  nth : Nat
  ths : List Word
  deriving DecidableEq, Repr

/-- Near-unit configuration (R98). Unlisted entries read 0; `inCb = none` is a codebook of no size (R96). -/
structure NearUnit where
  scale  : List Nat
  zp     : List Nat
  act    : Word
  lo     : Word
  hi     : Word
  pwl    : List Nat
  cbA    : Bank
  cbB    : Bank
  inCb   : Option (List Nat)
  outctl : Word
  deriving DecidableEq, Repr

/-- The result of a pass (or of a reduction group) in a result set (R124): block outputs as 32-bit words,
ACC32 or FP32, with the tag, the mode and slot of the pass, the region in force when it was issued (R120), and
the vector and unit it belongs to. `nlim`: block outputs within the actual N (R123). -/
structure Result where
  outs   : List Word
  isFp   : Bool
  tag    : Nat
  mode   : Nat
  slot   : Nat
  base   : Nat
  stride : Nat
  flight : Nat
  mt     : Nat
  m      : Nat
  u      : Nat
  /-- the column of Y of block output 0 -/
  col    : Nat
  nlim   : Nat
  /-- the engines of the pass, and the run to which it belongs (R125) -/
  group  : List Nat
  run    : Nat
  deriving DecidableEq, Repr

/-- A pooling window not yet complete (R106, R108): Y row, members so far, the activated values and, for each output,
the OR of its members' tags (R107). -/
structure PoolWin where
  flight : Nat
  yrow   : Nat
  u      : Nat
  need   : Nat
  vals   : List (List Word)
  tags   : List Nat
  isFp   : Bool
  deriving DecidableEq, Repr

/-- An engine (R35): planes (an unlisted plane is EMPTY), physical cells stuck, physical columns passed
over at start and the slots whose column a substitution has replaced (R36), near unit, result sets and
partial pooling windows. -/
structure Engine where
  planes  : Tbl Plane
  stuck   : List StuckCell
  skipped : List Nat
  moved   : Tbl Nat
  substs  : Nat
  nu      : NearUnit
  active  : Option Result
  shadow  : Option Result
  pool    : List PoolWin
  deriving DecidableEq, Repr

/-! ### Core -/

/-- Sheet states (R155). -/
inductive SheetSt where
  | off | retention | on | waking
  deriving DecidableEq, Repr

/-- What the control core of a core does. `starting`: dispatched, the start steps not made; `armed`: they
are made and the frame's other cores are awaited (R219); `draining`: HALT has issued (R240); `stopping`: it
met its stop and its issued instructions run on (R251). -/
inductive RunSt where
  | idle | starting | armed | run | draining | stopping | ended | stopped | halted
  deriving DecidableEq, Repr

/-- An instruction of an image: head word and descriptor words (R208). -/
structure MInstr where
  head : Word128
  desc : List Word128
  deriving DecidableEq, Repr

/-- An open loop level (R233 to R235): first and last index of the body, L counter, saved A registers. -/
structure LoopLv where
  first : Nat
  last  : Nat
  count : Nat
  saved : List Word
  deriving DecidableEq, Repr

/-- A return point of CALL (R239): context, index, and the loop levels open in the caller. -/
structure RetPt where
  ctx   : Nat
  pc    : Nat
  loops : Nat
  deriving DecidableEq, Repr

/-- What the control core is stalled on: a wait (R214), a window change (R170), or nothing, its wait being
satisfied. -/
inductive Stall where
  | wait (ctr val : Nat)
  | window (w : Nat)
  | ready
  deriving DecidableEq, Repr

/-- A queued instruction (R220, R242): the A registers it captured, its instruction, context, index and
depth, and whether it has started (R243). -/
structure QEntry where
  ins   : MInstr
  regs  : List Word
  ctx   : Nat
  pc    : Nat
  depth : Nat
  /-- `CTREG` and `YFMT` of the macro pushed before it into the matrix queue, when it had `COUT` 1 (R288) -/
  prevOut : Option (Nat × Nat)
  deriving DecidableEq, Repr

/-- A member of a pass or group step: engine, plane, first plane output, block outputs, reduction index, and
whether all its rows are masked (R271). -/
structure Member where
  e    : Nat
  p    : Nat
  off  : Nat
  cnt  : Nat
  kb   : Nat
  mask : Bool
  deriving DecidableEq, Repr

/-- Commands of the Drover (R243, R255) in walk order. -/
inductive DCmd where
  /-- load row quad `quad` of the pen tiles of M-tile `mt` for the reduction indices `kbs` of a chunk into half `half`
  of the pen buffer (R274, R275) -/
  | pen (mt half quad : Nat) (kbs : List Nat)
  /-- a pass or group step for vector `m` of M-tile `mt`, unit `u` with output block `j`, reading the pen
  tiles of chunk `kbs` in half `half` (R277) -/
  | pass (members : List Member) (mt m u j slot mode half : Nat) (kbs : List Nat)
  /-- add the segment slots of (m, u) (R139, R273) in the near unit of engine `lead`: `nlim` outputs from
  column `col` of Y; `split`: the sum is a partial -/
  | segsum (lead : Nat) (slots : List Nat) (mt m u col nlim : Nat) (split : Bool)
  /-- deposit the partial of (m, u) (R283); `last` of the macro's partials -/
  | part (lead slot m j : Nat) (last : Bool)
  /-- write plane row `row` of block (kb, j) into dynamic plane `p` of engine `e`; `clear`: first row (R281) -/
  | rowWrite (e p kb j row : Nat) (clear : Bool)
  /-- a field tile of MOVE: row range and line range of each row (R289); `last` of the macro -/
  | field (r0 r1 c0 c1 : Nat) (last : Bool)
  deriving DecidableEq, Repr

/-- A started instruction that has not completed: its entry, its queue, whether its effect is done, the
Drover's commands left, and whether it holds the head of its queue (R243). -/
structure Flight where
  id     : Nat
  q      : Nat
  ent    : QEntry
  ran    : Bool
  todo   : List DCmd
  atHead : Bool
  /-- completed under R264 step 4 -/
  zero   : Bool
  /-- `POOL` and `POOLW` of the macro's first FINAL (R108) -/
  pool   : Option Nat
  /-- the engine and plane at which its next pass waits at a fence (R336) -/
  fence  : Option (Nat × Nat)
  deriving DecidableEq, Repr

/-- A pass in flight (R44 to R50): the members with the vectors they read, masked rows being 0, and the block
exponents of a BFP12 pass. -/
structure PassRun where
  lead    : Nat
  members : List (Member × List Int × List Nat)
  bfp     : Bool
  tag     : Nat
  res     : Result
  deriving DecidableEq, Repr

/-- What the near unit of a run carries (R125): the run, the engines of its passes, the slot, the carried sums and their
region. -/
structure Run where
  id     : Nat
  group  : List Nat
  slot   : Nat
  base   : Nat
  stride : Nat
  sums   : List Word
  isFp   : Bool
  flight : Nat
  deriving DecidableEq, Repr

/-- A run that a further pass of its engine or reduction group may continue (R125). -/
structure OpenRun where
  id     : Nat
  group  : List Nat
  slot   : Nat
  flight : Nat
  deriving DecidableEq, Repr

/-- An entry of the slot tag table (R135): the tag and, once an INIT of the frame has written the slot, its
kind: true FP32, false ACC32 (R122). -/
structure SlotTag where
  tag  : Nat
  kind : Option Bool
  deriving DecidableEq, Repr

/-- A declared landing window (R165). -/
structure Window where
  base   : Nat
  lines  : Nat
  ctr    : Nat
  credit : Nat
  deriving DecidableEq, Repr

/-- ARRAY and ACCUM registers (R83, R142). -/
structure ArrayRegs where
  bwEvent     : Word
  bwCount     : Word
  transient   : Word
  reprogram   : Word
  colSubst    : Word
  defectEvent : Word
  defectCount : Word
  drainWait   : Word
  boundExt    : Word
  deriving DecidableEq, Repr

/-- SPAD and TREG registers (R180, R181). -/
structure SpadRegs where
  err           : Word
  conflictCount : Word
  eccCorr       : Word
  eccUncorr     : Word
  conflictLast  : Word
  wakeCount     : Word
  rdwOld        : Bool
  tregErr       : Word
  parityCount   : Word
  portWait      : Word
  deriving DecidableEq, Repr

/-- HALT, DROVER and VECTOR registers (R254, R293, R314). -/
structure ProgRegs where
  progCount   : Word
  hwCount     : Word
  waitCount   : Word
  lastHw      : Word
  stopCount   : Word
  macros      : Word
  zeroLen     : Word
  penWait     : Word
  coalesced   : Word
  vecMacros   : Word
  issueCycles : Word
  interlock   : Word
  deriving DecidableEq, Repr

/-- The registers of the control core (R218). -/
structure CtlRegs where
  a     : List Word
  sreg  : List Word
  ainc  : List Word
  ctr   : List Nat
  ctx   : Nat
  pc    : Nat
  calls : List RetPt
  loops : List LoopLv
  stall : Option Stall
  stopSeen : Nat
  deriving DecidableEq, Repr

/-- A halt record (R247). -/
structure HaltRec where
  ctx    : Nat
  index  : Nat
  reason : Nat
  depth  : Nat
  rank   : Nat
  detail : Nat
  deriving DecidableEq, Repr

/-- The scratchpad, tile registers and vector masks of a core. -/
structure CoreMem where
  spad     : Mem
  lineTag  : Tbl Nat
  sheets   : List SheetSt
  /-- 64-bit words whose stored code is wrong: word index, and whether two bits are wrong (R173) -/
  spadBad  : List (Nat × Bool)
  /-- with `RDW_OLD`: what a line held before the last write to it (R150) -/
  prior    : Tbl (List Byte)
  /-- lines that the present access reads in the cycle of the last write to them (R150) -/
  same     : List Nat
  treg     : Mem
  rowTag   : Tbl Nat
  /-- 32-bit words of rows, and linear rows `64·t + r` whose tag, have a wrong parity (R178) -/
  tregBad  : List Nat
  tagBad   : List Nat
  rowMask  : BitVec 64
  elemMask : BitVec 512
  deriving DecidableEq, Repr

/-- The queues and what they started. -/
structure CoreQ where
  mx      : List QEntry
  vx      : List QEntry
  mv      : List QEntry
  cf      : List QEntry
  flights : List Flight
  nextId  : Nat
  /-- COUT and CTREG and YFMT of the last macro pushed into the matrix queue (R288) -/
  prevOut : Option (Nat × Nat)
  deriving DecidableEq, Repr

/-- Accumulation state of a core (R116 to R135). -/
structure CoreAcc where
  accBase   : Nat
  accStride : Nat
  accSlots  : Nat
  slotTag   : Tbl SlotTag
  passes    : List PassRun
  runs      : List Run
  opens     : List OpenRun
  nextRun   : Nat
  deriving DecidableEq, Repr

/-- One logical core. -/
structure Core where
  st         : RunSt
  entry      : Option Nat
  lastTenant : Option Nat
  rank       : Nat
  ctl        : CtlRegs
  q          : CoreQ
  acc        : CoreAcc
  wins       : List (Option Window)
  mem        : CoreMem
  engines    : Tbl Engine
  arr        : ArrayRegs
  sp         : SpadRegs
  prog       : ProgRegs
  haltRec    : Option HaltRec
  /-- held by a diagnosis (R413) -/
  diag       : Bool
  /-- a row of its scratchpad took a spare row during that diagnosis (R412) -/
  mended     : Bool
  deriving DecidableEq, Repr

/-- A deposit waiting for credit or landing (R167 to R171, R245, R283, R290, R361). -/
inductive DepSrc where
  | core (k flight : Nat)
  | multicast (k flight : Nat)
  | hub (cseq : Nat)
  deriving DecidableEq, Repr

structure Deposit where
  id      : Nat
  src     : DepSrc
  dests   : List Nat
  win     : Nat
  off     : Nat
  lines   : Nat
  /-- the source address in the sender's scratchpad, read at landing (R245) -/
  spAddr  : Option Nat
  /-- lines carried (multicast, hub): (line offset, bytes, tag) -/
  data    : List (Nat × List Byte × Nat)
  credited : Bool
  /-- the landing steps the counter (the last piece of a partial or multicast, R284, R290) -/
  stepCtr : Bool
  deriving DecidableEq, Repr

/-! ### Profile -/

/-- The owner profile's settings (R522), those other than addresses. -/
structure ProfWork where
  tagPolicy    : Nat
  replayMax    : Nat
  dualRun      : Bool
  bwThreshMax  : Nat
  cellPolicy   : List (Nat × Nat × Bool)
  absorbWait   : Nat
  boundStrict  : Bool
  conflictHalt : Bool
  dsmRdwOld    : Nat
  runLimit     : Nat
  fenceWait    : Nat
  hbmInstall   : Nat
  bulkIdle     : Nat
  tenantList   : List Nat
  svnAuto      : Bool
  deriving DecidableEq, Repr

/-- Power and self-test settings (R379, R445). -/
structure ProfPower where
  ceiling   : Nat
  floor     : Nat
  slew      : Nat
  lookahead : Bool
  workGuard : Nat
  envHold   : Nat
  dozeHold  : Nat
  fracCd    : Nat
  fracHub   : Nat
  fracHbm   : Nat
  comb      : Nat
  vmargin   : Nat
  tjWarn    : Nat
  budget    : Nat
  round     : Nat
  hardRepair : Bool
  deriving DecidableEq, Repr

/-- Network settings (R522). -/
structure ProfNet where
  portNet    : List Nat
  udpPort    : Nat
  etherType  : Nat
  pairPeer   : List Nat
  macsec     : Nat
  macsecCak  : List Nat
  mkaPrio    : Nat
  modPmax    : Nat
  modPhub    : Nat
  deriving DecidableEq, Repr

structure Profile where
  work  : ProfWork
  power : ProfPower
  net   : ProfNet
  deriving DecidableEq, Repr

/-! ### Streams and the Fold -/

/-- Stream states (R345). -/
inductive StreamSt where
  | closed | open | closing
  deriving DecidableEq, Repr

structure Stream where
  st      : StreamSt
  incarn  : Option Nat
  tsid    : Nat
  nextSeq : Nat
  credit  : Nat
  outst   : Nat
  homeHere : Bool
  /-- port and source address of its most recent authentic WORK or RESULT-ACK (R368) -/
  port    : Nat
  addr    : Nat
  deriving DecidableEq, Repr

/-- Entry states (R359). -/
inductive EntrySt where
  | admitted | ready | running | complete | sent
  deriving DecidableEq, Repr

/-- Result status (R360). -/
inductive ResStatus where
  | done | failed | withheld | cancelled
  deriving DecidableEq, Repr

/-- A stop region (R351). -/
structure Region where
  rank  : Nat
  treg  : Bool
  start : Nat
  len   : Nat
  deriving DecidableEq, Repr

/-- The parts of a RUN body (R350). -/
structure RunBody where
  placements : List Nat
  image      : List Byte
  input      : List Byte
  rlen       : Nat
  dlines     : Nat
  wlen       : Nat
  stopCtx    : Nat
  stopIndex  : Nat
  stopCount  : Nat
  regions    : List Region
  deriving DecidableEq, Repr

/-- The operation of a WORK frame (R349). -/
inductive WorkOp where
  | run (b : RunBody)
  | open (credit : Nat)
  | cancel (tseq : Nat)
  | close
  deriving DecidableEq, Repr

/-- What a run of a frame has produced and where it runs. -/
structure FrameRun where
  prog    : List MInstr
  footprint : Nat
  rdwOld  : Bool
  /-- logical cores by frame rank (R219), their placement index and rank in the group -/
  cores   : List (Nat × Nat × Nat)
  /-- placement list in force (a replica may replace a handle, R337) -/
  places  : List Nat
  result  : Mem
  emitted : List Nat
  rtag    : Nat
  vflags  : Nat
  flushed : Nat
  conflict : Bool
  boundExt : Bool
  stopped : List Nat
  work    : Mem
  workTag : Tbl Nat
  /-- the first halt record that reached the hub (R248) -/
  halt    : Option HaltRec
  /-- the input has been deposited (R361) -/
  delivered : Bool
  /-- the pages of the WORK area (R260): runs of stack, first page and number -/
  pages   : List (Nat × Nat × Nat)
  /-- the RS lines of its program: die, first line and number (R184) -/
  rs      : List (Nat × Nat × Nat)
  deriving DecidableEq, Repr

/-- A parcel (R358): its stack and first page, those of its mirror, and its pages on each. -/
structure Parcel where
  stack  : Nat
  first  : Nat
  mirror : Nat
  mfirst : Nat
  pages  : Nat
  deriving DecidableEq, Repr

/-- A ledger entry (R360) and the frame it holds. -/
structure Entry where
  cseq    : Nat
  stream  : Nat
  incarn  : Nat
  seq     : Nat
  tsid    : Nat
  tenant  : Nat
  op      : WorkOp
  st      : EntrySt
  epoch   : Option Nat
  status  : ResStatus
  wreason : Nat
  replays : Nat
  /-- runs made again because the digests of the pair differed (R438) -/
  reruns  : Nat
  tadmit  : Nat
  inputOk : Bool
  ipar    : Parcel
  rpar    : Parcel
  homeHere : Bool
  /-- the frame runs on the package that is not its home (R22, R418) -/
  away    : Bool
  payload : List Byte
  port    : Nat
  addr    : Nat
  /-- its ACCEPT has been sent (R31) -/
  acked   : Bool
  /-- its outcome is decided, and its result parcel is being written -/
  ended   : Bool
  /-- the result parcel is in both stacks (R32) -/
  parcelOk : Bool
  /-- counted in YOKE.POWER_WAIT (R389) -/
  powered : Bool
  frame   : FrameRun
  /-- place among READY entries of its cores: front (0) or commit order (R362, R363) -/
  order   : Nat
  deriving DecidableEq, Repr

/-- A commit whose confirmations have not all arrived (R353 to R355): the hubs and the partner that have yet to confirm,
and port and source address of the duplicates that wait for its outcome. -/
structure Commit where
  cseq    : Nat
  hub     : Nat
  port    : Nat
  addr    : Nat
  entry   : Entry
  needHubs : List Nat
  needPeer : Bool
  dupPorts : List (Nat × Nat)
  deriving DecidableEq, Repr

/-- A stored segment of an incomplete WORK frame (R344). -/
structure Seg where
  hub  : Nat
  port : Nat
  addr : Nat
  hdr  : Hdr
  body : List Byte
  deriving DecidableEq, Repr

/-- FOLD registers of a hub (R375). -/
structure FoldRegs where
  event    : Word
  repairs  : Word
  lost     : Word
  rackDrop : Word
  accepts  : Word
  dups     : Word
  refuse   : List Word
  results  : Word
  resends  : Word
  replays  : Word
  requeues : Word
  withheld : Word
  cancelled : Word
  admitMax : Word
  deriving DecidableEq, Repr

structure Hub where
  up     : Bool
  beatBridge : Bool
  beatDie    : Bool
  digest : Nat
  segs   : List Seg
  /-- copies of the other hub's WORK segments (R354) -/
  copies : List Seg
  /-- bytes of WORK segments not yet copied to the other hub (R354) -/
  backlog : Nat
  /-- the most bytes that FS has held since the cold start (R191) -/
  fsHigh : Nat
  fold   : FoldRegs
  deriving DecidableEq, Repr

structure Port where
  up      : Bool
  secured : Bool
  present : Bool
  overs    : Bool
  power   : Nat
  /-- frames discarded for their encapsulation (R340) -/
  drops   : Nat
  deriving DecidableEq, Repr

/-! ### Installing models -/

/-- An installed table (R322). -/
structure Table where
  tidx    : Nat
  kind    : Nat
  entries : List Nat
  deriving DecidableEq, Repr

/-- The power signature table (R391). -/
structure Psig where
  epass : List Nat
  erow  : Nat
  coreW : List Nat
  deriving DecidableEq, Repr

/-- The staged ciphertext that a placement keeps in HBM (R319): its STAGING object, the golden copy, on two stacks for
each page; its TABLES object, the encrypted table copy; its REGION object, the region's repair copy, on one stack for
each page. `homes`: where the two copies of the pages whose number is i modulo 16 lie. `bad`: pages of the golden copy
found uncorrectable, with the copy, 0 or 1 (R333). -/
structure Copies where
  staging : Mem
  slen    : Nat
  tables  : Mem
  tlen    : Nat
  region  : Mem
  rlen    : Nat
  homes   : List (Nat × Nat)
  bad     : List (Nat × Nat)
  deriving DecidableEq, Repr

/-- An installed placement (R315 to R338). `gold` are the golden copy's rows by span index, decrypted:
the weights of each row packed as R321 gives; `goldOk` is how many copies of each page it keeps (R419). -/
structure Placement where
  handle  : Nat
  tenant  : Nat
  wfmt    : Fmt
  bwth    : Nat
  replica : Option Nat
  /-- the commit number of the placement that `REPLICA` names (R337) -/
  replicaAt : Nat
  /-- the wrapped content key (R321) -/
  wkey    : Nat
  kp      : Nat
  np      : Nat
  spans   : List Span
  cores   : List Nat
  psig    : Psig
  tables  : List Table
  region  : List Byte
  gold    : List (List Nat)
  goldOk  : Nat
  copies  : Copies
  /-- where the rows of each span lie in the STAGING object: first byte and end (R321) -/
  rowsAt  : List (Nat × Nat)
  commit  : Nat
  removed : Option Nat
  notes   : List Nat
  /-- plane rows whose cells verification accepts at their STUCK value (R77): defect notes patched -/
  patched : List Nat
  digest  : Nat
  /-- bytes of the install pool that it holds, and of its tables in TB -/
  pool    : Nat
  tabBytes : Nat
  /-- entries of a committed patch not yet applied: span, row, output, value; and where its reply goes -/
  patch   : List (List Nat)
  reply   : List Nat
  /-- its planes are being emptied (R335) -/
  retiring : Bool
  deriving DecidableEq, Repr

/-- A staged bulk object (R318, R325). -/
structure Obj where
  tenant : Nat
  target : Nat
  name   : Nat
  len    : Nat
  data   : Mem
  staged : List (Nat × Nat)
  waiting : Bool
  deriving DecidableEq, Repr

/-- An open bulk session (R325). -/
structure Bulk where
  id     : Nat
  tenant : Nat
  target : Nat
  name   : Nat
  base   : Nat
  len    : Nat
  objlen : Nat
  cursor : Nat
  hub    : Nat
  /-- aborted under R327 -/
  aborted : Bool
  deriving DecidableEq, Repr

/-- An installation between claim and commit (R331). -/
structure Install where
  pl      : Placement
  claimed : List (Nat × Nat × Nat)
  fenced  : List (Nat × Nat × Nat)
  port    : Nat
  body    : List Byte
  /-- the status and detail with which it fails after its planes verify (R331 step 4) -/
  late    : Option (Nat × Nat)
  /-- engines already substituted for it (R332) -/
  replaced : List (Nat × Nat)
  deriving DecidableEq, Repr

/-- A version record (R199): number, lines, code, commit number at which it became current and ceased to
be, references, and the first RS line of its run on each die that holds it. -/
structure Version where
  num    : Nat
  lines  : Nat
  code   : List MInstr
  from_  : Nat
  until_ : Option Nat
  refs   : Nat
  lineAt : Tbl Nat
  /-- its Mehros source, the staged object, from which it is translated again (R194) -/
  src    : Mem
  srcLen : Nat
  deriving DecidableEq, Repr

/-- A reload that is translated and verified, and waits for its commit (R203): version, die mask, and where the reply
goes. -/
structure Reload where
  v     : Version
  mask  : Nat
  reply : List Nat
  deriving DecidableEq, Repr

/-- A name entry (R199). -/
structure Routine where
  name     : Nat
  tenant   : Nat
  dieMask  : Nat
  current  : Option Nat
  versions : List Version
  /-- reloads that wait for their commit, in order (R203) -/
  queue    : List Reload
  deriving DecidableEq, Repr

/-- INSTALL registers (R339). -/
structure InstRegs where
  commits    : Word
  refused    : Word
  fenceWaits : Word
  redirects  : Word
  requeues   : Word
  lostEvent  : Word
  lostCount  : Word
  deriving DecidableEq, Repr

/-! ### Dies, clusters, Yoke -/

/-- Bank power (R191). -/
inductive BankSt where
  | off | retention | on | waking
  deriving DecidableEq, Repr

/-- The DSM block of a die (R207) with its banks: the state that a bank with a line in use has (R191). -/
structure Dsm where
  err       : Word
  eccCorr   : Word
  eccUncorr : Word
  denied    : Word
  commits   : Word
  freed     : Word
  refused   : Word
  wipes     : Word
  conflicts : List Word
  banks     : List BankSt
  badLines  : List (Nat × Nat)
  /-- RD is being rebuilt from RM (R194) -/
  rebuild   : Bool
  deriving DecidableEq, Repr

/-- The REPAIR block of a die (R470) with its records. -/
structure Repair where
  event     : Word
  soft      : Word
  hard      : Word
  rowsOut   : Word
  low       : Word
  burnFail  : Word
  retired   : Word
  records   : List (Nat × Bool)
  /-- spare rows in use by repair segment (R462) -/
  spares    : Tbl Nat
  /-- hard-repair records to be burned (R465) -/
  due       : List Nat
  deriving DecidableEq, Repr

/-- A compute die: service, power and comb (R27, R376 to R405). Powers in milliwatts. -/
structure Die where
  up        : Bool
  /-- its part of the envelope (R384) -/
  part      : Nat
  /-- energy in pJ of the passes and dynamic row writes started in the present tick (R377) -/
  act       : Nat
  /-- the draw of its ballast, in mW -/
  ballast   : Nat
  /-- the engines that ballast keeps busy, in the order in which it was placed: core, engine, plane in use (R385, R386) -/
  bal       : List (Nat × Nat × Nat)
  /-- how many engines the Yoke wants for ballast -/
  balN      : Nat
  /-- energy of a ballast pass in the die's default table, in pJ (R377) -/
  epass     : Nat
  slicemW   : List Nat
  /-- its standing draw at the last tick, in mW -/
  standing  : Nat
  alarm     : Bool
  okReads   : Nat
  /-- Vmin at 1.5 GHz from the fuses, and the set voltage, in mV (R402) -/
  vmin      : Nat
  vset      : Nat
  starts    : Nat
  /-- engines that have ended their last pass in the present window (R393) -/
  stops     : Nat
  /-- starts, and stops, that the present window allows (R393) -/
  limit     : Nat
  /-- delayed starts: core, lead engine, engines; the first `ordered` keep the order of an earlier window -/
  waiting   : List (Nat × Nat × Nat)
  ordered   : Nat
  granted   : List (Nat × Nat)
  offset    : Nat
  /-- its links to HA and HB -/
  hubLinks  : List Bool
  deriving DecidableEq, Repr

/-- A power domain (R376 to R378): kappa in units of 2^-16, the last estimate, the estimate at the
last sample, the estimates summed since then, whether kappa is limited, and the measured draw, in mW. -/
structure Domain where
  kappa   : Nat
  est     : Nat
  estS    : Nat
  estE    : Nat
  limited : Bool
  draw    : Nat
  deriving DecidableEq, Repr

/-- Cluster sleep states (R399). -/
inductive ClSt where
  | off | doze | idle | run
  deriving DecidableEq, Repr

/-- A physical cluster. -/
structure Cluster where
  st      : ClSt
  ok      : Bool
  unlocked : Bool
  waking  : Bool
  /-- woken from DOZE to hold ballast (R386) -/
  woken   : Bool
  /-- its fabric is being diagnosed (R412) -/
  doubt   : Bool
  deriving DecidableEq, Repr

/-- The spare maps (R16, R17): by logical unit the physical unit, and the units out of service. -/
structure Maps where
  /-- physical cluster of logical cluster `8·die + cluster`; unlisted: the same number, none: no hardware -/
  cluster : Tbl (Option Nat)
  /-- physical core of logical core `k`; unlisted: the same number -/
  core    : Tbl Nat
  /-- physical engine of logical engine `32·k + e`; unlisted: the same number -/
  engine  : Tbl Nat
  /-- units marked defective or out of service: (level, die, cluster, core, engine) physical; at level 1 the last is
  512·engine + column -/
  bad     : List (Nat × Nat × Nat × Nat × Nat)
  /-- units that failed logic BIST or test vectors and are tested again out of service (R465), as in `bad` -/
  retest  : List (Nat × Nat × Nat × Nat × Nat)
  /-- substitutions in progress: level and unit -/
  subst   : List FaultUnit
  deriving DecidableEq, Repr

/-- YOKE registers (R409). -/
structure YokeRegs where
  event     : Word
  cal       : Word
  overs      : Word
  twarn     : Word
  tlimit    : Word
  step      : Word
  takeover  : Word
  powerWait : Word
  powerHold : Word
  combWait  : Word
  shortfall : Word
  dozes     : Word
  wakes     : Word
  deriving DecidableEq, Repr

/-- The Yoke (R376 to R406). Powers in milliwatts; the envelope in microwatts so that one tick's step is
exact. `doms`: the six AVSBus groups; `pmb`: SerDes rails, `VDDIO_1V8`, `VDD_AON`. -/
structure Yoke where
  target   : Nat
  envelope : Nat
  /-- the target is below the envelope; the envelope falls -/
  below    : Bool
  falling  : Bool
  /-- 105 degrees reached, and not every die is below `TJ_WARN` again (R405) -/
  hot      : Bool
  temps    : List Nat
  /-- CD0 to CD3, hub, HBM, Cocoon -/
  doms     : List Domain
  /-- the latest samples in mW: the AVSBus groups, then the SerDes rails, `VDDIO_1V8`, `VDD_AON` (R376) -/
  rails    : List Nat
  pmb      : List Nat
  /-- firmware's coefficients in pJ: hub links and accesses, HBM links and accesses (R377) -/
  coef     : List Nat
  /-- the standing draw of the package at the last tick -/
  standing : Nat
  /-- the hub of the active Yoke -/
  active   : Nat
  /-- engines `32·k + e` whose held start has been counted (R392) -/
  held     : List Nat
  regs     : YokeRegs
  deriving DecidableEq, Repr

/-- The standby Yoke's copy (R406): envelope, target, kappa values, ballast placement and comb offsets. -/
structure Standby where
  envelope : Nat
  target   : Nat
  kappas   : List Nat
  ballast  : List (List (Nat × Nat × Nat))
  offsets  : List Nat
  deriving DecidableEq, Repr

/-! ### Faults, pair, self-test, trust -/

/-- FAULT registers (R443). -/
structure FaultRegs where
  event     : Word
  local_    : Word
  subst     : Word
  nospare   : Word
  quiet     : Word
  defer     : Word
  entryLost : Word
  lost      : Word
  transient : Word
  sEngine   : Word
  sCore     : Word
  sCluster  : Word
  substMax  : Word
  deriving DecidableEq, Repr

/-- A maintenance activity (R439): id, code, target, whether it runs, and the place of its reply. -/
structure Activity where
  id    : Nat
  code  : Nat
  die   : Nat
  cluster : Nat
  unit  : Nat
  running : Bool
  port  : Nat
  addr  : Nat
  tsid  : Nat
  mtag  : Nat
  arg   : Nat
  deriving DecidableEq, Repr

/-- Pair states (R431). -/
inductive PairSt where
  | unpaired | joining | paired | suspect | solo | diverged
  deriving DecidableEq, Repr

/-- PAIR registers (R444) and the pair's state (R429 to R437). -/
structure PairRegs where
  event    : Word
  miss     : Word
  lost     : Word
  rejoin   : Word
  strike   : Word
  dual     : Word
  diverge  : Word
  takeover : Word
  deriving DecidableEq, Repr

structure Pair where
  st       : PairSt
  /-- a pair is bound (R425, R436) -/
  bound    : Bool
  /-- JOINING because it was bound, not because it lost its Fold (R425, R434) -/
  fresh    : Bool
  leader   : Bool
  /-- the partner was heard on network A or B in the last interval, and in the present one (R432, R444) -/
  heardA   : Bool
  heardB   : Bool
  nowA     : Bool
  nowB     : Bool
  misses   : Nat
  pboot    : Nat
  pseq     : Nat
  peerBoot : Option Nat
  peerHigh : Nat
  peerSeen : List Nat
  retired  : List Nat
  heardSinceCold : Bool
  /-- the digest of the profile in force at the partner, as last heard (R524) -/
  peerProf : Nat
  /-- the partner was lost, and the pair is not yet PAIRED again (R411, R432) -/
  partnerLost : Bool
  /-- the always-on counter at the last declaration of loss -/
  lostAt   : Nat
  /-- sent and not yet confirmed, in order: commit number or 0; 0 a change of an entry, 1 a new entry, 2 a session, 3 a
  new entry struck since; stream or `TSID`, incarnation, sequence number -/
  unconf   : List (List Nat)
  /-- result digests of DUAL_RUN, own and the partner's: entry, run, digest -/
  own      : List (Nat × Nat × Nat)
  peer     : List (Nat × Nat × Nat)
  /-- last commit of the snapshot sent or received -/
  syncTo   : Option Nat
  /-- an OBJCOMMIT of the snapshot failed (R434) -/
  failedObj : Bool
  /-- records of releases queued for the partner in SUSPECT (R432) -/
  releases : List PairRecord
  /-- entries that a takeover runs again and that have not completed -/
  replaysLeft : List Nat
  /-- segments copied from the partner, input parcels of the snapshot, and entries whose body has not arrived -/
  segs     : List Seg
  parcels  : Tbl (List Byte)
  hollow   : List Nat
  /-- the partner's identity -/
  partner  : List Nat
  /-- OBJCOMMITs sent and not answered: target, name, then the place of a REPLY that waits for it (R331) -/
  replies  : List (List Nat)
  regs     : PairRegs
  deriving DecidableEq, Repr

/-- GRAZER registers (R469). -/
structure GrzRegs where
  event    : Word
  fail     : Word
  overrun  : Word
  stop     : Word
  slices   : Word
  rounds   : Word
  cov      : List Word
  last     : List Word
  lastMs   : Word
  head     : Nat
  ring     : List (List Word)
  deriving DecidableEq, Repr

/-- A slice in progress (R446, R447): units completed in it, its most units, the always-on counter at entry, planes
passed over, whether a unit failed, and the failing row or plane. -/
structure Slice where
  t      : Target
  units  : Nat
  limit  : Nat
  start  : Nat
  tried  : Nat
  failed : Bool
  bad    : Nat
  deriving DecidableEq, Repr

/-- Grazer (R446 to R453): `progress` gives the units of a target completed in the round, for an engine as a mask of
planes; `roundStart` is the always-on counter at its start. -/
structure Grazer where
  regs     : GrzRegs
  slices   : List Slice
  progress : List (Target × Nat)
  marches  : List (Target × Bool)
  started  : Bool
  overran  : Bool
  roundStart : Nat
  deriving DecidableEq, Repr

/-- TRUST registers (R503). -/
structure TrustRegs where
  event     : Word
  tamperCnt : Word
  authFail  : Word
  macDrop   : Word
  lcCount   : Word
  tamperSrc : Word
  attests   : Word
  deriving DecidableEq, Repr

/-- A tenant session (R484). -/
structure Session where
  tsid   : Nat
  tenant : Nat
  /-- waiting for the partner's acknowledgement (R485): port, address and tag of the reply -/
  waits  : Option (Nat × Nat × Nat)
  /-- the session key, 256 bits (R484) -/
  key    : Nat
  deriving DecidableEq, Repr

/-- Fused settings (R472, R492, R499). -/
structure Fuses where
  lcs      : Nat
  owner    : Option Nat
  prevOwner : Option Nat
  vendor   : Nat
  rotations : Nat
  bindings : Nat
  svnFloor : Nat
  pairSeed : Option Nat
  part     : Nat
  serial   : Nat
  /-- the MAC address of port 0, 48 bits (R517) -/
  macBase  : Nat
  deriving DecidableEq, Repr

/-- A request that needs a key of the secure part, and waits until a wipe has ended (R198). -/
inductive HeldReq where
  | attest (m : MgmtIn) (nonce first nlist : Nat)
  | sessionOpen (m : MgmtIn) (tenant wskSerial : Nat) (sigOk unwrapOk : Bool)
  deriving DecidableEq, Repr

/-- The secure part (R196): derived keys present, content keys, wipe in progress, sessions. -/
structure Secure where
  wiping  : Bool
  dwrap   : Bool
  pwrap   : Bool
  content : List Nat
  sessions : List Session
  /-- frames sent under each session by each hub, `2·TSID + hub`, from which the device forms its IVs (R343) -/
  ivs     : Tbl Nat
  /-- requests that wait for the end of a wipe, in arrival order (R198) -/
  held    : List HeldReq
  deriving DecidableEq, Repr

/-- A firmware slot (R509, R513). -/
structure FwSlot where
  sigOk  : Bool
  digOk  : Bool
  svn    : Nat
  digest : Nat
  deriving DecidableEq, Repr

/-- A profile slot (R509, R523): the signer's digest, whether its signature, magic, records, ranges and
CAKs are valid, its settings and digest. -/
structure ProfSlot where
  signer : Nat
  sigOk  : Bool
  fieldsOk : Bool
  prof   : Profile
  digest : Nat
  deriving DecidableEq, Repr

/-- States of an NVM transfer (R548). -/
inductive XferSt where
  | idle | receiving | programming | done | failed
  deriving DecidableEq, Repr

structure Xfer where
  st     : XferSt
  target : Nat
  len    : Nat
  digest : Nat
  cursor : Nat
  data   : List Byte
  deriving DecidableEq, Repr

/-- The NVM as the device reads it (R506 to R509), and the transfer to it. -/
structure Nvm where
  fwsel  : Nat
  fw     : List FwSlot
  prof   : List ProfSlot
  xfer   : Xfer
  deriving DecidableEq, Repr

/-- ID registers other than those computed (R530). -/
structure IdRegs where
  warm     : Word
  slotrec  : Word
  slotpos  : Word
  regs     : Word
  nvmMbit  : Word
  event    : Word
  hold     : Word
  modpwr   : Word
  slotCnt  : Word
  regCnt   : Word
  stackCnt : Word
  /-- the 256 bytes of port hints of the slot record, none where it gives none (R516, R517) -/
  hints    : List Nat
  deriving DecidableEq, Repr

/-- MGMT registers (R548). -/
structure MgmtRegs where
  event    : Word
  refused  : Word
  drops    : Word
  reads    : Word
  commands : Word
  lastCmd  : Word
  challenge : Nat
  deriving DecidableEq, Repr

/-- Phases of starting and running (R505, R511, R525, R527, R563): `warm` before, `dozing` after the clusters of a
warm restart are in DOZE. -/
inductive Phase where
  | down | starting | held | running | warm | dozing | clocksOff | stuck
  deriving DecidableEq, Repr

/-- Package-wide state. -/
structure Pkg where
  phase    : Phase
  /-- where a cold start stopped for good: 1 heat, 2 NVM, 3 chain, 4 firmware, 5 regulators, 6 BLANK; 0 nowhere -/
  stopped  : Nat
  faultPulse  : Bool
  therm    : Bool
  psel     : Nat
  pairRole : Nat
  quiet    : Nat
  aon      : Nat
  timeHi   : Word
  epoch    : Nat
  cseq     : Nat
  cseqNext : Nat
  free     : Nat
  profSlot : Nat
  profNone : Bool
  usePending : Option Nat
  profDigest : Nat
  fwSlot   : Nat
  fwSvn    : Nat
  fwDigest : Nat
  fwNext   : Option Nat
  bootHub  : Nat
  lastWarm : Bool
  /-- the warm restart in progress leaves QUIET (R423) -/
  leaving  : Bool
  leader   : Nat
  bridges  : List Bool
  /-- the ring links CD0-CD1, CD1-CD2, CD2-CD3, CD3-CD0 (R27) -/
  rings    : List Bool
  deriving DecidableEq, Repr

/-- A segment put on the wire, as the bytes of its header and body and the address to which it goes (R3, R341, R342), or a
signal of the test port. -/
inductive Out where
  | seg (port addr : Nat) (head body : List Byte)
  | tap (tap value : Nat)
  deriving DecidableEq, Repr

/-! ### The machine -/

/-- The state of the DQ4. -/
structure State where
  pkg      : Pkg
  fuses    : Fuses
  secure   : Secure
  profile  : Profile
  nvm      : Nvm
  hubs     : List Hub
  ports    : List Port
  cores    : Tbl Core
  deposits : List Deposit
  nextDep  : Nat
  streams  : Tbl Stream
  entries  : List Entry
  commits  : List Commit
  /-- pages of each stack for parcels and WORK areas, and the runs of them in use: first page and number (R358) -/
  pages    : List Nat
  used     : List (Tbl Nat)
  ledgerLost : Nat
  placements : List Placement
  objects  : List Obj
  bulk     : List Bulk
  installs : List Install
  routines : List Routine
  dies     : List Die
  clusters : Tbl Cluster
  maps     : Maps
  dsm      : List Dsm
  repair   : List Repair
  hbmStacks   : List (Bool × Bool)
  yoke     : Yoke
  standby  : Standby
  maint    : List Activity
  nextAct  : Nat
  pair     : Pair
  grazer   : Grazer
  tap      : List Nat
  idr      : IdRegs
  trust    : TrustRegs
  flt      : FaultRegs
  inst     : InstRegs
  mgmt     : MgmtRegs
  out      : List Out
  pending  : List Instr
  deriving DecidableEq, Repr

/-- Why the machine stops with a fault. -/
inductive Fault where
  /-- Raised by any command that names a core, engine, port, hub, die, cluster, stack, bank or sheet that
  R13, R24, R35 or R144 says does not exist. Safe: the hardware has no such unit, so no event of it. -/
  | noSuchUnit
  deriving DecidableEq, Repr

/-- Why a command is refused. -/
inductive Refusal where
  /-- Raised by an arm of `exec` that has no meaning yet. Safe. -/
  | notModelled (mnemonic : String)
  deriving DecidableEq, Repr

/-! ### The machine right after reset (16 R511, R528; DESIGN CHOICE, log 2) -/

/-- A plane in state EMPTY (R316). -/
def Plane.fresh : Plane :=
  { st := .empty, wfmt := none, tenant := none, spans := [], dyn := none, rows := [], written := 0,
    tag := 0, thr := 0, doubt := false, absorb := false, lost := false }

/-- A near unit with every item zero (R456). -/
def NearUnit.fresh : NearUnit :=
  { scale := [], zp := [], act := 0, lo := 0, hi := 0, pwl := [], cbA := ⟨0, []⟩, cbB := ⟨0, []⟩,
    inCb := none, outctl := 0 }

/-- An engine with eight EMPTY planes. -/
def Engine.fresh : Engine :=
  { planes := [], stuck := [], skipped := [], moved := [], substs := 0, nu := NearUnit.fresh, active := none, shadow := none,
    pool := [] }

/-- The control core's registers: A, S, AINC and C all zero (R179). -/
def CtlRegs.fresh : CtlRegs :=
  { a := List.replicate 16 0, sreg := List.replicate 8 0, ainc := List.replicate 64 0,
    ctr := List.replicate 64 0, ctx := 0, pc := 0, calls := [], loops := [], stall := none,
    stopSeen := 0 }

/-- Empty queues. -/
def CoreQ.fresh : CoreQ :=
  { mx := [], vx := [], mv := [], cf := [], flights := [], nextId := 0, prevOut := none }

/-- The accumulation state at the start of a frame (R116, R135). -/
def CoreAcc.fresh : CoreAcc :=
  { accBase := 0, accStride := 8, accSlots := 0, slotTag := [], passes := [], runs := [], opens := [], nextRun := 0 }

/-- Scratchpad and tile registers after reset: every sheet OFF (DESIGN CHOICE, log 9), masks all ones (R310). -/
def CoreMem.fresh : CoreMem :=
  { spad := [], lineTag := [], sheets := List.replicate 32 .off, spadBad := [], prior := [], same := [], treg := [],
    rowTag := [], tregBad := [], tagBad := [], rowMask := BitVec.allOnes 64, elemMask := BitVec.allOnes 512 }

/-- The ARRAY and ACCUM registers read 0 after a cold start (R83, R142). -/
def ArrayRegs.fresh : ArrayRegs := ⟨0, 0, 0, 0, 0, 0, 0, 0, 0⟩

/-- The SPAD and TREG registers read 0 after a cold start (R180, R181). -/
def SpadRegs.fresh : SpadRegs := ⟨0, 0, 0, 0, 0, 0, false, 0, 0, 0⟩

/-- The HALT, DROVER and VECTOR registers read 0 after a cold start (R254, R293, R314). -/
def ProgRegs.fresh : ProgRegs := ⟨0, 0, 0, 0, 0, 0, 0, 0, 0, 0, 0, 0⟩

/-- A core right after reset; every core that the state does not list. -/
def Core.fresh : Core :=
  { st := .idle, entry := none, lastTenant := none, rank := 0, ctl := CtlRegs.fresh, q := CoreQ.fresh,
    acc := CoreAcc.fresh, wins := List.replicate 8 none, mem := CoreMem.fresh, engines := [],
    arr := ArrayRegs.fresh, sp := SpadRegs.fresh, prog := ProgRegs.fresh, haltRec := none,
    diag := false, mended := false }

/-- The defaults of R522 for a DQ4-64. -/
def Profile.dflt : Profile :=
  { work := { tagPolicy := 0, replayMax := 4, dualRun := false, bwThreshMax := 0, cellPolicy := [],
              absorbWait := 300, boundStrict := false, conflictHalt := false, dsmRdwOld := 0,
              runLimit := 10000, fenceWait := 10, hbmInstall := 512, bulkIdle := 30, tenantList := [],
              svnAuto := true },
    power := { ceiling := 3200, floor := 0, slew := 10, lookahead := true, workGuard := 30,
               envHold := 50, dozeHold := 10, fracCd := 40, fracHub := 6, fracHbm := 28, comb := 256,
               vmargin := 70, tjWarn := 100, budget := 40, round := 15, hardRepair := true },
    net := { portNet := [], udpPort := 47210, etherType := 0x88B5, pairPeer := [], macsec := 0,
             macsecCak := [], mkaPrio := 16, modPmax := 64, modPhub := 60 } }

/-- The FOLD block after a cold start (R375). -/
def FoldRegs.fresh : FoldRegs :=
  { event := 0, repairs := 0, lost := 0, rackDrop := 0, accepts := 0, dups := 0,
    refuse := List.replicate 8 0, results := 0, resends := 0, replays := 0, requeues := 0,
    withheld := 0, cancelled := 0, admitMax := 0 }

/-- A hub in service. -/
def Hub.fresh : Hub :=
  { up := true, beatBridge := true, beatDie := true, digest := 0, segs := [], copies := [], backlog := 0, fsHigh := 0,
    fold := FoldRegs.fresh }

/-- A CLOSED stream with no incarnation; its credit is the default (R345, R348). -/
def Stream.fresh : Stream :=
  { st := .closed, incarn := none, tsid := 0, nextSeq := 0, credit := 64, outst := 0, homeHere := true,
    port := 0, addr := 0 }

/-- The DSM block and banks of a die after READY: a compute die's banks are ON with every cluster IDLE
(DEDUCED, log 7); a hub's LG, RM and SC are ON and FS is OFF (R191). -/
def Dsm.fresh (hub : Bool) : Dsm :=
  { err := 0, eccCorr := 0, eccUncorr := 0, denied := 0, commits := 0, freed := 0, refused := 0,
    wipes := 0, conflicts := List.replicate 8 0,
    banks := if hub then List.replicate 16 .on ++ List.replicate 23 .off ++ List.replicate 9 .on
             else List.replicate 64 .on,
    badLines := [], rebuild := false }

/-- The REPAIR block of a die with no record and no spare row in use (DESIGN CHOICE, log 3). -/
def Repair.fresh : Repair :=
  { event := 0, soft := 0, hard := 0, rowsOut := 0, low := 0, burnFail := 0, retired := 0,
    records := [], spares := [], due := [] }

/-- A compute die in service (log 3, 8). -/
def Die.fresh : Die :=
  { up := true, part := 0, act := 0, ballast := 0, bal := [], balN := 0, epass := 800, slicemW := List.replicate 8 500, standing := 0, alarm := false, okReads := 0, vmin := 680, vset := 750,
    starts := 0, stops := 0, limit := 256, waiting := [], ordered := 0, granted := [], offset := 0, hubLinks := [true, true] }

/-- A domain with kappa 1.0 (R378). -/
def Domain.fresh : Domain := ⟨65536, 0, 0, 0, false, 0⟩

/-- The Yoke at READY: the envelope is the measured draw (R407), which is 225 W of the hub domain and 35 W of the
Cocoon (DESIGN CHOICE, log 8). -/
def Yoke.fresh : Yoke :=
  { target := 260000, envelope := 260000000, below := false, falling := false, hot := false,
    temps := List.replicate 6 25,
    doms := List.replicate 4 Domain.fresh ++
      [{ Domain.fresh with draw := 225000 }, Domain.fresh, { Domain.fresh with draw := 35000 }],
    rails := [0, 0, 0, 0, 225000, 0], pmb := [0, 0, 35000], coef := [100, 100, 100, 100], standing := 260000, active := 0, held := [],
    regs := ⟨0, 0, 0, 0, 0, 0, 0, 0, 0, 0, 0, 0, 0⟩ }

/-- Port hints of the slot record: UDP/IPv4, with the address 10.0.0.(n+1) at port n (DESIGN CHOICE, log 3). -/
def slotHints : List Nat :=
  (List.range 8).flatMap (fun n => [0, 24, 0, 0, 0, 0, 0, 0, 10, 0, 0, n + 1] ++ List.replicate 20 0)

/-- The state of the package right after a completed cold start of an unpaired DQ4-64 in OWNED. -/
def State.reset : State :=
  { pkg := { phase := .running, stopped := 0, faultPulse := false, therm := false,
             psel := 0, pairRole := 0, quiet := 0, aon := 0, timeHi := 0, epoch := 0, cseq := 0,
             cseqNext := 1, free := 2, profSlot := 0, profNone := false, usePending := none,
             profDigest := 0, fwSlot := 0, fwSvn := 0, fwDigest := 0, fwNext := none, bootHub := 0,
             lastWarm := false, leaving := false, leader := 0, bridges := [true, true],
             rings := [true, true, true, true] },
    fuses := { lcs := 3, owner := some 0, prevOwner := none, vendor := 0, rotations := 0, bindings := 0,
               svnFloor := 0, pairSeed := none, part := 0x0464, serial := 0, macBase := 0 },
    secure := { wiping := false, dwrap := true, pwrap := false, content := [], sessions := [], ivs := [], held := [] },
    profile := Profile.dflt,
    nvm := { fwsel := 0,
             fw := [⟨true, true, 0, 0⟩, ⟨false, false, 0, 0⟩],
             prof := [⟨0, true, true, Profile.dflt, 0⟩, ⟨0, false, false, Profile.dflt, 0⟩,
                      ⟨0, false, false, Profile.dflt, 0⟩, ⟨0, false, false, Profile.dflt, 0⟩],
             xfer := ⟨.idle, 0, 0, 0, 0, []⟩ },
    hubs := [Hub.fresh, Hub.fresh],
    ports := List.replicate 8 ⟨true, false, true, false, 0, 0⟩,
    cores := [], deposits := [], nextDep := 0, streams := [], entries := [], commits := [],
    pages := List.replicate 16 7812500, used := List.replicate 16 [],
    ledgerLost := 0, placements := [], objects := [], bulk := [], installs := [], routines := [],
    dies := List.replicate 4 Die.fresh,
    clusters := [],
    maps := { cluster := [], core := [], engine := [], bad := [], retest := [], subst := [] },
    dsm := [Dsm.fresh false, Dsm.fresh false, Dsm.fresh false, Dsm.fresh false, Dsm.fresh true,
            Dsm.fresh true],
    repair := List.replicate 6 Repair.fresh,
    hbmStacks := List.replicate 16 (true, false),
    yoke := Yoke.fresh,
    standby := { envelope := 260000000, target := 260000, kappas := List.replicate 7 65536,
                 ballast := List.replicate 4 [], offsets := List.replicate 4 0 },
    maint := [], nextAct := 16,
    pair := { st := .unpaired, bound := false, fresh := false, leader := false, heardA := false, heardB := false,
              nowA := false, nowB := false, misses := 0, pboot := Config.drbg 1 % 2 ^ 32, pseq := 0, peerBoot := none,
              peerHigh := 0, peerSeen := [], retired := [], heardSinceCold := false, peerProf := 0, partnerLost := false, lostAt := 0,
              unconf := [], own := [], peer := [], syncTo := none, failedObj := false, releases := [],
              replaysLeft := [], segs := [], parcels := [], hollow := [], partner := [], replies := [],
              regs := ⟨0, 0, 0, 0, 0, 0, 0, 0⟩ },
    grazer := { regs := { event := 0, fail := 0, overrun := 0, stop := 0, slices := 0, rounds := 0,
                          cov := List.replicate 4 0, last := List.replicate 4 0,
                          lastMs := 0, head := 0, ring := [] },
                slices := [], progress := [], marches := [], started := true, overran := false, roundStart := 0 },
    tap := List.replicate 6 0,
    idr := { warm := 0, slotrec := 0, slotpos := 0, regs := 0x1FF, nvmMbit := 512,
             event := 0, hold := 0, modpwr := 0, slotCnt := 0, regCnt := 0, stackCnt := 0, hints := slotHints },
    trust := ⟨0, 0, 0, 0, 0, 0, 0⟩,
    flt := ⟨0, 0, 0, 0, 0, 0, 0, 0, 0, 0, 0, 0, 0⟩,
    inst := ⟨0, 0, 0, 0, 0, 0, 0⟩,
    mgmt := { event := 0, refused := 0, drops := 0, reads := 0, commands := 0, lastCmd := 0,
              challenge := Config.drbg 0 % 2 ^ 128 },
    out := [], pending := [] }

/-! ### The memory's form -/

/-- Rising keys. -/
def Tbl.sorted {α : Type} : Tbl α → Bool
  | [] => true
  | [_] => true
  | p :: q :: r => decide (p.1 < q.1) && Tbl.sorted (q :: r)

/-- The canonical form of a byte memory: rising addresses and no listed byte 0. -/
def Mem.wf (m : Mem) : Bool := Tbl.sorted m && m.all (fun c => c.2 != 0)

end Sys2Proof.Machine
end

