-- ==== Sys2Proof/Machine/Table.lean ====
section
/-! DEFINITION. Sparse tables and byte memories: reading, writing and erasing one key, and wider
accesses built from bytes. -/
namespace Sys2Proof.Machine
open Sys2Proof

/-- The value listed for `k`. -/
def Tbl.get {α : Type} (t : Tbl α) (k : Nat) : Option α := (t.find? (fun p => p.1 == k)).map (·.2)

/-- `t` with `k` listed as `v`; keys stay rising. -/
def Tbl.set {α : Type} (t : Tbl α) (k : Nat) (v : α) : Tbl α :=
  match t with
  | [] => [(k, v)]
  | p :: r =>
    if k < p.1 then (k, v) :: p :: r
    else if k = p.1 then (k, v) :: r
    else p :: Tbl.set r k v

/-- `t` without `k`. -/
def Tbl.erase {α : Type} (t : Tbl α) (k : Nat) : Tbl α := t.filter (fun p => p.1 != k)

/-- The value for `k` in a table of numbers whose unlisted entries are 0. -/
def Tbl.num (t : Tbl Nat) (k : Nat) : Nat := (Tbl.get t k).getD 0

/-- `t` with the number `v` at `k`; zeros are not listed. -/
def Tbl.setNum (t : Tbl Nat) (k v : Nat) : Tbl Nat := if v = 0 then Tbl.erase t k else Tbl.set t k v

/-- One byte: 0 where nothing is listed (DESIGN CHOICE, log 9). -/
def Mem.read (m : Mem) (a : Nat) : Byte := (Tbl.get m a).getD 0

/-- `m` with the byte `b` at `a`, in canonical form. -/
def Mem.write (m : Mem) (a : Nat) (b : Byte) : Mem := if b = 0 then Tbl.erase m a else Tbl.set m a b

/-- `n` bytes from `a`. -/
def Mem.readBytes (m : Mem) (a n : Nat) : List Byte := tabulate n (fun i => Mem.read m (a + i))

/-- `n` bytes from `a`, in one pass over a table with rising keys. -/
def Mem.dump (m : Mem) (a : Nat) : Nat → List Byte
  | 0 => []
  | n + 1 =>
    match m.dropWhile (fun c => decide (c.1 < a)) with
    | [] => 0 :: Mem.dump [] (a + 1) n
    | c :: r => if c.1 = a then c.2 :: Mem.dump r (a + 1) n else 0 :: Mem.dump (c :: r) (a + 1) n

/-- The bytes written from `a` upwards. -/
def Mem.writeBytes (m : Mem) (a : Nat) : List Byte → Mem
  | [] => m
  | b :: r => Mem.writeBytes (Mem.write m a b) (a + 1) r

/-- `n` bytes from `a` as a little-endian number (R4). -/
def Mem.readNum (m : Mem) (a n : Nat) : Nat := leNat (Mem.readBytes m a n)

/-- The bytes from `a` to `a + n − 1` set to 0. -/
def Mem.clear (m : Mem) (a n : Nat) : Mem := m.filter (fun c => !(decide (a ≤ c.1) && decide (c.1 < a + n)))

/-- The numbers of keys `a` to `a + n − 1` set to 0. -/
def Tbl.clearRange (t : Tbl Nat) (a n : Nat) : Tbl Nat :=
  t.filter (fun c => !(decide (a ≤ c.1) && decide (c.1 < a + n)))

end Sys2Proof.Machine
end

