-- ==== Sys2Proof/Machine/Numbers.lean ====
section
/-! DEFINITION. The number formats (03 R84 to R95): codes, values, the one rounding rule, ACC32 with its
special codes (R134), exact floating-point arithmetic rounded once, and the flags it raises (R312). -/
namespace Sys2Proof.Machine
open Sys2Proof

/-! ### Formats -/

/-- The format with a 4-bit code (R84); 0xF is reserved. -/
def Fmt.ofCode (n : Nat) : Option Fmt :=
  match n with
  | 0 => some .int2 | 1 => some .tern | 2 => some .int4 | 3 => some .uint4
  | 4 => some .int8 | 5 => some .uint8 | 6 => some .cb4 | 7 => some .cb8
  | 8 => some .e4m3 | 9 => some .e5m2 | 10 => some .bf16 | 11 => some .fp16
  | 12 => some .fp32 | 13 => some .acc32 | 14 => some .bfp12
  | _ => none

/-- The code of a format (R84). -/
def Fmt.code : Fmt → Nat
  | .int2 => 0 | .tern => 1 | .int4 => 2 | .uint4 => 3 | .int8 => 4 | .uint8 => 5 | .cb4 => 6 | .cb8 => 7
  | .e4m3 => 8 | .e5m2 => 9 | .bf16 => 10 | .fp16 => 11 | .fp32 => 12 | .acc32 => 13 | .bfp12 => 14

/-- The width of an element in bits (R84). -/
def Fmt.width : Fmt → Nat
  | .int2 | .tern => 2
  | .int4 | .uint4 | .cb4 => 4
  | .int8 | .uint8 | .cb8 | .e4m3 | .e5m2 => 8
  | .bf16 | .fp16 => 16
  | .fp32 | .acc32 => 32
  | .bfp12 => 12

/-- The shape of a floating-point format. -/
def Fmt.shape? : Fmt → Option FpShape
  | .e4m3 => some ⟨4, 3, 7, false⟩
  | .e5m2 => some ⟨5, 2, 15, true⟩
  | .bf16 => some ⟨8, 7, 127, true⟩
  | .fp16 => some ⟨5, 10, 15, true⟩
  | .fp32 => some fp32Shape
  | _ => none

/-- A two's complement format. -/
def Fmt.isSigned : Fmt → Bool
  | .int2 | .tern | .int4 | .int8 => true
  | _ => false

/-- INT2 to CB8: integers and codes. -/
def Fmt.isInt : Fmt → Bool
  | .int2 | .tern | .int4 | .uint4 | .int8 | .uint8 | .cb4 | .cb8 => true
  | _ => false

/-- The limits of an integer format (R84). -/
def Fmt.lo (f : Fmt) : Int := if f.isSigned then -((2 ^ (f.width - 1) : Nat) : Int) else 0
def Fmt.hi (f : Fmt) : Int :=
  if f.isSigned then ((2 ^ (f.width - 1) : Nat) : Int) - 1 else ((2 ^ f.width : Nat) : Int) - 1

/-- The integer a code of an integer format stands for. -/
def Fmt.intVal (f : Fmt) (w : Nat) : Int := if f.isSigned then signedVal f.width w else ((w % 2 ^ f.width : Nat) : Int)

/-- Formats an array takes as weights (R38, R90). -/
def Fmt.isWeight : Fmt → Bool
  | .int8 | .int4 | .int2 | .tern => true
  | _ => false

/-- Formats converted to BFP12 by an input stage (R90). -/
def Fmt.viaBfp : Fmt → Bool
  | .e4m3 | .e5m2 | .bf16 | .fp16 => true
  | _ => false

/-- Formats a pass may name as input (R45, R90). -/
def Fmt.isInput : Fmt → Bool
  | .int4 | .uint4 | .int8 | .uint8 | .cb4 | .cb8 | .e4m3 | .e5m2 | .bf16 | .fp16 => true
  | _ => false

/-! ### Values -/

/-- A floating-point value: a NaN, an infinity, or ±m·2^e. -/
inductive Val where
  | nan
  | inf (neg : Bool)
  | fin (neg : Bool) (m : Nat) (e : Int)
  deriving DecidableEq, Repr

/-- The value of a pattern. -/
def FpShape.decode (f : FpShape) (w : Nat) : Val :=
  let mag := f.mag w
  let ex := mag / 2 ^ f.fbits
  let fr := mag % 2 ^ f.fbits
  if f.isNan w then .nan
  else if f.ieee ∧ ex = 2 ^ f.ebits - 1 then .inf (f.neg w)
  else if ex = 0 then .fin (f.neg w) fr (1 - (f.bias : Int) - (f.fbits : Int))
  else .fin (f.neg w) (2 ^ f.fbits + fr) ((ex : Int) - (f.bias : Int) - (f.fbits : Int))

/-- The canonical NaN of a format (R86). -/
def FpShape.nanPat (f : FpShape) : Nat :=
  if f.ieee then (2 ^ f.ebits - 1) * 2 ^ f.fbits + 2 ^ (f.fbits - 1) else 2 ^ (f.ebits + f.fbits) - 1

/-- The largest finite magnitude pattern. -/
def FpShape.maxMag (f : FpShape) : Nat :=
  if f.ieee then (2 ^ f.ebits - 1) * 2 ^ f.fbits - 1 else 2 ^ (f.ebits + f.fbits) - 2

/-- The pattern of an infinity; E4M3 has none and takes ±448 (R112, R304). -/
def FpShape.infPat (f : FpShape) (neg : Bool) : Nat :=
  (if f.ieee then f.maxMag + 1 else f.maxMag) + flag neg * 2 ^ (f.ebits + f.fbits)

/-! ### Flags (R312) -/

def flInvalid : Nat := 1
def flDivZero : Nat := 2
def flOverflow : Nat := 4
def flUnderflow : Nat := 8
def flInexact : Nat := 16
def flSaturate : Nat := 32

/-- A result pattern with the flags it raises. -/
structure Rounded where
  pat   : Nat
  flags : Nat
  deriving DecidableEq, Repr

/-! ### The rounding rule (R94) -/

/-- `n / 2^k` rounded to the nearest integer, ties upwards in magnitude. -/
def shiftRound (n k : Nat) : Nat := if k = 0 then n else (n + 2 ^ (k - 1)) / 2 ^ k

/-- `v / 2^k` of an integer rounded to nearest, ties away from zero. -/
def roundShift (v : Int) (k : Nat) : Int := if v < 0 then -(shiftRound v.natAbs k : Int) else (shiftRound v.natAbs k : Int)

/-- `n / d` rounded to the nearest integer, ties upwards in magnitude. -/
def divRound (n d : Nat) : Nat := (2 * n + d) / (2 * d)

/-- `v / d` of an integer rounded to nearest, ties away from zero. -/
def roundDiv (v : Int) (d : Nat) : Int := if v < 0 then -(divRound v.natAbs d : Int) else (divRound v.natAbs d : Int)

/-- A magnitude at or above `m·2^e`, and below `(m+1)·2^e` when `sticky`, rounded once to the format under
roundTiesToAway, with its flags; beyond the largest finite value it is the infinity (R94, R301). `m` carries
at least two bits more than the format when `sticky`. -/
def FpShape.round (f : FpShape) (neg : Bool) (m : Nat) (e : Int) (sticky : Bool) : Rounded :=
  let s := flag neg * 2 ^ (f.ebits + f.fbits)
  if m = 0 then ⟨s, if sticky then flInexact + flUnderflow else 0⟩
  else
    let emin : Int := 1 - (f.bias : Int)
    let top : Int := e + (Nat.log2 m : Int)
    let q : Int := (if top < emin then emin else top) - (f.fbits : Int)
    let n : Nat := if q ≤ e then m * 2 ^ (e - q).toNat else shiftRound m (q - e).toNat
    let inexact : Bool := sticky || (decide (e < q) && n * 2 ^ (q - e).toNat != m)
    let pat := (q - (emin - (f.fbits : Int))).toNat * 2 ^ f.fbits + n
    if f.maxMag < pat then ⟨f.infPat neg, flOverflow + flInexact⟩
    else ⟨s + pat, (if inexact then flInexact else 0) +
      (if inexact && decide (pat < 2 ^ f.fbits) then flUnderflow else 0)⟩

/-- A value rounded once to the format; NaN gives the canonical NaN (R86). -/
def FpShape.encode (f : FpShape) (v : Val) : Rounded :=
  match v with
  | .nan => ⟨f.nanPat, 0⟩
  | .inf neg => ⟨f.infPat neg, 0⟩
  | .fin neg m e => f.round neg m e false

/-! ### Exact arithmetic -/

/-- `m·2^e` brought to the exponent `e' ≤ e`. -/
def align (neg : Bool) (m : Nat) (e e' : Int) : Int :=
  let v : Int := ((m * 2 ^ (e - e').toNat : Nat) : Int)
  if neg then -v else v

/-- The exact sum; the flag tells an invalid operation (+∞ with −∞). A sum that is zero is +0 unless both
operands are −0. -/
def Val.add (a b : Val) : Val × Bool :=
  match a, b with
  | .nan, _ => (.nan, false)
  | _, .nan => (.nan, false)
  | .inf s, .inf t => if s = t then (.inf s, false) else (.nan, true)
  | .inf s, _ => (.inf s, false)
  | _, .inf t => (.inf t, false)
  | .fin s m e, .fin t n g =>
    let q := if e ≤ g then e else g
    let v := align s m e q + align t n g q
    if v = 0 then (.fin (s && t && m == 0 && n == 0) 0 q, false)
    else (.fin (decide (v < 0)) v.natAbs q, false)

/-- The exact product; the flag tells an invalid operation (an infinity times zero). -/
def Val.mul (a b : Val) : Val × Bool :=
  match a, b with
  | .nan, _ => (.nan, false)
  | _, .nan => (.nan, false)
  | .inf s, .inf t => (.inf (s != t), false)
  | .inf s, .fin t n _ => if n = 0 then (.nan, true) else (.inf (s != t), false)
  | .fin s m _, .inf t => if m = 0 then (.nan, true) else (.inf (s != t), false)
  | .fin s m e, .fin t n g => (.fin (s != t) (m * n) (e + g), false)

/-- A value rounded to a format, with the invalid flag of the operation that formed it. -/
def FpShape.result (f : FpShape) (r : Val × Bool) : Rounded :=
  let x := f.encode r.1
  ⟨x.pat, x.flags + (if r.2 then flInvalid else 0)⟩

/-- The FP32 sum of two patterns (R134). -/
def fp32Add (a b : Nat) : Nat := (fp32Shape.result ((fp32Shape.decode a).add (fp32Shape.decode b))).pat

/-- The largest `r` with `r² ≤ n`, found bit by bit from `2^k`. -/
def isqrt : Nat → Nat → Nat → Nat
  | 0, n, r => if (r + 1) * (r + 1) ≤ n then r + 1 else r
  | k + 1, n, r => isqrt k n (if (r + 2 ^ (k + 1)) * (r + 2 ^ (k + 1)) ≤ n then r + 2 ^ (k + 1) else r)

/-- ln 2 · 2^256, rounded down. -/
def ln2Fix : Nat := 80260960185991308862233904206310070533990667611589946606122867505419956976171

/-- The terms of Σ x^k / k! in units of 2^-256, from term `k` with value `t`. -/
def expSum : Nat → Nat → Nat → Nat → Nat
  | 0, _, _, _ => 0
  | n + 1, x, k, t => t + expSum n x (k + 1) (t * x / 2 ^ 256 / (k + 1))

/-- 2^f · 2^256 for a fraction `f` given in units of 2^-256. -/
def exp2Fix (f : Nat) : Nat := expSum 80 (f * ln2Fix / 2 ^ 256) 0 (2 ^ 256)

/-- EXP2 (R301): the exact value rounded once. -/
def FpShape.exp2 (f : FpShape) (v : Val) : Rounded :=
  match v with
  | .nan => ⟨f.nanPat, 0⟩
  | .inf neg => if neg then ⟨0, 0⟩ else ⟨f.infPat false, 0⟩
  | .fin neg m e =>
    if m = 0 then f.round false 1 0 false
    else if 9 ≤ e + (Nat.log2 m : Int) then
      -- |v| is 512 or more: beyond every exponent of every format
      if neg then ⟨0, flInexact + flUnderflow⟩ else ⟨f.infPat false, flOverflow + flInexact⟩
    else
      let x := align neg m (e + 256) 0
      let i := x.fdiv (2 ^ 256 : Nat)
      let fr := (x.fmod (2 ^ 256 : Nat)).toNat
      if fr = 0 then f.round false 1 i false else f.round false (exp2Fix fr) (i - 256) true

/-- RECIP (R301). -/
def FpShape.recip (f : FpShape) (v : Val) : Rounded :=
  match v with
  | .nan => ⟨f.nanPat, 0⟩
  | .inf neg => ⟨flag neg * 2 ^ (f.ebits + f.fbits), 0⟩
  | .fin neg m e =>
    if m = 0 then ⟨f.infPat neg, flDivZero⟩
    else
      let k := Nat.log2 m + 64
      f.round neg (2 ^ k / m) (-(k : Int) - e) (2 ^ k % m != 0)

/-- RSQRT (R301). -/
def FpShape.rsqrt (f : FpShape) (v : Val) : Rounded :=
  match v with
  | .nan => ⟨f.nanPat, 0⟩
  | .inf neg => if neg then ⟨f.nanPat, flInvalid⟩ else ⟨0, 0⟩
  | .fin neg m e =>
    if m = 0 then ⟨f.infPat neg, flDivZero⟩
    else if neg then ⟨f.nanPat, flInvalid⟩
    else
      let odd := e.emod 2 = 1
      let m' := if odd then 2 * m else m
      let h := (if odd then e - 1 else e) / 2
      let q := isqrt 96 (2 ^ 192 / m') 0
      f.round false q (-96 - h) (q * q * m' != 2 ^ 192)

/-! ### ACC32 (R84, R134) -/

/-- A value of an integer slot. -/
inductive Acc where
  | fin (v : Int)
  | inf (neg : Bool)
  | void
  deriving DecidableEq, Repr

/-- The largest finite magnitude, 2^31 − 2. -/
def accMax : Int := 2147483646

/-- An exact integer as an ACC32 value: beyond the range it is the infinity of its sign. -/
def Acc.ofInt (v : Int) : Acc := if accMax < v then .inf false else if v < -accMax then .inf true else .fin v

/-- The value of an ACC32 code. -/
def Acc.decode (w : Nat) : Acc :=
  if w = 0x80000000 then .void
  else if w = 0x7FFFFFFF then .inf false
  else if w = 0x80000001 then .inf true
  else .fin (signedVal 32 w)

/-- The code of an ACC32 value. -/
def Acc.encode : Acc → Nat
  | .void => 0x80000000
  | .inf false => 0x7FFFFFFF
  | .inf true => 0x80000001
  | .fin v => pattern 32 v

/-- The sum of two ACC32 values (R134). -/
def Acc.add (a b : Acc) : Acc :=
  match a, b with
  | .void, _ => .void
  | _, .void => .void
  | .inf s, .inf t => if s = t then .inf s else .void
  | .inf s, .fin _ => .inf s
  | .fin _, .inf t => .inf t
  | .fin x, .fin y => Acc.ofInt (x + y)

/-- The product of two ACC32 values (R303). -/
def Acc.mul (a b : Acc) : Acc :=
  match a, b with
  | .void, _ => .void
  | _, .void => .void
  | .inf s, .inf t => .inf (s != t)
  | .inf s, .fin y => if y = 0 then .void else .inf (s != decide (y < 0))
  | .fin x, .inf t => if x = 0 then .void else .inf (decide (x < 0) != t)
  | .fin x, .fin y => Acc.ofInt (x * y)

/-- A key that orders the ACC32 values that are not VOID (R162, R303). -/
def Acc.key : Acc → Int
  | .void => 0
  | .fin v => v
  | .inf false => accMax + 1
  | .inf true => -accMax - 1

/-- The sum of two ACC32 codes. -/
def accAdd (a b : Nat) : Nat := ((Acc.decode a).add (Acc.decode b)).encode

/-- An addition in a slot, a merge tree or a combination, in the slot's kind (R134). -/
def slotAdd (isFp : Bool) (a b : Word) : Word :=
  word (if isFp then fp32Add a.toNat b.toNat else accAdd a.toNat b.toNat)

/-- The tree of R129: pairs of neighbours added level by level, an unpaired last element passing up. -/
def treeLevel {α : Type} (f : α → α → α) : List α → List α
  | a :: b :: r => f a b :: treeLevel f r
  | l => l

/-- The value at the top of the tree of R129, if there is any element. -/
def treeSum {α : Type} (f : α → α → α) : Nat → List α → Option α
  | _, [] => none
  | _, [a] => some a
  | 0, a :: _ => some a
  | n + 1, l => treeSum f n (treeLevel f l)

/-! ### Elements in bytes (R87) -/

/-- Element `i` of width `w` bits in bytes packed densely from bit 0. -/
def getElem' (b : List Byte) (w i : Nat) : Nat :=
  if w < 8 then (at' b (i * w / 8) (0 : Byte)).toNat / 2 ^ (i * w % 8) % 2 ^ w
  else leAt b (i * w / 8) (w / 8)

/-- The elements of width `w` that bytes hold, `n` of them. -/
def elems (b : List Byte) (w n : Nat) : List Nat := tabulate n (fun i => getElem' b w i)

/-- One byte with the bits of an element of width `w < 8` at bit `o` replaced. -/
def mergeBits (old : Byte) (w o v : Nat) : Byte :=
  BitVec.ofNat 8 (old.toNat - (old.toNat / 2 ^ o % 2 ^ w) * 2 ^ o + (v % 2 ^ w) * 2 ^ o)

/-- Element `i` of width `w` of a byte memory that starts at `a` (R87). -/
def Mem.elem (m : Mem) (a w i : Nat) : Nat :=
  if w < 8 then (Mem.read m (a + i * w / 8)).toNat / 2 ^ (i * w % 8) % 2 ^ w
  else Mem.readNum m (a + i * w / 8) (w / 8)

/-- A byte memory that starts at `a` with element `i` of width `w` written; other elements of the byte keep
their values (R87). -/
def Mem.setElem (m : Mem) (a w i v : Nat) : Mem :=
  if w < 8 then
    let x := a + i * w / 8
    Mem.write m x (mergeBits (Mem.read m x) w (i * w % 8) v)
  else Mem.writeBytes m (a + i * w / 8) (leBytes (w / 8) v)

end Sys2Proof.Machine
end

