-- ==== Sys2Proof/WellFormed.lean ====
section
/-! DEFINITION. Which commands are well formed: every unit a command names exists (R13, R24, R35, R144,
R183, R446, R562). A command that is not well formed faults with noSuchUnit. -/
namespace Sys2Proof

/-- A logical core index (R531). -/
def coreOk (k : Nat) : Bool := decide (k < Config.nCores)

/-- An engine of a core (R35). -/
def engineOk (e : Nat) : Bool := decide (e < Config.nEngines)

/-- A fabric port (R24). -/
def portOk (n : Nat) : Bool := decide (n < Config.nPorts)

/-- A hub (R13). -/
def hubOk (h : Nat) : Bool := decide (h < 2)

/-- A compute die (R13). -/
def computeOk (d : Nat) : Bool := decide (d < Config.nDies)

/-- A bank of a die: 64 on a compute die, 48 on a hub die (R184). -/
def bankOk (die bank : Nat) : Bool := decide (bank < if die < 4 then 64 else 48)

/-- A target of a slice or march (R446): kinds 1 to 7 and physical numbers that exist (R16). -/
def targetOk (t : Target) : Bool :=
  decide (1 ≤ t.kind) && decide (t.kind ≤ 7) && decide (t.die < 6) && decide (t.cluster < 9) &&
    decide (t.core < 17) && decide (t.engine < 33) && decide (t.bank < if t.die < 4 then 64 else 48) &&
    (t.kind == 6 || decide (t.die < 4))

/-- A path that went unanswered (R247, R412): 1 a physical cluster's fabric `9·die + cluster`, 2 a die's fabric,
3 a ring link, 4 a hub link `2·die + hub`, 5 a stack interface. -/
def pathOk (path unit : Nat) : Bool :=
  match path with
  | 1 => decide (unit < 36)
  | 2 => decide (unit < 4)
  | 3 => decide (unit < 4)
  | 4 => decide (unit < 8)
  | 5 => decide (unit < 16)
  | _ => false

/-- Every unit that the command names exists. -/
def WellFormed : Instr → Bool
  | .nop k | .ldi k | .add k | .sub k | .shl k | .shr k | .sra k | .madd k | .min k | .max k | .and k |
    .smov k | .qdepth k | .setinc k | .cset k | .loop k | .lbrk k | .br k | .call k | .ret k | .halt k |
    .sheets k | .windowDeclare k | .windowUndeclare k | .grant k | .accbase k _ | .accstride k _ |
    .accslots k _ | .txfer k _ | .matmul k _ | .dmatmul k _ | .wplane k _ | .combine k _ | .vxfer k _ |
    .ccount k _ | .vecAdd k _ | .vecMul k _ | .vecFma k _ | .vecMin k _ | .vecMax k _ | .cmpeq k _ |
    .cmpne k _ | .cmplt k _ | .cmple k _ | .cmpgt k _ | .cmpge k _ | .select k _ | .convert k _ |
    .exp2 k _ | .recip k _ | .rsqrt k _ | .emask k _ | .rmask k _ | .maskall k _ | .reduceSum k _ |
    .reduceMax k _ | .reduceMin k _ | .reduceCount k _ | .reduceTop1 k _ | .send k _ | .emit k _ |
    .move k _ | .cfg k _ | .waitSatisfied k | .runLimit k | .fenceWait k => coreOk k
  | .haltRecord r => coreOk r.k && r.same.all coreOk
  | .queueHeadStart k q => coreOk k && decide (1 ≤ q) && decide (q ≤ 4)
  | .waitTimeout k q => coreOk k && decide (q ≤ 4)
  | .passIssue k _ | .dynamicRowWrite k _ | .penTileLoad k _ | .instructionComplete k _ |
    .fieldTile k _ | .coreDiagnosisDone k _ => coreOk k
  | .passResultComplete k r => coreOk k && engineOk r.e
  | .drain k d => coreOk k && engineOk d.e
  | .resultSetSwap k e _ | .dynamicPlaneTest k e | .bellwetherSweep k e _ => coreOk k && engineOk e
  | .planeEmpty k e p | .absorbWait k e p |
    .planeDiagnosis k e p _ => coreOk k && engineOk e && decide (p < 8)
  | .columnSubstitution k e slot _ => coreOk k && engineOk e && decide (slot < 264)
  | .sheetWakeDone k sheet => coreOk k && decide (sheet < 32)
  | .frameStart _ k => coreOk k
  | .workRun g | .workOpen g | .workCancel g | .workClose g | .release g | .resend g |
    .workSegment g => portOk g.port
  | .bulkOpen b | .burst b | .bulkClose b | .abort b | .query b | .bulkCommit b _ | .remove b |
    .notes b => portOk b.port
  | .segmentTimeout hub _ | .ledgerConfirm _ hub => hubOk hub
  | .admitMaxRead m hub => portOk m.port && hubOk hub
  | .hubHeartbeat h _ _ | .hubHeartbeatLoss h | .hubSelfCheckFail h => hubOk h
  | .bridgeRestored b _ => decide (b < 2)
  | .portLinkDown n | .portLinkUp n _ | .moduleInsert n _ => portOk n
  | .dsmEccError die bank line _ _ core => decide (die < 6) && bankOk die bank && decide (line < 16384) && core.all coreOk
  | .dsmAccessDenied die master l _ core => decide (die < 6) && bankOk die l.bank && decide (master < 8) && decide (l.line < 16384) && core.all coreOk
  | .dsmPriorityEscalate die bank master _ => decide (die < 6) && bankOk die bank && decide (master < 8)
  | .dsmBankWakeDone die bank => decide (die < 6) && bankOk die bank
  | .fabricTimeout path unit cores => pathOk path unit && cores.all coreOk
  | .stackLost st | .stackSelfRefresh st => decide (st < 16)
  | .dieLost d | .combWindow d _ | .voltageAlarm d | .voltageAlarmPersist d => computeOk d
  | .fuseBurn die record _ => decide (die < 6) && decide (record < 2 ^ 64)
  | .avsSample group _ _ => decide (group < 6)
  | .pmbusSample rail _ => decide (rail < 3)
  | .tempReport die _ | .thermtrip die => decide (die < 6)
  | .clockLoss die cluster | .relockTimeout die cluster | .dozeEntry die cluster |
    .clusterOff die cluster | .clusterWakeDone die cluster |
    .clusterRelocked die cluster => computeOk die && decide (cluster < 9)
  | .grazerSliceStart t | .sliceUnitDone t _ _ | .sliceEnd t | .sliceStop t | .marchStart t _ |
    .marchDone t _ => targetOk t
  | .mgmtRead m _ _ | .substMaxRead m | .timeLoRead m | .nvmData m _ _ | .attest m _ _ _ _ |
    .certs m _ | .sessionOpen m _ _ _ _ _ | .sessionClose m => portOk m.port
  | .clear e _ | .warmRestart e | .useProfile e _ | .activateFirmware e _ | .raiseSvn e _ |
    .nvmBegin e _ _ _ | .pairBind e _ _ _ | .pairUnbind e | .takeOwnership e _ | .rotateOwner e _ |
    .returnPkg e | .retire e => portOk e.req.port
  | .pairHeartbeat p _ _ _ _ | .pairCommit p _ | .pairConfirm p _ _ | .pairSegment p _ _ |
    .pairObject p _ _ _ _ _ | .pairObjcommit p _ _ _ _ _ | .pairDigest p _ _ _ | .pairParcel p _ _ _ |
    .pairSyncdone p _ | .pairStrike p _ _ _ _ | .pairKeysync p _ _ _ => portOk p.port
  | .boundaryScan tap _ _ => decide (tap < 6)
  | .substitutionDone u _ _ => coreOk u.k && engineOk u.e
  | .stopTimeout _ | .depositLand _ | .creditTimeout _ | .hubInputDelivery _ | .frameBind _ |
    .commitDeadline _ | .dispatch _ | .frameEnd _ | .resultParcelWritten _ |
    .resultTransmit _ | .parcelReadError _ _ _ | .installDone _ _ | .routineCommit _ _ | .patchApply _ |
    .placementRetire _ | .bulkIdle _ _ _ _ | .digestExchange | .faultPulseEnd |
    .yokeTick _ _ | .envHold | .roundOverrun | .secureWipeDone | .profileSwitch | .firmwareActivation |
    .maintDefer _ | .tamper _ | .coldStart _ | .bootReportTimeout | .readyAssert | .porstAssert |
    .wrstPin | .warmRestartDoze | .nvmProgramDone _ _ _ | .pairHeartbeatTimer | .pairHeartbeatMiss |
    .inputParcelWritten _ => true

end Sys2Proof
end

