-- ==== Sys2Proof/Machine/Ops.lean ====
section
/-! DEFINITION. The named operations of the machine that several commands share: the answer of a
command, records found by key, flags with their counters (R9), and the halt of a core (R247). -/
namespace Sys2Proof.Machine
open Sys2Proof

/-- The answer of a command: its next state when every unit it names exists, a fault otherwise. -/
def answer (ok : Bool) (s : State) : Host.Outcome State Fault Refusal :=
  if ok then .next s else .fault .noSuchUnit

/-! ### Records by key -/

/-- Logical core `k`. -/
def State.core (s : State) (k : Nat) : Core := (Tbl.get s.cores k).getD Core.fresh

/-- `s` with logical core `k` replaced. -/
def State.setCore (s : State) (k : Nat) (c : Core) : State := { s with cores := Tbl.set s.cores k c }

/-- `s` with logical core `k` changed by `f`. -/
def State.modCore (s : State) (k : Nat) (f : Core → Core) : State := s.setCore k (f (s.core k))

/-- Engine `e` of a core. -/
def Core.engine (c : Core) (e : Nat) : Engine := (Tbl.get c.engines e).getD Engine.fresh

/-- `c` with engine `e` replaced. -/
def Core.setEngine (c : Core) (e : Nat) (g : Engine) : Core := { c with engines := Tbl.set c.engines e g }

/-- Plane `p` of an engine. -/
def Engine.plane (g : Engine) (p : Nat) : Plane := (Tbl.get g.planes p).getD Plane.fresh

/-- `g` with plane `p` replaced. -/
def Engine.setPlane (g : Engine) (p : Nat) (pl : Plane) : Engine := { g with planes := Tbl.set g.planes p pl }

/-- `s` with plane `p` of engine `e` of core `k` changed by `f`. -/
def State.modPlane (s : State) (k e p : Nat) (f : Plane → Plane) : State :=
  let c := s.core k
  let g := c.engine e
  s.setCore k (c.setEngine e (g.setPlane p (f (g.plane p))))

/-- The ledger entry with commit sequence number `cseq`. -/
def State.entry? (s : State) (cseq : Nat) : Option Entry := s.entries.find? (fun e => e.cseq == cseq)

/-- `s` with the entry `cseq` changed by `f`. -/
def State.modEntry (s : State) (cseq : Nat) (f : Entry → Entry) : State :=
  { s with entries := s.entries.map (fun e => if e.cseq == cseq then f e else e) }

/-- The placement with handle `h` that is installed now. -/
def State.placement? (s : State) (h : Nat) : Option Placement :=
  s.placements.find? (fun p => p.handle == h && p.removed.isNone)

/-- The placement with handle `h` that a frame bound at `epoch` names: installed at or before it and not
removed at or before it (R317, R335). -/
def State.placementAt (s : State) (h epoch : Nat) : Option Placement :=
  s.placements.find? (fun p => p.handle == h && decide (p.commit ≤ epoch) &&
    match p.removed with
    | none => true
    | some r => decide (epoch < r))

/-- The counter of free values moves on: what was drawn at it is not drawn again. -/
def State.drew (s : State) : State := { s with pkg := { s.pkg with free := s.pkg.free + 1 } }

/-! ### Flags and counters (R9) -/

/-- A counter that wraps (R8, CT). -/
def inc (w : Word) : Word := w + 1

/-- A counter increased by `n`, wrapping. -/
def incBy (w : Word) (n : Nat) : Word := w + BitVec.ofNat 32 n

/-- A W1C flag set. -/
def setBit (w : Word) (i : Nat) : Word := w ||| BitVec.ofNat 32 (2 ^ i)

/-- The larger of a register and a value (R375, R443). -/
def keepMax (w : Word) (n : Nat) : Word := if w.toNat < n then BitVec.ofNat 32 n else w

/-! ### Halting a core -/

/-- A frame runs on the core. -/
def Core.live (c : Core) : Bool :=
  match c.st with
  | .starting | .armed | .run | .draining | .stopping => true
  | _ => false

/-- The halt counters (R254) after a halt with code `reason`. -/
def countHalt (p : ProgRegs) (reason : Nat) : ProgRegs :=
  if reason < 0x20 then { p with progCount := inc p.progCount }
  else if reason < 0x40 then { p with hwCount := inc p.hwCount, lastHw := word reason }
  else { p with waitCount := inc p.waitCount }

/-- The core halts with a record that names context, index and depth (R247): its queues and started
instructions are discarded. -/
def Core.halt (c : Core) (ctx idx depth reason detail : Nat) : Core :=
  { c with
    st := .halted
    haltRec := some ⟨ctx, idx, reason, depth, c.rank, detail⟩
    prog := countHalt c.prog reason
    ctl := { c.ctl with stall := none }
    q := { c.q with mx := [], vx := [], mv := [], cf := [], flights := [] } }

/-- Core `k` sent the deposit. -/
def sentBy (k : Nat) (d : Deposit) : Bool :=
  match d.src with
  | .core k' _ => k' == k
  | .multicast k' _ => k' == k
  | .hub _ => false

/-- Deposits after core `k` halted: those into its windows are discarded (R171), and those it sent that
still wait for credit. -/
def dropDeposits (k : Nat) (ds : List Deposit) : List Deposit :=
  (ds.filter (fun d => d.credited || !(sentBy k d))).filterMap (fun d =>
    if d.dests.contains k then
      (if d.dests == [k] then none else some { d with dests := d.dests.filter (· != k) })
    else some d)

/-- Core `k` halts (R247) when a frame runs on it. -/
def State.haltCore (s : State) (k ctx idx depth reason detail : Nat) : State :=
  let c := s.core k
  if c.live then
    { s.setCore k (c.halt ctx idx depth reason detail) with deposits := dropDeposits k s.deposits }
  else s

/-- Core `k` halts for an event that is no instruction of its own: the record names the instruction that
its control core is due to issue (R247). -/
def State.haltDue (s : State) (k reason detail : Nat) : State :=
  let c := s.core k
  s.haltCore k c.ctl.ctx c.ctl.pc c.ctl.calls.length reason detail

/-- Core `k` halts for a queued instruction. -/
def State.haltEntry (s : State) (k : Nat) (q : QEntry) (reason detail : Nat) : State :=
  s.haltCore k q.ctx q.pc q.depth reason detail

/-! ### Counters, signals and waits -/

/-- Sync counter `i` of a core. -/
def Core.ctr (c : Core) (i : Nat) : Nat := at' c.ctl.ctr i 0

/-- `c` with sync counter `i` set. -/
def Core.setCtr (c : Core) (i v : Nat) : Core := { c with ctl := { c.ctl with ctr := c.ctl.ctr.set i v } }

/-- The increment of counter `i` would pass 65,535 (R216). -/
def Core.overflows (c : Core) (i n : Nat) : Bool := decide (65535 < c.ctr i + n)

/-- A signal of the instruction at (ctx, idx, depth) adds `n` to counter `i`, or halts the core (R215,
R216). -/
def State.signal (s : State) (k i n ctx idx depth : Nat) : State :=
  let c := s.core k
  if c.live then
    if c.overflows i n then s.haltCore k ctx idx depth 0x17 (i * 2 ^ 26)
    else s.setCore k (c.setCtr i (c.ctr i + n))
  else s

/-- A deposit's increment of counter `i` (R167, R216). -/
def State.depositStep (s : State) (k i : Nat) : State :=
  let c := s.core k
  s.signal k i 1 c.ctl.ctx c.ctl.pc c.ctl.calls.length

/-- A wait for counter `i` to reach `v` is satisfied (R214). -/
def Core.waitOk (c : Core) (i v : Nat) : Bool := decide (v ≤ c.ctr i)

/-- A satisfied wait consumes its threshold; `v = 0` consumes nothing (R214). -/
def Core.consume (c : Core) (i v : Nat) : Core := c.setCtr i (c.ctr i - v)

/-! ### The outcome of a queued instruction's effect -/

/-- Part of an effect: it has its result, or it waits (a sheet is WAKING, a port or credit is not free),
or it halts the core with a reason and a detail word. -/
inductive Eff (α : Type) where
  | ok (a : α)
  | wait
  | stop (c : Core) (reason detail : Nat)

/-- What follows an effect that has its result. -/
def Eff.bind {α β : Type} (e : Eff α) (f : α → Eff β) : Eff β :=
  match e with
  | .ok a => f a
  | .wait => .wait
  | .stop c r d => .stop c r d

/-! ### Scratchpad sheets and error correction -/

/-- The state of a sheet. -/
def Core.sheet (c : Core) (n : Nat) : SheetSt := at' c.mem.sheets n .off

/-- An access of cause `cause` to the lines from `first` to `last`, in ascending order of sheets: a sheet
that is OFF halts (R159), one that is WAKING or in RETENTION makes the access wait (R155). -/
def Core.sheetsOk (c : Core) (cause : Nat) : List Nat → Eff Unit
  | [] => .ok ()
  | n :: r =>
    match c.sheet n with
    | .on => Core.sheetsOk c cause r
    | .off => .stop c 0x05 (n * 2 ^ 27 + cause * 2 ^ 24)
    | _ => .wait

/-- The sheets of the bytes from `a` to `a + n − 1`. -/
def sheetsOf (a n : Nat) : List Nat :=
  if n = 0 then [] else tabulate ((a + n - 1) / 65536 - a / 65536 + 1) (fun i => a / 65536 + i)

/-- The bytes lie in the scratchpad (R147): SP_RANGE, cause 1, with the last byte of the access. -/
def Core.spRange (c : Core) (a n last : Nat) : Eff Unit :=
  if 2097152 < a + n then .stop c 0x04 (2 ^ 28 + last % 2 ^ 28) else .ok ()

/-- The bank and bank line of a byte address as the detail of ECC_UNCORRECTABLE (R145, R182). -/
def eccDetail (a : Nat) : Nat :=
  let sheet := a / 65536 % 32
  let row := a / 2048 % 32
  let col := a / 64 % 32
  ((row + col) % 32) * 2 ^ 25 + (sheet * 32 + row) * 2 ^ 15

/-- Error correction on a read of the bytes from `a`: single-bit errors are corrected and counted, a
double-bit error halts (R173). -/
def Core.eccRead (c : Core) (a n : Nat) : Eff Core :=
  let hit := c.mem.spadBad.filter (fun w => decide (a < w.1 * 8 + 8) && decide (w.1 * 8 < a + n))
  match hit.find? (fun w => w.2) with
  | some w =>
    .stop { c with sp := { c.sp with err := setBit c.sp.err 2, eccUncorr := inc c.sp.eccUncorr } } 0x21
      (eccDetail (w.1 * 8))
  | none =>
    if hit.isEmpty then .ok c
    else .ok { c with
      mem := { c.mem with spadBad := c.mem.spadBad.filter (fun w => !(hit.contains w)) }
      sp := { c.sp with err := setBit c.sp.err 1, eccCorr := incBy c.sp.eccCorr hit.length } }

/-- The byte that a read of the scratchpad returns (R150): that of a line read in the cycle of the last write to it is
the one held before, when the running frame sets `RDW_OLD`, and the one written otherwise. -/
def Core.spByte (c : Core) (x : Nat) : Byte :=
  if c.sp.rdwOld && c.mem.same.contains (x / 64) then
    match Tbl.get c.mem.prior (x / 64) with
    | some b => at' b (x % 64) 0
    | none => Mem.read c.mem.spad x
  else Mem.read c.mem.spad x

/-- `n` bytes that a read from byte `a` returns. -/
def Core.spBytes (c : Core) (a n : Nat) : List Byte := tabulate n (fun i => c.spByte (a + i))

/-- A read of the scratchpad: range, sheets, error correction, then the bytes. `cause` 1 is a read, 3 a
drain. -/
def Core.spReadAs (c : Core) (cause a n : Nat) : Eff (Core × List Byte) :=
  (c.spRange a n (a + n - 1)).bind fun _ =>
  (c.sheetsOk cause (sheetsOf a n)).bind fun _ =>
  (c.eccRead a n).bind fun c' => .ok (c', c'.spBytes a n)

/-- A read by an instruction. -/
def Core.spRead (c : Core) (a n : Nat) : Eff (Core × List Byte) := c.spReadAs 1 a n

/-- The tags of the lines that the bytes from `a` touch, ORed (R172). -/
def Core.lineTags (c : Core) (a n : Nat) : Nat :=
  if n = 0 then 0
  else (List.range ((a + n - 1) / 64 - a / 64 + 1)).foldl (fun t i => t ||| Tbl.num c.mem.lineTag (a / 64 + i)) 0

/-- The tags of the units of `size` bytes that a write of `len` bits from bit `b` touches: a unit covered
whole takes its tag `t`, a unit covered in part ORs it in (R172, R177). -/
def unitTagsBy (size : Nat) (tags : Tbl Nat) (b len : Nat) (t : Nat → Nat) : Tbl Nat :=
  if len = 0 then tags
  else (List.range ((b + len - 1) / (8 * size) - b / (8 * size) + 1)).foldl
    (fun m i =>
      let l := b / (8 * size) + i
      Tbl.setNum m l (if b ≤ l * (8 * size) ∧ (l + 1) * (8 * size) ≤ b + len then t l else Tbl.num m l ||| t l)) tags

/-- The units take one tag. -/
def unitTags (size : Nat) (tags : Tbl Nat) (b len t : Nat) : Tbl Nat := unitTagsBy size tags b len (fun _ => t)

/-- Line tags after a write of `n` bytes at `a` with tag `t`. -/
def tagWrite (tags : Tbl Nat) (a n t : Nat) : Tbl Nat := unitTags 64 tags (8 * a) (8 * n) t

/-- The lines that the bytes from `a` touch. -/
def linesOf (a n : Nat) : List Nat := if n = 0 then [] else tabulate ((a + n - 1) / 64 - a / 64 + 1) (fun i => a / 64 + i)

/-- What the lines of a write of `n` bytes at `a` hold before it, kept while the running frame sets `RDW_OLD` (R150). -/
def Core.priorOf (c : Core) (a n : Nat) : Tbl (List Byte) :=
  if c.sp.rdwOld then (linesOf a n).foldl (fun t l => Tbl.set t l (Mem.readBytes c.mem.spad (64 * l) 64)) c.mem.prior
  else c.mem.prior

/-- The 64-bit words that a write covers whole lose their error marks. -/
def Core.spStore (c : Core) (a : Nat) (b : List Byte) (tag : Option Nat) : Core :=
  { c with mem := { c.mem with
      spad := Mem.writeBytes c.mem.spad a b
      lineTag := match tag with
        | some t => tagWrite c.mem.lineTag a b.length t
        | none => c.mem.lineTag
      prior := c.priorOf a b.length
      spadBad := c.mem.spadBad.filter (fun w => !(decide (a ≤ w.1 * 8) && decide (w.1 * 8 + 8 ≤ a + b.length))) } }

/-- A write to the scratchpad: range, sheets, then the bytes with their tag; `none` leaves line tags
unchanged, as a drain does (R172). `cause` 2 is a write, 3 a drain. -/
def Core.spWrite (c : Core) (cause a : Nat) (b : List Byte) (tag : Option Nat) : Eff Core :=
  (c.spRange a b.length (a + b.length - 1)).bind fun _ =>
  (c.sheetsOk cause (sheetsOf a b.length)).bind fun _ => .ok (c.spStore a b tag)

/-! ### Tile registers -/

/-- The byte index of row `row` of register `t` in the table of tile-register bytes. -/
def tregAddr (t row : Nat) : Nat := t * 32768 + row * 512

/-- The linear rows, among those that the bytes from `a` to `a + n − 1` of the tile registers touch, that fail a parity
check: that of a word read, or of the row's tag (R178). -/
def Core.parityBad (c : Core) (a n : Nat) : List Nat :=
  (c.mem.tregBad.filter (fun w => decide (a < w * 4 + 4) && decide (w * 4 < a + n))).map (fun w => w / 128) ++
    c.mem.tagBad.filter (fun r => decide (a < r * 512 + 512) && decide (r * 512 < a + n))

/-- The parity of the bytes and of the tags of their rows is right (R178); `stop` names the first row at fault. -/
def Core.parityOk (c : Core) (t row off n : Nat) : Eff Unit :=
  match sortNat (c.parityBad (tregAddr t row + off) n) with
  | [] => .ok ()
  | r :: _ =>
    .stop { c with sp := { c.sp with tregErr := setBit c.sp.tregErr 0, parityCount := inc c.sp.parityCount } }
      0x22 (r / 64 * 2 ^ 28 + r % 64 * 2 ^ 22)

/-- `n` bytes of a row from byte `off`, with parity checked. -/
def Core.trRead (c : Core) (t row off n : Nat) : Eff (List Byte) :=
  (c.parityOk t row off n).bind fun _ => .ok (Mem.readBytes c.mem.treg (tregAddr t row + off) n)

/-- The tag of a row. -/
def Core.rowTag (c : Core) (t row : Nat) : Nat := Tbl.num c.mem.rowTag (t * 64 + row)

/-- The parity of the words and of the row tags that a write of bits `b` to `b + len − 1` of the tile registers touches
is written with it (R178). -/
def CoreMem.reparity (m : CoreMem) (b len : Nat) : CoreMem :=
  { m with
    tregBad := m.tregBad.filter (fun w => !(decide (b < w * 32 + 32) && decide (w * 32 < b + len)))
    tagBad := m.tagBad.filter (fun r => !(decide (b < r * 4096 + 4096) && decide (r * 4096 < b + len))) }

/-- A write of bytes to the tile registers: a row covered whole takes the tag, a row covered in part ORs it
in (R177); parity is written with the data. -/
def Core.trStore (c : Core) (a : Nat) (b : List Byte) (tag : Nat) : Core :=
  { c with mem := { c.mem.reparity (8 * a) (8 * b.length) with
      treg := Mem.writeBytes c.mem.treg a b
      rowTag := unitTags 512 c.mem.rowTag (8 * a) (8 * b.length) tag } }

/-- A write to a row from byte `off`. -/
def Core.trWrite (c : Core) (t row off : Nat) (b : List Byte) (tag : Nat) : Core :=
  c.trStore (tregAddr t row + off) b tag

/-- Rows `row` to `row + n − 1` of register `t` exist (R175, R182). -/
def Core.tregRange (c : Core) (t row n : Nat) : Eff Unit :=
  if 15 < t then .stop c 0x03 (3 * 2 ^ 28 + (t % 16) * 2 ^ 24 + (row % 256) * 2 ^ 16)
  else if 63 < row then .stop c 0x03 (1 * 2 ^ 28 + t * 2 ^ 24 + (row % 256) * 2 ^ 16)
  else if 64 < row + n then .stop c 0x03 (2 * 2 ^ 28 + t * 2 ^ 24 + row * 2 ^ 16)
  else .ok ()

end Sys2Proof.Machine
end

