-- ==== Sys2Proof/Machine/Engine.lean ====
section
/-! DEFINITION. The compute array (02): the column map, cells as they read, weights and row residues, the
input stage, the pass result of a plane and the bellwether check. -/
namespace Sys2Proof.Machine
open Sys2Proof

/-! ### The column map (R35, R36) -/

/-- The physical columns of an engine that are in use order: those not passed over at start. -/
def Engine.columns (g : Engine) : List Nat := (List.range 268).filter (fun c => !g.skipped.contains c)

/-- The physical column of logical column slot `s`. -/
def Engine.physCol (g : Engine) (s : Nat) : Nat := (Tbl.get g.moved s).getD (at' g.columns s 268)

/-- The spare columns left (R36, R83). -/
def Engine.spareCols (g : Engine) : Nat := g.columns.length - 264 - g.substs

/-- The engine after slot `s` takes the lowest-numbered remaining spare (R36). -/
def Engine.substColumn (g : Engine) (s : Nat) : Engine :=
  { g with moved := Tbl.set g.moved s (at' g.columns (264 + g.substs) 268), substs := g.substs + 1 }

/-! ### Cells, weights and residues (R39, R63) -/

/-- Outputs of a pass of a plane of the format (R39): 256 columns over the weight's width. -/
def Fmt.outputs (f : Fmt) : Nat := 256 / f.width

/-- The weight of output `n` in the data bits of a row (R39). -/
def rowWeight (f : Fmt) (row n : Nat) : Int := signedVal f.width (row / 2 ^ (n * f.width))

/-- The row residue c(i): the sum of the row's weights modulo 255 (R63). -/
def rowResidue (f : Fmt) (data : Nat) : Nat :=
  (((List.range f.outputs).foldl (fun (a : Int) n => a + rowWeight f data n) 0).emod 255).toNat

/-- A row as it is written: data bits and the residue in bits 256 to 263. -/
def rowWithResidue (f : Fmt) (data : Nat) : Nat := data % 2 ^ 256 + rowResidue f data * 2 ^ 256

/-- The plane holds no span: it is EMPTY, or FENCED for a doubt of an EMPTY one (R42, R68, R385). -/
def Plane.bare (p : Plane) : Bool := p.spans.isEmpty && p.dyn.isNone

/-- The 264 bits written in row `r` of a plane; an EMPTY plane holds the filler, read as INT8 (R42). -/
def Plane.written' (p : Plane) (r : Nat) : Nat :=
  if p.st = .empty ∨ (p.st = .fenced ∧ p.bare) then rowWithResidue .int8 (Config.filler r) else Tbl.num p.rows r

/-- Bit `s` of a row replaced. -/
def putBit (row s : Nat) (v : Bool) : Nat := row - flag (bitAt row s) * 2 ^ s + flag v * 2 ^ s

/-- The 264 bits that row `r` of plane `p` reads: stuck cells read their fixed value (R67). -/
def Engine.readRow (g : Engine) (p r : Nat) : Nat :=
  (g.stuck.filter (fun c => c.plane == p && c.row == r)).foldl (fun row c =>
    match (List.range 264).find? (fun s => g.physCol s == c.col) with
    | some s => putBit row s c.val
    | none => row) ((g.plane p).written' r)

/-- The rows of a plane that may hold or read anything but zero. -/
def Engine.liveRows (g : Engine) (p : Nat) : List Nat :=
  let a := (g.plane p).rows.map (·.1)
  a ++ ((g.stuck.filter (fun c => c.plane == p && !a.contains c.row)).map (·.row)).eraseDups

/-- The rows of plane `p` with cells that read the opposite of what is written: (row, slot, value read). -/
def Engine.mismatches (g : Engine) (p : Nat) : List (Nat × Nat × Bool) :=
  ((g.stuck.filter (fun c => c.plane == p)).filterMap (fun c =>
    match (List.range 264).find? (fun s => g.physCol s == c.col) with
    | some s => if bitAt ((g.plane p).written' c.row) s == c.val then none else some (c.row, s, c.val)
    | none => none))

/-! ### The pass result (R52 to R54) and the check (R64) -/

/-- The signed sums of the rows in `rows`: Σ x(i)·W(i, n). -/
def dot (f : Fmt) (read : Nat → Nat) (x : Nat → Int) (rows : List Nat) (n : Nat) : Int :=
  rows.foldl (fun a i => a + x i * rowWeight f (read i) n) 0

/-- Σ x(i)·c(i) over the rows, with c(i) as the bellwether columns read. -/
def dotResidue (read : Nat → Nat) (x : Nat → Int) (rows : List Nat) : Int :=
  rows.foldl (fun a i => a + x i * ((read i / 2 ^ 256 % 256 : Nat) : Int)) 0

/-- The largest exponent among the blocks that contribute (R54 step 2): blocks with a non-zero mantissa. -/
def emaxOf (x : Nat → Int) (exps : List Nat) : Option Nat :=
  (List.range 8).foldl (fun a t =>
    if (List.range 64).any (fun i => x (64 * t + i) != 0) then
      some (max (a.getD 0) (at' exps t 0)) else a) none

/-- The shift of block `t`, or none when it is all zero or flushed (R54 step 3). -/
def blockShift (x : Nat → Int) (exps : List Nat) (emax t : Nat) : Option Nat :=
  if (List.range 64).any (fun i => x (64 * t + i) != 0) ∧ emax ≤ at' exps t 0 + 15 then
    some (at' exps t 0 + 15 - emax) else none

/-- The blocks flushed by a BFP12 pass (R54 step 3, R55). -/
def flushCount (x : Nat → Int) (exps : List Nat) : Nat :=
  match emaxOf x exps with
  | none => 0
  | some em => ((List.range 8).filter (fun t =>
      (List.range 64).any (fun i => x (64 * t + i) != 0) && (blockShift x exps em t).isNone)).length

/-- What one plane gives for one input vector: the outputs as exact integers with their scale, 2^`scale`
times the integer (0 and unused for integer passes), and whether the check is good. -/
structure PlaneResult where
  ys    : List Int
  scale : Int
  good  : Bool

/-- The signed distance of (A − B) mod 255, in −127 to +127 (R64). -/
def residueDistance (a b : Int) : Int :=
  let d := (a - b).emod 255
  if 127 < d then d - 255 else d

/-- What the errors of array logic add to output `n` of a plane, or at the number of outputs to the residue sum (R67). -/
def errAt (errs : List (Nat × Int)) (n : Nat) : Int :=
  (errs.filter (fun x => x.1 == n)).foldl (fun a x => a + x.2) 0

/-- The errors of array logic in engine `e`. -/
def errsOf (errs : List ArrayErr) (e : Nat) : List (Nat × Int) :=
  (errs.filter (fun x => x.e == e)).map (fun x => (x.n, x.delta))

/-- The pass result of a plane of format `f` with threshold `thr` whose rows read as `read` (R52, R54, R64), with the
errors `errs` of its sums (R67). -/
def planePass (f : Fmt) (thr : Nat) (read : Nat → Nat) (rows : List Nat) (bfp : Bool) (x : List Int)
    (exps : List Nat) (errs : List (Nat × Int)) : PlaneResult :=
  let xi (i : Nat) : Int := at' x i 0
  if bfp then
    match emaxOf xi exps with
    | none => ⟨List.replicate f.outputs 0, 0,
        decide ((residueDistance ((tabulate f.outputs (errAt errs)).foldl (· + ·) 0) (errAt errs f.outputs)).natAbs ≤ thr)⟩
    | some em =>
      let sh (i : Nat) : Int := match blockShift xi exps em (i / 64) with
        | some d => xi i * ((2 ^ d : Nat) : Int)
        | none => 0
      let ys := tabulate f.outputs (fun n => dot f read sh rows n + errAt errs n)
      ⟨ys, (em : Int) - 152,
        decide ((residueDistance (ys.foldl (· + ·) 0) (dotResidue read sh rows + errAt errs f.outputs)).natAbs ≤ thr)⟩
  else
    let ys := tabulate f.outputs (fun n => dot f read xi rows n + errAt errs n)
    ⟨ys, 0, decide ((residueDistance (ys.foldl (· + ·) 0) (dotResidue read xi rows + errAt errs f.outputs)).natAbs ≤ thr)⟩

/-- The pass of plane `p` of an engine on a vector. -/
def Engine.pass (g : Engine) (p : Nat) (bfp : Bool) (x : List Int) (exps : List Nat) (errs : List (Nat × Int)) : PlaneResult :=
  let pl := g.plane p
  planePass (pl.wfmt.getD .int8) pl.thr (g.readRow p) (g.liveRows p) bfp x exps errs

/-- An exact output as the 32-bit word of the result set: two's complement for an integer pass (R53), FP32
rounded once for a BFP12 pass (R54 step 5). -/
def resultWord (bfp : Bool) (scale y : Int) : Word :=
  if bfp then word (fp32Shape.round (decide (y < 0)) y.natAbs scale false).pat else BitVec.ofInt 32 y

/-! ### The input stage (R88, R91 to R93, R96) -/

/-- The BFP12 exponent of a block of values (R91 steps 1 and 2). -/
def blockExp (vals : List Val) : Nat :=
  vals.foldl (fun a v => match v with
    | .fin _ m e =>
      if m = 0 then a
      else max a (max 1 (e + (Nat.log2 m : Int) + 127).toNat)
    | _ => a) 0

/-- The mantissa of a value at block exponent `ex` (R91 step 3, R93). -/
def mantissa (ex : Nat) (v : Val) : Int :=
  match v with
  | .fin neg m e =>
    if m = 0 then 0
    else
      let k := e + 137 - (ex : Int)
      let n : Nat := if 0 ≤ k then m * 2 ^ k.toNat else shiftRound m (-k).toNat
      if neg then -(n : Int) else (n : Int)
  | _ => 0

/-- The tag bits of source elements: INF for an infinity, VOID for a NaN (R93). -/
def valTag (vals : List Val) : Nat :=
  vals.foldl (fun t v => match v with
    | .inf _ => t ||| 1
    | .nan => t ||| 2
    | _ => t) 0

/-- The values a BFP12 pass converts, in blocks of 64: exponents and mantissas. -/
def toBfp (vals : List Val) : List Int × List Nat :=
  let blk (t : Nat) := slice' vals (64 * t) 64
  let exps := tabulate 8 (fun t => blockExp (blk t))
  (vals.mapIdx (fun i v => mantissa (at' exps (i / 64) 0) v), exps)
where
  slice' (l : List Val) (off len : Nat) : List Val := (l.drop off).take len

/-- The input codebook's value for a code (R96). -/
def codebookVal (cb : List Nat) (code : Nat) : Int := signedVal 8 (at' cb code 0)

/-- The input vector of a pass: row values with masked rows 0, block exponents, and the tag of infinities and
NaNs (R88, R91 to R93). `keep i` tells that row `i` is not masked. -/
def inputVector (f : Fmt) (cb : List Nat) (codes : List Nat) (keep : Nat → Bool) : List Int × List Nat × Nat :=
  match f.shape? with
  | some sh =>
    let vals := codes.mapIdx (fun i w => if keep i then sh.decode w else .fin false 0 0)
    let r := toBfp vals
    (r.1, r.2, valTag vals)
  | none =>
    (codes.mapIdx (fun i w => if keep i then
        (if f = .cb4 ∨ f = .cb8 then codebookVal cb w else f.intVal w) else 0), [], 0)

end Sys2Proof.Machine
end

