-- ==== Sys2Proof/Machine/NearUnit.lean ====
section
/-! DEFINITION. The FINAL route of the near unit (03 R97 to R114): scale, activation, pooling and encoding of
one output. Words of an integer slot are ACC32 codes, words of an FP32 slot FP32 patterns. -/
namespace Sys2Proof.Machine
open Sys2Proof

/-! ### Fields of the configuration words (R98) -/

/-- `MULT` and `SHIFT` of scale register `n`. -/
def NearUnit.mult (u : NearUnit) (n : Nat) : Nat := bits (at' u.scale n 0) 29 6
def NearUnit.shift (u : NearUnit) (n : Nat) : Nat := bits (at' u.scale n 0) 5 0

/-- Zero-point register `n`. -/
def NearUnit.zero (u : NearUnit) (n : Nat) : Int := signedVal 16 (at' u.zp n 0)

/-- The fields of the activation control word. -/
def NearUnit.poolw (u : NearUnit) : Nat := bits u.act.toNat 23 20 + 1
def NearUnit.pool (u : NearUnit) : Nat := bits u.act.toNat 19 18
def NearUnit.gsh (u : NearUnit) : Nat := bits u.act.toNat 17 13
def NearUnit.inshift (u : NearUnit) : Nat := bits u.act.toNat 12 8
def NearUnit.leakk (u : NearUnit) : Nat := bits u.act.toNat 7 4
def NearUnit.func (u : NearUnit) : Nat := bits u.act.toNat 2 0

/-- The fields of the output control word. -/
def NearUnit.bankB (u : NearUnit) : Bool := bitAt u.outctl.toNat 8
def NearUnit.outfmt (u : NearUnit) : Nat := bits u.outctl.toNat 7 4

/-- The active threshold bank (R101). -/
def NearUnit.active (u : NearUnit) : Bank := if u.bankB then u.cbB else u.cbA

/-! ### Tags -/

/-- INF for an infinity, VOID for VOID or a NaN, of a word of a slot (R105). -/
def wordTag (isFp : Bool) (w : Word) : Nat :=
  if isFp then
    match fp32Shape.decode w.toNat with
    | .nan => 2
    | .inf _ => 1
    | .fin _ _ _ => 0
  else
    match Acc.decode w.toNat with
    | .void => 2
    | .inf _ => 1
    | .fin _ => 0

/-! ### Scale (R102, R103) -/

/-- The scaled value of output `n`. -/
def scaleWord (isFp : Bool) (u : NearUnit) (n : Nat) (w : Word) : Word :=
  if isFp then
    word (fp32Shape.result ((fp32Shape.decode w.toNat).mul (.fin false (u.mult n) (-(u.shift n : Int))))).pat
  else
    match Acc.decode w.toNat with
    | .fin v => word (Acc.ofInt (roundShift (v * (u.mult n : Int)) (u.shift n))).encode
    | _ => w

/-! ### Activation (R104, R105) -/

/-- Segment `s` of the piecewise-linear table: `SLOPE` and `BASE`. -/
def NearUnit.slope (u : NearUnit) (s : Nat) : Int := signedVal 16 (bits (at' u.pwl s 0) 47 32)
def NearUnit.pwlBase (u : NearUnit) (s : Nat) : Int := signedVal 32 (bits (at' u.pwl s 0) 31 0)

/-- CLAMP on an integer slot: a VOID bound does not limit. -/
def clampAcc (u : NearUnit) (v : Acc) : Acc :=
  let lo := Acc.decode u.lo.toNat
  let hi := Acc.decode u.hi.toNat
  match v with
  | .void => .void
  | .inf false => if hi = .void then .inf false else hi
  | .inf true => if lo = .void then .inf true else lo
  | .fin x =>
    let a := if lo ≠ .void ∧ x < lo.key then lo else .fin x
    if hi ≠ .void ∧ hi.key < a.key then hi else a

/-- CLAMP on an FP32 slot: a NaN bound does not limit. -/
def clampFp (u : NearUnit) (w : Word) : Word :=
  let lo := u.lo.toNat
  let hi := u.hi.toNat
  match fp32Shape.decode w.toNat with
  | .nan => w
  | .inf false => if fp32Shape.isNan hi then w else u.hi
  | .inf true => if fp32Shape.isNan lo then w else u.lo
  | .fin _ _ _ =>
    let a := if fp32Shape.lt w.toNat lo then u.lo else w
    if fp32Shape.lt hi a.toNat then u.hi else a

/-- PWL of a finite value (R104, R105). -/
def pwlVal (u : NearUnit) (v : Int) : Acc :=
  let seg := v.fdiv ((2 ^ u.inshift : Nat) : Int) + 128
  let s : Nat := if seg < 0 then 0 else if 255 < seg then 255 else seg.toNat
  let xs := ((s : Int) - 128) * ((2 ^ u.inshift : Nat) : Int)
  Acc.ofInt (u.pwlBase s + roundShift (u.slope s * (v - xs)) u.gsh)

/-- The activated value (R104); RELU keeps −0 (DESIGN CHOICE, log 112). -/
def activate (isFp : Bool) (u : NearUnit) (w : Word) : Word :=
  if isFp then
    match u.func with
    | 1 => (match fp32Shape.decode w.toNat with
      | .nan => w
      | .inf neg => if neg then 0 else w
      | .fin neg m _ => if neg ∧ m ≠ 0 then 0 else w)
    | 2 => clampFp u w
    | 3 => (match fp32Shape.decode w.toNat with
      | .fin neg m e => if neg ∧ m ≠ 0 then word (fp32Shape.round neg m (e - (u.leakk : Int)) false).pat else w
      | _ => w)
    | _ => w
  else
    let v := Acc.decode w.toNat
    word (match u.func with
      | 1 => (match v with
        | .fin x => Acc.fin (if x < 0 then 0 else x)
        | .inf true => .fin 0
        | _ => v)
      | 2 => clampAcc u v
      | 3 => (match v with
        | .fin x => if x < 0 then .fin (roundShift x u.leakk) else v
        | _ => v)
      | 4 => (match v with
        | .fin x => pwlVal u x
        | .inf false => Acc.ofInt (u.pwlBase 255)
        | .inf true => Acc.ofInt (u.pwlBase 0)
        | .void => .void)
      | _ => v).encode

/-! ### Pooling (R106, R107) -/

/-- A key that orders FP32 patterns that are no NaN, −0 below +0. -/
def fpTotalKey (w : Nat) : Int := if fp32Shape.neg w then -(fp32Shape.mag w : Int) - 1 else (fp32Shape.mag w : Int)

/-- MAX of the members (R107): the largest, also of a window that holds both infinities (DEDUCED, log 112). -/
def poolMax (isFp : Bool) (ws : List Word) : Word :=
  if isFp then
    if ws.any (fun w => fp32Shape.isNan w.toNat) then word fp32Shape.nanPat
    else ws.foldl (fun a w => if fpTotalKey a.toNat < fpTotalKey w.toNat then w else a) (ws.headD 0)
  else
    if ws.any (fun w => Acc.decode w.toNat == .void) then word Acc.void.encode
    else ws.foldl (fun a w => if (Acc.decode a.toNat).key < (Acc.decode w.toNat).key then w else a) (ws.headD 0)

/-- AVERAGE of the members: the exact sum divided once (R107). -/
def poolAvg (isFp : Bool) (ws : List Word) : Word :=
  if isFp then
    match ws.foldl (fun (a : Val) w => (a.add (fp32Shape.decode w.toNat)).1) (Val.fin true 0 0) with
    | .fin neg m e =>
      let n := ws.length
      word (fp32Shape.round neg (m * 2 ^ 64 / n) (e - 64) (m * 2 ^ 64 % n != 0)).pat
    | v => word (fp32Shape.encode v).pat
  else
    let vs := ws.map (fun w => Acc.decode w.toNat)
    word (if vs.contains .void ∨ (vs.contains (.inf false) ∧ vs.contains (.inf true)) then Acc.void
      else if vs.contains (.inf false) then .inf false
      else if vs.contains (.inf true) then .inf true
      else .fin (roundDiv (vs.foldl (fun a v => a + v.key) 0) ws.length)).encode

/-- The pooled value of one output. -/
def poolWord (isFp : Bool) (u : NearUnit) (ws : List Word) : Word :=
  if u.pool = 2 then poolAvg isFp ws else poolMax isFp ws

/-! ### Encoding (R109 to R113) -/

/-- Formats that a FINAL of the slot's kind may produce (R90, R113). -/
def outAllowed (isFp : Bool) (f : Fmt) : Bool :=
  if isFp then f.shape?.isSome
  else match f with
    | .int4 | .uint4 | .int8 | .uint8 | .cb4 | .cb8 | .acc32 => true
    | _ => false

/-- The codebook encoder: the number of thresholds at or below the value (R109, R110). -/
def encodeCodebook (b : Bank) (v : Acc) : Nat :=
  match v with
  | .void => 0
  | .inf true => 0
  | .inf false => b.nth
  | .fin x => ((b.ths.take b.nth).filter (fun t => decide (t.toInt ≤ x))).length

/-- The fall-back to an integer format (R111). -/
def encodeInt (f : Fmt) (zp : Int) (v : Acc) : Nat :=
  let cl (x : Int) : Nat := pattern f.width (if x < f.lo then f.lo else if f.hi < x then f.hi else x)
  match v with
  | .void => cl zp
  | .inf true => pattern f.width f.lo
  | .inf false => pattern f.width f.hi
  | .fin x => cl (x + zp)

/-- The code of a finished output and the tag that the encoding sets (R109 to R112). -/
def encodeOut (isFp : Bool) (u : NearUnit) (n : Nat) (f : Fmt) (w : Word) : Nat × Nat :=
  if isFp then
    match f.shape? with
    | some sh =>
      let r := sh.encode (fp32Shape.decode w.toNat)
      let t := wordTag true w
      (r.pat, if t = 0 ∧ r.flags / 4 % 2 = 1 then 1 else t)
    | none => (0, 0)
  else
    let v := Acc.decode w.toNat
    let t := wordTag false w
    match f with
    | .cb4 | .cb8 => (encodeCodebook u.active v, t)
    | .acc32 => (w.toNat, t)
    | _ => (encodeInt f (u.zero n) v, t)

/-- The halts of the FINAL route that the near unit's configuration decides (R104, R109, R113, R261):
reason and detail. For PWL on an FP32 slot the detail names the code of `OUTFMT` (DESIGN CHOICE, log 112). -/
def finalFault (isFp : Bool) (u : NearUnit) (yfmt : Nat) : Option (Nat × Nat) :=
  let place (p c : Nat) := some (0x10, p * 2 ^ 28 + c * 2 ^ 24)
  match Fmt.ofCode u.outfmt with
  | none => place 4 u.outfmt
  | some f =>
    if !outAllowed isFp f then place 4 u.outfmt
    else if u.outfmt ≠ yfmt then place 4 u.outfmt
    else if isFp ∧ u.func = 4 then place 5 u.outfmt
    else if f = .cb4 ∧ 15 < u.active.nth then place 3 6
    else none

end Sys2Proof.Machine
end

