-- ==== Sys2Proof/Machine/Operands.lean ====
section
/-! DEFINITION. The fields of Mehros words (07 R212, R222 to R228) and the detail word of a field fault
(R249). -/
namespace Sys2Proof.Machine
open Sys2Proof

/-- Bits `hi` to `lo` of the head word. -/
def MInstr.h (i : MInstr) (hi lo : Nat) : Nat := bits i.head.toNat hi lo

/-- Bits `hi` to `lo` of descriptor word `n`, counting from 1. -/
def MInstr.d (i : MInstr) (n hi lo : Nat) : Nat := bits (at' i.desc (n - 1) 0).toNat hi lo

/-! ### The head word (R212) -/

def MInstr.op (i : MInstr) : Nat := i.h 127 120
def MInstr.we (i : MInstr) : Bool := i.h 119 119 == 1
def MInstr.wctr (i : MInstr) : Nat := i.h 118 113
def MInstr.wval (i : MInstr) : Nat := i.h 112 97
def MInstr.se (i : MInstr) : Bool := i.h 96 96 == 1
def MInstr.sctr (i : MInstr) : Nat := i.h 95 90
def MInstr.sinc (i : MInstr) : Nat := i.h 89 86

/-! ### Layout S (R222) -/

def MInstr.sRD (i : MInstr) : Nat := i.h 85 80
def MInstr.sRA (i : MInstr) : Nat := i.h 79 76
def MInstr.sRB (i : MInstr) : Nat := i.h 75 72
def MInstr.sSUB (i : MInstr) : Nat := i.h 71 68
def MInstr.sAS (i : MInstr) : Bool := i.h 67 67 == 1
def MInstr.sBI (i : MInstr) : Bool := i.h 66 66 == 1
def MInstr.sIMM (i : MInstr) : Nat := i.h 63 32
def MInstr.sOFF (i : MInstr) : Nat := i.h 31 0

/-! ### Layout X (R223) -/

def MInstr.xDIR (i : MInstr) : Bool := i.h 85 85 == 1
def MInstr.xRA (i : MInstr) : Nat := i.h 84 81
def MInstr.xTREG (i : MInstr) : Nat := i.h 80 77
def MInstr.xROW (i : MInstr) : Nat := i.h 76 71
def MInstr.xNROWS (i : MInstr) : Nat := i.h 70 65 + 1
def MInstr.xSTRIDE (i : MInstr) : Nat := i.h 64 50
def MInstr.xSLT (i : MInstr) : Bool := i.h 49 49 == 1
def MInstr.xSLOT (i : MInstr) : Nat := i.h 48 39

/-! ### Layout C (R224) -/

def MInstr.cRA (i : MInstr) : Nat := i.h 85 82
def MInstr.cE (i : MInstr) : Nat := i.h 81 58
def MInstr.cFMT (i : MInstr) : Nat := i.h 57 54
def MInstr.cREL (i : MInstr) : Nat := i.h 53 51
def MInstr.cSD (i : MInstr) : Nat := i.h 50 48
def MInstr.cVALUE (i : MInstr) : Nat := i.h 47 16

/-! ### Layout D (R225) -/

def MInstr.dDRANK (i : MInstr) : Nat := i.h 85 76
def MInstr.dWIN (i : MInstr) : Nat := i.h 75 73
def MInstr.dWOFF (i : MInstr) : Nat := i.h 72 58
def MInstr.dLEN (i : MInstr) : Nat := i.h 57 43 + 1
def MInstr.dRA (i : MInstr) : Nat := i.h 42 39

/-! ### Layout E (R226) -/

def MInstr.eRA (i : MInstr) : Nat := i.h 85 82
def MInstr.eRB (i : MInstr) : Nat := i.h 81 78
def MInstr.eLEN (i : MInstr) : Nat := i.h 77 62 + 1

/-! ### Layout G (R227) -/

def MInstr.gEMASK (i : MInstr) : Nat := i.h 85 54
def MInstr.gITEM (i : MInstr) : Nat := i.h 53 50
def MInstr.gWORD (i : MInstr) : Nat := i.h 49 18
def MInstr.gHANDLE (i : MInstr) : Nat := i.h 49 34
def MInstr.gTIDX (i : MInstr) : Nat := i.h 33 18

/-! ### Layout M (R228) -/

def MInstr.mHANDLE (i : MInstr) : Nat := i.h 85 70
def MInstr.mSLOT (i : MInstr) : Nat := i.h 69 60
def MInstr.mCIN (i : MInstr) : Bool := i.h 59 59 == 1
def MInstr.mCOUT (i : MInstr) : Bool := i.h 58 58 == 1
def MInstr.mNDESC (i : MInstr) : Nat := i.h 57 56
def MInstr.mVOP (i : MInstr) : Nat := i.h 55 48
def MInstr.mCTREG (i : MInstr) : Nat := i.h 47 44
def MInstr.mHREG (i : MInstr) : Bool := i.h 43 43 == 1

/-- The queue an opcode runs in, by its code (R242); 0 for the control core (R229). -/
def queueOf (op : Nat) : Nat :=
  if op < 0x20 then 0 else if op < 0x40 then 1 else if op < 0x60 then 2 else if op < 0x80 then 3 else 4

/-- The entries of a queue (R242). -/
def queueDepth (q : Nat) : Nat := if q = 4 then 16 else 64

/-- The detail word of FIELD_INVALID: word 0 is the head, 1 to 3 a descriptor; the field's lowest bit. -/
def fieldDetail (w bit : Nat) : Nat := w * 2 ^ 30 + bit * 2 ^ 23

/-- A macro-instruction (R228): MATMUL to COMBINE, VEC, REDUCE, MOVE. -/
def isMacro (op : Nat) : Bool :=
  op == 0x28 || op == 0x29 || op == 0x2A || op == 0x2B || op == 0x48 || op == 0x49 || op == 0x68

/-- The descriptor that is a macro's PLAN word, 0 for none (R256). -/
def planWord (op : Nat) : Nat := if op = 0x28 then 2 else if op = 0x29 then 3 else if op = 0x2B then 1 else 0

/-- A register's value as captured when the entry was pushed (R220). -/
def QEntry.reg (e : QEntry) (r : Nat) : Nat := (at' e.regs r (0 : Word)).toNat

/-- The handle a macro names: `HANDLE`, or the low 16 bits of the register under `HREG` (R228, R231). -/
def QEntry.handle (e : QEntry) : Nat :=
  if e.ins.mHREG then e.reg (e.ins.mHANDLE % 16) % 65536 else e.ins.mHANDLE

/-- The value of a layout S queued instruction: `IMM` or A[`RA`] (R222). -/
def QEntry.value (e : QEntry) : Nat := if e.ins.sBI then e.ins.sIMM else e.reg e.ins.sRA

end Sys2Proof.Machine
end

