-- ==== Sys2Proof/Machine/Control.lean ====
section
/-! DEFINITION. The instructions of the control core (07 R229 to R240): the instruction that is due, its wait
and signal, its effect, and the end of loop bodies. -/
namespace Sys2Proof.Machine
open Sys2Proof

/-- The version of a routine that was current at commit number `ep` (R202). -/
def Routine.at (r : Routine) (ep : Nat) : Option Version :=
  r.versions.find? (fun v => decide (v.from_ ≤ ep) && match v.until_ with
    | none => true
    | some u => decide (ep < u))

/-- The routine version that a `CALL` of `name` for the frame `e` enters (R202, R206). -/
def State.routineFor (s : State) (e : Entry) (name : Nat) : Option Version :=
  (s.routines.find? (fun r => r.name == name && r.tenant == e.tenant)).bind (fun r => r.at (e.epoch.getD 0))

/-- The ledger entry whose frame runs on a core. -/
def State.frameOf (s : State) (c : Core) : Option Entry := c.entry.bind s.entry?

/-- The code of context `ctx` for the frame on a core: the frame's own program for 0, a routine otherwise
(R210, R239). -/
def State.code (s : State) (c : Core) (ctx : Nat) : List MInstr :=
  match s.frameOf c with
  | none => []
  | some e => if ctx = 0 then e.frame.prog else ((s.routineFor e ctx).map (·.code)).getD []

/-- The instruction that the control core is due to issue. -/
def State.due (s : State) (c : Core) : Option MInstr :=
  if c.st = .run then (s.code c c.ctl.ctx)[c.ctl.pc]? else none

/-! ### A registers -/

/-- A[`r`]. -/
def Core.a (c : Core) (r : Nat) : Word := at' c.ctl.a r 0

/-- S[`r`]. -/
def Core.sr (c : Core) (r : Nat) : Word := at' c.ctl.sreg r 0

/-- `c` with A[`r`] written. -/
def Core.setA (c : Core) (r : Nat) (v : Word) : Core := { c with ctl := { c.ctl with a := c.ctl.a.set r v } }

/-- `c` with S[`r`] written. -/
def Core.setS (c : Core) (r : Nat) (v : Word) : Core :=
  { c with ctl := { c.ctl with sreg := c.ctl.sreg.set r v } }

/-- `c` with the next instruction at index `n`. -/
def Core.jump (c : Core) (n : Nat) : Core := { c with ctl := { c.ctl with pc := n } }

/-- The next instruction in line. -/
def Core.nextPc (c : Core) : Core := c.jump (c.ctl.pc + 1)

/-- The second source of a layout S instruction: `IMM` or A[`RB`]. -/
def Core.second (c : Core) (i : MInstr) : Word := if i.sBI then word i.sIMM else c.a i.sRB

/-- The single value of a layout S instruction: `IMM` or A[`RA`]. -/
def Core.single (c : Core) (i : MInstr) : Word := if i.sBI then word i.sIMM else c.a i.sRA

/-- The core halts for the instruction it issues (R247). -/
def Core.haltHere (c : Core) (reason detail : Nat) : Core :=
  c.halt c.ctl.ctx c.ctl.pc c.ctl.calls.length reason detail

/-! ### Loops (R233 to R236) -/

/-- Loop levels open in the callers of the current routine. -/
def Core.outerLoops (c : Core) : Nat := match c.ctl.calls with
  | [] => 0
  | r :: _ => r.loops

/-- The innermost loop level open in the current routine or program; levels are listed innermost first. -/
def Core.ownLoop (c : Core) : Option LoopLv :=
  if c.outerLoops < c.ctl.loops.length then c.ctl.loops.head? else none

/-- The AINC stride of register `r` at level `l`. -/
def Core.stride (c : Core) (r l : Nat) : Word := at' c.ctl.ainc (r * 4 + l) 0

/-- The A registers with the strides of level `l` added (R235 step 1). -/
def Core.strided (c : Core) (l : Nat) : List Word := c.ctl.a.mapIdx (fun r v => v + c.stride r l)

/-- The A registers of level `l` restored to the saved ones where their stride is not zero (R235 step 3). -/
def Core.restored (c : Core) (l : Nat) (saved : List Word) : List Word :=
  c.ctl.a.mapIdx (fun r v => if c.stride r l = 0 then v else at' saved r v)

/-- The innermost level closes, and execution continues after its body (R235 step 3, R236). -/
def Core.closeLoop (c : Core) (lv : LoopLv) : Core :=
  { c with ctl := { c.ctl with
      a := c.restored (c.ctl.loops.length - 1) lv.saved
      loops := c.ctl.loops.tail
      pc := lv.last + 1 } }

/-- The ends of loop bodies that control has reached, one after the other (R235, R238). -/
def Core.loopEnds : Nat → Core → Core
  | 0, c => c
  | n + 1, c =>
    match c.ownLoop with
    | some lv =>
      if c.ctl.pc = lv.last + 1 then
        let c1 := { c with ctl := { c.ctl with a := c.strided (c.ctl.loops.length - 1) } }
        if 1 < lv.count then
          { c1 with ctl := { c1.ctl with
              loops := { lv with count := lv.count - 1 } :: c.ctl.loops.tail
              pc := lv.first } }
        else Core.loopEnds n (c1.closeLoop lv)
      else c
    | none => c

/-- What follows an issued instruction: ends of loop bodies, then PC_RANGE when execution has run past the
last instruction of the image (R238; its record names the index past the end, DEDUCED, log 16). -/
def State.advance (s : State) (c : Core) : Core :=
  let c1 := Core.loopEnds 5 c
  let n := (s.code c1 c1.ctl.ctx).length
  if c1.st = .run ∧ n ≤ c1.ctl.pc then c1.haltHere 0x08 n else c1

/-! ### Issue -/

/-- The frame's stop names the instruction that is due (R250, R251). -/
def State.atStop (s : State) (c : Core) : Option Nat :=
  match s.frameOf c with
  | some e =>
    match e.op with
    | .run b =>
      if b.stopCount ≠ 0 ∧ b.stopCtx = c.ctl.ctx ∧ b.stopIndex = c.ctl.pc then some b.stopCount else none
    | _ => none
  | none => none

/-- The core meets its stop: it issues nothing more (R251). -/
def State.meetStop (s : State) (k : Nat) : State :=
  let c := s.core k
  let s1 := s.setCore k { c with st := .stopping, ctl := { c.ctl with stall := none } }
  match c.entry with
  | some q => s1.modEntry q (fun e => { e with frame := { e.frame with stopped := c.rank :: e.frame.stopped } })
  | none => s1

/-- Nothing that core `k` issued is left: queues, started instructions, deposits (R240, R251). -/
def State.drained (s : State) (k : Nat) : Bool :=
  let c := s.core k
  c.q.mx.isEmpty && c.q.vx.isEmpty && c.q.mv.isEmpty && c.q.cf.isEmpty && c.q.flights.isEmpty &&
    !(s.deposits.any (sentBy k))

/-- The program ends on a core that waits under R240, or the core stops under R251, once nothing it issued
is left. -/
def State.settle (s : State) (k : Nat) : State :=
  let c := s.core k
  if s.drained k then
    if c.st = .draining then s.setCore k { c with st := .ended }
    else if c.st = .stopping then
      s.setCore k { c with st := .stopped, prog := { c.prog with stopCount := inc c.prog.stopCount } }
    else s
  else s

/-- The core after it issued `i`: its own halt, or its signal (R215), then the advance. -/
def State.issued (s : State) (k : Nat) (i : MInstr) (c0 c1 : Core) : State :=
  if c1.st = .halted then { s.setCore k c1 with deposits := dropDeposits k s.deposits }
  else
    let s1 := s.setCore k c1
    let s2 := if i.se && queueOf i.op == 0 then
      s1.signal k i.sctr (i.sinc + 1) c0.ctl.ctx c0.ctl.pc c0.ctl.calls.length else s1
    let c2 := s2.core k
    if c2.st = .run then
      let c3 := s2.advance c2
      if c3.st = .halted then { s2.setCore k c3 with deposits := dropDeposits k s2.deposits }
      else s2.setCore k c3
    else s2

/-- The instruction counts towards the frame's stop when it issues (R251). -/
def State.countStop (s : State) (c : Core) : Core :=
  if (s.atStop c).isSome then { c with ctl := { c.ctl with stopSeen := c.ctl.stopSeen + 1 } } else c

/-- The control core of `k` issues the instruction that is due when it is one that `isOp` accepts: the stop
is met first (DEDUCED, log 17), a wait that is not satisfied stalls the stream (R214), and otherwise `body` is its
effect. Any other instruction due: nothing happens (DESIGN CHOICE, log 18). -/
def State.ccIssue (s : State) (k : Nat) (isOp : MInstr → Bool) (body : MInstr → Core → Core) : State :=
  let c := s.core k
  match s.due c with
  | none => s
  | some i =>
    if !isOp i then s
    else match c.ctl.stall with
      | some (.wait _ _) => s
      | some (.window _) | some .ready =>
        let c1 := s.countStop { c with ctl := { c.ctl with stall := none } }
        s.issued k i c (body i c1)
      | none =>
        if s.atStop c = some (c.ctl.stopSeen + 1) then (s.meetStop k).settle k
        else if i.we && queueOf i.op == 0 then
          if c.waitOk i.wctr i.wval then s.issued k i c (body i (s.countStop (c.consume i.wctr i.wval)))
          else s.setCore k { c with ctl := { c.ctl with stall := some (.wait i.wctr i.wval) } }
        else s.issued k i c (body i (s.countStop c))

/-- The opcode is `n`. -/
def hasOp (n : Nat) (i : MInstr) : Bool := i.op == n

/-- A scalar instruction: A[`RD`] takes a value (R229). -/
def scalar (f : MInstr → Core → Word) (i : MInstr) (c : Core) : Core := (c.setA i.sRD (f i c)).nextPc

/-! ### The values of the scalar instructions (R221, R229) -/

def valLdi (i : MInstr) (_c : Core) : Word := word i.sIMM
def valAdd (i : MInstr) (c : Core) : Word := c.a i.sRA + c.second i
def valSub (i : MInstr) (c : Core) : Word := c.a i.sRA - c.second i
def valShl (i : MInstr) (c : Core) : Word := c.a i.sRA <<< ((c.second i).toNat % 32)
def valShr (i : MInstr) (c : Core) : Word := c.a i.sRA >>> ((c.second i).toNat % 32)
def valSra (i : MInstr) (c : Core) : Word := (c.a i.sRA).sshiftRight ((c.second i).toNat % 32)
def valMadd (i : MInstr) (c : Core) : Word :=
  c.a i.sRA + c.a i.sRB * BitVec.ofInt 32 (signedVal 16 i.sIMM)
def valMin (i : MInstr) (c : Core) : Word :=
  if (c.second i).toInt < (c.a i.sRA).toInt then c.second i else c.a i.sRA
def valMax (i : MInstr) (c : Core) : Word :=
  if (c.a i.sRA).toInt < (c.second i).toInt then c.second i else c.a i.sRA
def valAnd (i : MInstr) (c : Core) : Word := c.a i.sRA &&& c.second i
def valSmov (i : MInstr) (c : Core) : Word := c.sr (i.sRA % 8)

/-- The entries of queue `q` that are taken. -/
def Core.queue (c : Core) (q : Nat) : List QEntry :=
  match q with
  | 1 => c.q.mx
  | 2 => c.q.vx
  | 3 => c.q.mv
  | _ => c.q.cf

/-- `c` with queue `q` replaced. -/
def Core.setQueue (c : Core) (q : Nat) (l : List QEntry) : Core :=
  { c with q := match q with
      | 1 => { c.q with mx := l }
      | 2 => { c.q with vx := l }
      | 3 => { c.q with mv := l }
      | _ => { c.q with cf := l } }

/-- Free entries of the queue that `SUB` names (R229, R242). -/
def valQdepth (i : MInstr) (c : Core) : Word := word (queueDepth i.sSUB - (c.queue i.sSUB).length)

/-! ### The scalar rows -/

/-- NOP (R229). -/
def execNop (k : Nat) (s : State) : Host.Outcome State Fault Refusal :=
  answer (coreOk k) (s.ccIssue k (hasOp 0x00) (fun _ c => c.nextPc))
/-- LDI (R229). -/
def execLdi (k : Nat) (s : State) : Host.Outcome State Fault Refusal :=
  answer (coreOk k) (s.ccIssue k (hasOp 0x01) (scalar valLdi))
/-- ADD (R229). -/
def execAdd (k : Nat) (s : State) : Host.Outcome State Fault Refusal :=
  answer (coreOk k) (s.ccIssue k (hasOp 0x02) (scalar valAdd))
/-- SUB (R229). -/
def execSub (k : Nat) (s : State) : Host.Outcome State Fault Refusal :=
  answer (coreOk k) (s.ccIssue k (hasOp 0x03) (scalar valSub))
/-- SHL (R229). -/
def execShl (k : Nat) (s : State) : Host.Outcome State Fault Refusal :=
  answer (coreOk k) (s.ccIssue k (hasOp 0x04) (scalar valShl))
/-- SHR (R229). -/
def execShr (k : Nat) (s : State) : Host.Outcome State Fault Refusal :=
  answer (coreOk k) (s.ccIssue k (hasOp 0x05) (scalar valShr))
/-- SRA (R229). -/
def execSra (k : Nat) (s : State) : Host.Outcome State Fault Refusal :=
  answer (coreOk k) (s.ccIssue k (hasOp 0x06) (scalar valSra))
/-- MADD (R229). -/
def execMadd (k : Nat) (s : State) : Host.Outcome State Fault Refusal :=
  answer (coreOk k) (s.ccIssue k (hasOp 0x07) (scalar valMadd))
/-- MIN (R229). -/
def execMin (k : Nat) (s : State) : Host.Outcome State Fault Refusal :=
  answer (coreOk k) (s.ccIssue k (hasOp 0x08) (scalar valMin))
/-- MAX (R229). -/
def execMax (k : Nat) (s : State) : Host.Outcome State Fault Refusal :=
  answer (coreOk k) (s.ccIssue k (hasOp 0x09) (scalar valMax))
/-- AND (R229). -/
def execAnd (k : Nat) (s : State) : Host.Outcome State Fault Refusal :=
  answer (coreOk k) (s.ccIssue k (hasOp 0x0A) (scalar valAnd))
/-- SMOV (R229). -/
def execSmov (k : Nat) (s : State) : Host.Outcome State Fault Refusal :=
  answer (coreOk k) (s.ccIssue k (hasOp 0x0B) (scalar valSmov))
/-- QDEPTH (R229). -/
def execQdepth (k : Nat) (s : State) : Host.Outcome State Fault Refusal :=
  answer (coreOk k) (s.ccIssue k (hasOp 0x0C) (scalar valQdepth))

/-- The effect of SETINC: AINC[`RD`][`SUB`[1:0]] ← `IMM`. -/
def setincBody (i : MInstr) (c : Core) : Core :=
  { c with ctl := { c.ctl with ainc := c.ctl.ainc.set (i.sRD * 4 + i.sSUB % 4) (word i.sIMM) } }.nextPc

/-- SETINC (R229, R235). -/
def execSetinc (k : Nat) (s : State) : Host.Outcome State Fault Refusal :=
  answer (coreOk k) (s.ccIssue k (hasOp 0x0D) setincBody)

/-- The effect of CSET: C[`RD`] ← `IMM`[15:0]. -/
def csetBody (i : MInstr) (c : Core) : Core := (c.setCtr i.sRD (i.sIMM % 65536)).nextPc

/-- CSET (R229, R216). -/
def execCset (k : Nat) (s : State) : Host.Outcome State Fault Refusal :=
  answer (coreOk k) (s.ccIssue k (hasOp 0x0E) csetBody)

/-- The effect of LOOP (R233 to R235). -/
def loopBody (i : MInstr) (c : Core) : Core :=
  let count := if i.sBI then i.sIMM % 2 ^ 24 else (c.a i.sRA).toNat
  let last := c.ctl.pc + i.sOFF
  if 2 ^ 24 ≤ count then c.haltHere 0x02 (fieldDetail 0 76)
  else if (match c.ownLoop with
      | some lv => decide (lv.last < last)
      | none => false) then c.haltHere 0x0B (2 * 2 ^ 28)
  else if count = 0 then c.jump (last + 1)
  else if 4 ≤ c.ctl.loops.length then c.haltHere 0x0B (1 * 2 ^ 28)
  else { c with ctl := { c.ctl with
      loops := { first := c.ctl.pc + 1, last := last, count := count, saved := c.ctl.a } :: c.ctl.loops
      pc := c.ctl.pc + 1 } }

/-- LOOP (R233). -/
def execLoop (k : Nat) (s : State) : Host.Outcome State Fault Refusal :=
  answer (coreOk k) (s.ccIssue k (hasOp 0x10) loopBody)

/-- The effect of LBRK (R236). -/
def lbrkBody (_i : MInstr) (c : Core) : Core :=
  match c.ownLoop with
  | some lv => c.closeLoop lv
  | none => c.haltHere 0x0B (3 * 2 ^ 28)

/-- LBRK (R236). -/
def execLbrk (k : Nat) (s : State) : Host.Outcome State Fault Refusal :=
  answer (coreOk k) (s.ccIssue k (hasOp 0x11) lbrkBody)

/-- The effect of BR in an image of `n` instructions (R237, R238). -/
def brBody (n : Nat) (i : MInstr) (c : Core) : Core :=
  let x := if i.sAS then c.sr (i.sRA % 8) else c.a i.sRA
  if branchCond i.sSUB x.toNat (c.second i).toNat then
    let t : Int := (c.ctl.pc : Int) + signedVal 32 i.sOFF
    match c.ownLoop with
    | some lv =>
      if (lv.first : Int) ≤ t ∧ t ≤ (lv.last : Int) + 1 then c.jump t.toNat else c.haltHere 0x0B (4 * 2 ^ 28)
    | none => if 0 ≤ t ∧ t < (n : Int) then c.jump t.toNat else c.haltHere 0x08 (pattern 32 t)
  else c.nextPc

/-- BR (R237). -/
def execBr (k : Nat) (s : State) : Host.Outcome State Fault Refusal :=
  answer (coreOk k) (s.ccIssue k (hasOp 0x12)
    (brBody (s.code (s.core k) (s.core k).ctl.ctx).length))

/-- The effect of CALL: `found` says whether the frame's bound commit number has a version of the name
(R202, R206, R239). -/
def callBody (found : Nat → Bool) (i : MInstr) (c : Core) : Core :=
  if 8 ≤ c.ctl.calls.length then c.haltHere 0x0C (1 * 2 ^ 28)
  else if !found i.sIMM then c.haltHere 0x0F i.sIMM
  else { c with ctl := { c.ctl with
      calls := ⟨c.ctl.ctx, c.ctl.pc, c.ctl.loops.length⟩ :: c.ctl.calls
      ctx := i.sIMM
      pc := 0 } }

/-- CALL (R239): it waits while the directory of its die is rebuilt (R194). -/
def execCall (k : Nat) (s : State) : Host.Outcome State Fault Refusal :=
  answer (coreOk k) (if (at' s.dsm (k / 128) (Dsm.fresh false)).rebuild then s else s.ccIssue k (hasOp 0x13) (callBody (fun name =>
    match s.frameOf (s.core k) with
    | some e => (s.routineFor e name).isSome
    | none => false)))

/-- The effect of RET (R239). -/
def retBody (_i : MInstr) (c : Core) : Core :=
  match c.ctl.calls with
  | [] => c.haltHere 0x0C (2 * 2 ^ 28)
  | r :: rest =>
    if r.loops < c.ctl.loops.length then c.haltHere 0x0B (5 * 2 ^ 28)
    else { c with ctl := { c.ctl with calls := rest, ctx := r.ctx, pc := r.pc + 1 } }

/-- RET (R239). -/
def execRet (k : Nat) (s : State) : Host.Outcome State Fault Refusal :=
  answer (coreOk k) (s.ccIssue k (hasOp 0x14) retBody)

/-- The effect of HALT: the control core issues nothing more (R240). -/
def haltBody (_i : MInstr) (c : Core) : Core := { c with st := .draining }

/-- HALT (R240): the program ends on the core at once when nothing it issued is left. -/
def execHalt (k : Nat) (s : State) : Host.Outcome State Fault Refusal :=
  answer (coreOk k) ((s.ccIssue k (hasOp 0x15) haltBody).settle k)

/-! ### Sheets and windows -/

/-- One sheet under a new footprint: off, kept, or waking (R155, R157). -/
def sheetAfter (mask n : Nat) (st : SheetSt) : SheetSt :=
  if bitAt mask n then (match st with
    | .on => .on
    | .waking => .waking
    | _ => .waking)
  else .off

/-- The contents of a sheet that wakes from OFF are undefined (R155, R157): each byte is a free value, `free` counting
the wakes. -/
def wokenBytes (free n : Nat) : List Byte :=
  tabulate 65536 (fun i => BitVec.ofNat 8 (Config.openValue 32 free (n * 65536 + i)))

/-- The tags of its lines, which are protected with them, are as undefined as they. -/
def wokenTags (free n : Nat) (t : Tbl Nat) : Tbl Nat :=
  (List.range 1024).foldl (fun t i => Tbl.setNum t (n * 1024 + i) (Config.openValue 33 free (n * 1024 + i) % 4)) t

/-- The footprint becomes `mask`: a sheet switched off loses its contents, a sheet switched on wakes; from OFF it has
undefined contents (R155, R157, R180). -/
def Core.footprint (c : Core) (mask free : Nat) : Core :=
  let off := (List.range 32).filter (fun n => !bitAt mask n)
  let fromOff := (List.range 32).filter (fun n => bitAt mask n && c.sheet n == .off)
  let woken := ((List.range 32).filter (fun n => bitAt mask n && (c.sheet n == .off || c.sheet n == .retention))).length
  { c with
    mem := { c.mem with
      sheets := c.mem.sheets.mapIdx (fun n st => sheetAfter mask n st)
      spad := fromOff.foldl (fun m n => Mem.writeBytes m (n * 65536) (wokenBytes free n))
        (off.foldl (fun m n => Mem.clear m (n * 65536) 65536) c.mem.spad)
      lineTag := fromOff.foldl (fun t n => wokenTags free n t)
        (off.foldl (fun m n => Tbl.clearRange m (n * 1024) 1024) c.mem.lineTag)
      prior := c.mem.prior.filter (fun l => bitAt mask (l.1 / 1024))
      spadBad := c.mem.spadBad.filter (fun w => bitAt mask (w.1 / 8192)) }
    sp := { c.sp with wakeCount := incBy c.sp.wakeCount woken } }

/-- `t` with the counter of free values moved on, where core `k` has woken sheets since `s`. -/
def State.drewWakes (t s : State) (k : Nat) : State :=
  if (t.core k).sp.wakeCount = (s.core k).sp.wakeCount then t else t.drew

/-- SHEETS (R157). -/
def execSheets (k : Nat) (s : State) : Host.Outcome State Fault Refusal :=
  answer (coreOk k) ((s.ccIssue k (hasOp 0x16) (fun i c =>
    (c.footprint (c.single i).toNat s.pkg.free).nextPc)).drewWakes s k)

/-- Window `w` of a core. -/
def Core.window (c : Core) (w : Nat) : Option Window := at' c.wins w none

/-- `c` with window `w` replaced. -/
def Core.setWindow (c : Core) (w : Nat) (v : Option Window) : Core := { c with wins := c.wins.set w v }

/-- A deposit has consumed credit in window `w` of core `k` and has not landed (R170). -/
def State.inFlight (s : State) (k w : Nat) : Bool :=
  s.deposits.any (fun d => d.credited && d.win == w && d.dests.contains k)

/-- Two ranges of lines meet. -/
def meets (a n b m : Nat) : Bool := decide (a < b + m) && decide (b < a + n)

/-- The effect of declaring a window (R165, R170); `busy`: its consumed deposits have not all landed. -/
def declareBody (busy : Nat → Bool) (i : MInstr) (c : Core) : Core :=
  let w := i.sSUB % 8
  let base := i.sIMM % 32768
  let lines := i.sIMM / 65536 + 1
  if 32768 < base + lines ∨ (c.wins.mapIdx (fun n x => match x with
      | some v => n != w && meets base lines v.base v.lines
      | none => false)).any id then c.haltHere 0x04 (2 * 2 ^ 28 + base * 64)
  else match (sheetsOf (base * 64) (lines * 64)).find? (fun n => c.sheet n == .off) with
    | some n => c.haltHere 0x05 (n * 2 ^ 27 + 4 * 2 ^ 24)
    | none =>
      if busy w then { c with ctl := { c.ctl with stall := some (.window w) } }
      else (c.setWindow w (some ⟨base, lines, i.sRD, 0⟩)).nextPc

/-- The effect of undeclaring a window (R170, R229). -/
def undeclareBody (busy : Nat → Bool) (i : MInstr) (c : Core) : Core :=
  let w := i.sSUB % 8
  if busy w then { c with ctl := { c.ctl with stall := some (.window w) } }
  else (c.setWindow w none).nextPc

/-- A WINDOW instruction whose change has not taken effect completes nothing: it stays due (R170). -/
def State.windowIssue (s : State) (k : Nat) (undo : Bool) (body : MInstr → Core → Core) : State :=
  let is (i : MInstr) : Bool := hasOp 0x17 i && (decide (8 ≤ i.sSUB) == undo)
  let c := s.core k
  match s.due c with
  | some i =>
    if is i && s.inFlight k (i.sSUB % 8) then
      match c.ctl.stall with
      | some (.window _) => s
      | some (.wait _ _) => s
      | _ =>
        if c.ctl.stall = none ∧ s.atStop c = some (c.ctl.stopSeen + 1) then (s.meetStop k).settle k
        else if c.ctl.stall = none ∧ i.we ∧ !(c.waitOk i.wctr i.wval) then
          s.setCore k { c with ctl := { c.ctl with stall := some (.wait i.wctr i.wval) } }
        else
          let c1 := body i (if c.ctl.stall = none ∧ i.we then c.consume i.wctr i.wval else c)
          if c1.st = .halted then { s.setCore k c1 with deposits := dropDeposits k s.deposits }
          else s.setCore k c1
    else s.ccIssue k is body
  | none => s

/-- The effect of GRANT (R166). -/
def grantBody (i : MInstr) (c : Core) : Core :=
  let w := i.sSUB % 8
  let n := (c.single i).toNat
  match c.window w with
  | none => c.haltHere 0x02 (fieldDetail 0 68)
  | some v =>
    if n = 0 ∨ 32768 < n ∨ v.lines < v.credit + n then
      c.haltHere 0x02 (fieldDetail 0 (if i.sBI then 32 else 76))
    else (c.setWindow w (some { v with credit := v.credit + n })).nextPc

end Sys2Proof.Machine
end

