-- ==== Sys2Proof/Machine/Queues.lean ====
section
/-! DEFINITION. The engine queues (07 R242 to R244): pushing, captured registers, started instructions, the
head of a queue, completion and its signal (R215, R126). -/
namespace Sys2Proof.Machine
open Sys2Proof

/-- What a pushed matrix macro leaves for the next one: `CTREG` and `YFMT` when it has `COUT` 1 (R288). -/
def coutOf (i : MInstr) : Option (Nat × Nat) :=
  if i.mCOUT then some (i.mCTREG, i.d (planWord i.op) 50 47) else none

/-- The entry that the control core pushes: its A registers as they are (R220). -/
def Core.entryFor (c : Core) (i : MInstr) : QEntry :=
  { ins := i, regs := c.ctl.a, ctx := c.ctl.ctx, pc := c.ctl.pc, depth := c.ctl.calls.length,
    prevOut := c.q.prevOut }

/-- The effect of issuing a queued instruction: it is pushed, or the core halts with ENGQ_OVERRUN when its
queue has no free entry (R214, R244). -/
def pushBody (i : MInstr) (c : Core) : Core :=
  let q := queueOf i.op
  if queueDepth q ≤ (c.queue q).length then c.haltHere 0x0A (q * 2 ^ 28)
  else
    let c1 := c.setQueue q (c.queue q ++ [c.entryFor i])
    let c2 := if q = 1 ∧ isMacro i.op then { c1 with q := { c1.q with prevOut := coutOf i } } else c1
    c2.nextPc

/-- Core `k` issues a queued instruction that `isOp` accepts. -/
def State.push (s : State) (k : Nat) (isOp : MInstr → Bool) : State := s.ccIssue k isOp pushBody

/-- The first started instruction that `isOp` accepts and whose effect is not done. -/
def Core.pendingRun (c : Core) (isOp : MInstr → Bool) : Option Flight :=
  c.q.flights.find? (fun f => !f.ran && isOp f.ent.ins)

/-- The flight `id` changed by `f`. -/
def Core.modFlight (c : Core) (id : Nat) (f : Flight → Flight) : Core :=
  { c with q := { c.q with flights := c.q.flights.map (fun x => if x.id == id then f x else x) } }

/-- The head of its queue is released once the last of a macro's Drover commands is issued (R243). -/
def Core.releaseHead (c : Core) (id : Nat) : Core :=
  match c.q.flights.find? (fun f => f.id == id) with
  | some f =>
    if f.atHead && f.ran && f.todo.isEmpty then
      (c.setQueue f.q (c.queue f.q).tail).modFlight id (fun x => { x with atHead := false })
    else c
  | none => c

/-- The effect of a flight is done. -/
def Core.markRan (c : Core) (id : Nat) (todo : List DCmd) : Core :=
  (c.modFlight id (fun x => { x with ran := true, todo := todo })).releaseHead id

/-- The class of the scheduled scratchpad accesses of an instruction (R151, R285); none where its accesses are
arbitrated, which never conflict (R154), or it makes none. -/
def accessClass (op : Nat) : Option Nat :=
  match op with
  | 0x24 | 0x28 | 0x29 | 0x2A | 0x2B => some 1
  | 0x40 => some 2
  | 0x41 => some 3
  | _ => none

/-- Conflicts met by scheduled accesses of class `cls` (R152 steps 4 and 5). -/
def meetConflicts (cls : Nat) (c : Core) : List BankMeet → Core
  | [] => c
  | b :: r =>
    meetConflicts cls { c with sp := { c.sp with
      err := setBit c.sp.err 0
      conflictCount := inc c.sp.conflictCount
      conflictLast := word (cls * 64 + flag b.write * 32 + b.bank % 32) } } r

/-- The core as an access finds it: bits have flipped, and some lines are read in the cycle of their last write (R150,
R173, R178). -/
def Core.enter (c : Core) (same : List Nat) (u : Upset) : Core :=
  { c with mem := { c.mem with
      same := same
      spadBad := u.spad ++ c.mem.spadBad
      tregBad := u.treg ++ c.mem.tregBad
      tagBad := u.tags ++ c.mem.tagBad } }

/-- `s` as an access of core `k` finds it. -/
def State.enter (s : State) (k : Nat) (tm : Timing) : State := s.modCore k (fun c => c.enter tm.same tm.upset)

/-- What the timing of accesses of class `cls` leaves in the registers of core `k` and in its frame: conflicts, waits at
tile-register ports and at the interlock (R152, R176, R299). -/
def State.timed (s : State) (k : Nat) (cls : Option Nat) (tm : Timing) : State :=
  let c := s.core k
  let met := if cls.isNone then [] else tm.meets
  let c1 := meetConflicts (cls.getD 0) c met
  let c2 := { c1 with
    mem := { c1.mem with same := [] }
    sp := { c1.sp with portWait := incBy c1.sp.portWait tm.portWait }
    prog := { c1.prog with interlock := incBy c1.prog.interlock tm.interlock } }
  let s1 := s.setCore k c2
  if met.isEmpty then s1
  else match c.entry with
    | some q => s1.modEntry q (fun e => { e with frame := { e.frame with conflict := true } })
    | none => s1

/-- With `SP_CONFLICT_HALT` the first conflict of scheduled accesses of class `cls` halts the core and neither access is
performed (R153). -/
def State.conflictStop (s : State) (cls : Option Nat) (tm : Timing) : Option Nat :=
  if s.profile.work.conflictHalt then
    cls.bind (fun x => (tm.meets.head?).map (fun b => b.bank % 32 * 2 ^ 27 + flag b.write * 2 ^ 26 + x * 2 ^ 23))
  else none

/-- A started instruction of core `k` has its effect: `body` gives the state after it, or waits, or halts the
core; the Drover's commands of the instruction are `todo`. -/
def State.runQueued (s : State) (k : Nat) (isOp : MInstr → Bool) (tm : Timing)
    (body : State → Core → Flight → Eff (State × List DCmd)) : State :=
  if !(s.core k).live then s
  else match (s.core k).pendingRun isOp with
    | none => s
    | some f =>
      let cls := accessClass f.ent.ins.op
      match s.conflictStop cls tm with
      | some d => s.haltEntry k f.ent 0x0E d
      | none =>
        let s0 := s.enter k tm
        match body s0 (s0.core k) f with
        | .wait => s
        | .stop c1 r d => ((s0.setCore k c1).timed k cls tm).haltEntry k f.ent r d
        | .ok (s1, todo) => (s1.modCore k (fun c1 => c1.markRan f.id todo)).timed k cls tm

/-- A queued row: pushed by `issue`, its effect at `run`. -/
def State.queued (s : State) (k : Nat) (ph : Sys2Proof.Phase) (isOp : MInstr → Bool)
    (body : State → Core → Flight → Eff (State × List DCmd)) : State :=
  match ph with
  | .issue => s.push k isOp
  | .run tm => s.runQueued k isOp tm body

/-- A body that changes only the core. -/
def coreBody (k : Nat) (f : State → Core → Flight → Eff Core) (s : State) (c : Core) (fl : Flight) :
    Eff (State × List DCmd) :=
  (f s c fl).bind fun c1 => .ok (s.setCore k c1, [])

/-! ### The matrix-queue scalars (R116, R229) -/

/-- ACCBASE ← value, 0 to 31. -/
def accbaseBody (_s : State) (c : Core) (f : Flight) : Eff Core :=
  if 31 < f.ent.value then .stop c 0x02 (fieldDetail 0 (if f.ent.ins.sBI then 32 else 76))
  else .ok { c with acc := { c.acc with accBase := f.ent.value } }

/-- ACCSTRIDE ← value, checked by the passes that use it (R119). -/
def accstrideBody (_s : State) (c : Core) (f : Flight) : Eff Core :=
  .ok { c with acc := { c.acc with accStride := f.ent.value } }

/-- ACCSLOTS ← value, 0 to 1,024. -/
def accslotsBody (_s : State) (c : Core) (f : Flight) : Eff Core :=
  if 1024 < f.ent.value then .stop c 0x02 (fieldDetail 0 (if f.ent.ins.sBI then 32 else 76))
  else .ok { c with acc := { c.acc with accSlots := f.ent.value } }

/-- ACCBASE (R116). -/
def execAccbase (k : Nat) (ph : Sys2Proof.Phase) (s : State) : Host.Outcome State Fault Refusal :=
  answer (coreOk k) (s.queued k ph (hasOp 0x20) (coreBody k accbaseBody))
/-- ACCSTRIDE (R116). -/
def execAccstride (k : Nat) (ph : Sys2Proof.Phase) (s : State) : Host.Outcome State Fault Refusal :=
  answer (coreOk k) (s.queued k ph (hasOp 0x21) (coreBody k accstrideBody))
/-- ACCSLOTS (R116). -/
def execAccslots (k : Nat) (ph : Sys2Proof.Phase) (s : State) : Host.Outcome State Fault Refusal :=
  answer (coreOk k) (s.queued k ph (hasOp 0x22) (coreBody k accslotsBody))

/-! ### TXFER and VXFER (R223, R232) -/

/-- The tag that `SLT` adds to the rows written: that of slot `SLOT` (R136). -/
def Core.slotTagOf (c : Core) (n : Nat) : Nat := ((Tbl.get c.acc.slotTag n).map (·.tag)).getD 0

/-- Rows `j` to the last moved from the scratchpad to a tile register, in ascending order (R232). -/
def xferIn (a stride t row tag : Nat) : Nat → Nat → Core → Eff Core
  | 0, _, c => .ok c
  | n + 1, j, c =>
    let x := a + 64 * j * stride
    (c.spRead x 512).bind fun r =>
      xferIn a stride t row tag n (j + 1) (r.1.trWrite t (row + j) 0 r.2 (r.1.lineTags x 512 ||| tag))

/-- Rows `j` to the last moved from a tile register to the scratchpad. -/
def xferOut (a stride t row : Nat) : Nat → Nat → Core → Eff Core
  | 0, _, c => .ok c
  | n + 1, j, c =>
    (c.trRead t (row + j) 0 512).bind fun b =>
      (c.spWrite 2 (a + 64 * j * stride) b (some (c.rowTag t (row + j)))).bind fun c1 =>
        xferOut a stride t row n (j + 1) c1

/-- The rows moved by TXFER and VXFER. -/
def xferBody (_s : State) (c : Core) (f : Flight) : Eff Core :=
  let i := f.ent.ins
  let a := f.ent.reg i.xRA
  if a % 64 ≠ 0 then .stop c 0x02 (fieldDetail 0 81)
  else if i.xSLT ∧ i.xDIR then .stop c 0x02 (fieldDetail 0 49)
  else
    (c.tregRange i.xTREG i.xROW i.xNROWS).bind fun _ =>
    if i.xDIR then xferOut a i.xSTRIDE i.xTREG i.xROW i.xNROWS 0 c
    else xferIn a i.xSTRIDE i.xTREG i.xROW (if i.xSLT then c.slotTagOf i.xSLOT else 0) i.xNROWS 0 c

/-- TXFER (R232). -/
def execTxfer (k : Nat) (ph : Sys2Proof.Phase) (s : State) : Host.Outcome State Fault Refusal :=
  answer (coreOk k) (s.queued k ph (hasOp 0x24) (coreBody k xferBody))
/-- VXFER (R232). -/
def execVxfer (k : Nat) (ph : Sys2Proof.Phase) (s : State) : Host.Outcome State Fault Refusal :=
  answer (coreOk k) (s.queued k ph (hasOp 0x40) (coreBody k xferBody))

end Sys2Proof.Machine
end

