-- ==== Sys2Proof/Machine/Tensor.lean ====
section
/-! DEFINITION. Tensors of descriptor words (08 R257 to R263): their fields, where their rows lie, and reads
and writes of runs of elements. -/
namespace Sys2Proof.Machine
open Sys2Proof

/-- A TENSOR word with its register values (R257, R258). `word` is its number among the descriptors. -/
structure Ten where
  word   : Nat
  loc    : Nat
  space  : Nat
  fmt    : Fmt
  devPad : Bool
  base   : Nat
  padval : Nat
  maxr   : Nat
  maxc   : Nat
  ldim   : Nat
  len    : Nat
  rstr   : Nat

/-- Descriptor `n` of an entry as a TENSOR word. -/
def QEntry.ten (e : QEntry) (n : Nat) : Ten :=
  let d := e.ins.d n
  { word := n, loc := d 125 124, space := d 123 122, fmt := (Fmt.ofCode (d 121 118)).getD .int8,
    devPad := d 117 117 == 1, base := e.reg (d 116 113), padval := d 112 81, maxr := d 80 57,
    maxc := d 56 33, ldim := d 32 31, len := e.reg (d 30 27), rstr := d 26 7 }

/-- The fields of a PLAN word (R261). -/
structure Plan where
  word  : Nat
  visit : Nat
  pm    : Nat
  ptr   : Nat
  ptn   : Nat
  pdbl  : Bool
  kch   : Nat
  ytreg : Bool
  ybase : Nat
  ystr  : Nat
  yldim : Nat
  ylen  : Nat
  ymaxc : Nat
  yfmt  : Fmt

/-- Descriptor `n` of an entry as a PLAN word; `pm`, `ptn` and `kch` are the counts, one above the fields. -/
def QEntry.plan (e : QEntry) (n : Nat) : Plan :=
  let d := e.ins.d n
  { word := n, visit := d 125 124, pm := d 123 118 + 1, ptr := d 117 114, ptn := d 113 110 + 1,
    pdbl := d 109 109 == 1, kch := d 108 97 + 1, ytreg := d 96 96 == 1, ybase := e.reg (d 95 92),
    ystr := d 91 77, yldim := d 76 75, ylen := e.reg (d 74 71), ymaxc := d 70 51,
    yfmt := (Fmt.ofCode (d 50 47)).getD .int8 }

/-- W staged in the scratchpad takes the pen buffer's last register (R281). -/
def stagingReg (w : Ten) : Nat := if w.loc = 0 then 1 else 0

/-- The PLAN of a matrix macro, its pen buffer without the staging register of a DMATMUL (R281). -/
def QEntry.planOf (e : QEntry) : Plan :=
  let p := e.plan (planWord e.ins.op)
  if e.ins.op = 0x29 then { p with ptn := p.ptn - stagingReg (e.ten 2) } else p

/-- The fields of a REDUCTION word (R262). -/
structure Red where
  gmask : Nat
  split : Bool
  owner : Nat
  woff  : Nat
  win   : Nat
  ncon  : Nat
  cspan : Nat
  pfp   : Bool

/-- Descriptor `n` of an entry as a REDUCTION word; `ncon` is the number of contributors. -/
def QEntry.red (e : QEntry) (n : Nat) : Red :=
  let d := e.ins.d n
  { gmask := d 125 94, split := d 93 93 == 1, owner := e.reg (d 92 89), woff := e.reg (d 88 85),
    win := d 84 82, ncon := d 81 72 + 1, cspan := d 71 57, pfp := d 56 56 == 1 }

/-- The fields of a MOVE word (R263). -/
structure Mov where
  dwork : Bool
  dbase : Nat
  dstr  : Nat
  visit : Nat
  fr    : Nat
  fc    : Nat
  mcast : Nat
  dwin  : Nat

/-- Descriptor `n` of an entry as a MOVE word; `fr` and `fc` are the counts. -/
def QEntry.mov (e : QEntry) (n : Nat) : Mov :=
  let d := e.ins.d n
  { dwork := d 125 124 == 1, dbase := e.reg (d 123 120), dstr := d 119 100, visit := d 99 98,
    fr := d 97 88 + 1, fc := d 87 78 + 1, mcast := d 77 62, dwin := d 61 59 }

/-! ### Where rows lie (R259) -/

/-- Rows of elements of `w` bits in the scratchpad (`treg` false; `base` a byte address, `rstr` in lines) or
in the tile registers (`base` 64·t + r, `rstr` in register rows). -/
structure View where
  treg : Bool
  base : Nat
  rstr : Nat
  w    : Nat

/-- The byte address at which row `i` begins, in the scratchpad or in the bytes of the tile registers. -/
def View.row (v : View) (i : Nat) : Nat :=
  if !v.treg then v.base + i * v.rstr * 64
  else if 8 ≤ v.w then (v.base + i * v.rstr) * 512
  else (v.base + i / (8 / v.w) * v.rstr) * 512 + i % (8 / v.w) * 64 * v.w

/-- The bytes of one row of `n` elements of `w` bits. -/
def rowBytes (n w : Nat) : Nat := ceilDiv (n * w) 8

/-- The lines that a row of `n` elements of `w` bits occupies (R259). -/
def rowLines (n w : Nat) : Nat := ceilDiv (n * w) 512

/-- The consecutive pen layout's stride in register rows (R259). -/
def penStride (w : Nat) : Nat := if 8 ≤ w then w / 8 else 1

/-- The register rows that `rows` tensor rows of `w`-bit elements span with stride `rstr` (R259). -/
def tregSpan (rows w rstr : Nat) : Nat :=
  if 8 ≤ w then (rows - 1) * rstr + w / 8 else (ceilDiv rows (8 / w) - 1) * rstr + 1

/-- The view of a TENSOR in the scratchpad or a tile register. -/
def Ten.view (t : Ten) : View := ⟨t.loc == 2, t.base, t.rstr, t.fmt.width⟩

/-- The view of Y (R261). -/
def Plan.view (p : Plan) : View :=
  ⟨p.ytreg, p.ybase, if p.ytreg then penStride p.yfmt.width else p.ystr, p.yfmt.width⟩

/-! ### Runs of elements -/

/-- `n` elements from column `c0` of row `i` of a tensor in a tile register, with parity checked and the OR
of the tags of the register rows read. -/
def Core.readRun (c : Core) (v : View) (i c0 n : Nat) : Eff (List Nat × Nat) :=
  if n = 0 then .ok ([], 0)
  else
    let bit := v.row i * 8 + c0 * v.w
    let a := bit / 8
    let len := (bit + n * v.w + 7) / 8 - a
    (c.parityOk (a / 32768) (a / 512 % 64) (a % 512) len).bind fun _ =>
      .ok (tabulate n (fun j => Mem.elem c.mem.treg (v.row i) v.w (c0 + j)),
        (List.range ((a + len - 1) / 512 - a / 512 + 1)).foldl
          (fun t r => t ||| Tbl.num c.mem.rowTag (a / 512 + r)) 0)

/-- The elements of a memory from column `c0` of the row at `a` replaced by the codes. -/
def putCodes (m : Mem) (a w c0 : Nat) : List Nat → Mem
  | [] => m
  | x :: r => putCodes (Mem.setElem m a w c0 x) a w (c0 + 1) r

/-- The codes written from column `c0` of row `i`, with the tag `tag l` for line or register row `l`: one write that
covers the bits of its own elements only (R87, R114, R172, R177). `cause` is that of a scratchpad sheet that is OFF. -/
def Core.writeRun (c : Core) (v : View) (cause i c0 : Nat) (codes : List Nat) (tag : Nat → Nat) : Eff Core :=
  if codes.isEmpty then .ok c
  else
    let bit := v.row i * 8 + c0 * v.w
    let len := codes.length * v.w
    let a := bit / 8
    let n := (bit + len + 7) / 8 - a
    if v.treg then
      .ok { c with mem := { c.mem.reparity bit len with
        treg := putCodes c.mem.treg (v.row i) v.w c0 codes
        rowTag := unitTagsBy 512 c.mem.rowTag bit len tag } }
    else
      (c.spRange a n (a + n - 1)).bind fun _ =>
      (c.sheetsOk cause (sheetsOf a n)).bind fun _ =>
        .ok { c with mem := { c.mem with
          spad := putCodes c.mem.spad (v.row i) v.w c0 codes
          lineTag := unitTagsBy 64 c.mem.lineTag bit len tag
          prior := c.priorOf a n
          spadBad := c.mem.spadBad.filter (fun w => !(decide (bit ≤ w.1 * 64) && decide (w.1 * 64 + 64 ≤ bit + len))) } }

end Sys2Proof.Machine
end

