-- ==== Sys2Proof/Machine/Shapes.lean ====
section
/-! DEFINITION. What the Drover derives from a macro's descriptors and its placement before the first tile
(08 R264 to R274): actual lengths, units, blocks, reduction groups, slots and modes, and the checks. -/
namespace Sys2Proof.Machine
open Sys2Proof

/-! ### Placements and cores -/

/-- The logical core index of a span (R531). -/
def Span.k (p : Span) : Nat := 128 * p.die + 16 * p.cluster + p.core

/-- The static spans of a placement on core `k`. -/
def Placement.staticOn (p : Placement) (k : Nat) : List Span := p.spans.filter (fun x => x.k == k && !x.dyn)

/-- The engines of core `k` whose P7 is a dynamic plane of the placement, ascending (R281). -/
def Placement.dynOn (p : Placement) (k : Nat) : List Nat :=
  (List.range 32).filter (fun e => p.spans.any (fun x => x.k == k && x.dyn && x.engine == e))

/-- The handle in force for a handle of the program: its place in the frame's placement list, where a replica
may stand (R337). -/
def Entry.handleFor (e : Entry) (h : Nat) : Option Nat :=
  match e.op with
  | .run b => (b.placements.findIdx? (· == h)).bind (fun i => e.frame.places[i]?)
  | _ => none

/-- The placement that a macro or `CFG` of the frame names as `h`, when the frame names it (R231). -/
def State.framePlacement (s : State) (c : Core) (h : Nat) : Option Placement :=
  match s.frameOf c with
  | some e => (e.handleFor h).bind (fun h' => s.placementAt h' (e.epoch.getD 0))
  | none => none

/-- The detail word of PLACEMENT_DENIED (R249). -/
def deniedDetail (h e p cause : Nat) : Nat := h % 65536 * 2 ^ 16 + e * 2 ^ 11 + p * 2 ^ 8 + cause * 16

/-- The logical core of frame rank `r` (R219). -/
def State.coreOfRank (s : State) (c : Core) (r : Nat) : Option Nat :=
  match s.frameOf c with
  | some e => (e.frame.cores[r]?).map (·.1)
  | none => none

/-! ### The geometry of a matrix macro -/

/-- What a matrix macro works on: its X, PLAN and REDUCTION words, the weight format, the actual lengths, the
planned K and N of the slot arithmetic (R269) and the units' output blocks (R270). -/
structure Geo where
  x     : Ten
  p     : Plan
  r     : Red
  wfmt  : Fmt
  m     : Nat
  n     : Nat
  kk    : Nat
  kplan : Nat
  nplan : Nat
  mplan : Nat
  js    : List Nat

/-- A governing run-time length: the first word that gives one, else the planned maximum (R265). -/
def actualLen (first second : Option Nat) (planned : Nat) : Nat := (first <|> second).getD planned

/-- The run-time length of rows or columns that a TENSOR word gives. -/
def Ten.rowLen (t : Ten) : Option Nat := if t.ldim = 1 then some t.len else none
def Ten.colLen (t : Ten) : Option Nat := if t.ldim = 2 then some t.len else none
def Plan.rowLen (p : Plan) : Option Nat := if p.yldim = 1 then some p.ylen else none
def Plan.colLen (p : Plan) : Option Nat := if p.yldim = 2 then some p.ylen else none

/-- The members of output block `j` of a placement on core `k`, ascending in kb. -/
def Placement.blocks (p : Placement) (k j : Nat) : List Member :=
  let l := (p.staticOn k).filter (fun x => x.j == j)
  (sortedSet (l.map (·.kb))).filterMap (fun kb =>
    (l.find? (fun x => x.kb == kb)).map (fun x => ⟨x.engine, x.plane, x.off, x.cnt + 1, kb, false⟩))

/-- The output blocks that the core holds and that lie below the planned N, ascending (R270). -/
def Placement.units (p : Placement) (k nplan : Nat) : List Nat :=
  (sortedSet ((p.staticOn k).map (·.j))).filter (fun j => decide (j * p.wfmt.outputs < nplan))

/-- The geometry of MATMUL (R265, R269, R270). -/
def geoMatmul (e : QEntry) (pl : Placement) (k : Nat) : Geo :=
  let x := e.ten 1
  let p := e.plan 2
  let kplan := min x.maxc pl.kp
  let nplan := min p.ymaxc pl.np
  { x := x, p := p, r := e.red 3, wfmt := pl.wfmt,
    m := actualLen x.rowLen p.rowLen x.maxr, n := actualLen p.colLen none p.ymaxc,
    kk := actualLen x.colLen none x.maxc, kplan := kplan, nplan := nplan, mplan := x.maxr,
    js := pl.units k nplan }

/-- The reduction indices below the actual K (R277). -/
def Geo.kb (g : Geo) : Nat := ceilDiv g.kk 512

/-- Chunks by the actual K (R277). -/
def Geo.nch (g : Geo) : Nat := ceilDiv g.kb g.p.kch

/-- M-tiles (R277). -/
def Geo.mt (g : Geo) : Nat := ceilDiv g.m g.p.pm

/-- The input vectors of M-tile `t` below the actual M. -/
def Geo.rowsIn (g : Geo) (t : Nat) : Nat := min g.p.pm (g.m - t * g.p.pm)

/-- Outputs of a block within the actual N (R123, R266). -/
def Geo.nlim (g : Geo) (j cnt : Nat) : Nat := min cnt (g.n - j * g.wfmt.outputs)

/-- The reduction is long enough to be segmented (R139). -/
def Geo.long (g : Geo) : Bool := g.x.fmt.viaBfp && decide (65536 < g.kk)

/-- The engines of the reduction group of a unit, when one forms (R271). -/
def groupOf (gmask : Nat) (long : Bool) (ms : List Member) : Option (List Nat) :=
  let es := sortedSet ((ms.map (·.e)).filter (bitAt gmask))
  if 2 ≤ es.length ∧ es.length ≤ 8 ∧ ms.length % es.length = 0 ∧
      ms.mapIdx (fun i x => at' es (i % es.length) 99 == x.e) = List.replicate ms.length true ∧
      (long = false ∨ 128 % es.length = 0) then some es else none

/-- Consecutive runs of `n` elements. -/
def chunksOf {α : Type} (n : Nat) : Nat → List α → List (List α)
  | 0, _ => []
  | f + 1, l => if l.isEmpty then [] else l.take n :: chunksOf n f (l.drop n)

/-- The passes and group steps of a unit that are issued, each with the position of its first reduction index
among the unit's (R266, R271, R272): members at or beyond the actual K run masked. -/
def Geo.steps (g : Geo) (ms : List Member) : List (Nat × List Member) :=
  let size := ((groupOf g.r.gmask g.long ms).map (·.length)).getD 1
  ((chunksOf size ms.length ms).mapIdx (fun i l => (i * size, l))).filterMap (fun p =>
    if p.2.any (fun x => decide (x.kb < g.kb)) then
      some (p.1, p.2.map (fun x => { x with mask := decide (g.kb ≤ x.kb) }))
    else none)

/-- The slot of a pass (R272); `v` and `vv` are the table's v and V. -/
def Geo.slot (g : Geo) (slot0 u vv v seg : Nat) : Nat :=
  let sp := if g.x.fmt.viaBfp then ceilDiv g.kplan 65536 else 1
  slot0 + sp * (u * vv + v) + seg

/-- The mode of the `i`-th issued pass of a unit (R273): 0 INIT, 1 ADD, 2 FINAL, 3 ONCE; `pos` gives the
positions of the unit's issued passes, `long` tells that the reduction is segmented. -/
def passMode (split long : Bool) (pos : List Nat) (i : Nat) : Nat :=
  let seg (n : Nat) : Nat := if long then at' pos n 0 / 128 else 0
  if pos.length = 1 ∧ !split ∧ !long then 3
  else if i = 0 ∨ seg (i - 1) ≠ seg i then 0
  else if i + 1 = pos.length ∧ !split ∧ !long then 2
  else 1

/-! ### Visiting orders (R278) -/

/-- One step of the Hilbert walk from position `d`: column and row for side `2^n`. -/
def hilbert : Nat → Nat → Nat → Nat → Nat → Nat × Nat
  | 0, _, _, x, y => (x, y)
  | n + 1, s, t, x, y =>
    let rx := t / 2 % 2
    let ry := (t % 2 + rx) % 2
    let p : Nat × Nat := if ry = 0 then (if rx = 1 then (s - 1 - y, s - 1 - x) else (y, x)) else (x, y)
    hilbert n (2 * s) (t / 4) (p.1 + s * rx) (p.2 + s * ry)

/-- The least `h` with `n ≤ 2^h`. -/
def clog2 (n : Nat) : Nat := if n ≤ 1 then 0 else Nat.log2 (n - 1) + 1

/-- The cells of a grid as (row, column) in the order of `visit`: 0 HILBERT, otherwise ROWMAJOR. -/
def visits (visit rows cols : Nat) : List (Nat × Nat) :=
  if visit = 0 then
    let h := clog2 (max rows cols)
    ((List.range (4 ^ h)).map (fun d => hilbert h 1 d 0 0)).filterMap (fun p =>
      if p.1 < cols ∧ p.2 < rows then some (p.2, p.1) else none)
  else (List.range rows).flatMap (fun r => (List.range cols).map (fun c => (r, c)))

/-! ### Pen tiles (R274) -/

/-- The register rows of a pen tile. -/
def penRows (pm w : Nat) : Nat := if w = 4 then ceilDiv pm 2 else if w = 16 then 2 * pm else pm

/-- Where pen tile `q` of half `half` lies: a linear register row 64·t + r (R274). -/
def Plan.penBase (p : Plan) (w q half : Nat) : Nat :=
  let per := 64 / penRows p.pm w
  let q' := q + (if p.pdbl then half * (p.ptn * per / 2) else 0)
  (p.ptr + q' / per) * 64 + q' % per * penRows p.pm w

/-- Pen tiles that a chunk may take (R274). -/
def Plan.penMax (p : Plan) (w : Nat) : Nat :=
  let q := p.ptn * (64 / penRows p.pm w)
  if p.pdbl then q / 2 else q

/-! ### The accumulation region (R119) -/

/-- The first condition of R119 that fails for a slot, as the cause of ACC_REGION; `other` tells that the slot
belongs to another open run. -/
def Core.regionFault (c : Core) (wfmt : Fmt) (slot : Nat) (other : Bool) : Option Nat :=
  let a := c.acc
  if a.accSlots = 0 then some 1
  else if a.accSlots ≤ slot then some 2
  else if a.accStride < ceilDiv (wfmt.outputs * 4) 64 then some 3
  else if a.accStride ≠ 2 ∧ a.accStride ≠ 4 ∧ a.accStride ≠ 8 then some 5
  else if 32 < a.accBase + ceilDiv (a.accSlots * a.accStride) 1024 then some 4
  else if other then some 6
  else none

/-- The detail word of ACC_REGION (R143). -/
def regionDetail (cause slot : Nat) : Nat := cause * 2 ^ 28 + slot % 1024 * 2 ^ 18

/-! ### Checks at the head of the queue (R264) -/

/-- A check: nothing, or the reason and detail of a halt. -/
abbrev Chk := Option (Nat × Nat)

/-- The base of a TENSOR is aligned (R258). -/
def chkTenBase (t : Ten) : Chk :=
  if t.loc = 0 ∧ t.base % 64 ≠ 0 then some (0x02, fieldDetail t.word 113)
  else if t.loc = 2 ∧ 1024 ≤ t.base then some (0x02, fieldDetail t.word 113)
  else none

/-- The base of Y is aligned (R258). -/
def chkYBase (p : Plan) : Chk :=
  if (!p.ytreg ∧ p.ybase % 64 ≠ 0) ∨ (p.ytreg ∧ 1024 ≤ p.ybase) then some (0x02, fieldDetail p.word 92) else none

/-- A planned extent in the scratchpad (R264 step 2): `rows` rows of `lines` lines at stride `rstr`. -/
def chkSpExtent (base rows rstr lines : Nat) : Chk :=
  let last := base + (rows - 1) * rstr * 64 + lines * 64 - 1
  if 2097152 ≤ last then some (0x04, 2 ^ 28 + last % 2 ^ 28) else none

/-- A planned extent in a tile register (R175, R182). -/
def chkTregExtent (base span : Nat) : Chk :=
  if 64 < base % 64 + span then
    some (0x03, 2 * 2 ^ 28 + base / 64 % 16 * 2 ^ 24 + base % 64 * 2 ^ 16) else none

/-- The planned extent of a TENSOR that is not in HBM. -/
def chkTenSp (t : Ten) : Chk :=
  if t.loc = 0 then chkSpExtent t.base t.maxr t.rstr (rowLines t.maxc t.fmt.width) else none
def chkTenTreg (t : Ten) : Chk :=
  if t.loc = 2 then chkTregExtent t.base (tregSpan t.maxr t.fmt.width t.rstr) else none

/-- The planned rows of Y: X's, or those of R108 when the FINAL route pools. -/
def yRows (p : Plan) (mplan : Nat) (u : NearUnit) : Nat :=
  if u.pool = 0 then mplan else ceilDiv mplan p.pm * ceilDiv p.pm u.poolw

def chkYSp (p : Plan) (rows : Nat) : Chk :=
  if p.ytreg then none else chkSpExtent p.ybase rows p.ystr (rowLines p.ymaxc p.yfmt.width)
def chkYTreg (p : Plan) (rows : Nat) : Chk :=
  if p.ytreg then chkTregExtent p.ybase (tregSpan rows p.yfmt.width (penStride p.yfmt.width)) else none

/-- A run-time or planned length against its limit (R264 step 3): SHAPE_OVER with word and dimension. -/
def chkLen (word dim len limit : Nat) : Chk :=
  if limit < len then some (0x06, word * 2 ^ 30 + dim * 2 ^ 28 + len % 2 ^ 28) else none

/-- A run-time length that governs its dimension, against its own word's planned maximum. -/
def chkOptLen (word dim : Nat) (len : Option Nat) (limit : Nat) : Chk :=
  match len with
  | some n => chkLen word dim n limit
  | none => none

/-- The pen buffer's registers exist, and it meets neither Y nor a register that fusion or staging uses
(R276): registers `first` to `first + n − 1`. -/
def chkPen (word first n : Nat) (used : List Nat) : Chk :=
  if 16 < first + n then some (0x03, 3 * 2 ^ 28 + (first + n - 1) % 16 * 2 ^ 24)
  else if used.any (fun t => decide (first ≤ t) && decide (t < first + n)) then some (0x02, fieldDetail word 114)
  else none

/-- The tile register of Y, when it has one. -/
def Plan.yregs (p : Plan) : List Nat := if p.ytreg then [p.ybase / 64] else []

/-- Fusion (R287, R288): Y of a macro with `COUT`, and X of a macro with `CIN`. -/
def chkCout (i : MInstr) (p : Plan) : Chk :=
  if i.mCOUT ∧ (!p.ytreg ∨ p.ybase ≠ 64 * i.mCTREG) then some (0x02, fieldDetail p.word 92) else none
def chkCin (e : QEntry) (x : Ten) (p : Plan) (kplan : Nat) : Chk :=
  if e.ins.mCIN then
    match e.prevOut with
    | some (r, yf) =>
      if r ≠ e.ins.mCTREG then some (0x02, fieldDetail 0 59)
      else if x.base ≠ 64 * e.ins.mCTREG then some (0x02, fieldDetail x.word 113)
      else if 512 < kplan then some (0x02, fieldDetail x.word 33)
      else if p.pm < x.maxr then some (0x02, fieldDetail x.word 57)
      else if yf ≠ x.fmt.code then some (0x10, 1 * 2 ^ 28 + yf * 2 ^ 24)
      else none
    | none => some (0x02, fieldDetail 0 59)
  else none

/-- Checks in order: the first that fails. -/
def firstOf : List Chk → Chk
  | [] => none
  | some r :: _ => some r
  | none :: l => firstOf l

end Sys2Proof.Machine
end

