-- ==== Sys2Proof/Machine/Wire.lean ====
section
/-! DEFINITION. The DQ4 transport header as bytes, and the encapsulations of the transport (00 R3, 11 R340 to R342). -/
namespace Sys2Proof
open Machine

/-- The DQ4 header in its 40 bytes, network byte order (R3, R342). -/
def Hdr.ofBytes (b : List Byte) : Hdr :=
  { ver := beAt b 0 1, kind := beAt b 1 1, tsid := beAt b 4 2, stream := beAt b 6 2, incarn := beAt b 8 2
    segidx := beAt b 10 2, segcnt := beAt b 12 2, bodylen := beAt b 14 2, seq := beAt b 16 4, iv := beAt b 24 12
    rsvd := beAt b 2 2 + beAt b 20 4 + beAt b 36 4 }

/-- The 40 bytes of a header whose reserved fields are 0 (R3, R342). -/
def Hdr.bytes (h : Hdr) : List Byte :=
  beBytes 1 h.ver ++ beBytes 1 h.kind ++ beBytes 2 0 ++ beBytes 2 h.tsid ++ beBytes 2 h.stream ++ beBytes 2 h.incarn
    ++ beBytes 2 h.segidx ++ beBytes 2 h.segcnt ++ beBytes 2 h.bodylen ++ beBytes 4 h.seq ++ beBytes 4 0
    ++ beBytes 12 h.iv ++ beBytes 4 0

/-- The header of a received segment. -/
def Wire.hdr (w : Wire) : Hdr := Hdr.ofBytes w.head
def SegIn.hdr (g : SegIn) : Hdr := g.wire.hdr
def BulkIn.hdr (b : BulkIn) : Hdr := b.wire.hdr
def MgmtIn.hdr (m : MgmtIn) : Hdr := m.wire.hdr
def PairIn.hdr (p : PairIn) : Hdr := p.wire.hdr

/-- The session of a received frame. -/
def BulkIn.tsid (b : BulkIn) : Nat := b.hdr.tsid
def MgmtIn.tsid (m : MgmtIn) : Nat := m.hdr.tsid
def PairIn.tsid (p : PairIn) : Nat := p.hdr.tsid

/-- The frame came over the second network: from a port of HB (R429). -/
def PairIn.netB (p : PairIn) : Bool := decide (4 ≤ p.port)

/-- The source address of a received frame. -/
def SegIn.addr (g : SegIn) : Nat := g.wire.src
def BulkIn.addr (b : BulkIn) : Nat := b.wire.src
def MgmtIn.addr (m : MgmtIn) : Nat := m.wire.src

/-- The header of a frame that is always one segment, other than its session and kind: what R342 demands of BULK, MGMT
and PAIR, with a body of `len` bytes (R341). -/
def Hdr.single (h : Hdr) (len : Nat) : Bool :=
  h.ver == 1 && h.stream == 0 && h.incarn == 0 && h.seq == 0 && h.segidx == 0 && h.segcnt == 1 && h.bodylen == len &&
    decide (len ≤ 8256) && h.rsvd == 0

/-! ### MGMT bodies (R477, R536 to R547) -/

/-- The head of a MGMT body (R536). -/
def MgmtIn.mop (m : MgmtIn) : Nat := beAt m.body 0 1
def MgmtIn.mdir (m : MgmtIn) : Nat := beAt m.body 1 1
def MgmtIn.mtag (m : MgmtIn) : Nat := beAt m.body 2 2

/-- The bytes after the head. -/
def MgmtIn.fields (m : MgmtIn) : List Byte := m.body.drop 16

/-- The fields of a request of a defined operation have their length, and the reserved ones are 0 (R6, R477, R539, R541,
R546); what R541 checks in its own order is not counted here. -/
def MgmtIn.shaped (m : MgmtIn) : Bool :=
  let f := m.fields
  match m.mop with
  | 0x01 => f.length == 16 && beAt f 6 10 == 0
  | 0x10 => decide (1064 ≤ f.length)
  | 0x11 => f.length == 16 + beAt f 4 2 && beAt f 6 10 == 0
  | 0x40 => f.length == 80 && beAt f 68 12 == 0
  | 0x41 | 0x43 => f.length == 16 && beAt f 0 16 == 0
  | 0x42 => f.length == 1536
  | _ => true

/-- The request is a valid one of its form: header, head and fields (R6, R342, R536). -/
def MgmtIn.valid (m : MgmtIn) : Bool :=
  m.hdr.single m.body.length && decide (16 ≤ m.body.length) && m.mdir == 0 && beAt m.body 4 12 == 0 && m.shaped

/-- The body of a reply: head, status word, fields (R536). -/
def mgmtBody (mop mtag status : Nat) (fields : List Byte) : List Byte :=
  fieldBytes [(1, mop), (1, 1), (2, mtag), (12, 0), (1, status), (3, 0)] ++ fields

/-- The fields of an envelope (R541). -/
def Envelope.cmd (e : Envelope) : Nat := beAt e.req.fields 0 2
def Envelope.clen (e : Envelope) : Nat := beAt e.req.fields 4 4
def Envelope.serial (e : Envelope) : Nat := beAt e.req.fields 8 16
def Envelope.chal (e : Envelope) : Nat := beAt e.req.fields 24 16
def Envelope.args (e : Envelope) : List Byte := slice e.req.fields 552 e.clen

/-- The arguments of a command have their length, and their reserved bytes are 0 (R544 to R547). -/
def argsShaped (cmd : Nat) (a : List Byte) : Bool :=
  match cmd with
  | 0x01 => a.length == 8 + 8 * beAt a 0 2 && beAt a 2 6 == 0
  | 0x11 | 0x12 | 0x13 => a.length == 4 && beAt a 1 3 == 0
  | 0x20 => a.length == 72 && beAt a 1 3 == 0
  | 0x30 => a.length == 1236 && beAt a 594 2 == 0
  | 0x40 => a.length == 512
  | 0x41 => a.length == 64
  | _ => a.isEmpty

/-- `CLEN` is the length of the arguments, and they have their form (R541 check 6). -/
def Envelope.lenOk (e : Envelope) : Bool :=
  e.req.fields.length == 1064 + e.clen && beAt e.req.fields 2 2 == 0 && argsShaped e.cmd e.args

/-- The request asks for `n` words from `a`. -/
def MgmtIn.reads (m : MgmtIn) (a n : Nat) : Bool := a == beAt m.fields 0 4 && n == beAt m.fields 4 2

/-- The entries of a CLEAR: addresses and masks (R545). -/
def Envelope.pairs (e : Envelope) : List (Nat × Nat) :=
  tabulate (beAt e.args 0 2) (fun i => (beAt e.args (8 + 8 * i) 4, beAt e.args (12 + 8 * i) 4))

/-- The partner's values in a PAIR-BIND: `SERIAL`, certificate digest, `DWRAP`, `ID_PART`, `FWDIG`, `PROFDIG` (R547). -/
def Envelope.partner (e : Envelope) : List Nat :=
  [beAt e.args 0 16, beAt e.args 16 64, beAt e.args 80 512, beAt e.args 592 2, beAt e.args 596 64, beAt e.args 660 64]

/-- The session key: bytes 0 to 31 of what `WSK` unwraps to (R484; DESIGN CHOICE, log 61). -/
def MgmtIn.sessionKey (m : MgmtIn) : Nat := Config.openValue 38 (beAt m.fields 512 512) 0 % 2 ^ 256

/-! ### PAIR bodies (R429, R485) -/

/-- The head of a PAIR body (R429). -/
def PairIn.pop (p : PairIn) : Nat := beAt p.body 0 1
def PairIn.prole (p : PairIn) : Nat := beAt p.body 1 1
def PairIn.pseq (p : PairIn) : Nat := beAt p.body 4 8
def PairIn.pboot (p : PairIn) : Nat := beAt p.body 12 4

/-- The frame is a PAIR frame of operation `pop` whose head R429 defines; any other is discarded (R6, R7, R342). -/
def PairIn.is (p : PairIn) (pop : Nat) : Bool :=
  p.hdr.kind == 7 && p.tsid == 0xFFFF && p.auth && p.hdr.single p.body.length && decide (16 ≤ p.body.length) && p.pop == pop &&
    decide (p.prole ≤ 1) && beAt p.body 2 2 == 0

/-- The fields of the frame from offset 16 are `l`, and `data` follows. -/
def PairIn.holds (p : PairIn) (l : List (Nat × Nat)) (data : List Byte) : Bool :=
  fieldsFit l && p.body.drop 16 == fieldBytes l ++ data

/-- The fields of the operations of R429 and R485, sent and received. -/
def beatFields (pst lead quiet last : Nat) : List (Nat × Nat) := [(1, pst), (1, lead), (2, quiet), (8, last), (4, 0)]
def commitFields (n : Nat) : List (Nat × Nat) := [(2, n), (14, 0)]
def confirmFields (highest assigned : Nat) : List (Nat × Nat) := [(8, highest), (8, assigned)]
def segFields (h : Hdr) : List (Nat × Nat) :=
  [(2, h.tsid), (2, h.stream), (2, h.incarn), (2, h.segidx), (2, h.segcnt), (2, h.bodylen), (4, h.seq)]
def objFields (target name off : Nat) : List (Nat × Nat) := [(1, target), (3, 0), (4, name), (8, off)]
def objcommitFields (target status name : Nat) : List (Nat × Nat) := [(1, target), (1, status), (2, 0), (4, name)]
def digestFields (cseq run digest : Nat) : List (Nat × Nat) := [(8, cseq), (1, run), (7, 0), (32, digest)]
def parcelFields (cseq off : Nat) : List (Nat × Nat) := [(8, cseq), (8, off)]
def syncFields (cseq : Nat) : List (Nat × Nat) := [(8, cseq)]
def strikeFields (cseq stream incarn seq : Nat) : List (Nat × Nat) := [(8, cseq), (2, stream), (2, incarn), (4, seq)]
def keysyncFields (tsid : Nat) (opened : Bool) : List (Nat × Nat) := [(2, tsid), (1, flag opened), (13, 0)]

/-- The bits of a ledger entry that a record carries (R360); the lowest bit, reserved there, says that the frame runs away from
its home (DESIGN CHOICE, log 101). -/
def PairRecord.entryBits (r : PairRecord) : List (Nat × Nat) :=
  [(12, r.stream), (16, r.incarn), (32, r.seq), (4, r.state), (16, r.tsid), (64, r.cseq), (32, r.epoch), (4, r.opc), (2, r.status),
   (2, r.tag), (8, r.wreason), (28, r.ipar), (28, r.rpar), (23, r.ilen), (23, r.rlen), (4, r.replays), (32, r.tadmit), (181, 0),
   (1, flag r.away)]

/-- The stream state of a record: its five fields in 2, 2, 4, 4 and 4 bytes (R429; DESIGN CHOICE, log 62). -/
def PairRecord.streamFields (r : PairRecord) : List (Nat × Nat) :=
  [(2, r.sstate), (2, r.incarn), (4, r.nextSeq), (4, r.credit), (4, r.outst)]

/-- The 80 bytes of a record (R429). -/
def PairRecord.bytes (r : PairRecord) : List Byte := beBytes 64 (bitFields r.entryBits) ++ fieldBytes r.streamFields

/-- Every code of the record is defined, and its fields hold their values (R349, R359, R360, R429). -/
def PairRecord.defined (r : PairRecord) : Bool :=
  decide (r.opc ≤ 3) && decide (r.state ≤ 5) && decide (r.sstate ≤ 2) && bitsFit r.entryBits && fieldsFit r.streamFields

/-- The frame is a COMMIT of these records (R429). -/
def PairIn.commits (p : PairIn) (recs : List PairRecord) : Bool :=
  !recs.isEmpty && decide (recs.length ≤ 96) && recs.all PairRecord.defined &&
    p.holds (commitFields recs.length) (recs.flatMap PairRecord.bytes)

/-- The frame is a SEGMENT of this header and body, which is a WORK segment's (R341, R342, R429). -/
def PairIn.copies (p : PairIn) (h : Hdr) (body : List Byte) : Bool :=
  h.ver == 1 && h.kind == 1 && h.iv == 0 && h.rsvd == 0 && h.bodylen == body.length && decide (body.length ≤ 8192) &&
    decide (h.segidx < h.segcnt) && decide (h.segcnt ≤ 512) && decide (h.stream < 4096) && p.holds (segFields h) body

/-- The frame is a KEYSYNC of this session; an opening carries 32 bytes of its key, then its tenant. -/
def PairIn.keysyncs (p : PairIn) (tsid tenant : Nat) (opened : Bool) : Bool :=
  if opened then decide (tenant < 2 ^ 128) && p.holds (keysyncFields tsid true) (slice p.body 32 32 ++ beBytes 16 tenant)
  else p.holds (keysyncFields tsid false) []

/-- The encapsulation of a port entry (R516). -/
def EncapKind.ofCode (n : Nat) : EncapKind :=
  match n with
  | 0 => .ipv4
  | 1 => .ipv6
  | _ => .tagged

/-- The frame comes over IP. -/
def EncapKind.isIp (e : EncapKind) : Bool := e == .ipv4 || e == .ipv6

/-- Frames that are discarded and counted at a port of encapsulation `e`: IP fragments, IP options, IPv6 extension
headers, and untagged frames on a VLAN-only port (R340). -/
def Wire.counted (w : Wire) (e : EncapKind) : Bool :=
  (w.encap.isIp && w.extra) || (w.encap == .untagged && e == .tagged)

/-- A segment of the transport at a port of encapsulation `e`, for the UDP port or EtherType of the profile, with a
right checksum, or over IPv4 none (R340). Any other frame is no segment, and is discarded (DESIGN CHOICE, log 99). -/
def Wire.fits (w : Wire) (e : EncapKind) (udpPort etherType : Nat) : Bool :=
  w.encap == e && w.head.length == 40 && match e with
    | .ipv4 => !w.extra && w.dest == udpPort && w.sum != some false
    | .ipv6 => !w.extra && w.dest == udpPort && w.sum == some true
    | _ => w.dest == etherType

end Sys2Proof
end

