-- ==== Sys2Proof/Machine/Units.lean ====
section
/-! DEFINITION. Units of the package: the spare maps from logical to physical numbers (01 R16, R17), clusters,
dies and stacks in service, hubs and ports. -/
namespace Sys2Proof.Machine
open Sys2Proof

/-! ### Dies, clusters, cores -/

/-- The compute die of logical core `k` (R531). -/
def dieOf (k : Nat) : Nat := k / 128

/-- The logical cluster of logical core `k` on its die. -/
def clusterOf (k : Nat) : Nat := k / 16 % 8

/-- Compute die `d`. -/
def State.die (s : State) (d : Nat) : Die := at' s.dies d Die.fresh

/-- `s` with compute die `d` changed. -/
def State.modDie (s : State) (d : Nat) (f : Die → Die) : State := { s with dies := modAt s.dies d f }

/-- The physical cluster of a logical one; none when no hardware is left for it (R20). -/
def State.physCluster (s : State) (d c : Nat) : Option Nat := (Tbl.get s.maps.cluster (8 * d + c)).getD (some c)

/-- The physical number, within its cluster, of logical core `k`. -/
def State.physCore (s : State) (k : Nat) : Nat := (Tbl.get s.maps.core k).getD (k % 16)

/-- The physical number of logical engine `e` of core `k`. -/
def State.physEngine (s : State) (k e : Nat) : Nat := (Tbl.get s.maps.engine (32 * k + e)).getD e

/-- A physical cluster after a start: the nine of a die, the spare OFF (R399, R402; DEDUCED, log 7). -/
def Cluster.fresh (phys : Nat) : Cluster := ⟨if phys = 8 then .off else .idle, true, false, false, false, false⟩

/-- Physical cluster `c` of die `d`. -/
def State.cl (s : State) (d c : Nat) : Cluster := (Tbl.get s.clusters (9 * d + c)).getD (Cluster.fresh c)

/-- `s` with a physical cluster changed. -/
def State.modCl (s : State) (d c : Nat) (f : Cluster → Cluster) : State :=
  { s with clusters := Tbl.set s.clusters (9 * d + c) (f (s.cl d c)) }

/-- The logical cores of logical cluster `c` of die `d`. -/
def clusterCores (d c : Nat) : List Nat := tabulate 16 (fun i => 128 * d + 16 * c + i)

/-- The logical cores of a die. -/
def dieCores (d : Nat) : List Nat := tabulate 128 (fun i => 128 * d + i)

/-- The logical cluster that a physical one serves. -/
def State.logCluster (s : State) (d p : Nat) : Option Nat := (List.range 8).find? (fun c => s.physCluster d c == some p)

/-- The cores of a logical cluster changed. -/
def State.modCluster (s : State) (d l : Nat) (f : Core → Core) : State :=
  (clusterCores d l).foldl (fun s k => s.modCore k f) s

/-- Sheets of a core moved from one state to another. -/
def moveSheets (a b : SheetSt) (c : Core) : Core :=
  { c with mem := { c.mem with sheets := c.mem.sheets.map (fun x => if x = a then b else x) } }

/-- The sheets in RETENTION wake, with their contents kept (R155, R158, R180). -/
def wakeRetained (c : Core) : Core :=
  let n := (c.mem.sheets.filter (fun x => x == .retention)).length
  { moveSheets .retention .waking c with sp := { c.sp with wakeCount := incBy c.sp.wakeCount n } }

/-! ### Ballast on engines (12 R385 to R387) -/

/-- The planes on which ballast may run: static LIVE ones and EMPTY ones (R385). -/
def Engine.ballastPlanes (g : Engine) : List Nat :=
  (List.range 8).filter (fun p => (g.plane p).st == .empty || ((g.plane p).st == .live && (g.plane p).dyn.isNone))

/-- No work pass is on engine `e` of core `k`. -/
def State.engineIdle (s : State) (k e : Nat) : Bool := !((s.core k).acc.passes.any (fun x => x.members.any (fun v => v.1.e == e)))

/-- Ballast runs on engine `e` of core `k`. -/
def State.ballastOn (s : State) (k e : Nat) : Bool := (s.die (dieOf k)).bal.any (fun x => x.1 == k && x.2.1 == e)

/-- Work takes over engines from ballast (R387). -/
def State.endBallast (s : State) (k : Nat) (es : List Nat) : State :=
  s.modDie (dieOf k) (fun d => { d with bal := d.bal.filter (fun x => !(x.1 == k && es.contains x.2.1)) })

/-- An engine whose last work pass has ended changes to ballast, while the Yoke still needs it or the comb allows no more
stops in this window; else it stops (R387, R393). -/
def State.keepBallast (s : State) (k e : Nat) : State :=
  let d := s.die (dieOf k)
  if d.up && !d.alarm && s.engineIdle k e && !(s.ballastOn k e) then
    match ((s.core k).engine e).ballastPlanes.head? with
    | some p =>
      if d.bal.length < d.balN ∨ d.limit ≤ d.stops then s.modDie (dieOf k) (fun d => { d with bal := d.bal ++ [(k, e, p)] })
      else s.modDie (dieOf k) (fun d => { d with stops := d.stops + 1 })
    | none => s.modDie (dieOf k) (fun d => { d with stops := d.stops + 1 })
  else s

/-- A sleeping cluster starts to wake, its sheets with it, and the banks of its die (R155, R192, R400). -/
def State.startWake (s : State) (d c : Nat) : State :=
  let s1 := match s.logCluster d c with
    | some l => s.modCluster d l wakeRetained
    | none => s
  { s1.modCl d c (fun x => { x with waking := true }) with
    dsm := modAt s.dsm d (fun x => { x with banks := x.banks.map (fun b => if b = .retention then .waking else b) }) }

/-- The cluster of logical core `k`, physical. -/
def State.clOf (s : State) (k : Nat) : Option Cluster := (s.physCluster (dieOf k) (clusterOf k)).map (s.cl (dieOf k))

/-- Core `k` has hardware in service whose clock runs: its die is up, its cluster exists and is locked. -/
def State.coreUp (s : State) (k : Nat) : Bool :=
  (s.die (dieOf k)).up && !(s.die (dieOf k)).alarm && match s.clOf k with
    | some c => c.ok && !c.unlocked && !c.doubt
    | none => false

/-- Core `k` has hardware: its die is in service, and its cluster has not been left without any (R20, R418). -/
def State.hasHardware (s : State) (k : Nat) : Bool := (s.die (dieOf k)).up && (s.clOf k).any (·.ok)

/-- The cluster of core `k` is awake (R399). -/
def State.coreAwake (s : State) (k : Nat) : Bool :=
  match s.clOf k with
  | some c => (c.st == .idle || c.st == .run) && !c.waking
  | none => false

/-- A level 1 to 4 substitution in progress touches core `k`: its cluster, the core itself, or one of the
engines `es` of it (R415). -/
def State.substBlocks (s : State) (k : Nat) (es : List Nat) : Bool :=
  s.maps.subst.any (fun u => match u.level with
    | 4 => u.k / 16 == k / 16
    | 3 => u.k == k
    | _ => u.k == k && es.contains u.e)

/-! ### Stacks and pages (R23, R358) -/

/-- HBM stack `n` is in service. -/
def State.stackUp (s : State) (n : Nat) : Bool := (at' s.hbmStacks n (false, false)).1

/-- The runs of pages in use on stack `n`. -/
def State.runsOf (s : State) (n : Nat) : Tbl Nat := at' s.used n []

/-- Pages in a list of runs. -/
def pagesIn (l : Tbl Nat) : Nat := (l.map (·.2)).foldl (· + ·) 0

/-- Free pages of stack `n`. -/
def State.freePages (s : State) (n : Nat) : Nat := at' s.pages n 0 - pagesIn (s.runsOf n)

/-- A run added to a list of runs by rising first page. -/
def addRun (x : Nat × Nat) : Tbl Nat → Tbl Nat
  | [] => [x]
  | y :: r => if x.1 < y.1 then x :: y :: r else y :: addRun x r

/-- The free runs of `cap` pages from page `a` on, beside the runs in use by rising first page. -/
def freeRuns (cap : Nat) : Nat → Tbl Nat → Tbl Nat
  | a, [] => if a < cap then [(a, cap - a)] else []
  | a, (b, n) :: r => (if a < min b cap then [(a, min b cap - a)] else []) ++ freeRuns cap (max a (b + n)) r

/-- The first `n` pages of free runs. -/
def firstPages : Nat → Tbl Nat → Tbl Nat
  | _, [] => []
  | n, (a, m) :: r => if n = 0 then [] else if n ≤ m then [(a, n)] else (a, m) :: firstPages (n - m) r

/-- A run of `n` pages of stack `st` from page `a` on is taken. -/
def State.takeRun (s : State) (st a n : Nat) : State :=
  if n = 0 then s else { s with used := modAt s.used st (addRun (a, n)) }

/-- A run of pages is given back; those of a lost stack are gone (R419). -/
def State.giveRun (s : State) (st a n : Nat) : State :=
  if s.stackUp st then { s with used := modAt s.used st (fun l => List.erase l (a, n)) } else s

/-- The stack with the most free pages among those given, the first on a tie (R358). -/
def State.bestStack (s : State) (l : List Nat) : Option Nat :=
  l.foldl (fun a n => match a with
    | none => some n
    | some b => if s.freePages b < s.freePages n then some n else some b) none

/-- The mirror's stack: four further on, then the next such stack that is in service (R358, R365). -/
def State.mirrorOf (s : State) (n : Nat) : Option Nat :=
  [(n + 4) % 16, (n + 8) % 16, (n + 12) % 16].find? s.stackUp

/-- The lowest position at which `n` pages are free on stack `a` and on stack `b` (R358; DESIGN CHOICE, log 100). -/
def State.sameRun (s : State) (a b n : Nat) : Option Nat :=
  let l := (s.runsOf b).foldl (fun l x => addRun x l) (s.runsOf a)
  ((freeRuns (min (at' s.pages a 0) (at' s.pages b 0)) 0 l).find? (fun x => decide (n ≤ x.2))).map (·.1)

/-- A parcel of `n` pages reserved on the stacks of die `d`, or on any stack when no die is given or the die
has none left: a contiguous run, and its mirror at the same position; none when the pool cannot hold it (R358;
DEDUCED, log 35). -/
def State.reserve (s : State) (d : Option Nat) (n : Nat) : Option (State × Parcel) :=
  let own := match d with
    | some x => (tabulate 4 (fun i => 4 * x + i)).filter s.stackUp
    | none => []
  let l := if own.isEmpty then (List.range 16).filter s.stackUp else own
  (s.bestStack l).bind (fun a => (s.mirrorOf a).bind (fun b =>
    if n = 0 then some (s, ⟨a, 0, b, 0, 0⟩)
    else (s.sameRun a b n).map (fun p => ((s.takeRun a p n).takeRun b p n, ⟨a, p, b, p, n⟩))))

/-- A run of `n` pages on stack `st` for a new mirror, at its lowest free position. -/
def State.mirrorRun (s : State) (st n : Nat) : Option Nat :=
  ((freeRuns (at' s.pages st 0) 0 (s.runsOf st)).find? (fun x => decide (n ≤ x.2))).map (·.1)

/-- An access wakes stacks from self-refresh (R401). -/
def State.wakeStacks (s : State) (l : List Nat) : State :=
  { s with hbmStacks := s.hbmStacks.mapIdx (fun i x => if l.contains i then (x.1, false) else x) }

/-- A parcel freed. -/
def State.freeParcel (s : State) (p : Parcel) : State :=
  if p.stack = p.mirror ∧ p.first = p.mfirst then s.giveRun p.stack p.first p.pages
  else (s.giveRun p.stack p.first p.pages).giveRun p.mirror p.mfirst p.pages

/-! ### Hubs and ports -/

/-- Hub `h`. -/
def State.hub (s : State) (h : Nat) : Hub := at' s.hubs h Hub.fresh

/-- `s` with hub `h` changed. -/
def State.modHub (s : State) (h : Nat) (f : Hub → Hub) : State := { s with hubs := modAt s.hubs h f }

/-- `s` with the FOLD registers of hub `h` changed. -/
def State.modFold (s : State) (h : Nat) (f : FoldRegs → FoldRegs) : State :=
  s.modHub h (fun x => { x with fold := f x.fold })

/-- Port `n`. -/
def State.port (s : State) (n : Nat) : Port := at' s.ports n ⟨false, false, false, false, 0, 0⟩

/-- The link of port `n` is up and its hub in service (R24). -/
def State.linkUp (s : State) (n : Nat) : Bool := (s.port n).up && (s.hub (n / 4)).up

/-- Port `n` is protected by MACsec (R489). -/
def State.macsecPort (s : State) (n : Nat) : Bool := bitAt s.profile.net.macsec n

/-- Port `n` carries traffic: its link is up, and MKA has secured it when it is protected (R24, R489). -/
def State.portUp (s : State) (n : Nat) : Bool := s.linkUp n && (!(s.macsecPort n) || (s.port n).secured)

/-- A frame passes the link layer of port `n`: the port carries traffic, and on a protected one MACsec verifies it (R489). -/
def State.linkTakes (s : State) (n : Nat) (w : Wire) : Bool := s.portUp n && (!(s.macsecPort n) || w.sec)

/-- A frame that arrives over a protected port without verified protection is discarded and counted (R489). -/
def State.dropAt (s : State) (n : Nat) : State :=
  if s.linkUp n then
    { s with trust := { s.trust with event := setBit s.trust.event 2, macDrop := inc s.trust.macDrop } }
  else s

/-- The 32 bytes that settle port `n`: from the profile's `PORT_NET`, else from the slot record (R516, R517). -/
def State.portEntry (s : State) (n : Nat) : List Nat :=
  ((if s.profile.net.portNet.isEmpty then s.idr.hints else s.profile.net.portNet).drop (32 * n)).take 32

/-- The MAC address of port `n` (R517). -/
def State.portMac (s : State) (n : Nat) : Nat := (s.fuses.macBase + n) % 2 ^ 48

/-- The encapsulation of port `n`. -/
def State.portEncap (s : State) (n : Nat) : EncapKind := EncapKind.ofCode (at' (s.portEntry n) 0 0)

/-- Port `n` has an address: its entry gives an IPv4 or IPv6 address that is not all zeros, or VLAN, which needs none beside
the MAC address (R517; DESIGN CHOICE, log 103). -/
def State.addressed (s : State) (n : Nat) : Bool :=
  let e := s.portEntry n
  !e.isEmpty && (match s.portEncap n with
    | .ipv4 => ((e.drop 8).take 4).any (· != 0)
    | .ipv6 => ((e.drop 12).take 16).any (· != 0)
    | _ => true)

/-- A segment of the transport arrives at a port that carries it (R24, R340). -/
def State.takes (s : State) (n : Nat) (w : Wire) : Bool :=
  s.linkTakes n w && w.fits (s.portEncap n) s.profile.net.udpPort s.profile.net.etherType

/-- Any other frame is discarded; it is counted where R340 or R489 says so. -/
def State.discard (s : State) (n : Nat) (w : Wire) : State :=
  if !(s.linkTakes n w) then s.dropAt n
  else if w.counted (s.portEncap n) then { s with ports := modAt s.ports n (fun p => { p with drops := p.drops + 1 }) }
  else s

/-- The hubs can commit to each other (R29). -/
def State.bridgeUp (s : State) : Bool := s.pkg.bridges.any id

/-- The port of a transmission (R368): the given one, else the lowest working one of its hub, else of the other
hub. -/
def State.outPort (s : State) (p : Nat) : Option Nat :=
  let h := p / 4 % 2
  (p :: (tabulate 4 (fun i => 4 * h + i) ++ tabulate 4 (fun i => 4 * (1 - h) + i))).find? s.portUp

/-- A frame put on the wire. -/
def State.emitOut (s : State) (o : Out) : State := { s with out := s.out ++ [o] }

/-- The next IV of a session at port `p`: the hub's number and the count of frames that it has sent under the session; the
unauthenticated ACK has none (R343, R352). -/
def State.nextIv (s : State) (p tsid : Nat) : State × Nat :=
  if tsid = 0 then (s, 0)
  else
    let n := (Tbl.num s.secure.ivs (2 * tsid + p / 4 % 2) + 1) % 2 ^ 64
    ({ s with secure := { s.secure with ivs := Tbl.setNum s.secure.ivs (2 * tsid + p / 4 % 2) n } }, p / 4 % 2 * 2 ^ 64 + n)

/-- A segment leaves port `p` for `addr` (R341 to R343); `h` is its header but for its version, body length and IV. -/
def State.sendSeg (s : State) (p addr : Nat) (h : Hdr) (body : List Byte) : State :=
  let v := s.nextIv p h.tsid
  v.1.emitOut (.seg p addr (Hdr.bytes { h with ver := 1, bodylen := body.length, iv := v.2, rsvd := 0 }) body)

/-- The header of a frame of one segment of kind `kind` (R342). -/
def headOf (kind tsid stream incarn seq : Nat) : Hdr := ⟨1, kind, tsid, stream, incarn, 0, 1, 0, seq, 0, 0⟩

/-- A frame of one segment put on the wire of port `p`, when it works. -/
def State.sendAt (s : State) (p addr : Nat) (h : Hdr) (body : List Byte) : State :=
  if s.portUp p then s.sendSeg p addr h body else s

/-- A MGMT reply leaves on the port on which its request arrived, to its source (R536). -/
def State.mgmtReply (s : State) (port addr tsid mop mtag status : Nat) (fields : List Byte) : State :=
  s.sendAt port addr (headOf 6 tsid 0 0 0) (mgmtBody mop mtag status fields)

/-- The dies on the way from compute die `a` to `b`, ascending, or descending when a ring link of that path has
failed; none when neither works (R28). Ring neighbours too are reached ascending first (DESIGN CHOICE, log 111). -/
def State.ringPath (s : State) (a b : Nat) : Option (List Nat) :=
  let n := (b + 4 - a) % 4
  let up := (List.range n).map (fun i => (a + i) % 4)
  let down := if n = 0 then [] else (List.range (4 - n)).map (fun i => (a + 3 - i) % 4)
  let ok (l : List Nat) : Bool := l.all (fun i => at' s.pkg.rings i false)
  if ok up then some ((List.range (n + 1)).map (fun i => (a + i) % 4))
  else if ok down then some ((List.range (5 - n)).map (fun i => (a + 4 - i) % 4))
  else none

/-- The lowest working port of each hub, for PAIR frames (R429). -/
def State.pairPorts (s : State) : List Nat :=
  [0, 1].filterMap (fun h => (tabulate 4 (fun i => 4 * h + i)).find? s.portUp)

/-- The partner's address on the network of port `n`: the MAC address of its `PAIR_PEER` entry with VLAN encapsulation, else
the IP address (R429, R522). -/
def State.pairAddr (s : State) (n : Nat) : Nat :=
  let e := (s.profile.net.pairPeer.drop (32 * (n / 4))).take 32
  let a := match s.portEncap n with
    | .tagged => (e.drop 20).take 6
    | _ => e.take 16
  a.foldl (fun v b => v * 256 + b) 0

/-- The body of this package's next PAIR frame (R429). -/
def State.pairBody (s : State) (pop : Nat) (fields : List (Nat × Nat)) (data : List Byte) : List Byte :=
  fieldBytes ([(1, pop), (1, s.pkg.pairRole), (2, 0), (8, s.pair.pseq + 1), (4, s.pair.pboot)] ++ fields) ++ data

/-- That frame as it leaves port `n`; its IV is `PBOOT` followed by `PSEQ` (R429, R430). -/
def State.pairOut (s : State) (pop : Nat) (fields : List (Nat × Nat)) (data : List Byte) (n : Nat) : Out :=
  let b := s.pairBody pop fields data
  .seg n (s.pairAddr n) (Hdr.bytes { headOf 7 0xFFFF 0 0 0 with
    bodylen := b.length, iv := s.pair.pboot * 2 ^ 64 + s.pair.pseq + 1 }) b

/-- A PAIR frame sent on both networks; `PSEQ` counts it (R429). -/
def State.sendPair (s : State) (pop : Nat) (fields : List (Nat × Nat)) (data : List Byte) : State :=
  if s.pairPorts.isEmpty then s
  else { s with
    out := s.out ++ s.pairPorts.map (s.pairOut pop fields data)
    pair := { s.pair with pseq := s.pair.pseq + 1 } }

/-- The live session `tsid` (R484). -/
def State.session? (s : State) (tsid : Nat) : Option Session :=
  s.secure.sessions.find? (fun x => x.tsid == tsid && x.waits.isNone)

/-! ### Counting faults (13 R411, R443) -/

/-- `s` with the FAULT registers changed. -/
def State.modFlt (s : State) (f : FaultRegs → FaultRegs) : State := { s with flt := f s.flt }

/-- A local fault is detected: FAULT.EVENT[0], its counter, and FAULT_N for at least 1 ms (R411). -/
def State.localFault (s : State) : State :=
  { s.modFlt (fun r => { r with event := setBit r.event 0, local_ := inc r.local_ }) with
    pkg := { s.pkg with faultPulse := true } }

/-- No spare at a level: FAULT.EVENT[2]. -/
def State.countNospare (s : State) : State :=
  s.modFlt (fun r => { r with event := setBit r.event 2, nospare := inc r.nospare })

/-- A hub, die or stack lost, or a golden copy held singly: FAULT.EVENT[6]. -/
def State.countLostUnit (s : State) : State :=
  s.modFlt (fun r => { r with event := setBit r.event 6, lost := inc r.lost })

/-! ### Maintenance activities (13 R439 to R441) -/

/-- An activity that runs: its code (R439) and its target. -/
structure Act where
  code : Nat
  t    : Target

/-- The core-level targets of a slice or march (R446). -/
def wholeCore (t : Target) : Bool := t.kind == 1 || t.kind == 4 || t.kind == 5

/-- Two targets are the same unit, or one lies in the other (R440). -/
def sameTarget (a b : Target) : Bool :=
  if a.kind == 6 || b.kind == 6 then a.kind == b.kind && a.die == b.die && a.bank == b.bank
  else if a.kind == 7 || b.kind == 7 then a.kind == b.kind && a.die == b.die && a.handle == b.handle
  else a.die == b.die && a.cluster == b.cluster &&
    (a.kind == 2 || b.kind == 2 || (a.core == b.core && (wholeCore a || wholeCore b || a.engine == b.engine)))

/-- The matrix of R440: 0 together, 1 in one cluster on different targets, 2 on one die in different clusters, 3
never together. -/
def matrixEntry (a b : Nat) : Nat :=
  let x := min a b
  let y := max a b
  if y ≤ 4 then 1
  else if y = 5 then (if x = 5 then 3 else 2)
  else if x = 3 ∨ 5 ≤ x then 3
  else 0

/-- Two activities may run at the same time (R440). -/
def mayMeet (a b : Act) : Bool :=
  match matrixEntry a.code b.code with
  | 0 => true
  | 1 => !(sameTarget a.t b.t)
  | 2 => !(a.t.die == b.t.die && a.t.cluster == b.t.cluster)
  | _ => false

/-- What runs: slices, marches, a secure wipe and the activities of the list (R439). -/
def State.running (s : State) : List Act :=
  s.grazer.slices.map (fun x => ⟨if x.t.kind = 3 then 4 else 0, x.t⟩)
    ++ s.grazer.marches.map (fun x => ⟨if x.2 then 2 else 1, x.1⟩)
    ++ (if s.secure.wiping then [⟨6, ⟨0, 0, 0, 0, 0, 0, 0⟩⟩] else [])
    ++ (s.maint.filter (·.running)).map (fun x => ⟨x.code, ⟨0, x.die, x.cluster, 0, 0, 0, 0⟩⟩)

/-- The activity may run beside everything that runs (R440). -/
def State.mayRun (s : State) (a : Act) : Bool := s.running.all (fun x => mayMeet x a)

/-- The engine of logical core `k` as a physical target. -/
def State.engineTarget (s : State) (k e : Nat) : Target :=
  ⟨3, dieOf k, (s.physCluster (dieOf k) (clusterOf k)).getD 99, s.physCore k, s.physEngine k e, 0, 0⟩

/-- The core as a physical target. -/
def State.coreTarget (s : State) (k : Nat) : Target :=
  ⟨1, dieOf k, (s.physCluster (dieOf k) (clusterOf k)).getD 99, s.physCore k, 0, 0, 0⟩

/-- A slice or march is on the core, its cluster's fabric or an engine of it (R452). -/
def State.sliceOn (s : State) (k : Nat) : Bool :=
  let hit (t : Target) : Bool :=
    t.die == dieOf k && s.physCluster (dieOf k) (clusterOf k) == some t.cluster &&
      (t.kind == 2 || ((t.kind == 1 || t.kind == 3 || t.kind == 4 || t.kind == 5) && t.core == s.physCore k))
  s.grazer.slices.any (fun x => hit x.t) || s.grazer.marches.any (fun x => hit x.1)

/-- A sweep is on engine `e` of core `k`, or a test of the whole core or cluster (R452). -/
def State.engineTested (s : State) (k e : Nat) : Bool :=
  let hit (t : Target) : Bool :=
    t.die == dieOf k && s.physCluster (dieOf k) (clusterOf k) == some t.cluster &&
      (t.kind == 2 || (t.core == s.physCore k && (t.kind == 1 || (t.kind == 3 && t.engine == s.physEngine k e))))
  s.grazer.slices.any (fun x => hit x.t) || s.grazer.marches.any (fun x => hit x.1)

/-- A fresh free value: the counter of the state is read and advanced. -/
def State.openWord (s : State) (tag bitsN : Nat) : State × Nat :=
  ({ s with pkg := { s.pkg with free := s.pkg.free + 1 } }, Config.openValue tag s.pkg.free 0 % 2 ^ bitsN)

end Sys2Proof.Machine
end

