-- ==== Sys2Proof/Machine/Deposits.lean ====
section
/-! DEFINITION. Deposits into landing windows (05 R164 to R171): the checks of a sender, credit in the order
of arrival, landing and the step of the window's counter. -/
namespace Sys2Proof.Machine
open Sys2Proof

/-- The checks of a deposit by core `k` into window `w` of core `d` (R167): reason and detail for the sender. -/
def State.depositFault (s : State) (k d w off lines : Nat) : Chk :=
  if (s.core d).entry ≠ (s.core k).entry then some (0x07, deniedDetail 0xFFFF 0 0 5)
  else match (s.core d).window w with
    | none => some (0x04, 4 * 2 ^ 28 + off % 2 ^ 28)
    | some v => if v.lines < off + lines then some (0x04, 3 * 2 ^ 28 + off % 2 ^ 28) else none

/-- The level of a substitution in progress on core `k` or, with `e`, on its engine `e` (R415). -/
def State.substOn (s : State) (k : Nat) (e : Option Nat) : Option Nat :=
  (s.maps.subst.find? (fun u =>
    match u.level with
    | 4 => u.k / 16 == k / 16
    | 3 => u.k == k
    | _ => u.k == k && e == some u.e)).map (·.level)

/-- The program of a frame is in RUN on the core. -/
def Core.inRun (c : Core) : Bool :=
  match c.st with
  | .run | .draining | .stopping => true
  | _ => false

/-- The cycles of core `k` count for the time limits of R169, R217 and R241: it is in RUN, and neither the envelope nor
a fence nor a spare substitution holds it. -/
def State.counts (s : State) (k : Nat) : Bool :=
  let c := s.core k
  c.inRun && !(s.yoke.held.any (fun x => x / 32 == k)) && !(c.q.flights.any (fun f => f.fence.isSome)) &&
    !(s.maps.subst.any (fun u => if u.level = 4 then u.k / 16 == k / 16 else u.k == k))

/-- A new deposit, waiting for credit. -/
def State.addDeposit (s : State) (d : Deposit) : State :=
  { s with deposits := s.deposits ++ [{ d with id := s.nextDep }], nextDep := s.nextDep + 1 }

/-- The core that sends a deposit. -/
def DepSrc.sender (a : DepSrc) : Option Nat :=
  match a with
  | .core k _ | .multicast k _ => some k
  | .hub _ => none

/-- Deposit `a` keeps its place before `b`: one sender, one window of a core that both name (R167). -/
def Deposit.shares (a b : Deposit) : Bool :=
  a.src.sender == b.src.sender && a.win == b.win && a.dests.any b.dests.contains

/-- A deposit sent before the deposit `d`, which has the number `d.id`, has not landed where it must land before `d`
(R167, R284). -/
def State.depositBefore (s : State) (d : Deposit) : Bool :=
  (s.deposits.takeWhile (fun x => x.id != d.id)).any (fun x => x.shares d)

/-- Window `w` of core `d` holds at least `n` credits. -/
def State.hasCredit (s : State) (d w n : Nat) : Bool :=
  match (s.core d).window w with
  | some v => decide (n ≤ v.credit)
  | none => false

/-- Window `w` of core `d` loses `n` credits. -/
def State.takeCredit (s : State) (d w n : Nat) : State :=
  s.modCore d (fun c => match c.window w with
    | some v => c.setWindow w (some { v with credit := v.credit - n })
    | none => c)

/-- The deposits, in order of arrival, that find their credit consume it; one that waits holds back those of
the same sender into the same window (R167). `seen` are the deposits already treated. -/
def creditWalk : List Deposit → List Deposit → State → State
  | [], seen, s => { s with deposits := seen.reverse }
  | d :: r, seen, s =>
    let behind := seen.any (fun x => !x.credited && x.shares d)
    match d.src with
    | .multicast _ _ => creditWalk r (d :: seen) s
    | _ =>
      if d.credited || behind || !(d.dests.all (fun k => s.hasCredit k d.win d.lines)) then
        creditWalk r (d :: seen) s
      else
        creditWalk r ({ d with credited := true } :: seen)
          (d.dests.foldl (fun s k => s.takeCredit k d.win d.lines) s)

/-- Waiting deposits consume the credit they find. -/
def State.tryCredit (s : State) : State := creditWalk s.deposits [] s

/-- The lines of a deposit written from byte `a`, each with its tag; `cause` 5 of a sheet that is OFF. -/
def landLines (a : Nat) : List (Nat × List Byte × Nat) → Core → Eff Core
  | [], c => .ok c
  | (o, b, t) :: r, c => (c.spWrite 5 (a + 64 * o) b (some t)).bind fun c1 => landLines a r c1

/-- The lines of core `c`'s scratchpad from byte `a`, with their tags. -/
def Core.linesFrom (c : Core) (a : Nat) : Nat → Nat → Eff (Core × List (Nat × List Byte × Nat))
  | 0, _ => .ok (c, [])
  | n + 1, j =>
    (c.spRead (a + 64 * j) 64).bind fun r =>
      (Core.linesFrom r.1 a n (j + 1)).bind fun q => .ok (q.1, (j, r.2, c.lineTags (a + 64 * j) 64) :: q.2)

/-- The instruction of a started flight, or the instruction due when there is none. -/
def State.haltFlight (s : State) (k fl reason detail : Nat) : State :=
  match (s.core k).q.flights.find? (fun f => f.id == fl) with
  | some f => s.haltEntry k f.ent reason detail
  | none => s.haltDue k reason detail

/-- The deposit `id` is no longer waiting. -/
def State.dropDeposit (s : State) (id : Nat) : State :=
  { s with deposits := s.deposits.filter (fun d => d.id != id) }

/-- The lines of `d` land in window `w` of core `k`, and the window's counter steps (R167, R172). A sheet that
is OFF halts the owner (R159); a sheet that is WAKING makes the deposit wait. -/
def State.landAt (s : State) (d : Deposit) (lines : List (Nat × List Byte × Nat)) (k : Nat) : Option State :=
  let c := s.core k
  match c.window d.win with
  | none => some s
  | some v =>
    match landLines ((v.base + d.off) * 64) lines c with
    | .wait => none
    | .stop c1 r x => some ((s.setCore k c1).haltDue k r x)
    | .ok c1 =>
      let s1 := s.setCore k c1
      some (if d.stepCtr then s1.depositStep k v.ctr else s1)

/-- The lines land in every destination, or in none while one of them waits. -/
def landAll (d : Deposit) (lines : List (Nat × List Byte × Nat)) : List Nat → State → Option State
  | [], s => some s
  | k :: r, s => (s.landAt d lines k).bind (landAll d lines r)

/-- A credited deposit lands (R167, R245). -/
def State.land (s : State) (d : Deposit) : State :=
  match d.src, d.spAddr with
  | .core k fl, some a =>
    match (s.core k).linesFrom a d.lines 0 with
    | .wait => s
    | .stop c1 r x => ((s.setCore k c1).dropDeposit d.id).haltFlight k fl r x
    | .ok (c1, lines) =>
      match landAll d lines d.dests (s.setCore k c1) with
      | some s1 => (s1.dropDeposit d.id).settle k
      | none => s
  | .core k _, none =>
    match landAll d d.data d.dests s with
    | some s1 => (s1.dropDeposit d.id).settle k
    | none => s
  | _, _ =>
    match landAll d d.data d.dests s with
    | some s1 => s1.dropDeposit d.id
    | none => s

/-- A path that works leads to every destination: around the ring, or from a hub in service (R27, R28, R412). -/
def State.depositPath (s : State) (d : Deposit) : Bool :=
  d.dests.all (fun k => match d.src with
    | .core j _ | .multicast j _ => (s.ringPath (dieOf j) (dieOf k)).isSome
    | .hub _ => [0, 1].any (fun h => (s.hub h).up && at' (s.die (dieOf k)).hubLinks h false))

/-- The sender's core as a landing deposit reads it. -/
def State.enterSender (s : State) (d : Deposit) (tm : Timing) : State :=
  match d.src.sender with
  | some k => s.enter k tm
  | none => s

/-- The sender's core after the deposit read it. -/
def State.leaveSender (s : State) (d : Deposit) (tm : Timing) : State :=
  match d.src.sender with
  | some k => s.timed k none tm
  | none => s

/-- DEPOSIT_LAND (R167): in the order sent. -/
def execDepositLand (x : LandIn) (s : State) : Host.Outcome State Fault Refusal :=
  answer true (match s.deposits.find? (fun d => d.id == x.id && d.credited) with
    | some d =>
      if s.depositPath d && !(s.depositBefore d) then ((s.enterSender d x.tm).land d).leaveSender d x.tm else s
    | none => s)

/-- The sender's code in the detail of CREDIT_TIMEOUT (R182). -/
def DepSrc.code : DepSrc → Nat
  | .core _ _ => 1
  | .multicast _ _ => 2
  | .hub _ => 3

/-- The cycles count for the time limit of a waiting deposit: those of its sender and of every owner do (R169). -/
def State.depositCounts (s : State) (d : Deposit) : Bool :=
  (d.src.sender.toList ++ d.dests).all s.counts

/-- CREDIT_TIMEOUT (R169): the sender core halts; for a hub, the owner core. -/
def execCreditTimeout (id : Nat) (s : State) : Host.Outcome State Fault Refusal :=
  answer true (match s.deposits.find? (fun d => d.id == id && !d.credited) with
    | some d =>
      if !(s.depositCounts d) then s
      else
      let x := d.src.code * 2 ^ 28 + d.win * 2 ^ 25
      match d.src with
      | .core k fl => (s.haltFlight k fl 0x09 x).dropDeposit id
      | .multicast k fl => (s.haltFlight k fl 0x09 x).dropDeposit id
      | .hub _ => match d.dests with
        | k :: _ => (s.haltDue k 0x09 x).dropDeposit id
        | [] => s
    | none => s)

/-- SHEET_WAKE_DONE (R155): a WAKING sheet is ON. -/
def wakeSheet (n : Nat) (c : Core) : Core :=
  { c with mem := { c.mem with sheets := modAt c.mem.sheets n (fun x => if x = .waking then .on else x) } }

/-- SHEET_WAKE_DONE (R155). -/
def execSheetWakeDone (k sheet : Nat) (s : State) : Host.Outcome State Fault Refusal :=
  answer (coreOk k && decide (sheet < 32)) (s.modCore k (wakeSheet sheet))

/-- The lines of a waiting deposit checked against a window declared again (R170): the sender halts. A field
tile is checked when it moves (R290). -/
def recheck (k : Nat) : List Deposit → State → State
  | [], s => s
  | d :: r, s =>
    recheck k r (if !d.credited && d.dests.contains k then
      match (s.core k).window d.win with
      | some v => if v.lines < d.off + d.lines then
          (match d.src with
          | .core q fl => (s.haltFlight q fl 0x04 (3 * 2 ^ 28 + d.off % 2 ^ 28)).dropDeposit d.id
          | .multicast _ _ => s
          | .hub _ => (s.haltDue k 0x04 (3 * 2 ^ 28 + d.off % 2 ^ 28)).dropDeposit d.id)
        else s
      | none => s
    else s)

/-- WINDOW, declaring (R170). -/
def execWindowDeclare (k : Nat) (s : State) : Host.Outcome State Fault Refusal :=
  answer (coreOk k) (let s1 := s.windowIssue k false (declareBody (s.inFlight k)); recheck k s1.deposits s1)

/-- WINDOW, undeclaring (R170). -/
def execWindowUndeclare (k : Nat) (s : State) : Host.Outcome State Fault Refusal :=
  answer (coreOk k) (s.windowIssue k true (undeclareBody (s.inFlight k)))

/-- GRANT (R166): the credit may serve deposits that wait. -/
def execGrant (k : Nat) (s : State) : Host.Outcome State Fault Refusal :=
  answer (coreOk k) (s.ccIssue k (hasOp 0x18) grantBody).tryCredit

/-- The source of a SEND (R245): its checks at the queue head, then a deposit that reads its lines when it
lands. -/
def sendBody (k : Nat) (s : State) (c : Core) (f : Flight) : Eff (State × List DCmd) :=
  let i := f.ent.ins
  let a := f.ent.reg i.dRA
  if a % 64 ≠ 0 then .stop c 0x02 (fieldDetail 0 39)
  else match s.coreOfRank c i.dDRANK with
    | none => .stop c 0x07 (deniedDetail 0xFFFF 0 0 4)
    | some d =>
      (c.spRange a (i.dLEN * 64) (a + i.dLEN * 64 - 1)).bind fun _ =>
      match s.substOn d none, s.depositFault k d i.dWIN i.dWOFF i.dLEN with
      | some lv, _ => .stop c 0x41 (lv * 2 ^ 28)
      | none, some (r, x) => .stop c r x
      | none, none => .ok ((s.addDeposit ⟨0, .core k f.id, [d], i.dWIN, i.dWOFF, i.dLEN, some a, [], false, true⟩).tryCredit,
          [])

/-- SEND (R245). -/
def execSend (k : Nat) (ph : Sys2Proof.Phase) (s : State) : Host.Outcome State Fault Refusal :=
  answer (coreOk k) (s.queued k ph (hasOp 0x60) (sendBody k))

/-- EMIT (R246): the lines are copied into the frame's result in hub staging; the OR of their tags joins the
result's tags. -/
def emitBody (k : Nat) (s : State) (c : Core) (f : Flight) : Eff (State × List DCmd) :=
  let i := f.ent.ins
  let a := f.ent.reg i.eRA
  let o := f.ent.reg i.eRB
  match s.frameOf c with
  | none => .wait
  | some e =>
    let rlen := match e.op with
      | .run b => b.rlen
      | _ => 0
    if a % 64 ≠ 0 then .stop c 0x02 (fieldDetail 0 82)
    else if o % 64 ≠ 0 then .stop c 0x02 (fieldDetail 0 78)
    else
      let lines := tabulate i.eLEN (fun j => o / 64 + j)
      match lines.find? (fun l => decide (rlen < l * 64 + 64) || e.frame.emitted.contains l) with
      | some l => .stop c 0x18 ((if rlen < l * 64 + 64 then 1 else 2) * 2 ^ 28 + l % 2 ^ 28)
      | none =>
        (c.spRead a (i.eLEN * 64)).bind fun r =>
          .ok ((s.setCore k r.1).modEntry e.cseq (fun e => { e with frame := { e.frame with
            result := Mem.writeBytes e.frame.result o r.2
            emitted := lines ++ e.frame.emitted
            rtag := e.frame.rtag ||| c.lineTags a (i.eLEN * 64) } }), [])

/-- EMIT (R246). -/
def execEmit (k : Nat) (ph : Sys2Proof.Phase) (s : State) : Host.Outcome State Fault Refusal :=
  answer (coreOk k) (s.queued k ph (hasOp 0x61) (emitBody k))

end Sys2Proof.Machine
end

