-- ==== Sys2Proof/Machine/Accum.lean ====
section
/-! DEFINITION. Accumulation (04): slots, carried runs, drains, the FINAL route into Y, segment sums and
partials. -/
namespace Sys2Proof.Machine
open Sys2Proof

/-- The byte address of slot `n` in a region (R117). -/
def slotAddr (base stride n : Nat) : Nat := base * 65536 + n * stride * 64

/-- The first `n` words of a slot, read as a drain. -/
def Core.slotRead (c : Core) (base stride slot n : Nat) : Eff (Core × List Word) :=
  (c.spReadAs 3 (slotAddr base stride slot) (4 * n)).bind fun r =>
    .ok (r.1, tabulate n (fun i => word (leAt r.2 (4 * i) 4)))

/-- Words written to a slot as a drain: line tags stay (R172). -/
def Core.slotWrite (c : Core) (base stride slot : Nat) (ws : List Word) : Eff Core :=
  c.spWrite 3 (slotAddr base stride slot) (ws.flatMap (fun w => leBytes 4 w.toNat)) none

/-- The entry of the slot tag table. -/
def Core.slotEntry (c : Core) (n : Nat) : SlotTag := (Tbl.get c.acc.slotTag n).getD ⟨0, none⟩

/-- `c` with an entry of the slot tag table written. -/
def Core.setSlotEntry (c : Core) (n : Nat) (t : SlotTag) : Core :=
  { c with acc := { c.acc with slotTag := Tbl.set c.acc.slotTag n t } }

/-- What the near unit carries of run `n` (R125). -/
def Core.runOf (c : Core) (n : Nat) : Option Run := c.acc.runs.find? (fun r => r.id == n)

/-- `c` with what is carried of run `n` replaced. -/
def Core.setRun (c : Core) (n : Nat) (r : Option Run) : Core :=
  { c with acc := { c.acc with runs := r.toList ++ c.acc.runs.filter (fun x => x.id != n) } }

/-- The run ends other than by FINAL: its slot is written once (R125). -/
def Core.closeRun (c : Core) (r : Run) : Eff Core :=
  (c.slotWrite r.base r.stride r.slot r.sums).bind fun c1 => .ok (c1.setRun r.id none)

/-- All runs of a list end. -/
def closeRuns : List Run → Core → Eff Core
  | [], c => .ok c
  | r :: l, c => (c.closeRun r).bind (closeRuns l)

/-- A pass or result of flight `fl` is on its way: in flight or in a result set. -/
def Core.inPipe (c : Core) (p : Result → Bool) : Bool :=
  c.acc.passes.any (fun x => p x.res) ||
    c.engines.any (fun g => (g.2.active.map p).getD false || (g.2.shadow.map p).getD false)

/-! ### The FINAL route into Y -/

/-- The PLAN of a started macro. -/
def Flight.plan (f : Flight) : Plan := f.ent.planOf

/-- The actual M of a started macro (R265): that of X, or of the PLAN for COMBINE. -/
def Flight.rows (f : Flight) : Nat :=
  let p := f.plan
  if f.ent.ins.op = 0x2B then actualLen p.rowLen none p.pm
  else
    let x := f.ent.ten 1
    actualLen x.rowLen p.rowLen x.maxr

/-- The OR of the tags of the outputs from column `col` of a row at byte `a` that lie in unit `l` of `size` bytes
(R114). -/
def unitTagOf (size a w col : Nat) (ts : List Nat) (l : Nat) : Nat :=
  (ts.mapIdx (fun n t => if (a * 8 + (col + n) * w) / (8 * size) = l then t else 0)).foldl (· ||| ·) 0

/-- One finished row written to Y: block outputs from column `col` of row `row`, with the tag that each carries (R97
steps 5 and 6, R114). -/
def Core.encodeRow (c : Core) (u : NearUnit) (p : Plan) (isFp : Bool) (row col : Nat) (ws : List (Word × Nat)) :
    Eff Core :=
  let f := (Fmt.ofCode u.outfmt).getD .acc32
  let outs := ws.mapIdx (fun n w => ((encodeOut isFp u n f w.1).1, w.2 ||| (encodeOut isFp u n f w.1).2))
  c.writeRun p.view 3 row col (outs.map (·.1))
    (unitTagOf (if p.view.treg then 512 else 64) (p.view.row row) p.view.w col (outs.map (·.2)))

/-- The row of Y that the output of vector `m` of M-tile `mt` reaches (R108). -/
def NearUnit.yRow (u : NearUnit) (pm mt m : Nat) : Nat :=
  if u.pool = 0 then mt * pm + m else mt * ceilDiv pm u.poolw + m / u.poolw

/-- A FINAL result of engine `e` (R97): scale, activation, pooling, encoding, and the write to Y. Another `POOL` or `POOLW` than
that of the macro's first FINAL is reported at bit 47 of the PLAN word (R108; DESIGN CHOICE, log 113). -/
def Core.finalRoute (c : Core) (f : Flight) (e mt m unit col tag : Nat) (isFp : Bool) (ws : List Word) :
    Eff Core :=
  let g := c.engine e
  let u := g.nu
  let p := f.plan
  let pk := bits u.act.toNat 23 18
  let first := ((c.q.flights.find? (fun x => x.id == f.id)).getD f).pool
  if first.isSome ∧ first ≠ some pk then .stop c 0x02 (fieldDetail f.plan.word 47)
  else match finalFault isFp u p.yfmt.code with
    | some (r, x) => .stop c r x
    | none =>
      let c0 := c.modFlight f.id (fun x => { x with pool := some pk })
      let vs := ws.mapIdx (fun n w => scaleWord isFp u n w)
      let ts := vs.map (fun w => tag ||| wordTag isFp w)
      let as := vs.map (activate isFp u)
      if u.pool = 0 then c0.encodeRow u p isFp (u.yRow p.pm mt m) col (as.zip ts)
      else
        let w := u.poolw
        let yrow := u.yRow p.pm mt m
        let need := min w (min p.pm (f.rows - mt * p.pm) - m / w * w)
        let same (x : PoolWin) : Bool := x.flight == f.id && x.yrow == yrow && x.u == unit
        let old := g.pool.find? same
        let vals := ((old.map (·.vals)).getD []) ++ [as]
        let t2 := match old with
          | some x => List.zipWith (· ||| ·) x.tags ts
          | none => ts
        let rest := g.pool.filter (fun x => !same x)
        if need ≤ vals.length then
          (c0.setEngine e { g with pool := rest }).encodeRow u p isFp yrow col
            ((tabulate ws.length (fun n => poolWord isFp u (vals.map (fun l => at' l n 0)))).zip t2)
        else
          .ok (c0.setEngine e { g with pool := ⟨f.id, yrow, unit, need, vals, t2, isFp⟩ :: rest })

/-! ### Drains (R124, R125) -/

/-- Two lists of words added output by output (R134). -/
def addWords (isFp : Bool) (a b : List Word) : List Word := List.zipWith (slotAdd isFp) a b

/-- The value that an ADD or FINAL adds to: the carried sums of its run, or the slot's words. -/
def Core.accBefore (c : Core) (r : Result) : Eff (Core × List Word) :=
  match c.runOf r.run with
  | some x => .ok (c, x.sums)
  | none => c.slotRead r.base r.stride r.slot r.nlim

/-- What the near unit carries of the run of a result once it has the sums `ws`. -/
def Result.carried (r : Result) (ws : List Word) : Run :=
  ⟨r.run, r.group, r.slot, r.base, r.stride, ws, r.isFp, r.flight⟩

/-- The drain of a result of lead engine `e` (R121, R125, R135). -/
def Core.drainInto (c : Core) (f : Flight) (e : Nat) (r : Result) : Eff Core :=
  let ent := c.slotEntry r.slot
  match r.mode with
  | 0 => .ok ((c.setRun r.run (some (r.carried r.outs))).setSlotEntry r.slot { ent with tag := r.tag })
  | 1 => (c.accBefore r).bind fun q =>
      .ok ((q.1.setRun r.run (some (r.carried (addWords r.isFp q.2 r.outs)))).setSlotEntry r.slot
        { ent with tag := ent.tag ||| r.tag })
  | 2 => (c.accBefore r).bind fun q =>
      let c1 := (q.1.setRun r.run none).setSlotEntry r.slot { ent with tag := ent.tag ||| r.tag }
      c1.finalRoute f e r.mt r.m r.u r.col (ent.tag ||| r.tag) r.isFp (addWords r.isFp q.2 r.outs)
  | _ => c.finalRoute f e r.mt r.m r.u r.col r.tag r.isFp r.outs

/-- Run `n` has ended, and no result of it is on its way (R125). -/
def Core.runOver (c : Core) (n : Nat) : Bool :=
  !(c.acc.opens.any (fun x => x.id == n)) && !(c.inPipe (fun r => r.run == n && r.mode != 3))

/-- The shadow result of engine `e` drains; a run that has ended with it is written to its slot (R125). -/
def Core.drain (c : Core) (f : Flight) (e : Nat) (r : Result) : Eff Core :=
  (c.drainInto f e r).bind fun c1 =>
    let g := c1.engine e
    let c2 := c1.setEngine e { g with shadow := none }
    match c2.runOf r.run with
    | some x => if r.mode != 3 && c2.runOver r.run then c2.closeRun x else .ok c2
    | none => .ok c2

/-- The first started macro whose next Drover command `p` accepts. -/
def Core.drover (c : Core) (p : DCmd → Bool) : Option (Flight × DCmd × List DCmd) :=
  c.q.flights.findSome? (fun f =>
    match f.todo with
    | d :: r => if f.ran && p d then some (f, d, r) else none
    | [] => none)

/-- The macro's next command is issued (R243). -/
def Core.popTodo (c : Core) (id : Nat) (rest : List DCmd) : Core :=
  (c.modFlight id (fun x => { x with todo := rest })).releaseHead id

/-- The slot words of a segmented sum, read one after the other (R139). -/
def readSlots (base stride n : Nat) : List Nat → Core → Eff (Core × List (List Word))
  | [], c => .ok (c, [])
  | x :: l, c => (c.slotRead base stride x n).bind fun q =>
      (readSlots base stride n l q.1).bind fun z => .ok (z.1, q.2 :: z.2)

/-- The segment sums of (m, u) are combined in the tree of R129 and routed (R273). Each core that combines its share of a
segmented sum counts it in `BOUND_EXT`, also a share of one segment (R142; DEDUCED, log 114). -/
def Core.segSum (c : Core) (f : Flight) (lead : Nat) (slots : List Nat) (mt m u col nlim : Nat) (split : Bool) :
    Eff Core :=
  let b := c.acc.accBase
  let st := c.acc.accStride
  (closeRuns (c.acc.runs.filter (fun r => r.flight == f.id && slots.contains r.slot)) c).bind fun c1 =>
  (readSlots b st nlim slots c1).bind fun q =>
    let sum := (treeSum (addWords true) slots.length q.2).getD []
    let tag := slots.foldl (fun t x => t ||| (q.1.slotEntry x).tag) 0
    let c2 := { q.1 with arr := { q.1.arr with boundExt := inc q.1.arr.boundExt } }
    if split then
      (c2.slotWrite b st (slots.headD 0) sum).bind fun c3 => .ok (c3.setSlotEntry (slots.headD 0) ⟨tag, some true⟩)
    else c2.finalRoute f lead mt m u col tag true sum

/-- The deposit of the partial of (m, u) (R283): the slot's lines with the slot's tag on every line. -/
def State.depositPartial (s : State) (k : Nat) (f : Flight) (slot m j : Nat) (last : Bool) : Eff State :=
  let c := s.core k
  let r := f.ent.red 3
  (closeRuns (c.acc.runs.filter (fun x => x.flight == f.id && x.slot == slot)) c).bind fun c1 =>
  let st := c1.acc.accStride
  (c1.linesFrom (slotAddr c1.acc.accBase st slot) st 0).bind fun q =>
    match s.coreOfRank c r.owner with
    | none => .stop c1 0x07 (deniedDetail 0xFFFF 0 0 4)
    | some d =>
      let off := r.woff + (j * f.plan.pm + m) * st
      match s.depositFault k d r.win off st with
      | some (x, y) => .stop c1 x y
      | none =>
        let tag := (c1.slotEntry slot).tag
        .ok (((s.setCore k q.1).addDeposit ⟨0, .core k f.id, [d], r.win, off, st, none,
          q.2.map (fun l => (l.1, l.2.1, tag)), false, last⟩).tryCredit)

/-- What DRAIN does on engine `e` of core `k`: the shadow result drains, or, with none, a segment sum or a
partial deposit that the Drover starts there (R243). -/
def State.drainOn (s : State) (k e : Nat) : State :=
  let c := s.core k
  if !c.live then s
  else match (c.engine e).shadow with
    | some r =>
      match c.q.flights.find? (fun f => f.id == r.flight) with
      | none => s.setCore k (c.setEngine e { c.engine e with shadow := none })
      | some f =>
        match c.drain f e r with
        | .wait => s
        | .stop c1 x y => (s.setCore k c1).haltEntry k f.ent x y
        | .ok c1 => s.setCore k c1
    | none =>
      match c.drover (fun d => match d with
          | .segsum l _ _ _ _ _ _ _ => l == e
          | .part l _ _ _ _ => l == e
          | _ => false) with
      | some (f, .segsum l slots mt m u col nlim split, rest) =>
        if c.inPipe (fun r => r.flight == f.id && slots.contains r.slot) then s
        else match c.segSum f l slots mt m u col nlim split with
          | .wait => s
          | .stop c1 x y => (s.setCore k c1).haltEntry k f.ent x y
          | .ok c1 =>
            let s1 := s.setCore k (c1.popTodo f.id rest)
            match c.entry with
            | some q => s1.modEntry q (fun en => { en with frame := { en.frame with boundExt := true } })
            | none => s1
      | some (f, .part _ slot m j last, rest) =>
        if c.inPipe (fun r => r.flight == f.id && r.slot == slot) then s
        else match s.depositPartial k f slot m j last with
          | .wait => s
          | .stop c1 x y => (s.setCore k c1).haltEntry k f.ent x y
          | .ok s1 => s1.modCore k (fun c1 => c1.popTodo f.id rest)
      | _ => s

/-- A result is in the shadow set of engine `e`, or the Drover's next command of a macro runs there (R243). -/
def Core.drainDue (c : Core) (e : Nat) : Bool :=
  c.live && ((c.engine e).shadow.isSome || (c.drover (fun d => match d with
    | .segsum l _ _ _ _ _ _ _ => l == e
    | .part l _ _ _ _ => l == e
    | _ => false)).isSome)

/-- DRAIN on the core as its accesses find it, with the cycles that FINAL writes waited at a tile-register port
(R176). -/
def State.drainStep (s : State) (k e : Nat) (tm : Timing) : State :=
  if (s.core k).drainDue e then ((s.enter k tm).drainOn k e).timed k none tm else s

/-- DRAIN (R124). -/
def execDrain (k : Nat) (d : DrainIn) (s : State) : Host.Outcome State Fault Refusal :=
  answer (coreOk k && engineOk d.e) (s.drainStep k d.e d.tm)

/-- The active result moves to the shadow set once that set is free; `waited` cycles of the wait are counted
(R124, R142). -/
def swapSets (e waited : Nat) (c : Core) : Core :=
  let g := c.engine e
  match g.active, g.shadow with
  | some r, none =>
    { c.setEngine e { g with active := none, shadow := some r } with
      arr := { c.arr with drainWait := incBy c.arr.drainWait waited } }
  | _, _ => c

/-- RESULT_SET_SWAP (R124). -/
def execResultSetSwap (k e waited : Nat) (s : State) : Host.Outcome State Fault Refusal :=
  answer (coreOk k && engineOk e) (s.modCore k (swapSets e waited))

end Sys2Proof.Machine
end

