-- ==== Sys2Proof/Machine/Records.lean ====
section
/-! DEFINITION. Hard-repair records, and soft-repair segments (14 R462 to R468). -/
namespace Sys2Proof.Machine
open Sys2Proof

/-- One bit of CRC-16 with polynomial 0x1021 (R466). -/
def crcBit (c : Nat) (b : Bool) : Nat :=
  let x := c * 2 % 65536
  if bitAt c 15 != b then x ^^^ 0x1021 else x

/-- CRC-16 over the `n` lowest bits of `w`, most significant first, from `c`. -/
def crc16 : Nat → Nat → Nat → Nat
  | 0, _, c => c
  | n + 1, w, c => crc16 n w (crcBit c (bitAt w n))

/-- A hard-repair record (R466). -/
def repairRecord (kind cluster core engine column bank row : Nat) : Nat :=
  let w := kind * 2 ^ 44 + cluster * 2 ^ 40 + core * 2 ^ 35 + engine * 2 ^ 29 + column * 2 ^ 20 + bank * 2 ^ 14 + row
  w * 65536 + crc16 48 w 0xFFFF

/-- A record whose `CHECK` is right and whose kind is defined. -/
def recordOk (r : Nat) : Bool :=
  r % 65536 == crc16 48 (r / 65536) 0xFFFF && decide (1 ≤ r / 2 ^ 60) && decide (r / 2 ^ 60 ≤ 7)

/-- The REPAIR block of a die. -/
def State.rep (s : State) (d : Nat) : Repair := at' s.repair d Repair.fresh

/-- `s` with the REPAIR block of a die changed. -/
def State.modRep (s : State) (d : Nat) (f : Repair → Repair) : State := { s with repair := modAt s.repair d f }

/-- A persistent fault: its record is to be burned when `HARD_REPAIR` is 1, once (R465). -/
def State.addDue (s : State) (d r : Nat) : State :=
  if s.profile.power.hardRepair then
    s.modRep d (fun x => if x.due.contains r || x.records.any (fun y => y.1 == r && y.2) then x else { x with due := x.due ++ [r] })
  else s

/-- A repair segment: class 4 scratchpad, 5 tile registers, 6 die shared memory; cluster, core, bank, part (R462). -/
def segKey (cls cluster core bank part : Nat) : Nat := (((cls * 9 + cluster) * 17 + core) * 64 + bank) * 16 + part

/-- The logical core on physical core `pc` of physical cluster `c` of die `d`. -/
def State.logCore (s : State) (d c pc : Nat) : Option Nat :=
  (s.logCluster d c).bind (fun l => (clusterCores d l).find? (fun k => s.physCore k == pc))

/-- The logical engine of core `k` on physical engine `pe`. -/
def State.logEngine (s : State) (k pe : Nat) : Option Nat := (List.range 32).find? (fun e => s.physEngine k e == pe)

/-- Fold entries in use by no retired line: the entries that the Fold can hold (R464). -/
def State.ledgerCap (s : State) : Nat :=
  let l := (at' s.dsm 4 (Dsm.fresh true)).badLines ++ (at' s.dsm 5 (Dsm.fresh true)).badLines
  Config.ledgerEntries - ((l.filter (fun x => decide (x.1 < 16))).eraseDups).length

end Sys2Proof.Machine
end

