-- ==== Sys2Proof/Machine/Fold.lean ====
section
/-! DEFINITION. The Fold (11): streams, ledger commits and their order, entries and their states, parcels,
answers on the wire, and the end of a frame on its cores. -/
namespace Sys2Proof.Machine
open Sys2Proof

/-! ### Codes -/

/-- `OPC` (R349). -/
def WorkOp.opc : WorkOp → Nat
  | .run _ => 0
  | .open _ => 1
  | .cancel _ => 2
  | .close => 3

/-- `STATE` (R359). -/
def EntrySt.code : EntrySt → Nat
  | .admitted => 1
  | .ready => 2
  | .running => 3
  | .complete => 4
  | .sent => 5

/-- `STATUS` (R360, R366). -/
def ResStatus.code : ResStatus → Nat
  | .done => 0
  | .failed => 1
  | .withheld => 2
  | .cancelled => 3

/-- A stream state in a COMMIT record (R429). -/
def StreamSt.code : StreamSt → Nat
  | .closed => 0
  | .open => 1
  | .closing => 2

/-! ### Streams -/

/-- Stream `n`. -/
def State.stream (s : State) (n : Nat) : Stream := (Tbl.get s.streams n).getD Stream.fresh

/-- `s` with stream `n` changed. -/
def State.modStream (s : State) (n : Nat) (f : Stream → Stream) : State :=
  { s with streams := Tbl.set s.streams n (f (s.stream n)) }

/-- Why WORK is not accepted: the detail of QUIET (R357). -/
def State.refusing (s : State) : Option Nat :=
  match s.pkg.phase with
  | .running => if s.pkg.quiet ≠ 0 then some 1 else none
  | .warm | .dozing => some 2
  | _ => some 3

/-- Every commit is mirrored to the partner (R431, R432). -/
def State.paired (s : State) : Bool := s.pair.st == .paired || s.pair.st == .suspect

/-- Commits, segments and objects are copied to the partner: in paired mode, and on the survivor while a snapshot is
being taken (R431, R434). -/
def State.mirrors (s : State) : Bool := s.paired || (s.pair.st == .solo && s.pair.syncTo.isSome)

/-- The package gives out commit numbers: it is unpaired, or leads the pair (R353, R426). -/
def State.leads (s : State) : Bool := !s.paired || s.pair.leader

/-! ### Ledger commits (R353, R359) -/

/-- The frame runs on this package alone: on its stream's home, unless it has gone to the partner (R22, R418, R427). -/
def Entry.here (e : Entry) : Bool := e.homeHere != e.away

/-- `DUAL_RUN` as it counts: 0 while the profiles in force at the two packages differ (R524; DESIGN CHOICE, log 119). -/
def State.dualRun (s : State) : Bool := s.profile.work.dualRun && s.pair.peerProf == s.pkg.profDigest

/-- The frame runs on this package: alone, or as on every package (R427, R437). -/
def State.runsHere (s : State) (e : Entry) : Bool := e.here || (s.dualRun && s.paired)

/-- `ILEN` and `RLEN` (R360): input and result bytes. -/
def WorkOp.lens : WorkOp → Nat × Nat
  | .run b => (b.input.length, b.rlen)
  | _ => (0, 0)

/-- The bytes of a program's image. -/
def WorkOp.imageLen : WorkOp → Nat
  | .run b => b.image.length
  | _ => 0

/-- A parcel's place as an entry gives it: stack and first page (R360). -/
def Parcel.place (p : Parcel) : Nat := if p.pages = 0 then 0 else p.stack * 2 ^ 24 + p.first

/-- The record of an entry in PAIR COMMIT, with its `STATE`, whether it has left its home, and its stream (R360, R429;
DEDUCED, log 62, 101). -/
def recordOf (cseq : Nat) (e : Entry) (code : Nat) (x : Stream) : PairRecord :=
  { cseq := cseq, stream := e.stream, incarn := e.incarn, seq := e.seq, tsid := e.tsid, opc := e.op.opc, state := code
    status := e.status.code, wreason := e.wreason, tag := e.frame.rtag % 4, replays := e.replays, tadmit := e.tadmit
    epoch := e.epoch.getD 0, ipar := e.ipar.place, rpar := e.rpar.place, ilen := e.op.lens.1, rlen := e.op.lens.2, away := e.away
    sstate := x.st.code, nextSeq := x.nextSeq, credit := x.credit, outst := x.outst }

/-- One record sent in a COMMIT. -/
def State.sendRecord (s : State) (r : PairRecord) : State := s.sendPair 2 (commitFields 1) r.bytes

/-- The commit `n` is applied: it is the last committed when no higher one is, and both hubs' digests take it
(R375, R424). -/
def State.applied (s : State) (n : Nat) : State :=
  { s with
    pkg := { s.pkg with cseq := max s.pkg.cseq n }
    hubs := s.hubs.map (fun h => { h with digest := Config.digestStep h.digest n }) }

/-- A commit is sent to the partner and not yet confirmed (R444); `kind` as `Pair.unconf` has it. -/
def State.await (s : State) (n kind stream incarn seq : Nat) : State :=
  { s with pair := { s.pair with unconf := s.pair.unconf ++ [[n, kind, stream, incarn, seq]] } }

/-- A change of entry `e` to `STATE` `code` is a ledger commit: it takes the next commit number, and the partner gets its
record (R353, R359; DEDUCED, log 31). In SUSPECT a release is queued for the partner (R432). -/
def State.ledgerAs (s : State) (e : Entry) (code : Nat) : State :=
  let n := if s.leads then s.pkg.cseqNext else 0
  let s1 := if n = 0 then s else { s.applied n with pkg := { (s.applied n).pkg with cseqNext := n + 1 } }
  let r := recordOf n e code (s1.stream e.stream)
  if !s1.mirrors then s1
  else if s1.pair.st = .suspect ∧ code = 0 then
    { s1.await n 0 e.stream e.incarn e.seq with
      pair := { (s1.await n 0 e.stream e.incarn e.seq).pair with releases := s1.pair.releases ++ [r] } }
  else (s1.sendRecord r).await n 0 e.stream e.incarn e.seq

/-- A ledger commit of an entry in its present state. -/
def State.ledger (s : State) (e : Entry) : State := s.ledgerAs e e.st.code

/-- The entry `cseq` changes by `f` in a ledger commit. -/
def State.commitEntry (s : State) (cseq : Nat) (f : Entry → Entry) : State :=
  match s.entry? cseq with
  | some e => (s.modEntry cseq f).ledger (f e)
  | none => s

/-! ### Versions and their references (06 R202 to R204) -/

/-- The version was current at commit number `ep`. -/
def Version.currentAt (v : Version) (ep : Nat) : Bool :=
  decide (v.from_ ≤ ep) && match v.until_ with
    | none => true
    | some u => decide (ep < u)

/-- The reference counts of the versions that a frame of `tenant` bound at `ep` may call, changed by `f`. -/
def State.modRefs (s : State) (tenant ep : Nat) (f : Nat → Nat) : State :=
  { s with routines := s.routines.map (fun r =>
      if r.tenant == tenant then
        { r with versions := r.versions.map (fun v => if v.currentAt ep then { v with refs := f v.refs } else v) }
      else r) }

/-- A version that is no longer current and has no reference. -/
def Version.dead (v : Version) : Bool := v.until_.isSome && v.refs == 0

/-- Versions without use are freed on every die that holds them (R204, R207). -/
def State.freeVersions (s : State) : State :=
  let gone := s.routines.flatMap (fun r => r.versions.filter Version.dead)
  { s with
    routines := s.routines.map (fun r => { r with versions := r.versions.filter (fun v => !v.dead) })
    dsm := s.dsm.mapIdx (fun d x => { x with freed := incBy x.freed ((gone.filter (fun v => (Tbl.get v.lineAt d).isSome)).length) }) }

/-- The outcome of the frame is one by which it completes at once for R204: FAILED_PROGRAM or CANCELLED. -/
def Entry.failed (e : Entry) : Bool := e.ended && (e.status == .failed || e.status == .cancelled)

/-- The frame has completed: its result parcel is in both stacks, or it is FAILED_PROGRAM or CANCELLED (R204). -/
def Entry.completed (e : Entry) : Bool := e.st == .complete || e.st == .sent || e.failed

/-- The frame holds references: it is bound and has not completed (R204). -/
def Entry.holdsRefs (e : Entry) : Bool := e.epoch.isSome && !e.completed

/-- The frame holds references again, when it held none. -/
def State.takeRefs (s : State) (e : Entry) : State :=
  match e.epoch with
  | some ep => if e.holdsRefs then s else s.modRefs e.tenant ep (fun n => n + 1)
  | none => s

/-- The references of a frame end (R204). -/
def State.dropRefs (s : State) (e : Entry) : State :=
  match e.epoch with
  | some ep => (s.modRefs e.tenant ep (fun n => n - 1)).freeVersions
  | none => s

/-! ### A frame's run and its end on the cores -/

/-- A run with nothing done. -/
def FrameRun.fresh : FrameRun :=
  ⟨[], 0, false, [], [], [], [], 0, 0, 0, false, false, [], [], [], none, false, [], []⟩

/-- The run of a frame that starts anew: its program and its cores stay (R416). -/
def FrameRun.again (f : FrameRun) : FrameRun :=
  { FrameRun.fresh with
    prog := f.prog, footprint := f.footprint, rdwOld := f.rdwOld, cores := f.cores, places := f.places, rs := f.rs }

/-- The core is free: no frame, nothing queued (R240, R251). -/
def Core.release (c : Core) : Core :=
  { c with
    st := .idle
    entry := none
    q := { c.q with mx := [], vx := [], mv := [], cf := [], flights := [] }
    acc := { c.acc with passes := [], runs := [] }
    engines := c.engines.map (fun p => (p.1, { p.2 with active := none, shadow := none, pool := [] }))
    ctl := { c.ctl with stall := none } }

/-- The cores on which the frame `cseq` is. -/
def State.coresOf (s : State) (cseq : Nat) : List Nat :=
  (s.cores.filter (fun p => p.2.entry == some cseq)).map (·.1)

/-- The frame `cseq` is ended on every core, with its deposits and its WORK area (R248, R416). -/
def State.clearFrame (s : State) (cseq : Nat) : State :=
  let ks := s.coresOf cseq
  let e := s.entry? cseq
  let s1 := { s with
    cores := s.cores.map (fun p => if p.2.entry == some cseq then (p.1, p.2.release) else p)
    deposits := s.deposits.filter (fun d =>
      !(ks.any (fun k => sentBy k d) || d.dests.any (fun k => ks.contains k) || d.src == .hub cseq)) }
  match e with
  | some x => (x.frame.pages.foldl (fun s p => s.giveRun p.1 p.2.1 p.2.2) s1).modEntry cseq (fun y => { y with
      frame := { y.frame with pages := [] } })
  | none => s1

/-- The place of an entry among the READY entries of its cores (R362, R363): front entries first, then commit
order; `backOrder` lies behind every entry that exists. -/
def readyOrder (cseq : Nat) : Nat := 2 * cseq + 2
def State.backOrder (s : State) : Nat := 2 * s.pkg.cseqNext + 1

/-- The entry returns to READY and runs again from its input (R363, R416). -/
def State.requeue (s : State) (cseq order : Nat) (f : Entry → Entry) : State :=
  (s.clearFrame cseq).commitEntry cseq (fun e =>
    f { e with
      st := .ready, order := order, frame := e.frame.again, ended := false, parcelOk := false
      status := .done, wreason := 0, payload := [] })

/-- A counter of the FOLD block that belongs to no port is the leader hub's (DEDUCED, log 32). -/
def State.countFold (s : State) (f : FoldRegs → FoldRegs) : State := s.modFold s.pkg.leader f

/-- Once the last entry that a takeover runs again completes, its time since the loss is kept (R444). -/
def State.noteReplay (s : State) (cseq : Nat) : State :=
  if s.pair.replaysLeft.contains cseq then
    let l := s.pair.replaysLeft.filter (· != cseq)
    { s with pair := { s.pair with
        replaysLeft := l
        regs := if l.isEmpty then { s.pair.regs with takeover := word ((s.pkg.aon - s.pair.lostAt) / 100000) } else s.pair.regs } }
  else s

/-- The outcome of an entry is decided without a run of it to its end: what it had on the cores is gone, and its result
parcel is written next (R359, R363). -/
def Entry.decided (e : Entry) (st : ResStatus) (wreason : Nat) (payload : List Byte) : Entry :=
  { e with status := st, wreason := wreason, payload := payload, ended := true, parcelOk := false }

/-- The entry is to become COMPLETE with this outcome, by RESULT_PARCEL_WRITTEN (R359); one that was COMPLETE runs no
more, but its result is another (R438). References of a frame that so completes end now (R204). -/
def State.completeAs (s : State) (cseq : Nat) (st : ResStatus) (wreason : Nat) (payload : List Byte) : State :=
  match s.entry? cseq with
  | none => s
  | some e =>
    let s1 := s.clearFrame cseq
    let s2 := if e.st = .complete ∨ e.st = .sent then s1.commitEntry cseq (fun x => { x.decided st wreason payload with st := .running })
      else s1.modEntry cseq (fun x => x.decided st wreason payload)
    if e.holdsRefs && (e.decided st wreason payload).failed then s2.dropRefs e else s2

/-! ### Answers (R357) -/

/-- Credit remaining: credit less outstanding, 0 when the stream is not OPEN (R348, R357). -/
def Stream.creditLeft (x : Stream) : Nat := if x.st = .open then x.credit - x.outst else 0

/-- The longest time to an answer (R375). -/
def State.admitTime (s : State) (port time : Nat) : State :=
  s.modFold (port / 4) (fun r => { r with admitMax := keepMax r.admitMax time })

/-- The 32 bytes of an ACK body (R357). -/
def ackBody (accept : Bool) (reason flags credit nextSeq detail cseq : Nat) : List Byte :=
  beBytes 1 (flag !accept) ++ beBytes 1 reason ++ beBytes 2 flags ++ beBytes 2 credit ++ beBytes 2 0 ++ beBytes 4 nextSeq
    ++ beBytes 4 detail ++ beBytes 8 cseq ++ beBytes 8 0

/-- REFUSE for a frame with these numbers (R357). -/
def State.refuse (s : State) (port addr tsid stream incarn seq reason detail time : Nat) : State :=
  let x := s.stream stream
  ((s.sendAt port addr (headOf 2 tsid stream incarn seq) (ackBody false reason 0 x.creditLeft x.nextSeq detail 0)).modFold
    (port / 4) (fun r => { r with refuse := modAt r.refuse (reason - 1) inc })).admitTime port time

/-- ACCEPT (R357); `flags` are `AFLAGS`. -/
def State.accept (s : State) (port addr tsid stream incarn seq flags cseq time : Nat) : State :=
  let x := s.stream stream
  (s.sendAt port addr (headOf 2 tsid stream incarn seq) (ackBody true 0 flags x.creditLeft x.nextSeq 0 cseq)).admitTime port time

/-- An ACCEPT of the entry has been sent, when port `p` works: it may run (R31). -/
def State.noteAck (s : State) (cseq p : Nat) : State :=
  if s.portUp p then s.modEntry cseq (fun e => { e with acked := true }) else s

/-- A duplicate is answered (R355, R375). -/
def State.countDup (s : State) (port : Nat) : State := s.modFold (port / 4) (fun r => { r with dups := inc r.dups })

/-- ACCEPT of a duplicate: with the original's `CSEQ`, or RELEASED and `CSEQ` 0 (R355). -/
def State.acceptDup (s : State) (port addr tsid stream incarn seq time : Nat) : State :=
  (match s.entries.find? (fun (e : Entry) => e.stream == stream && e.incarn == incarn && e.seq == seq) with
    | some e => (s.accept port addr tsid stream incarn seq 1 e.cseq time).noteAck e.cseq port
    | none => s.accept port addr tsid stream incarn seq 3 0 time : State).countDup port

/-! ### Confirmation and deadline (R353 to R355, R364) -/

/-- The target of a CANCEL. -/
def State.target? (s : State) (stream incarn tseq : Nat) : Option Entry :=
  s.entries.find? (fun e => e.stream == stream && e.incarn == incarn && e.seq == tseq)

/-- The outcome code of a CANCEL by the state of its target (R364). -/
def State.cancelCode (s : State) (stream incarn tseq : Nat) : Nat :=
  match s.target? stream incarn tseq with
  | none => 2
  | some e =>
    match e.op with
    | .run _ => if e.st = .complete ∨ e.st = .sent then 1 else 0
    | _ => 2

/-- The result of a CANCEL: its outcome code in a line (R364). -/
def cancelPayload (code : Nat) : List Byte := BitVec.ofNat 8 code :: List.replicate 63 0

/-- The CANCEL `e` of `tseq` is decided: on a target that has not completed it acts at its own commit (R364). -/
def State.decideCancel (s : State) (e : Entry) (tseq : Nat) : Entry :=
  let c := s.cancelCode e.stream e.incarn tseq
  if c = 0 then e else { e with payload := cancelPayload c }

/-- The CANCEL `e` of `tseq`, its entry in the Fold, has its effect. -/
def State.doCancel (s : State) (e : Entry) (tseq : Nat) : State :=
  if !e.payload.isEmpty then s
  else
    let c := s.cancelCode e.stream e.incarn tseq
    let s1 := if c = 0 then
        (match s.target? e.stream e.incarn tseq with
        | some x => s.completeAs x.cseq .cancelled 0 []
        | none => s)
      else s
    s1.modEntry e.cseq (fun x => { x with payload := cancelPayload c })

/-- A CANCEL of the entry is being committed: a completion, whose number would be higher, waits for it (R353,
R364). -/
def State.cancelDue (s : State) (e : Entry) : Bool :=
  s.commits.any (fun c => c.entry.stream == e.stream && c.entry.incarn == e.incarn && c.entry.payload.isEmpty &&
    match c.entry.op with
    | .cancel t => t == e.seq
    | _ => false)

/-- The stream after the commit of an entry (R345 to R348). -/
def Stream.commit (x : Stream) (e : Entry) : Stream :=
  match e.op with
  | .open credit =>
    { st := .open, incarn := some e.incarn, tsid := e.tsid, nextSeq := e.seq + 1, credit := credit, outst := 1,
      homeHere := e.homeHere, port := e.port, addr := e.addr }
  | .close => { x with st := .closing, nextSeq := e.seq + 1, outst := x.outst + 1 }
  | _ => { x with nextSeq := e.seq + 1, outst := x.outst + 1 }

/-- The entry joins the Fold, and the stream takes its new state; a CANCEL acts on its target, and its outcome
is its result (R353, R364). -/
def State.admitEntry (s : State) (e : Entry) : State :=
  let s1 := ({ s with entries := s.entries ++ [e] }.modStream e.stream (fun x => x.commit e)).applied e.cseq
  match e.op with
  | .cancel t => s1.doCancel e t
  | _ => s1

/-- Every copy of the commit is confirmed (R353). -/
def Commit.whole (c : Commit) : Bool := c.needHubs.isEmpty && !c.needPeer && c.cseq != 0

/-- The copies of a frame's segments at both hubs are not needed any more. -/
def State.dropCopies (s : State) (stream incarn seq : Nat) : State :=
  { s with hubs := s.hubs.map (fun h => { h with copies := h.copies.filter (fun y =>
      !(y.hdr.stream == stream && y.hdr.incarn == incarn && y.hdr.seq == seq)) }) }

/-- A commit whose every copy is confirmed: the entry is in the Fold, ACCEPT is on the wire, from when on the frame is
accepted work, and waiting duplicates are answered (R353, R355). -/
def State.confirm (s : State) (c : Commit) (time : Nat) : State :=
  let e := c.entry
  let s1 := { s.dropCopies e.stream e.incarn e.seq with commits := s.commits.filter (fun x => x.cseq != c.cseq) }.admitEntry e
  let s2 := (((s1.accept c.port c.addr e.tsid e.stream e.incarn e.seq 0 e.cseq time).noteAck e.cseq c.port)).modFold c.hub
    (fun r => { r with accepts := inc r.accepts })
  c.dupPorts.foldl (fun s p => s.acceptDup p.1 p.2 e.tsid e.stream e.incarn e.seq time) s2

/-- The commit after one of its copies is confirmed: whole, or still waiting. -/
def State.progress (s : State) (c : Commit) (time : Nat) : State :=
  if c.whole then s.confirm c time
  else { s with commits := s.commits.map (fun x => if x.cseq == c.cseq then c else x) }

/-- The copy of hub `hub` is confirmed: the hub is in service, and reached over a bridge when it is not the frame's own
(R353, R421). -/
def State.hubConfirms (s : State) (c : Commit) (hub time : Nat) : State :=
  if c.cseq ≠ 0 ∧ (s.hub hub).up ∧ (hub = c.hub ∨ s.bridgeUp ∨ !(s.hub c.hub).up) then
    s.progress { c with needHubs := c.needHubs.filter (· != hub) } time
  else s

/-- LEDGER_CONFIRM (R353): the confirmation of a hub's copy. -/
def execLedgerConfirm (x : CommitTime) (hub : Nat) (s : State) : Host.Outcome State Fault Refusal :=
  answer (hubOk hub) (match s.commits.find? (fun c => c.cseq == x.cseq) with
    | some c => s.hubConfirms c hub x.time
    | none => s)

/-- Hub `h` has failed: of the frames that came to it, those that the survivor's copy confirms stand; a commit that still
waits for its confirmation elsewhere is refused at its deadline (R371, R421). -/
def State.dropHub (s : State) (h : Nat) : State :=
  (s.commits.filter (fun c => c.hub == h)).foldl (fun s c =>
    s.progress { c with needHubs := c.needHubs.filter (· != h) } 0) s

/-- PAIR.EVENT[3] and its counter (R444). -/
def State.countStrike (s : State) : State :=
  { s with pair := { s.pair with regs := { s.pair.regs with
      event := setBit s.pair.regs.event 3, strike := inc s.pair.regs.strike } } }

/-- The entry of a struck commit is no commit that waits for confirmation; its place in the order of confirmations
stays while its number is not known. -/
def markStruck (e : Entry) (l : List (List Nat)) : List (List Nat) :=
  l.map (fun x => if x == [0, 1, e.stream, e.incarn, e.seq] then [0, 3, e.stream, e.incarn, e.seq] else x)

/-- The entry is struck from every Fold that holds it, and the frame and its duplicates are refused (R354,
R355, R428). -/
def State.strike (s : State) (c : Commit) (time : Nat) : State :=
  let e := c.entry
  let s1 := ({ s.dropCopies e.stream e.incarn e.seq with
    commits := s.commits.erase c
    pair := { s.pair with unconf := (markStruck e s.pair.unconf).filter (fun x => x != [c.cseq, 1, e.stream, e.incarn, e.seq]) }
    }.freeParcel e.ipar).freeParcel e.rpar
  let s2 := if s.mirrors then (s1.sendPair 10 (strikeFields c.cseq e.stream e.incarn e.seq) []).countStrike else s1
  let reason := if c.needPeer then 8 else 3
  let detail := if c.needPeer then 0 else 4
  let s3 := s2.refuse c.port c.addr e.tsid e.stream e.incarn e.seq reason detail time
  c.dupPorts.foldl (fun s p => (s.refuse p.1 p.2 e.tsid e.stream e.incarn e.seq reason detail time).countDup p.1) s3

/-- COMMIT_DEADLINE (R354). -/
def execCommitDeadline (x : CommitTime) (s : State) : Host.Outcome State Fault Refusal :=
  answer true (match s.commits.find? (fun c => c.cseq == x.cseq) with
    | some c => s.strike c x.time
    | none => s)

end Sys2Proof.Machine
end

