-- ==== Sys2Proof/Machine/Store.lean ====
section
/-! DEFINITION. Die shared memory: its regions and addresses (06 R183, R184), the lines of the routine store and the
directory (R194 to R201), and the frame staging of the hubs (R191). -/
namespace Sys2Proof.Machine
open Sys2Proof

/-! ### Regions and addresses -/

/-- Regions of die shared memory (R184). -/
inductive DsmRegion where
  | rs | tb | pm | ps | rd | lg | fs | rm | sc
  deriving DecidableEq, Repr

/-- The region of a bank (R184): dies 0 to 3 are compute dies, 4 and 5 the hubs. -/
def regionOf (die bank : Nat) : DsmRegion :=
  if die < 4 then
    if bank < 44 then .rs else if bank < 54 then .tb else if bank < 58 then .pm else if bank < 62 then .ps else .rd
  else if bank < 16 then .lg else if bank < 39 then .fs else if bank < 47 then .rm else .sc

/-- Bank, line and byte of a byte address (R183). -/
def dsmBank (a : Nat) : Nat := bits a 25 20
def dsmLine (a : Nat) : Nat := bits a 19 6
def dsmByte (a : Nat) : Nat := bits a 5 0

/-- The byte address of a line of a bank (R183). -/
def dsmAddr (bank line : Nat) : Nat := bank * 2 ^ 20 + line * 2 ^ 6

/-- The number of a line from the start of its die's shared memory. -/
def lineNo (bank line : Nat) : Nat := dsmAddr bank line / 64

/-- The compute die whose RD the bank of RM mirrors: 2 MiB for each die in order (R201). -/
def mirrorDie (bank : Nat) : Nat := (bank - 39) / 2

/-- `s` with the DSM block of a die changed. -/
def State.modDsm (s : State) (d : Nat) (f : Dsm → Dsm) : State := { s with dsm := modAt s.dsm d f }

/-- The DSM block of a die. -/
def State.dsmOf (s : State) (d : Nat) : Dsm := at' s.dsm d (Dsm.fresh (decide (4 ≤ d)))

/-! ### The routine store (R194, R199, R200) -/

/-- The version lies on die `d`. -/
def Version.onDie (v : Version) (d : Nat) : Bool := (Tbl.get v.lineAt d).isSome

/-- The versions of a name that take lines, with those that wait for their commit. -/
def Routine.resident (r : Routine) : List Version := r.versions ++ r.queue.map (·.v)

/-- The runs of RS lines on die `d` that hold code: versions, and the programs of frames (R184). -/
def State.codeRuns (s : State) (d : Nat) : List (Nat × Nat) :=
  (s.routines.flatMap Routine.resident).filterMap (fun v => (Tbl.get v.lineAt d).map (fun a => (a, v.lines)))
    ++ s.entries.flatMap (fun e => (e.frame.rs.filter (fun x => x.1 == d)).map (fun x => x.2))

/-- Lines of RS that are never used again before the next cold start: damaged and retired ones (R194, R464). -/
def State.deadLines (s : State) (d : Nat) : List (Nat × Nat) :=
  ((s.dsmOf d).badLines.filter (fun x => decide (x.1 < 44))).map (fun x => (lineNo x.1 x.2, 1))

/-- The free runs of RS lines on die `d`, by rising line. -/
def State.rsRuns (s : State) (d : Nat) : Tbl Nat :=
  freeRuns Config.rsLines 0 ((s.codeRuns d ++ s.deadLines d).foldl (fun l x => addRun x l) [])

/-- Free RS lines of a die (R207). -/
def State.rsFree (s : State) (d : Nat) : Nat := pagesIn (s.rsRuns d)

/-- The lowest contiguous free run of `n` lines on die `d` (R200, R205; DESIGN CHOICE, log 46). -/
def State.rsSpace (s : State) (d n : Nat) : Option Nat := ((s.rsRuns d).find? (fun x => decide (n ≤ x.2))).map (·.1)

/-- The line is free on die `d`: Moult may write it (R185, R200). -/
def State.rsLineFree (s : State) (d line : Nat) : Bool := (s.rsRuns d).any (fun x => decide (x.1 ≤ line) && decide (line < x.1 + x.2))

/-- The line lies in a run of `n` lines from `a`. -/
def inRun (a n line : Nat) : Bool := decide (a ≤ line) && decide (line < a + n)

/-- The control core of `k` may fetch the line: it holds code of a version that its frame is bound to, or of the frame's
own program (R185). -/
def State.mayFetch (s : State) (k line : Nat) : Bool :=
  match (s.core k).entry.bind s.entry? with
  | some e =>
    e.frame.rs.any (fun x => x.1 == dieOf k && inRun x.2.1 x.2.2 line) ||
      s.routines.any (fun r => r.tenant == e.tenant && r.versions.any (fun v => e.epoch.any v.currentAt &&
        (Tbl.get v.lineAt (dieOf k)).any (fun a => inRun a v.lines line)))
  | none => false

/-- A run of die `d` that the line damages lies elsewhere from now on, where a free run is long enough (R194, R200). -/
def State.newRun (s : State) (d line : Nat) (x : Nat × Nat) : Nat :=
  if inRun x.1 x.2 line then (s.rsSpace d x.2).getD x.1 else x.1

/-- Moult writes the code that the line of die `d` held to free lines, and moves the records to them (R194). -/
def State.moveCode (s : State) (d line : Nat) : State :=
  let move (v : Version) : Version := match Tbl.get v.lineAt d with
    | some a => { v with lineAt := Tbl.set v.lineAt d (s.newRun d line (a, v.lines)) }
    | none => v
  { s with
    routines := s.routines.map (fun r => { r with
      versions := r.versions.map move, queue := r.queue.map (fun q => { q with v := move q.v }) })
    entries := s.entries.map (fun e => { e with frame := { e.frame with
      rs := e.frame.rs.map (fun x => if x.1 = d then (d, s.newRun d line x.2, x.2.2) else x) } }) }

/-- Lines for a program of `n` lines on each of the dies; none when a die has no room (R184; DESIGN CHOICE, log 46). -/
def State.programRuns (s : State) (n : Nat) (dies : List Nat) : Option (List (Nat × Nat × Nat)) :=
  let l := dies.filterMap (fun d => (s.rsSpace d n).map (fun a => (d, a, n)))
  if l.length = dies.length then some l else none

/-! ### The directory (R199, R201) -/

/-- The name entries and version records of RD on die `d`, and so of each copy of it in RM. -/
def State.rdNames (s : State) (d : Nat) : List Routine := s.routines.filter (fun r => bitAt r.dieMask d || r.resident.any (·.onDie d))
def State.rdRecords (s : State) (d : Nat) : List Version := (s.routines.flatMap Routine.resident).filter (·.onDie d)

/-- RD of die `d` has room for one more record, and for the name: 16,384 names and 32,768 records (R199). -/
def State.rdRoom (s : State) (d name : Nat) : Bool :=
  decide ((s.rdRecords d).length < 32768) &&
    ((s.rdNames d).any (fun r => r.name == name) || decide ((s.rdNames d).length < 16384))

/-! ### Frame staging (R184, R191) -/

/-- Bytes of frames in FS of hub `h`: stored segments, WORK payloads before delivery, results before transmission (R184). -/
def State.stagingUse (s : State) (h : Nat) : Nat :=
  (((s.hub h).segs ++ (s.hub h).copies).map (fun g => g.body.length)).foldl (· + ·) 0 +
  (s.entries.map (fun e => match e.op with
    | .run x => (if e.frame.delivered ∨ e.st = .complete ∨ e.st = .sent then 0 else x.image.length + x.input.length) +
        (if e.st = .complete ∨ (e.st = .running ∧ !e.frame.emitted.isEmpty) then x.rlen + 64 else 0)
    | _ => if e.st = .complete then 64 else 0)).foldl (· + ·) 0

/-- FS of hub `h` has held as much as it holds now, and `n` bytes more (R191). -/
def State.noteStaging (s : State) (h n : Nat) : State :=
  s.modHub h (fun x => { x with fsHigh := max x.fsHigh (s.stagingUse h + n) })

/-! ### Commits of routines and placements (R202, R203, R317) -/

/-- A commit of a routine or a placement: the epoch increments, and both hubs record the commit in the Fold, under the next
commit number where this package gives them out (R202, R203, R317, R353; DESIGN CHOICE, log 106). -/
def State.nextEpoch (s : State) : State :=
  let s1 : State := { s with pkg := { s.pkg with epoch := (s.pkg.epoch + 1) % 2 ^ 32 } }
  if s.leads then { s1.applied s.pkg.cseqNext with pkg := { (s1.applied s.pkg.cseqNext).pkg with cseqNext := s.pkg.cseqNext + 1 } }
  else s1

end Sys2Proof.Machine
end

