-- ==== Sys2Proof/Machine/Admission.lean ====
section
/-! DEFINITION. Admission of WORK (11 R341 to R358): reassembly of segments, the layout of the body, the ten tests
of R352 and the commit of a frame; RESULT-ACK (R369). -/
namespace Sys2Proof.Machine
open Sys2Proof

/-! ### Segments (R341 to R344) -/

/-- The header of a WORK or RESULT-ACK segment is valid for a body of `len` bytes (R341, R342, R6). -/
def hdrValid (h : Hdr) (len : Nat) : Bool :=
  h.ver == 1 && h.tsid != 0 && decide (h.stream < 4096) && decide (1 ≤ h.segcnt) && decide (h.segcnt ≤ 512) &&
    decide (h.segidx < h.segcnt) && h.bodylen == len && decide (len ≤ 8256) && h.rsvd == 0

/-- Two segments belong to one frame (R344). -/
def sameFrame (a b : Hdr) : Bool :=
  a.tsid == b.tsid && a.stream == b.stream && a.incarn == b.incarn && a.seq == b.seq && a.segcnt == b.segcnt

/-- The segment authenticates under a live session (R343, R352 test 2). -/
def State.authentic (s : State) (g : SegIn) : Bool := g.auth && (s.session? g.hdr.tsid).isSome

/-- The stored segments of the frame of `h` at hub `n`. -/
def State.parts (s : State) (n : Nat) (h : Hdr) : List Seg := (s.hub n).segs.filter (fun x => sameFrame x.hdr h)

/-- The stored segments of the frame of `h` at hub `n` are gone. -/
def State.dropParts (s : State) (n : Nat) (h : Hdr) : State :=
  s.modHub n (fun x => { x with segs := x.segs.filter (fun y => !(sameFrame y.hdr h)) })

/-- The segment is a duplicate of a stored one (R344). -/
def State.haveSeg (s : State) (g : SegIn) : Bool :=
  (s.parts (g.port / 4) g.hdr).any (fun x => x.hdr.segidx == g.hdr.segidx)

/-- The segment would complete its frame. -/
def State.completes (s : State) (g : SegIn) : Bool :=
  decide (g.hdr.segcnt ≤ (s.parts (g.port / 4) g.hdr).length + 1) && !s.haveSeg g

/-- The body of segment `i` of the frame that `g` completes. -/
def State.segBody (s : State) (g : SegIn) (i : Nat) : List Byte :=
  if g.hdr.segidx = i then g.body
  else (((s.parts (g.port / 4) g.hdr).find? (fun x => x.hdr.segidx == i)).map (·.body)).getD []

/-- The body of the frame that `g` completes, in `SEGIDX` order (R349). -/
def State.frameBody (s : State) (g : SegIn) : List Byte := (List.range g.hdr.segcnt).flatMap (s.segBody g)

/-- Every segment but the last carries 8,192 bytes (R341). -/
def State.fullSegs (s : State) (g : SegIn) : Bool :=
  (List.range (g.hdr.segcnt - 1)).all (fun i => (s.segBody g i).length == 8192)

/-- A segment as it is stored. -/
def segOf (g : SegIn) : Seg := ⟨g.port / 4, g.port, g.addr, g.hdr, g.body⟩

/-- The segment is copied to the other hub, while a bridge carries it there, and to the partner as it arrives (R354,
R428). -/
def State.copySeg (s : State) (g : SegIn) : State :=
  let h := g.port / 4 % 2
  let s0 := s.modHub h (fun x => { x with backlog := g.backlog })
  let s1 := if s.bridgeUp && (s.hub (1 - h)).up then s0.modHub (1 - h) (fun x => { x with copies := x.copies ++ [segOf g] }) else s0
  let s2 := (s1.noteStaging h g.body.length).noteStaging (1 - h) 0
  if s2.mirrors then s2.sendPair 4 (segFields g.hdr) g.body else s2

/-- WORK_SEGMENT: an authentic segment that does not complete its frame is stored and copied. -/
def State.storeSeg (s : State) (g : SegIn) : State :=
  if !(s.takes g.port g.wire) then s.discard g.port g.wire
  else if g.hdr.kind != 1 || !(hdrValid g.hdr g.body.length) || !(s.authentic g) || s.haveSeg g ||
      s.completes g then s
  else (s.modHub (g.port / 4) (fun x => { x with segs := x.segs ++ [segOf g] })).copySeg g

/-- WORK_SEGMENT (R344). -/
def execWorkSegment (g : SegIn) (s : State) : Host.Outcome State Fault Refusal :=
  answer (portOk g.port) (s.storeSeg g)

/-- SEGMENT_TIMEOUT: the segments of an incomplete frame are discarded, and the hub answers from the port of the
latest one (R344). -/
def execSegmentTimeout (hub : Nat) (h : Hdr) (s : State) : Host.Outcome State Fault Refusal :=
  answer (hubOk hub) (match (s.parts hub h).getLast? with
    | some x => ((s.dropParts hub h).dropCopies h.stream h.incarn h.seq).refuse x.port x.addr h.tsid h.stream h.incarn h.seq
        6 0xFFFFFFFF 0
    | none => s)

/-! ### The body (R349 to R351) -/

/-- A field: its offset and length, and whether its value is valid. A field that does not lie wholly in the body
is invalid. -/
structure Fld where
  off : Nat
  len : Nat
  ok  : Bool

/-- The offset of the first invalid field. -/
def firstBad (n : Nat) : List Fld → Option Nat
  | [] => none
  | f :: r => if n < f.off + f.len ∨ !f.ok then some f.off else firstBad n r

/-- A reserved field of a table: `n` bytes at `off` that are 0. -/
def reservedAt (b : List Byte) (off n : Nat) : List Fld := [⟨off, n, beAt b off n == 0⟩]

/-- The `n` bytes from `off` are 0; reserved bytes and padding that a rule names one by one are fields of one byte
(DEDUCED, log 33). -/
def zeroAt (b : List Byte) (off n : Nat) : List Fld := tabulate n (fun i => ⟨off + i, 1, beAt b (off + i) 1 == 0⟩)

/-- A stop region entry (R351). -/
def regionAt (b : List Byte) (o : Nat) : Region :=
  ⟨beAt b o 2 % 1024, beAt b (o + 2) 1 == 1, beAt b (o + 4) 4, beAt b (o + 8) 4⟩

/-- The bytes that a region returns. -/
def Region.bytes (r : Region) : Nat := if r.treg then r.len * 512 else r.len

/-- The fields of a stop region entry; `sum` is what the regions before it take of `RLEN`. -/
def regionFields (b : List Byte) (rlen o sum : Nat) : List Fld :=
  let r := regionAt b o
  [⟨o, 2, decide (beAt b o 2 < 1024)⟩, ⟨o + 2, 1, decide (beAt b (o + 2) 1 ≤ 1)⟩]
    ++ zeroAt b (o + 3) 1
    ++ [⟨o + 4, 4, if r.treg then decide (r.start < 1024) else r.start % 64 == 0 && decide (r.start < 2097152)⟩,
        ⟨o + 8, 4, (if r.treg then decide (r.start + r.len ≤ 1024)
          else r.len % 64 == 0 && decide (r.start + r.len ≤ 2097152)) && decide (sum + 16 + r.bytes ≤ rlen)⟩]
    ++ reservedAt b (o + 12) 4

/-- The fields of the stop region entries from `o` on. -/
def allRegionFields (b : List Byte) (rlen : Nat) : Nat → Nat → Nat → List Fld
  | 0, _, _ => []
  | n + 1, o, sum => regionFields b rlen o sum ++ allRegionFields b rlen n (o + 16) (sum + 16 + (regionAt b o).bytes)

/-- The offset of the parts of a RUN body: regions, image, input, end. -/
def runOffsets (b : List Byte) : Nat × Nat × Nat × Nat :=
  let a := 48 + 16 * ceilDiv (2 * beAt b 1 1) 16
  let i := a + 16 * beAt b 2 1
  let p := i + beAt b 4 4
  (a, i, p, p + beAt b 8 4)

/-- The fixed fields of a RUN body in order (R350). -/
def runHead (b : List Byte) : List Fld :=
  let ilen := beAt b 8 4
  [⟨0, 1, true⟩, ⟨1, 1, decide (1 ≤ beAt b 1 1) && decide (beAt b 1 1 ≤ 64)⟩, ⟨2, 1, decide (beAt b 2 1 ≤ 16)⟩]
    ++ zeroAt b 3 1
    ++ [⟨4, 4, beAt b 4 4 % 16 == 0 && decide (32 ≤ beAt b 4 4)⟩, ⟨8, 4, true⟩,
        ⟨12, 4, beAt b 12 4 % 64 == 0 && decide (beAt b 12 4 ≤ 4194240)⟩,
        ⟨16, 4, decide (beAt b 16 4 ≤ min (ceilDiv ilen 64) 32768)⟩]
    ++ reservedAt b 20 4
    ++ [⟨24, 8, beAt b 24 8 % 4096 == 0 && decide (beAt b 24 8 ≤ 2 ^ 38)⟩, ⟨32, 4, true⟩, ⟨36, 4, true⟩,
        ⟨40, 4, decide (beAt b 40 4 < 2 ^ 24)⟩]
    ++ reservedAt b 44 4

/-- The offset of the first invalid field of a RUN body: the fixed fields, the lists, image and input, then
what lies beyond the input or the 4 MiB of a frame (DEDUCED, log 33). -/
def runBad (b : List Byte) : Option Nat :=
  match firstBad b.length (runHead b) with
  | some x => some x
  | none =>
    let o := runOffsets b
    let npl := beAt b 1 1
    let rest : List Fld := [⟨48, 2 * npl, true⟩] ++ zeroAt b (48 + 2 * npl) (o.1 - (48 + 2 * npl))
      ++ allRegionFields b (beAt b 12 4) (beAt b 2 1) o.1 0
      ++ [⟨o.2.1, beAt b 4 4, true⟩, ⟨o.2.2.1, beAt b 8 4, true⟩]
    match firstBad b.length rest with
    | some x => some x
    | none => if b.length ≠ o.2.2.2 then some o.2.2.2 else if 4194304 < b.length then some 4194304 else none

/-- The RUN of a valid body (R350). -/
def runOf (b : List Byte) : RunBody :=
  let o := runOffsets b
  { placements := tabulate (beAt b 1 1) (fun i => beAt b (48 + 2 * i) 2)
    image := slice b o.2.1 (beAt b 4 4)
    input := slice b o.2.2.1 (beAt b 8 4)
    rlen := beAt b 12 4
    dlines := beAt b 16 4
    wlen := beAt b 24 8
    stopCtx := beAt b 32 4
    stopIndex := beAt b 36 4
    stopCount := beAt b 40 4 % 2 ^ 24
    regions := tabulate (beAt b 2 1) (fun i => regionAt b (o.1 + 16 * i)) }

/-- The offset of the first invalid field of a body of 16 bytes with these fields. -/
def shortBad (b : List Byte) (l : List Fld) : Option Nat :=
  match firstBad b.length l with
  | some x => some x
  | none => if b.length ≠ 16 then some 16 else none

/-- The operation that a body gives, or the offset of its first invalid field (R349, R352 test 7). -/
def parseBody (b : List Byte) : Except Nat WorkOp :=
  let opc : Fld := ⟨0, 1, true⟩
  match beAt b 0 1, b.isEmpty with
  | 0, false => match runBad b with
    | some x => .error x
    | none => .ok (.run (runOf b))
  | 1, _ =>
    (match shortBad b ([opc] ++ zeroAt b 1 1 ++ [⟨2, 2, decide (1 ≤ beAt b 2 2) && decide (beAt b 2 2 ≤ 4096)⟩]
        ++ zeroAt b 4 12) with
    | some x => .error x
    | none => .ok (.open (beAt b 2 2)))
  | 2, _ =>
    (match shortBad b ([opc] ++ zeroAt b 1 3 ++ [⟨4, 4, true⟩] ++ zeroAt b 8 8) with
    | some x => .error x
    | none => .ok (.cancel (beAt b 4 4)))
  | 3, _ =>
    (match shortBad b ([opc] ++ zeroAt b 1 15) with
    | some x => .error x
    | none => .ok .close)
  | _, _ => .error 0

/-! ### The tests of R352 -/

/-- The outcome of the tests: a refusal with reason and detail, a duplicate, a duplicate of a commit still in
progress, a refusal whose detail the spec does not give, or a commit. -/
inductive Verdict where
  | refuse (reason detail : Nat)
  | dup
  | dupPending (cseq : Nat)
  | refuseOpen (reason : Nat)
  | take (s : State) (op : WorkOp) (ipar rpar : Parcel)

/-- Test 4: the stream's state, incarnation and session admits the frame (R345 to R347). -/
def Stream.admits (x : Stream) (opc : Nat) (h : Hdr) : Option Verdict :=
  match x.st with
  | .closed =>
    if h.seq ≠ 0 ∨ opc ≠ 1 then some (.refuse 5 1)
    else if x.incarn = some h.incarn then some (.refuse 5 3)
    else none
  | .open =>
    if h.tsid ≠ x.tsid then some (.refuse 4 0)
    else if x.incarn ≠ some h.incarn then some (.refuse 5 3)
    else if h.seq = 0xFFFFFFFF ∧ opc ≠ 3 then some (.refuse 5 4)
    else if opc = 1 ∧ x.nextSeq ≤ h.seq then some (.refuseOpen 5)
    else none
  | .closing =>
    if h.tsid ≠ x.tsid then some (.refuse 4 0)
    else if x.incarn ≠ some h.incarn then some (.refuse 5 3)
    else some (.refuse 5 2)

/-- The die of the entry core group (R33): that of the first placement named. -/
def State.entryDie (s : State) (op : WorkOp) : Option Nat :=
  match op with
  | .run b => ((b.placements.head?.bind s.placement?).bind (fun p => p.cores.head?)).map dieOf
  | _ => none

/-- The pages of the input and of the result parcel (R358). -/
def parcelPages : WorkOp → Nat × Nat
  | .run b => (ceilDiv (b.image.length + b.input.length) 4096, ceilDiv (b.rlen + 64) 4096)
  | _ => (0, 1)

/-- Tests 8 to 10: credit, entries, parcels and backlog, the partner. -/
def State.resources (s : State) (op : WorkOp) (h : Hdr) (backlog : Nat) : Verdict :=
  let x := s.stream h.stream
  let credit := match op with
    | .open c => c
    | _ => x.credit
  if credit < x.outst + 1 then .refuse 2 x.outst
  else if s.ledgerCap ≤ s.entries.length + s.commits.length then .refuse 3 1
  else match s.reserve (s.entryDie op) (parcelPages op).1 with
    | none => .refuse 3 2
    | some (s1, ip) =>
      match s1.reserve (s.entryDie op) (parcelPages op).2 with
      | none => .refuse 3 2
      | some (s2, rp) =>
        if 262144 < backlog then .refuse 3 3
        else if s.pair.st = .joining then .refuse 8 0
        else .take s2 op ip rp

/-- Tests 3 to 10 of R352 for an authentic frame with a consistent header. -/
def State.tests (s : State) (h : Hdr) (b : List Byte) (backlog : Nat) : Verdict :=
  let x := s.stream h.stream
  let opc := if b.isEmpty then 16 else beAt b 0 1
  match s.refusing with
  | some d => .refuse 7 d
  | none =>
    match x.admits opc h with
    | some v => v
    | none =>
      match s.commits.find? (fun c => c.entry.stream == h.stream && c.entry.seq == h.seq) with
      | some c =>
        if c.entry.incarn ≠ h.incarn then .refuse 5 3
        else if c.entry.tsid ≠ h.tsid then .refuse 4 0
        else .dupPending c.cseq
      | none =>
        if x.st = .open ∧ h.seq < x.nextSeq then .dup
        else if x.st = .open ∧ x.nextSeq < h.seq then .refuse 1 0
        else match parseBody b with
          | .error d => .refuse 6 d
          | .ok op => s.resources op h backlog

/-! ### The commit (R353) -/

/-- The entry of an accepted frame, ADMITTED (R359, R360). -/
def State.newEntry (s : State) (cseq : Nat) (g : SegIn) (op : WorkOp) (ip rp : Parcel) : Entry :=
  { cseq := cseq, stream := g.hdr.stream, incarn := g.hdr.incarn, seq := g.hdr.seq, tsid := g.hdr.tsid,
    tenant := ((s.session? g.hdr.tsid).map (·.tenant)).getD 0, op := op, st := .admitted, epoch := none,
    status := .done, wreason := 0, replays := 0, reruns := 0, tadmit := s.pkg.aon % 2 ^ 32, inputOk := false, ipar := ip,
    rpar := rp, homeHere := (match op with
      | .open _ => true
      | _ => (s.stream g.hdr.stream).homeHere),
    away := false, payload := [], port := g.port, addr := g.addr, acked := false, ended := false, parcelOk := false, powered := false, frame := FrameRun.fresh,
    order := readyOrder cseq }

/-- A new CANCEL whose target cannot be cancelled is decided as it takes its number. -/
def State.decideNew (s : State) (e : Entry) : Entry :=
  match e.op with
  | .cancel t => s.decideCancel e t
  | _ => e

/-- The leader assigns `CSEQ`, and the entry goes to both hubs and to the partner (R353, R428). -/
def State.beginCommit (s : State) (g : SegIn) (op : WorkOp) (ip rp : Parcel) : State :=
  let n := if s.leads then s.pkg.cseqNext else 0
  let e := s.decideNew (s.newEntry n g op ip rp)
  let s1 := { s with
    pkg := { s.pkg with cseqNext := if n = 0 then s.pkg.cseqNext else n + 1 }
    commits := s.commits ++ [(⟨n, g.port / 4, g.port, g.addr, e, [0, 1].filter (fun h => (s.hub h).up), s.paired, []⟩ : Commit)] }
  if s1.mirrors then
    (s1.sendRecord (recordOf n e 1 ((s1.stream e.stream).commit e))).await n 1 e.stream e.incarn e.seq
  else s1

/-- The answer to a frame, from the tests' outcome; the copies of its segments are kept while it is being committed. -/
def State.answerFrame (s : State) (g : SegIn) (v : Verdict) : State :=
  let h := g.hdr
  let t := s.dropCopies h.stream h.incarn h.seq
  match v with
  | .refuse r d => t.refuse g.port g.addr h.tsid h.stream h.incarn h.seq r d g.time
  | .refuseOpen r =>
    let p := t.openWord 2 32
    p.1.refuse g.port g.addr h.tsid h.stream h.incarn h.seq r p.2 g.time
  | .dup => t.acceptDup g.port g.addr h.tsid h.stream h.incarn h.seq g.time
  | .dupPending c => { s with commits := s.commits.map (fun x =>
      if x.cseq == c && x.entry.stream == h.stream && x.entry.seq == h.seq then
        { x with dupPorts := x.dupPorts ++ [(g.port, g.addr)] } else x) }
  | .take s1 op ip rp => s1.beginCommit g op ip rp

/-- Port and address of the stream's results follow its most recent authentic frame (R368). -/
def State.notePort (s : State) (g : SegIn) : State :=
  let x := s.stream g.hdr.stream
  if x.st ≠ .closed ∧ x.tsid = g.hdr.tsid then s.modStream g.hdr.stream (fun x => { x with port := g.port, addr := g.addr }) else s

/-- Whether a row that examines frames of operation `op` takes this one: RUN also takes a body with no known
`OPC`. A frame that cannot be read is anyone's (DESIGN CHOICE, log 34). -/
def takesBody (op : Nat) (b : List Byte) : Bool :=
  let o := if b.isEmpty then 16 else beAt b 0 1
  if op = 0 then o == 0 || decide (3 < o) else o == op

/-- A frame of operation `op` that the segment completes is examined and answered (R352). -/
def State.workFrame (s : State) (op : Nat) (g : SegIn) : State :=
  let h := g.hdr
  let tsid := if s.authentic g then h.tsid else 0
  if !(s.takes g.port g.wire) then s.discard g.port g.wire
  else if h.kind != 1 then s
  else if !(hdrValid h g.body.length) then
    s.refuse g.port g.addr tsid (h.stream % 4096) h.incarn h.seq 6 0xFFFFFFFE g.time
  else if !(s.completes g) then s
  else if !(s.authentic g) then
    ((s.dropParts (g.port / 4) h).dropCopies h.stream h.incarn h.seq).refuse g.port g.addr 0 h.stream h.incarn h.seq 4 0 g.time
  else
    let b := s.frameBody g
    if !(takesBody op b) then s
    else
      let s1 := (s.dropParts (g.port / 4) h).copySeg g
      if !(s.fullSegs g) then
        (s1.dropCopies h.stream h.incarn h.seq).refuse g.port g.addr tsid h.stream h.incarn h.seq 6 0xFFFFFFFE g.time
      else
        let s2 := s1.notePort g
        s2.answerFrame g (s2.tests h b g.backlog)

/-- WORK_RUN (R352). -/
def execWorkRun (g : SegIn) (s : State) : Host.Outcome State Fault Refusal :=
  answer (portOk g.port) (s.workFrame 0 g)
/-- WORK_OPEN (R346, R352). -/
def execWorkOpen (g : SegIn) (s : State) : Host.Outcome State Fault Refusal :=
  answer (portOk g.port) (s.workFrame 1 g)
/-- WORK_CANCEL (R352, R364). -/
def execWorkCancel (g : SegIn) (s : State) : Host.Outcome State Fault Refusal :=
  answer (portOk g.port) (s.workFrame 2 g)
/-- WORK_CLOSE (R347, R352). -/
def execWorkClose (g : SegIn) (s : State) : Host.Outcome State Fault Refusal :=
  answer (portOk g.port) (s.workFrame 3 g)

/-! ### RESULT-ACK (R369) -/

/-- The RESULT-ACK is valid: header, session, stream, incarnation and body (R342, R346, R369). -/
def State.rackOk (s : State) (g : SegIn) : Bool :=
  let h := g.hdr
  let x := s.stream h.stream
  hdrValid h g.body.length && h.seq == 0 && h.segidx == 0 && h.segcnt == 1 && s.authentic g && s.pkg.quiet == 0 &&
    s.pkg.phase == .running && x.st != .closed && x.tsid == h.tsid && x.incarn == some h.incarn &&
    g.body.length == 16 && decide (beAt g.body 0 1 ≤ 1) && beAt g.body 1 3 == 0 && beAt g.body 8 8 == 0

/-- A discarded RESULT-ACK (R369, R375). -/
def State.dropRack (s : State) (port : Nat) : State :=
  s.modFold (port / 4) (fun r => { r with event := setBit r.event 2, rackDrop := inc r.rackDrop })

/-- The SENT entries of a stream that a release up to `rseq` frees. -/
def State.releasable (s : State) (stream rseq : Nat) : List Entry :=
  s.entries.filter (fun e => e.stream == stream && decide (e.seq ≤ rseq) && e.st == .sent)

/-- An entry and its parcels are freed in a ledger commit (R369). -/
def State.freeEntry (s : State) (e : Entry) : State :=
  ((({ s with entries := s.entries.filter (fun x => x.cseq != e.cseq) }.freeParcel e.ipar).freeParcel e.rpar).modStream
    e.stream (fun x => { x with outst := x.outst - 1 })).ledgerAs e 0

/-- A CLOSING stream with nothing left is CLOSED (R347). -/
def State.closeStream (s : State) (n : Nat) : State :=
  if (s.stream n).st = .closing ∧ !(s.entries.any (fun e => e.stream == n)) then
    s.modStream n (fun x => { x with st := .closed, nextSeq := 0, credit := 64, outst := 0 })
  else s

/-- RELEASE on a stream (R369). -/
def State.releaseTo (s : State) (stream rseq : Nat) : State :=
  ((s.releasable stream rseq).foldl (fun s e => s.freeEntry e) s).closeStream stream

/-- A RESULT-ACK of kind `op` at a port: discarded, or its effect. -/
def State.resultAck (s : State) (op : Nat) (g : SegIn) (f : State → Nat → Nat → State) : State :=
  if !(s.takes g.port g.wire) then s.discard g.port g.wire
  else if g.hdr.kind != 4 then s
  else if !(s.rackOk g) then s.dropRack g.port
  else if beAt g.body 0 1 ≠ op then s
  else f (s.notePort g) g.hdr.stream (beAt g.body 4 4)

/-- RELEASE (R369). -/
def execRelease (g : SegIn) (s : State) : Host.Outcome State Fault Refusal :=
  answer (portOk g.port) (s.resultAck 0 g (fun s n q => s.releaseTo n q))

end Sys2Proof.Machine
end

