-- ==== Sys2Proof/Machine/Translate.lean ====
section
/-! DEFINITION. Moult's translation of an image (07 R208 to R213, R222 to R239; 08 R256 to R263; 09 R297 to
R310): decoding the words and the checks that no register value decides. Of several faults in one
instruction, the first in the order written here is reported (DEDUCED, log 30). -/
namespace Sys2Proof.Machine
open Sys2Proof

/-! ### Checks -/

/-- A condition that must hold, or FIELD_INVALID for word `w` and bit `b`. -/
def need (ok : Bool) (w b : Nat) : Chk := if ok then none else some (0x02, fieldDetail w b)

/-- A format allowed in its place (R297): FORMAT_MISMATCH, place 0x4. -/
def needFmt (ok : Bool) (code : Nat) : Chk := if ok then none else some (0x10, 4 * 2 ^ 28 + code * 2 ^ 24)

/-- Bits `hi` to `lo` of the head (0) or of a descriptor word. -/
def MInstr.f (i : MInstr) (w hi lo : Nat) : Nat := if w = 0 then i.h hi lo else i.d w hi lo

/-- A reserved or unused field is 0 (R6). -/
def MInstr.zero (i : MInstr) (w hi lo : Nat) : Chk := need (i.f w hi lo == 0) w lo

/-! ### Opcodes (R229) -/

/-- The number of descriptor words of an opcode; `VEC` takes its `NDESC`. -/
def descCount (op ndesc : Nat) : Option Nat :=
  match op with
  | 0x28 | 0x29 => some 3
  | 0x2A => some 1
  | 0x2B | 0x49 | 0x68 => some 2
  | 0x48 => some ndesc
  | 0x20 | 0x21 | 0x22 | 0x24 | 0x40 | 0x41 | 0x60 | 0x61 | 0x80 => some 0
  | _ => if op < 0x0F ∨ (0x10 ≤ op ∧ op ≤ 0x18) then some 0 else none

/-- The wait and signal fields (R213). -/
def chkSync (i : MInstr) : List Chk :=
  (if i.we then [] else [i.zero 0 118 113, i.zero 0 112 97])
    ++ (if i.op = 0x15 then [i.zero 0 96 96] else [])
    ++ (if i.se then [] else [i.zero 0 95 90, i.zero 0 89 86])

/-- Layout S: which of RD, RA, RB, SUB, AS, BI, IMM and OFF an instruction uses; every other field is 0. -/
def chkUseS (i : MInstr) (rd ra rb sub as bi imm off : Bool) : List Chk :=
  let z (used : Bool) (hi lo : Nat) : List Chk := if used then [] else [i.zero 0 hi lo]
  z rd 85 80 ++ z ra 79 76 ++ z rb 75 72 ++ z sub 71 68 ++ z as 67 67 ++ z bi 66 66 ++ [i.zero 0 65 64]
    ++ z imm 63 32 ++ z off 31 0

/-- RD names an A register. -/
def chkRdA (i : MInstr) : Chk := need (decide (i.sRD < 16)) 0 80

/-- A layout S instruction (R222, R229, R233, R237, R239). -/
def chkS (i : MInstr) : List Chk :=
  let use := chkUseS i
  let bi := i.sBI
  let as := need (!(i.sAS && decide (8 ≤ i.sRA))) 0 76
  match i.op with
  | 0x01 => use true false false false false false true false ++ [chkRdA i]
  | 0x02 | 0x03 | 0x04 | 0x05 | 0x06 | 0x08 | 0x09 | 0x0A =>
    use true true (!bi) false false true bi false ++ [chkRdA i]
  | 0x07 => use true true true false false false true false ++ [chkRdA i, i.zero 0 63 48]
  | 0x0B => use true true false false true false false false ++ [chkRdA i, need i.sAS 0 67, as]
  | 0x0C => use true false false true false false false false
      ++ [chkRdA i, need (decide (1 ≤ i.sSUB) && decide (i.sSUB ≤ 4)) 0 68]
  | 0x0D => use true false false true false false true false ++ [chkRdA i, i.zero 0 71 70]
  | 0x0E => use true false false false false false true false ++ [i.zero 0 63 48]
  | 0x10 => use false (!bi) false false false true bi true
      ++ [if bi then i.zero 0 63 56 else none, need (decide (1 ≤ i.sOFF)) 0 0]
  | 0x12 =>
    let cmp := i.sSUB != 0
    use false cmp (cmp && !bi) true cmp cmp (cmp && bi) true
      ++ [need (decide (i.sSUB ≤ 8)) 0 68, need (i.sAS || !(i.sSUB == 7 || i.sSUB == 8)) 0 67, as,
          need (i.sOFF != 0) 0 0]
  | 0x13 => use false false false false false false true false ++ [need (i.sIMM != 0) 0 32]
  | 0x16 => use false (!bi) false false false true bi false
  | 0x17 =>
    if 8 ≤ i.sSUB then use false false false true false false false false
    else use true false false true false false true false ++ [i.zero 0 47 47]
  | 0x18 => use false (!bi) false true false true bi false
      ++ [i.zero 0 71 71, need (!bi || (decide (1 ≤ i.sIMM) && decide (i.sIMM ≤ 32768))) 0 32]
  | 0x20 => use false (!bi) false false false true bi false ++ [need (!bi || decide (i.sIMM ≤ 31)) 0 32]
  | 0x21 => use false (!bi) false false false true bi false
  | 0x22 => use false (!bi) false false false true bi false ++ [need (!bi || decide (i.sIMM ≤ 1024)) 0 32]
  | _ => use false false false false false false false false

/-- Layout X (R223): `SLOT` is used only with `SLT`. -/
def chkX (i : MInstr) : List Chk :=
  [need (!(i.xSLT && i.xDIR)) 0 49, if i.xSLT then none else i.zero 0 48 39, i.zero 0 38 0]

/-- Layout C (R224, R161). -/
def chkC (i : MInstr) : List Chk :=
  let w := match Fmt.ofCode i.cFMT with
    | some f => f.width
    | none => 32
  [need (i.cFMT != 15 && i.cFMT != 14) 0 54, need (decide (i.cREL ≤ 5)) 0 51,
    need (decide (i.cVALUE < 2 ^ w)) 0 16, i.zero 0 15 0]

/-- A control word that CFG carries (R104, R109): `WORD` begins at head bit 18. -/
def chkWord (i : MInstr) : List Chk :=
  let w := i.gWORD
  if i.gITEM = 2 then
    [need (w / 2 ^ 24 == 0) 0 42,
      need (if bits w 19 18 = 0 then bits w 23 20 == 0 else bits w 23 20 != 0) 0 38,
      need (bits w 19 18 != 3) 0 36, need (!(bits w 2 0 == 3 && bits w 7 4 == 0)) 0 22,
      need (!bitAt w 3) 0 21, need (decide (bits w 2 0 ≤ 4)) 0 18]
  else [need (w / 2 ^ 9 == 0) 0 27, need (bits w 7 4 != 15) 0 22, need (w % 16 == 0) 0 18]

/-- Layout G (R227). -/
def chkG (i : MInstr) : List Chk :=
  [need (i.gEMASK != 0) 0 54, need (decide (i.gITEM ≤ 8)) 0 50]
    ++ (if i.gITEM = 2 ∨ i.gITEM = 8 then chkWord i else []) ++ [i.zero 0 17 0]

/-! ### Descriptor words -/

/-- A TENSOR word (R257, R259, R267). -/
def chkTensor (i : MInstr) (w : Nat) : List Chk :=
  let f (hi lo : Nat) : Nat := i.d w hi lo
  let loc := f 125 124
  let sp := f 123 122
  let fm := (Fmt.ofCode (f 121 118)).getD .fp32
  let b := fm.width
  let devPad := f 117 117 == 1
  let maxr := f 80 57
  let maxc := f 56 33
  [need (loc != 3) w 124, need (sp != 3 && (loc == 1 || sp == 0)) w 122, need (f 121 118 != 15) w 118,
    needFmt (fm != .bfp12) 14,
    need (if devPad then decide (f 112 81 < 2 ^ b) else f 112 81 == 0) w 81,
    need (devPad || loc == 0 || (loc == 1 && sp == 0)) w 117,
    need (maxr != 0) w 57, need (maxc != 0) w 33, need (f 32 31 != 3) w 31,
    need (f 32 31 != 0 || f 30 27 == 0) w 27, i.zero w 6 0]
    ++ (if loc = 2 then
        [need (decide (maxc ≤ 512)) w 33,
          need (!((decide (8 ≤ b) && decide (1 < maxr) && decide (f 26 7 < b / 8)) ||
            (decide (b < 8) && decide (8 / b < maxr) && f 26 7 == 0))) w 7]
      else [])

/-- A PLAN word (R261, R274, R279): `x` is the format of X, `matmul` that `KCH` counts. -/
def chkPlan (i : MInstr) (w : Nat) (x : Option Fmt) (matmul : Bool) : List Chk :=
  let f (hi lo : Nat) : Nat := i.d w hi lo
  let pm := f 123 118 + 1
  let ptn := f 113 110 + 1
  let pdbl := f 109 109 == 1
  let yt := f 96 96 == 1
  [need (f 125 124 != 3 && (f 125 124 != 2 || i.op == 0x29)) w 124]
    ++ (if i.op = 0x2B then [i.zero w 117 114, i.zero w 113 110, i.zero w 109 109, i.zero w 108 97] else [])
    ++ (if i.op = 0x29 then [i.zero w 108 97] else [])
    ++ [need (!pdbl || ptn % 2 == 0) w 109, need (!yt || f 91 77 == 0) w 77, need (f 76 75 != 3) w 75,
        need (f 70 51 != 0 && (!yt || decide (f 70 51 ≤ 512))) w 51, need (f 50 47 != 15) w 47,
        needFmt (f 50 47 != 14) 14, i.zero w 46 0]
    ++ (match x with
      | some fm =>
        let b := fm.width
        let q := ptn * (64 / penRows pm b)
        [need (!(b == 16 && decide (32 < pm))) w 118,
          need (!matmul || decide (f 108 97 + 1 ≤ (if pdbl then q / 2 else q))) w 97]
      | none => [])

/-- A REDUCTION word (R262). -/
def chkRed (i : MInstr) (w : Nat) (combine : Bool) : List Chk :=
  (if combine then [i.zero w 125 94, i.zero w 93 93, i.zero w 92 89, i.zero w 88 85]
    else [i.zero w 81 72, i.zero w 71 57, i.zero w 56 56]
      ++ (if i.d w 93 93 = 0 then [i.zero w 92 89, i.zero w 88 85, i.zero w 84 82] else []))
    ++ [i.zero w 55 0]

/-- The kind of a descriptor word (R256). -/
def chkKind (i : MInstr) (w kind : Nat) : Chk := need (i.d w 127 126 == kind) w 126

/-! ### Macros -/

/-- Formats of R300's arithmetic, of codes, and of the vector engine (R90). -/
def isArith (f : Fmt) : Bool :=
  f == .int8 || f == .uint8 || f == .bf16 || f == .fp16 || f == .fp32 || f == .acc32
def isCodes (f : Fmt) : Bool := f == .cb4 || f == .cb8
def isFloat (f : Fmt) : Bool := f == .bf16 || f == .fp16 || f == .fp32
def isVecFmt (f : Fmt) : Bool := f != .int2 && f != .tern && f != .bfp12

/-- The descriptor count of a VEC operation (R300). -/
def vecWords (vop : Nat) : Option Nat :=
  match vop with
  | 0x01 | 0x02 | 0x03 | 0x04 | 0x05 | 0x08 | 0x09 | 0x0A | 0x0B | 0x0C | 0x0D | 0x0E => some 3
  | 0x10 | 0x11 | 0x12 | 0x13 | 0x18 | 0x19 | 0x1A => some 2
  | _ => none

/-- The format of descriptor word `w`. -/
def MInstr.fmt (i : MInstr) (w : Nat) : Fmt := (Fmt.ofCode (i.d w 121 118)).getD .fp32

/-- The formats of a VEC (R297, R300). -/
def chkVecFmts (i : MInstr) : List Chk :=
  let vop := i.mVOP
  let a := i.fmt 1
  let b := i.fmt 2
  let d := i.fmt i.mNDESC
  let eq (x y : Fmt) : Chk := needFmt (x == y) x.code
  match vop with
  | 0x01 | 0x02 | 0x03 | 0x04 | 0x05 => [needFmt (isArith a) a.code, eq b a, eq d a]
  | 0x0E => [needFmt (isArith a || isCodes a) a.code, eq b .uint8, eq d a]
  | 0x10 => [needFmt (isVecFmt a) a.code, needFmt (isVecFmt d && ((!isCodes a && !isCodes d) || a == d)) d.code]
  | 0x11 | 0x12 | 0x13 => [needFmt (isFloat a) a.code, eq d a]
  | 0x18 | 0x19 => [eq a .uint8, needFmt (isVecFmt d) d.code]
  | 0x1A => [needFmt (isVecFmt a) a.code, needFmt (isVecFmt d) d.code]
  | _ => [needFmt (isArith a || isCodes a) a.code, eq b a, eq d .uint8]

/-- A source of a VEC has the destination's shape or is broadcast (R292). -/
def chkShape (i : MInstr) (w dw : Nat) : List Chk :=
  [need (i.d w 80 57 == 1 || i.d w 80 57 == i.d dw 80 57) w 57,
    need (i.d w 56 33 == 1 || i.d w 56 33 == i.d dw 56 33) w 33]

/-- VEC (R292, R300, R310). -/
def chkVec (i : MInstr) : List Chk :=
  let n := i.mNDESC
  let vop := i.mVOP
  [need (vecWords vop).isSome 0 48, need (vecWords vop == some n) 0 56]
    ++ (tabulate n (fun x => need (i.d (x + 1) 125 124 == 2) (x + 1) 124)) ++ chkVecFmts i
    ++ (if vop = 0x18 then [need (i.d 1 80 57 == 1) 1 57]
      else if vop = 0x19 then [need (i.d 1 56 33 == 1) 1 33]
      else if vop = 0x1A then []
      else (List.range (n - 1)).flatMap (fun x => chkShape i (x + 1) n))

/-- REDUCE (R305, R306). -/
def chkReduce (i : MInstr) : List Chk :=
  let vop := i.mVOP
  let rax := vop / 64
  let rop := vop / 8 % 8
  let sd := vop % 8
  let a := i.fmt 1
  let d := i.fmt 2
  let rows1 := rax == 1 || rax == 2
  let cols1 := rax == 0 || rax == 2
  [need (rax != 3) 0 54, need (decide (rop ≤ 4)) 0 51,
    need (if rax = 2 then !(rop == 4 && sd == 7) else sd == 0) 0 48,
    need (i.d 1 125 124 == 2) 1 124, need (i.d 2 125 124 == 2) 2 124,
    need (i.d 2 80 57 == (if rows1 then 1 else i.d 1 80 57)) 2 57,
    need (i.d 2 56 33 == (if cols1 then 1 else i.d 1 56 33)) 2 33,
    need (!((rows1 && i.d 2 32 31 == 1) || (cols1 && i.d 2 32 31 == 2))) 2 31]
    ++ (match rop with
      | 0 => if isFloat a then [needFmt (isFloat d) d.code]
        else [needFmt (a == .int8 || a == .uint8 || a == .acc32) a.code, needFmt (d == .acc32) d.code]
      | 3 => [needFmt (isVecFmt a) a.code, needFmt (d == .acc32) d.code]
      | 4 => [needFmt (isArith a) a.code, needFmt (d == (if rax = 2 then a else .acc32)) d.code]
      | _ => [needFmt (isArith a) a.code, needFmt (d == a) d.code])

/-- MOVE (R263). -/
def chkMoveWord (i : MInstr) : List Chk :=
  let f (hi lo : Nat) : Nat := i.d 2 hi lo
  let loc := i.d 1 125 124
  [need (decide (f 125 124 ≤ 1)) 2 124, need (decide (f 99 98 ≤ 1)) 2 98, i.zero 2 58 0, need (loc != 2) 1 124,
    need (loc == 0 || f 125 124 == 0) 2 124, need (f 77 62 == 0 || f 125 124 == 0) 2 62]

/-- The head of a macro (R228, R230): `slot`, `cin`, `cout` and `ctreg` tell the fields in use. -/
def chkHeadM (i : MInstr) (slot cin cout ctreg : Bool) : List Chk :=
  let z (used : Bool) (hi lo : Nat) : List Chk := if used then [] else [i.zero 0 hi lo]
  let needsPl := i.op == 0x28 || i.op == 0x29 || i.op == 0x2A || i.op == 0x2B ||
    (i.op == 0x68 && i.d 1 125 122 == 6)
  [need (!(i.mHREG && decide (16 ≤ i.mHANDLE))) 0 74,
    need (!(needsPl && !i.mHREG && i.mHANDLE == 0xFFFF)) 0 70]
    ++ z slot 69 60 ++ z cin 59 59 ++ z cout 58 58
    ++ [need (match descCount i.op i.mNDESC with
        | some n => n == i.mNDESC
        | none => true) 0 56]
    ++ (if i.op = 0x48 ∨ i.op = 0x49 then [] else [i.zero 0 55 48])
    ++ z ctreg 47 44 ++ [i.zero 0 42 0]

/-- A macro (R228, R256). -/
def chkM (i : MInstr) : List Chk :=
  let xLoc := need (i.d 1 125 124 == (if i.mCIN then 2 else 0)) 1 124
  match i.op with
  | 0x28 =>
    chkHeadM i true true true true ++ [chkKind i 1 1, chkKind i 2 2, chkKind i 3 0] ++ chkTensor i 1 ++ [xLoc]
      ++ chkPlan i 2 (some (i.fmt 1)) true ++ chkRed i 3 false
      ++ [need (!(i.d 3 93 93 == 1 && decide (i.d 2 123 118 + 1 < i.d 1 80 57))) 1 57]
  | 0x29 =>
    chkHeadM i true true true true ++ [chkKind i 1 1, chkKind i 2 1, chkKind i 3 2] ++ chkTensor i 1 ++ [xLoc]
      ++ chkTensor i 2 ++ [need (i.d 2 125 124 != 1) 2 124, need (!(i.d 2 125 124 == 2 && decide (64 < i.d 2 80 57))) 2 57]
      ++ chkPlan i 3 (some (i.fmt 1)) false
  | 0x2A =>
    chkHeadM i false false false true ++ [chkKind i 1 1] ++ chkTensor i 1
      ++ [need (i.d 1 125 124 != 1) 1 124, need (!(i.d 1 125 124 == 2 && decide (64 < i.d 1 80 57))) 1 57]
  | 0x2B =>
    chkHeadM i true false true true ++ [chkKind i 1 2, chkKind i 2 0] ++ chkPlan i 1 none false ++ chkRed i 2 true
  | 0x48 =>
    chkHeadM i false false false false ++ (tabulate i.mNDESC (fun x => chkKind i (x + 1) 1))
      ++ (List.range i.mNDESC).flatMap (fun x => chkTensor i (x + 1)) ++ chkVec i
  | 0x49 =>
    chkHeadM i false false false false ++ [chkKind i 1 1, chkKind i 2 1] ++ chkTensor i 1 ++ chkTensor i 2 ++ chkReduce i
  | _ =>
    chkHeadM i false false false false ++ [chkKind i 1 1, chkKind i 2 3] ++ chkTensor i 1 ++ chkMoveWord i

/-- The checks of one instruction that no other instruction decides. -/
def chkInstr (i : MInstr) : List Chk :=
  let op := i.op
  chkSync i ++ (if isMacro op then chkM i
    else if op = 0x24 ∨ op = 0x40 then chkX i
    else if op = 0x41 then chkC i
    else if op = 0x60 then [i.zero 0 38 0]
    else if op = 0x61 then [i.zero 0 61 0]
    else if op = 0x80 then chkG i
    else chkS i)

/-! ### The image -/

/-- Words of 16 bytes, each little-endian (R4). -/
def imageWords (b : List Byte) : List Word128 :=
  tabulate (b.length / 16) (fun i => BitVec.ofNat 128 (leAt b (16 * i) 16))

/-- What decoding gives: the instructions, the fault at which it stopped, and whether an instruction would run
past the image's end. -/
structure Decoded where
  prog : List MInstr
  stop : Chk
  past : Bool
  deriving DecidableEq, Repr

/-- Instructions decoded in index order (R211 stage 2). -/
def decodeImage : Nat → List Word128 → Decoded
  | 0, _ => ⟨[], none, false⟩
  | _, [] => ⟨[], none, false⟩
  | fuel + 1, w :: r =>
    let nd := bits w.toNat 57 56
    let op := bits w.toNat 127 120
    match descCount op nd with
    | none => ⟨[], some (0x01, op * 2 ^ 24), false⟩
    | some n =>
      if op = 0x48 ∧ n ≠ 2 ∧ n ≠ 3 then ⟨[], some (0x02, fieldDetail 0 56), false⟩
      else if r.length < n then ⟨[], none, true⟩
      else
        let d := decodeImage fuel (r.drop n)
        { d with prog := ⟨w, r.take n⟩ :: d.prog }

/-- The loop bodies of an image: first instruction after LOOP and last of the body. -/
def loopBodies (prog : List MInstr) : List (Nat × Nat) :=
  (prog.mapIdx (fun x i => (x, i))).filterMap (fun p => if p.2.op = 0x10 then some (p.1 + 1, p.1 + p.2.sOFF) else none)

/-- Branch targets and loop bodies lie within an image of `n` instructions (R211, R233, R238). -/
def chkFlow (n : Nat) (loops : List (Nat × Nat)) (x : Nat) (i : MInstr) : Chk :=
  if i.op = 0x10 then (if n ≤ x + i.sOFF then some (0x0B, 2 * 2 ^ 28) else none)
  else if i.op = 0x12 then
    let t : Int := (x : Int) + signedVal 32 i.sOFF
    if 0 ≤ t ∧ t < (n : Int) then none
    else if t = (n : Int) ∧ loops.any (fun l => decide (l.1 ≤ x) && decide (x ≤ l.2) && l.2 + 1 == n) then none
    else some (0x08, pattern 32 t)
  else none

/-- The fault of the instruction with the lowest index, with that index. -/
def firstFault (n : Nat) (loops : List (Nat × Nat)) : Nat → List MInstr → Chk → Option (Nat × Nat × Nat)
  | x, [], stop => stop.map (fun r => (x, r))
  | x, i :: l, stop =>
    match firstOf (chkInstr i ++ [chkFlow n loops x i]) with
    | some r => some (x, r)
    | none => firstFault n loops (x + 1) l stop

/-- The header word's fields (R209). -/
def hdrFootprint (w : Word128) : Nat := bits w.toNat 79 48
def hdrRdwOld (w : Word128) : Bool := bitAt w.toNat 47

/-- The image's program, or its fault: index, reason and detail (R211). -/
def translate (routine : Bool) (image : List Byte) : Except (Nat × Nat × Nat) (Word128 × List MInstr) :=
  let ws := imageWords image
  let h := ws.headD 0
  let hdrFault := firstOf
    [need (bits h.toNat 127 112 == 1) 0 112,
      need (!routine || hdrFootprint h == 0) 0 48, need (!routine || !hdrRdwOld h) 0 47,
      match lowestSet 47 0 h.toNat with
      | some b => some (0x02, fieldDetail 0 b)
      | none => none]
  match hdrFault with
  | some r => .error (0xFFFFFFFF, r)
  | none =>
    let n := bits h.toNat 111 80
    let d := decodeImage ws.length ws.tail
    match firstFault n (loopBodies d.prog) 0 d.prog d.stop with
    | some r => .error r
    | none =>
      if d.past ∨ image.length % 16 ≠ 0 ∨ d.prog.length ≠ n ∨ n = 0 ∨ 1048576 < n then .error (0xFFFFFFFF, 0x02, fieldDetail 0 80)
      else .ok (h, d.prog)

end Sys2Proof.Machine
end

