-- ==== Sys2Proof/Machine/Frames.lean ====
section
/-! DEFINITION. The life of a frame after its commit: binding (06 R202, 10 R317, 15 R487), dispatch (11 R362, 12
R389), the start on its cores (05 R179, 07 R219), input (11 R361), its end (07 R248, 11 R363) and its result (11
R366 to R370). -/
namespace Sys2Proof.Machine
open Sys2Proof

/-! ### FRAME_BIND -/

/-- The halt record of a fault found before any core runs (R211, R317): `RANK` 0x3FF. -/
def bindRecord (index reason detail : Nat) : HaltRec := ⟨0, index, reason, 0, 0x3FF, detail⟩

/-- The placements in force for a frame. -/
def State.placesAt (s : State) (places : List Nat) (epoch : Nat) : List Placement :=
  places.filterMap (fun h => s.placementAt h epoch)

/-- The cores of a frame in ascending order, each with the index of the first placement whose group holds it and
its rank in that group (R219). -/
def frameCores (pls : List Placement) : List (Nat × Nat × Nat) :=
  (sortedSet (pls.flatMap (·.cores))).map (fun k =>
    match pls.findIdx? (fun p => p.cores.contains k) with
    | some i => (k, i, (((pls[i]?).map (fun p => (p.cores.idxOf k))).getD 0))
    | none => (k, 0, 0))

/-- A handle of the list that makes the frame fail at binding: another tenant's (cause 7), then one that the frame
does not see (cause 6) (R317, R487). -/
def State.bindFault (s : State) (places : List Nat) (tenant epoch : Nat) : Chk :=
  match places.find? (fun h => s.placements.any (fun p => p.handle == h && p.removed.isNone && p.tenant != tenant)) with
  | some h => some (0x07, deniedDetail h 0 0 7)
  | none =>
    match places.find? (fun h => match s.placementAt h epoch with
        | some p => p.tenant != tenant
        | none => true) with
    | some h => some (0x07, deniedDetail h 0 0 6)
    | none => none

/-- A translated frame whose input parcel is in both stacks is READY (R359). -/
def State.makeReady (s : State) (cseq : Nat) : State :=
  match s.entry? cseq with
  | some e =>
    if e.st = .admitted ∧ e.inputOk ∧ e.epoch.isSome ∧ !e.ended ∧ s.runsHere e then s.commitEntry cseq (fun x => { x with st := .ready }) else s
  | none => s

/-- The entry completes FAILED_PROGRAM with the record. -/
def State.failBind (s : State) (cseq : Nat) (r : HaltRec) : State :=
  (s.modEntry cseq (fun x => { x with frame := { x.frame with halt := some r } })).completeAs cseq .failed 0 []

/-- The dies of a frame's cores. -/
def coreDies (l : List (Nat × Nat × Nat)) : List Nat := sortedSet (l.map (fun x => dieOf x.1))

/-- The frame runs on other cores: its program takes lines on their dies, as far as they have room (R184;
DEDUCED, log 46). -/
def State.moveProgram (s : State) (cseq : Nat) : State :=
  let s0 := s.modEntry cseq (fun x => { x with frame := { x.frame with rs := [] } })
  s0.modEntry cseq (fun x => { x with frame := { x.frame with rs := (coreDies x.frame.cores).filterMap (fun d =>
    (s0.rsSpace d (ceilDiv x.op.imageLen 64)).map (fun a => (d, a, ceilDiv x.op.imageLen 64))) } })

/-- Moult's outcome for the frame of entry `e` with body `b`; it waits while a die has no room for the program. -/
def State.bindFrame (s : State) (e : Entry) (b : RunBody) : State :=
  match translate false b.image with
  | .error (i, r, d) => s.failBind e.cseq (bindRecord i r d)
  | .ok (h, prog) =>
    match s.bindFault b.placements e.tenant s.pkg.epoch with
    | some (r, d) => s.failBind e.cseq (bindRecord 0 r d)
    | none =>
      let cores := frameCores (s.placesAt b.placements s.pkg.epoch)
      match s.programRuns (ceilDiv b.image.length 64) (coreDies cores) with
      | none => s
      | some rs =>
        let s1 := s.modRefs e.tenant s.pkg.epoch (fun n => n + 1)
        (s1.modEntry e.cseq (fun x => { x with
          epoch := some s.pkg.epoch
          frame := { x.frame with
            prog := prog, footprint := hdrFootprint h, rdwOld := hdrRdwOld h, places := b.placements, cores := cores
            rs := rs } })).makeReady e.cseq

/-- FRAME_BIND (R202): after the frame's ACCEPT has been sent, for its program goes to compute dies (R31, R184). -/
def execFrameBind (cseq : Nat) (s : State) : Host.Outcome State Fault Refusal :=
  answer true (match s.entry? cseq with
    | some e =>
      match e.op with
      | .run b => if e.st = .admitted ∧ e.epoch = none ∧ e.acked ∧ !e.ended ∧ s.runsHere e ∧ !(s.cancelDue e) then s.bindFrame e b else s
      | _ => s
    | none => s)

/-- INPUT_PARCEL_WRITTEN (R359): after the frame's ACCEPT has been sent, for the stacks are the compute dies' (R23, R31). -/
def execInputParcelWritten (cseq : Nat) (s : State) : Host.Outcome State Fault Refusal :=
  answer true (match s.entry? cseq with
    | some e =>
      if e.st = .admitted ∧ e.acked then
        ((s.modEntry cseq (fun e => { e with inputOk := true })).wakeStacks [e.ipar.stack, e.ipar.mirror]).makeReady cseq
      else s
    | none => s)

/-! ### DISPATCH -/

/-- The logical cores of a frame. -/
def Entry.ks (e : Entry) : List Nat := e.frame.cores.map (·.1)

/-- Entry `a` is before `b` among the READY entries (R362, R363). -/
def Entry.before (a b : Entry) : Bool :=
  decide (a.order < b.order) || (a.order == b.order && decide (a.cseq < b.cseq))

/-- The frame is the oldest READY one on every core it needs (R362). -/
def State.oldest (s : State) (e : Entry) : Bool :=
  !(s.entries.any (fun x => x.st == .ready && !x.ended && s.runsHere x && x.before e && x.ks.any (fun k => e.ks.contains k)))

/-- The engines of core `k` that a frame's placements use. -/
def State.enginesUsed (s : State) (e : Entry) (k : Nat) : List Nat :=
  (s.placesAt e.frame.places (e.epoch.getD 0)).flatMap (fun p => (p.spans.filter (fun x => x.k == k)).map (·.engine))

/-- Every core of the frame can take it: free, in service, not diagnosed, not under a slice, no unit of it being
substituted (R362, R413, R415, R418). -/
def State.coresFree (s : State) (e : Entry) : Bool :=
  !e.ks.isEmpty && e.ks.all (fun k =>
    (s.core k).entry.isNone && s.coreUp k && !(s.core k).diag && !(s.substBlocks k (s.enginesUsed e k)) && !(s.sliceOn k))

/-- The dies of a frame. -/
def Entry.dies (e : Entry) : List Nat := sortedSet (e.ks.map dieOf)

/-- The largest `CORE_W` that a placement of the list gives for core `k` (R390). -/
def State.coreWork (s : State) (e : Entry) (k : Nat) : Nat :=
  (s.placesAt e.frame.places (e.epoch.getD 0)).foldl (fun a p =>
    match p.cores.idxOf? k with
    | some i => max a (at' p.psig.coreW i 0)
    | none => a) 0

/-- The domain ceiling of a compute die in milliwatts (R379, R380). -/
def State.dieCeiling (s : State) : Nat := s.profile.power.ceiling * 1000 * s.profile.power.fracCd / 200

/-- A frame's reservation on a die in units of 1/800 mW: its guarded core work, at most the die's ceiling
(R390). -/
def State.reservation (s : State) (e : Entry) (d : Nat) : Nat :=
  min (s.dieCeiling * 800)
    ((100 + s.profile.power.workGuard) * 125 * ((e.ks.filter (fun k => dieOf k == d)).map (s.coreWork e)).foldl (· + ·) 0)

/-- The reservations in force on a die: frames that have not ended on every core of it (R390). -/
def State.reserved (s : State) (d : Nat) : Nat :=
  ((s.entries.filter (fun x => x.st == .running && (dieCores d).any (fun k =>
    (s.core k).entry == some x.cseq && (s.core k).live))).map (fun x => s.reservation x d)).foldl (· + ·) 0

/-- The Yoke allows the frame (R389). -/
def State.powerOk (s : State) (e : Entry) : Bool :=
  e.dies.all (fun d => decide (s.reserved d + s.reservation e d ≤ (s.die d).part * 800))

/-- The pages of a WORK area: 4 KiB pages in turn over the stacks of the frame's dies (R260). -/
def State.workPages (s : State) (e : Entry) (wlen : Nat) : Option (List (Nat × Nat × Nat)) :=
  let n := wlen / 4096
  let sts := (e.dies.flatMap (fun d => tabulate 4 (fun i => 4 * d + i))).filter s.stackUp
  if n = 0 then some []
  else if sts.isEmpty then none
  else
    let l := sts.mapIdx (fun i st => (st, n / sts.length + (if i < n % sts.length then 1 else 0)))
    if l.all (fun x => decide (x.2 ≤ s.freePages x.1)) then
      some (l.flatMap (fun x => (firstPages x.2 (freeRuns (at' s.pages x.1 0) 0 (s.runsOf x.1))).map (fun y => (x.1, y))))
    else none

/-- The sleeping clusters of the frame's cores start to wake (R400). -/
def State.wakeFor (s : State) (e : Entry) : State :=
  e.ks.foldl (fun s k => match s.physCluster (dieOf k) (clusterOf k) with
    | some p =>
      let c := s.cl (dieOf k) p
      if (c.st = .off ∨ c.st = .doze) ∧ !c.waking then s.startWake (dieOf k) p else s
    | none => s) s

/-- A core takes a frame: its start steps are due (R219). -/
def takeCore (cseq rank : Nat) (c : Core) : Core :=
  { c with st := .starting, entry := some cseq, rank := rank, haltRec := none }

/-- The clusters of a frame's cores run it (R399). -/
def State.runClusters (s : State) (e : Entry) : State :=
  e.ks.foldl (fun s k => match s.physCluster (dieOf k) (clusterOf k) with
    | some p => s.modCl (dieOf k) p (fun c => { c with st := .run })
    | none => s) s

/-- The entry is RUNNING on its cores with a new WORK area. -/
def State.startFrame (s : State) (e : Entry) (ws : List (Nat × Nat × Nat)) : State :=
  let s1 := ws.foldl (fun s p => s.takeRun p.1 p.2.1 p.2.2) s
  let s2 := (e.frame.cores.mapIdx (fun r x => (r, x.1))).foldl (fun s p => s.modCore p.2 (takeCore e.cseq p.1)) s1
  (s2.runClusters e).commitEntry e.cseq (fun x => { x with
    st := .running, powered := false, frame := { x.frame.again with pages := ws } })

/-- The frame goes to the partner: a core that it needs has no hardware here (R22, R418; DESIGN CHOICE, log 101). -/
def State.handsOver (s : State) (e : Entry) : Bool :=
  s.paired && !s.dualRun && e.homeHere && !e.away && e.ks.any (fun k => !(s.hasHardware k))

/-- DISPATCH: the frame starts, or waits for power (counted once), for a wake, or for anything else (R362, R389,
R400). -/
def State.dispatch (s : State) (e : Entry) (b : RunBody) : State :=
  if e.st ≠ .ready ∨ e.ended ∨ s.refusing.isSome ∨ !s.runsHere e then s
  else if s.handsOver e then s.commitEntry e.cseq (fun x => { x with away := true })
  else if !s.oldest e ∨ !s.coresFree e then s
  else if !(s.powerOk e) then
    if e.powered then s
    else { s.modEntry e.cseq (fun x => { x with powered := true }) with
      yoke := { s.yoke with regs := { s.yoke.regs with powerWait := inc s.yoke.regs.powerWait } } }
  else if !(e.ks.all s.coreAwake) then s.wakeFor e
  else match s.workPages e b.wlen with
    | some ws => s.startFrame e ws
    | none => s

/-- DISPATCH (R362). -/
def execDispatch (cseq : Nat) (s : State) : Host.Outcome State Fault Refusal :=
  answer true (match s.entry? cseq with
    | some e =>
      match e.op with
      | .run b => s.dispatch e b
      | _ => s
    | none => s)

/-! ### FRAME_START (R179, R219) -/

/-- The near units of another tenant's frame are zeroised (R456). -/
def Core.zeroUnits (c : Core) : Core :=
  { c with engines := c.engines.map (fun p => (p.1, { p.2 with nu := NearUnit.fresh })) }

/-- Written-row masks and tags of the dynamic planes are cleared (R60, R61). -/
def Core.clearMasks (c : Core) : Core :=
  { c with engines := c.engines.map (fun p => (p.1, { p.2 with
      planes := p.2.planes.map (fun q => (q.1, if q.2.dyn.isSome then { q.2 with written := 0, tag := 0 } else q.2)) })) }

/-- The start steps on a core: tile registers, windows, accumulation region, slot tags, masks, sheets, near units
and the registers of R219. -/
def Core.startSteps (c : Core) (x : Nat × Nat × Nat) (rank ilen footprint : Nat) (rdwOld : Bool) (tenant free : Nat) : Core :=
  let other := decide (c.lastTenant ≠ some tenant)
  let c1 := if other then (c.footprint 0 free).zeroUnits else c
  let c2 := (c1.footprint footprint free).clearMasks
  { c2 with
    st := .armed
    lastTenant := some tenant
    rank := rank
    ctl := { CtlRegs.fresh with a := [word rank, word x.2.1, word x.2.2, word ilen] ++ List.replicate 12 0 }
    q := CoreQ.fresh
    acc := CoreAcc.fresh
    wins := List.replicate 8 none
    haltRec := none
    sp := { c2.sp with rdwOld := rdwOld }
    mem := { c2.mem with
      prior := [], same := [], treg := [], rowTag := [], tregBad := [], tagBad := [], rowMask := BitVec.allOnes 64, elemMask := BitVec.allOnes 512 } }

/-- Once every core of the frame has made its start steps, all of them run (R219). -/
def State.letRun (s : State) (cseq : Nat) : State :=
  if (s.coresOf cseq).all (fun k => (s.core k).st == .armed) then
    { s with cores := s.cores.map (fun p =>
        if p.2.entry == some cseq then (p.1, { p.2 with st := .run }) else p) }
  else s

/-- FRAME_START (R179, R219). -/
def execFrameStart (cseq k : Nat) (s : State) : Host.Outcome State Fault Refusal :=
  answer (coreOk k) (match s.entry? cseq with
    | some e =>
      match e.op, e.frame.cores.findIdx? (fun x => x.1 == k) with
      | .run b, some r =>
        let c := s.core k
        if c.st = .starting ∧ c.entry = some cseq then
          ((s.setCore k (c.startSteps (at' e.frame.cores r (0, 0, 0)) r b.input.length e.frame.footprint
            e.frame.rdwOld e.tenant s.pkg.free)).drewWakes s k).letRun cseq
        else s
      | _, _ => s
    | none => s)

/-! ### HUB_INPUT_DELIVERY (R361) -/

/-- The entry core of a frame (R33): rank 0 of the group of the first placement. -/
def Entry.entryCore (e : Entry) : Option Nat :=
  (e.frame.cores.find? (fun x => x.2.1 == 0 && x.2.2 == 0)).map (·.1)

/-- The first `n` lines of an input, zero beyond its end. -/
def inputLines (input : List Byte) (n : Nat) : List (Nat × List Byte × Nat) :=
  tabulate n (fun j => (j, tabulate 64 (fun i => at' input (64 * j + i) 0), 0))

/-- The hub's deposit of the input into W0 of the entry core. -/
def State.deliverInput (s : State) (e : Entry) (b : RunBody) : State :=
  match e.entryCore with
  | none => s
  | some k =>
    let s1 := s.modEntry e.cseq (fun x => { x with frame := { x.frame with delivered := true } })
    let s2 := s1.addDeposit ⟨0, .hub e.cseq, [k], 0, 0, b.dlines, none, inputLines b.input b.dlines, false, true⟩
    ((recheck k s2.deposits s2).tryCredit).wakeStacks [e.ipar.stack]

/-- HUB_INPUT_DELIVERY (R361). -/
def execHubInputDelivery (cseq : Nat) (s : State) : Host.Outcome State Fault Refusal :=
  answer true (match s.entry? cseq with
    | some e =>
      match e.op with
      | .run b =>
        if e.st = .running ∧ !e.frame.delivered ∧ b.dlines ≠ 0 ∧
            (s.coresOf cseq).all (fun k => (s.core k).st != .starting && (s.core k).st != .armed) then s.deliverInput e b
        else s
      | _ => s
    | none => s)

/-! ### STOP_TIMEOUT and HALT_RECORD -/

/-- A core stops where it stands (R251). -/
def stopHere (c : Core) : Core :=
  { c with
    st := .stopped
    prog := { c.prog with stopCount := inc c.prog.stopCount }
    ctl := { c.ctl with stall := none }
    q := { c.q with mx := [], vx := [], mv := [], cf := [], flights := [] } }

/-- STOP_TIMEOUT: 100 ms after the first stop the other cores of the frame stop (R251). -/
def State.stopAll (s : State) (cseq : Nat) : State :=
  let ks := (s.coresOf cseq).filter (fun k => (s.core k).live)
  let s1 := ks.foldl (fun s k => s.modCore k stopHere) s
  { s1 with deposits := s1.deposits.filter (fun d => d.credited || !(ks.any (fun k => sentBy k d))) }

/-- STOP_TIMEOUT (R251). -/
def execStopTimeout (cseq : Nat) (s : State) : Host.Outcome State Fault Refusal :=
  answer true (match s.entry? cseq with
    | some e => if e.st = .running ∧ !e.frame.stopped.isEmpty then s.stopAll cseq else s
    | none => s)

/-- The hub stops a core of a halted frame (R248). -/
def hubStop (c : Core) : Core :=
  if c.live then
    { c with
      st := .halted
      ctl := { c.ctl with stall := none }
      q := { c.q with mx := [], vx := [], mv := [], cf := [], flights := [] } }
  else c

/-- The reason is a hardware fault (R248). -/
def isHw (reason : Nat) : Bool := decide (0x20 ≤ reason) && decide (reason < 0x40)

/-- A hardware fault is a local fault (R411) and, but for BELLWETHER, begins the diagnosis of the core (R413). -/
def State.doubtCore (s : State) (k reason : Nat) : State :=
  if isHw reason then
    if reason = 0x20 then s.localFault else s.localFault.modCore k (fun c => { c with diag := true })
  else s

/-- The record of lowest `RANK`. -/
def lowestRank : List HaltRec → Option HaltRec
  | [] => none
  | r :: l => match lowestRank l with
    | some x => if x.rank < r.rank then some x else some r
    | none => some r

/-- The record of core `k` reaches the hub, and in the same hub cycle those of the cores `same`: of the first to arrive,
that of the lowest `RANK` decides, and every other core of the frame stops (R247, R248). -/
def State.haltRecord (s : State) (k : Nat) (same : List Nat) : State :=
  match (s.core k).haltRec, (s.core k).entry with
  | some r, some q =>
    let more := (same.filter (fun j => j != k && (s.core j).entry == some q && (s.core j).haltRec.isSome)).eraseDups
    let rs := r :: more.filterMap (fun j => (s.core j).haltRec)
    let s1 := (k :: more).foldl (fun s j =>
      (s.modCore j (fun c => { c with haltRec := none })).doubtCore j (((s.core j).haltRec.map (·.reason)).getD 0)) s
    let s2 := s1.modEntry q (fun e => { e with frame := { e.frame with
      halt := match e.frame.halt with
        | some x => some x
        | none => lowestRank rs } })
    let ks := s.coresOf q
    { s2 with
      cores := s2.cores.map (fun p => if p.2.entry == some q then (p.1, hubStop p.2) else p)
      deposits := s2.deposits.filter (fun d => !(ks.any (fun j => sentBy j d) || d.dests.any (fun j => ks.contains j))) }
  | _, _ => s

/-- HALT_RECORD (R247). -/
def execHaltRecord (r : RecordsIn) (s : State) : Host.Outcome State Fault Refusal :=
  answer (coreOk r.k && r.same.all coreOk) (s.haltRecord r.k r.same)

/-! ### FRAME_END (R248, R252, R363) -/

/-- A stop region as it is returned: its head, and the bytes of the core of its rank (R252, R366). -/
def State.regionOut (s : State) (e : Entry) (i : Nat) (r : Region) : List Byte :=
  let reached := e.frame.stopped.contains r.rank
  match e.frame.cores[r.rank]? with
  | none => beBytes 2 i ++ List.replicate 14 0
  | some (k, _) =>
    let m := (s.core k).mem
    let data := if r.treg then Mem.readBytes m.treg (r.start * 512) r.bytes else Mem.readBytes m.spad r.start r.bytes
    beBytes 2 i ++ [BitVec.ofNat 8 (flag reached), 0] ++ beBytes 4 r.bytes ++ List.replicate 8 0 ++ data

/-- The payload of a frame that ran to its end (R246, R252). -/
def State.payloadOf (s : State) (e : Entry) (b : RunBody) : List Byte :=
  if b.stopCount ≠ 0 then (b.regions.mapIdx (fun i r => s.regionOut e i r)).flatten
  else Mem.readBytes e.frame.result 0 b.rlen

/-- What the tag policy makes of a result that ran to its end (R367): status and reason. -/
def tagStatus (policy tag : Nat) (stopped : Bool) : ResStatus × Nat :=
  if stopped ∨ tag % 4 = 0 ∨ policy = 0 then (.done, 0)
  else if bitAt tag 1 then (.withheld, 2)
  else if policy = 2 then (.withheld, 1)
  else (.done, 0)

/-- The frame has ended on every core, and no halt record of it is on its way to the hub. -/
def State.endedAll (s : State) (cseq : Nat) : Bool :=
  (s.coresOf cseq).all (fun k => !(s.core k).live && (s.core k).haltRec.isNone)

/-- A frame that ran to its end: its outcome is decided and its cores are free; its result parcel is written
next. -/
def State.endDone (s : State) (e : Entry) (b : RunBody) : State :=
  let st := tagStatus s.profile.work.tagPolicy e.frame.rtag (!e.frame.stopped.isEmpty)
  let pay := if st.1 = .done then s.payloadOf e b else []
  (s.clearFrame e.cseq).modEntry e.cseq (fun x => { x with
    ended := true, status := st.1, wreason := st.2, payload := pay })

/-- A frame that halted, by the class of its record (R248, R363). -/
def State.endHalted (s : State) (e : Entry) (r : HaltRec) : State :=
  if r.reason < 0x20 then s.completeAs e.cseq .failed 0 []
  else if isHw r.reason then
    if s.profile.work.replayMax < e.replays + 1 then s.completeAs e.cseq .withheld 0x10 []
    else (s.requeue e.cseq 0 (fun x => { x with replays := x.replays + 1 })).countFold
      (fun f => { f with replays := inc f.replays })
  else (s.requeue e.cseq s.backOrder id).countFold (fun f => { f with requeues := inc f.requeues })

/-- FRAME_END (R248, R363). -/
def execFrameEnd (cseq : Nat) (s : State) : Host.Outcome State Fault Refusal :=
  answer true (match s.entry? cseq with
    | some e =>
      match e.op with
      | .run b =>
        if e.st ≠ .running ∨ e.ended ∨ !(s.endedAll cseq) ∨ s.cancelDue e then s
        else match e.frame.halt with
          | some r => s.endHalted e r
          | none => s.endDone e b
      | _ => s
    | none => s)

/-! ### Results (R366 to R370) -/

/-- `SBITS` of a result (R366). -/
def Entry.sbits (e : Entry) : Nat :=
  flag e.frame.boundExt + 2 * flag e.frame.conflict + 4 * flag (!e.frame.stopped.isEmpty && e.status == .done)

/-- The halt record of the descriptor: of a FAILED_PROGRAM result only (R366). -/
def Entry.resHalt (e : Entry) : Option HaltRec := if e.status = .failed then e.frame.halt else none

/-- The halt record as 16 bytes, most significant first (R247). -/
def HaltRec.bytes (r : HaltRec) : List Byte :=
  beBytes 16 (r.ctx % 2 ^ 32 * 2 ^ 96 + r.index % 2 ^ 32 * 2 ^ 64 + r.reason % 256 * 2 ^ 56 + r.depth % 16 * 2 ^ 52
    + r.rank % 1024 * 2 ^ 42 + r.detail % 2 ^ 32)

/-- The descriptor of a result (R366). -/
def Entry.descriptor (e : Entry) : List Byte :=
  [BitVec.ofNat 8 e.status.code, BitVec.ofNat 8 e.wreason] ++ beBytes 2 e.sbits
    ++ [BitVec.ofNat 8 (e.frame.rtag % 4), BitVec.ofNat 8 (e.frame.vflags % 64), 0, 0] ++ beBytes 8 e.frame.flushed
    ++ ((e.resHalt.map HaltRec.bytes).getD (List.replicate 16 0)) ++ beBytes 4 e.payload.length ++ List.replicate 28 0

/-- The digest of a result (R437). -/
def Entry.digest (e : Entry) : Nat :=
  Config.sha512 ((e.descriptor ++ e.payload).map (·.toNat)) % 2 ^ 512 / 2 ^ 256

/-- The engines that the frame used are to be swept: maintenance of code 4, queued (R438, R439). -/
def State.queueSweeps (s : State) (e : Entry) : State :=
  (e.ks.flatMap (fun k => (sortedSet (s.enginesUsed e k)).map (fun g => 32 * k + g))).foldl (fun s u =>
    { s with
      maint := s.maint ++ [⟨s.nextAct, 4, u / 4096, u / 512 % 8, u, false, 0, 0, 0, 0, 0⟩]
      nextAct := s.nextAct + 1 }) s

/-- The entry ended by a run, not by a CANCEL, a replay limit or a lost parcel. -/
def Entry.ranOut (e : Entry) : Bool := e.status != .cancelled && decide (e.wreason < 0x10)

/-- Both digests of the present run of an entry are known and differ: results are discarded, and the frame runs again or,
beyond `REPLAY_MAX`, is WITHHELD (R438). -/
def State.dualCheck (s : State) (cseq : Nat) : State :=
  match s.entry? cseq with
  | none => s
  | some e =>
    match s.pair.own.find? (fun x => x.1 == cseq), s.pair.peer.find? (fun x => x.1 == cseq && x.2.1 == e.reruns) with
    | some a, some b =>
      if a.2.1 ≠ e.reruns ∨ a.2.2 = b.2.2 ∨ !e.ranOut ∨ e.st ≠ .complete then s
      else
        let s0 : State := { s with pair := { s.pair with
          own := s.pair.own.filter (fun x => x.1 != cseq), peer := s.pair.peer.filter (fun x => x.1 != cseq)
          regs := { s.pair.regs with event := setBit s.pair.regs.event 4, dual := inc s.pair.regs.dual } } }
        let s2 := (s0.queueSweeps e).takeRefs e
        if s.profile.work.replayMax < e.replays + 1 then s2.completeAs cseq .withheld 0x11 []
        else s2.requeue cseq 0 (fun x => { x with replays := x.replays + 1, reruns := x.reruns + 1 })
    | _, _ => s

/-- Under DUAL_RUN a frame's digest goes to the partner, and is compared when the partner's is here (R437). -/
def State.sendDigest (s : State) (e : Entry) : State :=
  match e.op with
  | .run _ =>
    if s.dualRun ∧ s.paired then
      let s1 := s.sendPair 7 (digestFields e.cseq e.reruns e.digest) []
      let s2 : State := { s1 with pair := { s1.pair with
          own := s1.pair.own.filter (fun x => x.1 != e.cseq) ++ [(e.cseq, e.reruns, e.digest)] } }
      s2.dualCheck e.cseq
    else s
  | _ => s

/-- The entry is COMPLETE: its result parcel is in both stacks, and its references end (R204, R359, R375). -/
def State.complete (s : State) (e : Entry) : State :=
  let s1 := s.commitEntry e.cseq (fun x => { x with st := .complete, parcelOk := true, ended := true })
  let s2 := (((if e.holdsRefs then s1.dropRefs e else s1).noteReplay e.cseq).noteStaging 0 0).noteStaging 1 0
  let s3 := match e.status with
    | .withheld => s2.countFold (fun r => { r with withheld := inc r.withheld })
    | .cancelled => s2.countFold (fun r => { r with cancelled := inc r.cancelled })
    | _ => s2
  s3.sendDigest e

/-- RESULT_PARCEL_WRITTEN: the result parcel is in both stacks; an entry whose outcome is decided, or an OPEN, CLOSE or
CANCEL, becomes COMPLETE, unless a CANCEL of it that is being committed comes first (R359, R364). -/
def State.resultWritten (s : State) (e : Entry) : State :=
  match e.st, e.op with
  | .complete, _ => s
  | .sent, _ => s.modEntry e.cseq (fun x => { x with parcelOk := true })
  | _, .run _ => if e.ended ∧ (e.status = .cancelled ∨ !(s.cancelDue e)) then s.complete e else s
  | .admitted, _ => if e.homeHere then s.complete e else s
  | _, _ => s

/-- RESULT_PARCEL_WRITTEN (R359, R366). -/
def execResultParcelWritten (cseq : Nat) (s : State) : Host.Outcome State Fault Refusal :=
  answer true (match s.entry? cseq with
    | some e => (s.wakeStacks [e.rpar.stack, e.rpar.mirror]).resultWritten e
    | none => s)

/-- The two digests of a frame under DUAL_RUN are equal (R437). -/
def State.dualOk (s : State) (e : Entry) : Bool :=
  match e.op with
  | .run _ =>
    !(s.dualRun && s.paired) || !e.ranOut || s.pair.own.any (fun x => x.1 == e.cseq && s.pair.peer.contains x)
  | _ => true

/-- The result of an entry leaves port `p`, descriptor and payload in segments of 8,192 bytes, for the source of its
stream's most recent frame; reading its parcel wakes the stack (R341, R366, R368, R401). -/
def State.sendResult (s : State) (e : Entry) (p : Nat) : State :=
  let l := pieces 8192 (e.descriptor ++ e.payload)
  (l.mapIdx (fun i b => (i, b))).foldl (fun s x => s.sendSeg p (s.stream e.stream).addr
    { headOf 3 e.tsid e.stream e.incarn e.seq with segidx := x.1, segcnt := l.length } x.2) (s.wakeStacks [e.rpar.stack])

/-- The port of a stream's results, while its session lives (R368, R486). -/
def State.resultPort (s : State) (e : Entry) : Option Nat :=
  if (s.session? e.tsid).isSome then s.outPort (s.stream e.stream).port else none

/-- Every result of the stream before that of `e` has been transmitted (R368). -/
def State.inTurn (s : State) (e : Entry) : Bool :=
  !(s.entries.any (fun x => x.stream == e.stream && decide (x.seq < e.seq) && x.st != .sent))

/-- The result due next on a stream. -/
def State.dueResult (s : State) (n : Nat) : Option Entry :=
  s.entries.find? (fun e => e.stream == n && e.st == .complete && e.parcelOk && e.here && s.inTurn e)

/-- RESULT_TRANSMIT (R368). -/
def State.transmit (s : State) (n : Nat) : State :=
  match s.dueResult n with
  | none => s
  | some e =>
    match s.resultPort e with
    | none => s
    | some p =>
      if s.refusing.isSome ∨ !(s.dualOk e) then s
      else ((s.commitEntry e.cseq (fun x => { x with st := .sent })).sendResult e p).modFold (p / 4)
        (fun r => { r with results := inc r.results })

/-- RESULT_TRANSMIT (R368). -/
def execResultTransmit (stream : Nat) (s : State) : Host.Outcome State Fault Refusal :=
  answer true (s.transmit stream)

/-- Kept results sent again, in the order given (R369, R370). -/
def State.resendAll (s : State) : List Entry → State
  | [] => s
  | e :: r =>
    State.resendAll (match s.resultPort e with
      | some p => (s.sendResult e p).modFold (p / 4) (fun x => { x with resends := inc x.resends })
      | none => s) r

/-- RESEND (R369): entries stand in sequence order within a stream. -/
def execResend (g : SegIn) (s : State) : Host.Outcome State Fault Refusal :=
  answer (portOk g.port) (s.resultAck 1 g (fun s n q =>
    s.resendAll (s.entries.filter (fun e => e.stream == n && decide (q ≤ e.seq) && e.st == .sent && e.parcelOk && e.here))))

/-! ### PARCEL_READ_ERROR (R365) -/

/-- A parcel of which one copy cannot be read, its mirror or the other, is copied again from the copy that serves to a new
mirror location; the old location is free. With no room for a mirror it keeps one copy (R365; DESIGN CHOICE, log 100). -/
def State.remirror (s : State) (p : Parcel) (mirror : Bool) : State × Parcel :=
  let keep := if mirror then (p.stack, p.first) else (p.mirror, p.mfirst)
  let lost := if mirror then (p.mirror, p.mfirst) else (p.stack, p.first)
  let new := (s.mirrorOf keep.1).bind (fun b => (s.mirrorRun b p.pages).map (fun q => (b, q)))
  if p.pages = 0 ∨ keep = lost then (s, p)
  else match new with
    | some (b, q) => ((s.takeRun b q p.pages).giveRun lost.1 lost.2 p.pages, ⟨keep.1, keep.2, b, q, p.pages⟩)
    | none => (s.giveRun lost.1 lost.2 p.pages, ⟨keep.1, keep.2, keep.1, keep.2, p.pages⟩)

/-- FOLD.EVENT[0] and its counter. -/
def State.countRepair (s : State) : State :=
  s.countFold (fun r => { r with event := setBit r.event 0, repairs := inc r.repairs })

/-- FOLD.EVENT[1] and its counter. -/
def State.countLost (s : State) : State :=
  s.countFold (fun r => { r with event := setBit r.event 1, lost := inc r.lost })

/-- An entry that never ran: its result is written again (R365). -/
def State.rewriteResult (s : State) (e : Entry) : State :=
  if e.st = .sent then s.modEntry e.cseq (fun x => { x with parcelOk := false })
  else s.commitEntry e.cseq (fun x => { x with st := .admitted, parcelOk := false })

/-- A parcel of entry `e` cannot be read: one copy, its mirror or the other, or both. A mirrored entry whose input is lost
here keeps its home's copy. A result parcel that is still to be written has nothing to lose (R365). -/
def State.parcelError (s : State) (e : Entry) (input mirror both : Bool) : State :=
  if !both then
    let r := s.remirror (if input then e.ipar else e.rpar) mirror
    (r.1.modEntry e.cseq (fun x => if input then { x with ipar := r.2 } else { x with rpar := r.2 })).countRepair
  else if !(s.runsHere e) then
    if input then { s with pair := { s.pair with hollow := s.pair.hollow ++ [e.cseq] } } else s
  else if input then
    if e.completed then s else (s.completeAs e.cseq .withheld 0x12 []).countLost
  else if e.st ≠ .complete ∧ e.st ≠ .sent then s
  else if e.frame.cores.isEmpty then s.rewriteResult e
  else (s.takeRefs e).requeue e.cseq 0 id

/-- PARCEL_READ_ERROR (R365). -/
def execParcelReadError (cseq : Nat) (p : ParcelCopy) (both : Bool) (s : State) : Host.Outcome State Fault Refusal :=
  answer true (match s.entry? cseq with
    | some e => s.parcelError e p.input p.mirror both
    | none => s)

end Sys2Proof.Machine
end

