-- ==== Sys2Proof/Machine/Bulk.lean ====
section
/-! DEFINITION. The bulk data port (10 R318 to R329): the checks of a body, sessions, bursts and replies. -/
namespace Sys2Proof.Machine
open Sys2Proof

/-! ### The head of a BULK body (R324) -/

/-- The fields of the head. -/
structure BHead where
  bop     : Nat
  target  : Nat
  session : Nat
  name    : Nat
  pos     : Nat
  len     : Nat
  objlen  : Nat

/-- The head of a body of at least 32 bytes. -/
def bulkHead (b : List Byte) : BHead :=
  ⟨beAt b 0 1, beAt b 1 1, beAt b 2 2, beAt b 4 4, beAt b 8 8, beAt b 16 8, beAt b 24 8⟩

/-- The offset of the first invalid field of a body, or its length when it is shorter than the head (R324). -/
def bulkBad (b : List Byte) : Option Nat :=
  if b.length < 32 then some b.length
  else
    let h := bulkHead b
    let named := h.bop = 1 ∨ h.bop = 6 ∨ h.bop = 7
    let lenOk := if h.bop = 1 then 1 ≤ h.len else if h.bop = 2 then 1 ≤ h.len ∧ h.len ≤ 8192 ∧ b.length = 32 + h.len
      else h.len = 0
    let objOk := h.bop ≠ 1 ∨ (1 ≤ h.objlen ∧ h.objlen ≤ 2 ^ 38)
    if h.bop < 1 ∨ 8 < h.bop then some 0
    else if (named ∧ 4 < h.target) ∨ (h.bop = 8 ∧ h.target ≠ 0) then some 1
    else if h.bop = 8 ∧ h.session ≠ 0 then some 2
    else if ((named ∧ h.target ≠ 1) ∨ h.bop = 8) ∧ 65536 ≤ h.name then some 4
    else if h.bop = 1 ∧ objOk ∧ h.objlen ≤ h.pos then some 8
    else if !(decide lenOk) then some 16
    else if h.bop = 1 ∧ objOk ∧ h.objlen < h.pos + h.len then some 16
    else if !(decide objOk) then some 24
    else none

/-! ### Replies (R328) -/

/-- The body of a REPLY (R324): the operation answered, session, name, cursor, status and detail, payload. -/
def replyBody (bop session name pos status detail : Nat) (payload : List Byte) : List Byte :=
  beBytes 1 0x80 ++ beBytes 1 bop ++ beBytes 2 session ++ beBytes 4 name ++ beBytes 8 pos ++ beBytes 8 payload.length
    ++ beBytes 1 status ++ beBytes 3 0 ++ beBytes 4 detail ++ payload

/-- Where a REPLY goes: port, address and session. Port 8 stands for the partner, whose answer is an OBJCOMMIT for the
target in place of a session (R429), and port 9 for no place at all. -/
structure Place where
  port : Nat
  addr : Nat
  tsid : Nat

/-- Where the REPLY to a frame goes. -/
def placeOf (b : BulkIn) : Place := ⟨b.port, b.addr, b.tsid⟩

/-- A place as it is kept with the session of its request, while a REPLY waits: port, address, session identifier and
bulk session. -/
def Place.keep (p : Place) (session : Nat) : List Nat := [p.port, p.addr, p.tsid, session]

/-- The place kept in a list; none is port 9. -/
def keptPlace (l : List Nat) : Place := ⟨at' l 0 9, at' l 1 0, at' l 2 0⟩

/-- A REPLY leaves from its port, or another working one (R327); statuses other than OK, BULK_GAP and WRONG_HUB
count (R339). A REPLY for which no session gives a cursor carries a free one (DESIGN CHOICE, log 41). -/
def State.reply (s : State) (dest : Place) (bop session name : Nat) (pos : Option Nat) (status detail : Nat)
    (payload : List Byte) : State :=
  let s1 := if status = 0 ∨ status = 1 ∨ status = 6 then s
    else { s with inst := { s.inst with refused := inc s.inst.refused } }
  if dest.port = 8 then
    let s2 := s1.sendPair 6 (objcommitFields dest.tsid status name) []
    { s2 with pair := { s2.pair with failedObj := s2.pair.failedObj || (s2.pair.st == .joining && status != 0) } }
  else if dest.port = 9 then s1
  else match s1.outPort dest.port with
  | some p =>
    match pos with
    | some n => s1.sendSeg p dest.addr (headOf 5 dest.tsid 0 0 0) (replyBody bop session name n status detail payload)
    | none =>
      let o := s1.openWord 4 64
      o.1.sendSeg p dest.addr (headOf 5 dest.tsid 0 0 0) (replyBody bop session name o.2 status detail payload)
  | none => s1

/-- The REPLY to a COMMIT whose place was kept in `l`. -/
def State.replyLater (s : State) (l : List Nat) (name status detail : Nat) : State :=
  s.reply (keptPlace l) 6 (at' l 3 0) name none status detail []

/-- A REPLY to this request with the cursor `pos`, when a session gives one. -/
def State.replyTo (s : State) (b : BulkIn) (pos : Option Nat) (status detail : Nat) : State :=
  let h := bulkHead b.body
  s.reply (placeOf b) h.bop h.session h.name pos status detail []

/-- BODY_INVALID for a header that breaks R342: no offset within the body names the field, and the detail is free (R6;
DESIGN CHOICE, log 102). -/
def State.replyHeader (s : State) (b : BulkIn) : State :=
  let p := s.openWord 5 32
  p.1.replyTo b none 0x17 p.2

/-- AUTH_FAIL for a frame under no live session, sent as R352 sends such an ACK; the body is encrypted, and what the REPLY
says of it is free. The identifiers that are never a tenant's are no session's that has ended (R486, R492; DESIGN CHOICE,
DESIGN CHOICE, log 121). -/
def State.replyNoSession (s : State) (b : BulkIn) : State :=
  if 0xFFFD ≤ b.tsid then s
  else
    let o := s.openWord 37 56
    o.1.reply ⟨b.port, b.addr, 0⟩ (o.2 % 2 ^ 8) (o.2 / 2 ^ 8 % 2 ^ 16) (o.2 / 2 ^ 24) none 7 0 []

/-- A BULK frame of operation `op`: refused under no live session (R486, R492), discarded unless it authenticates (R343),
then the header, the body, QUIET, then `f` with the tenant of its session. A body that no row can read is any row's. -/
def State.bulkFrame (s : State) (op : Nat) (b : BulkIn) (f : State → Nat → BHead → State) : State :=
  if !(s.takes b.port b.wire) then s.discard b.port b.wire
  else if b.hdr.kind != 5 then s
  else match s.session? b.tsid with
    | none => s.replyNoSession b
    | some x =>
      let h := bulkHead b.body
      if !b.auth then s
      else if 32 ≤ b.body.length ∧ 1 ≤ h.bop ∧ h.bop ≤ 8 ∧ h.bop ≠ op then s
      else if !(b.hdr.single b.body.length) then s.replyHeader b
      else match bulkBad b.body with
        | some d => s.replyTo b none 0x17 d
        | none => if s.refusing.isSome then s.replyTo b none 0x14 0 else f s x.tenant h

/-! ### Objects and sessions (R318, R325) -/

/-- The object of a tenant, target and name. -/
def State.obj? (s : State) (tenant target name : Nat) : Option Obj :=
  s.objects.find? (fun o => o.tenant == tenant && o.target == target && o.name == name)

/-- `o` is the object of these numbers. -/
def Obj.is (o : Obj) (tenant target name : Nat) : Bool :=
  o.tenant == tenant && o.target == target && o.name == name

/-- The object is gone. -/
def State.dropObj (s : State) (tenant target name : Nat) : State :=
  { s with objects := s.objects.filter (fun o => !(o.is tenant target name)) }

/-- The session `id` of a tenant. -/
def State.bulk? (s : State) (tenant id : Nat) : Option Bulk :=
  s.bulk.find? (fun x => x.tenant == tenant && x.id == id)

/-- The open sessions. -/
def State.openBulk (s : State) : List Bulk := s.bulk.filter (fun x => !x.aborted)

/-- The open sessions on an object. -/
def State.sessionsOn (s : State) (tenant target name : Nat) : List Bulk :=
  s.openBulk.filter (fun x => x.tenant == tenant && x.target == target && x.name == name)

/-- The install pool in bytes, less the shares of lost stacks (R320, R419). -/
def State.poolSize (s : State) : Nat :=
  s.profile.work.hbmInstall * 1000000000 * ((List.range 16).filter s.stackUp).length / 16

/-- The bytes of the install pool in use (R320, R325). -/
def State.poolUsed (s : State) : Nat :=
  (s.objects.map (fun o => 2 * o.len)).foldl (· + ·) 0 + (s.placements.map (·.pool)).foldl (· + ·) 0
    + (s.installs.map (fun x => x.pl.pool)).foldl (· + ·) 0

/-- MiB lacking for `n` bytes beyond `room`. -/
def mibLacking (n room : Nat) : Nat := ceilDiv (n - room) 1048576

/-- The lowest offset not staged, when there is one (R328). -/
def missingFrom : Nat → List (Nat × Nat) → Nat → Nat
  | 0, _, a => a
  | n + 1, l, a =>
    match l.find? (fun r => decide (r.1 ≤ a) && decide (a < r.2)) with
    | some r => missingFrom n l r.2
    | none => a

/-- The lowest missing offset of an object. -/
def Obj.missing (o : Obj) : Nat := missingFrom o.staged.length o.staged 0

/-- A new session over its object, which is created when it is not open. -/
def State.openSession (s : State) (b : BulkIn) (tenant : Nat) (h : BHead) : State :=
  let x : Bulk := ⟨h.session, tenant, h.target, h.name, h.pos, h.len, h.objlen, h.pos, b.port / 4, false⟩
  let s1 := { s with bulk := s.bulk.filter (fun y => !(y.tenant == tenant && y.id == h.session)) ++ [x] }
  match s.obj? tenant h.target h.name with
  | some _ => s1
  | none => { s1 with objects := s1.objects ++ [⟨tenant, h.target, h.name, h.objlen, [], [], false⟩] }

/-- OPEN (R325): the tests in order. -/
def State.bulkOpen (s : State) (b : BulkIn) (tenant : Nat) (h : BHead) : State :=
  let same (x : Bulk) : Bool := x.target == h.target && x.name == h.name && x.base == h.pos && x.len == h.len &&
    x.objlen == h.objlen
  match (s.bulk? tenant h.session).filter (fun x => !x.aborted) with
  | some x => if same x then s.replyTo b (some x.cursor) 0 0 else s.replyTo b (some x.cursor) 4 0
  | none =>
    let on := s.sessionsOn tenant h.target h.name
    let busy : Bool := match s.obj? tenant h.target h.name with
      | some o => o.waiting || o.len != h.objlen
      | none => false
    if busy ∨ on.any (fun x => meets x.base x.len h.pos h.len) then s.replyTo b none 4 0
    else if 64 ≤ s.openBulk.length ∨ 16 ≤ on.length then s.replyTo b none 5 0
    else if (s.obj? tenant h.target h.name).isNone ∧ s.poolSize < s.poolUsed + 2 * h.objlen then
      s.replyTo b none 0x0B (mibLacking (s.poolUsed + 2 * h.objlen) s.poolSize)
    else (s.openSession b tenant h).replyTo b (some h.pos) 0 0

/-- BULK_OPEN (R325). -/
def execBulkOpen (b : BulkIn) (s : State) : Host.Outcome State Fault Refusal :=
  answer (portOk b.port) (s.bulkFrame 1 b (fun s t h => s.bulkOpen b t h))

/-- A session operation that must reach the serving hub (R327): unknown, aborted, the other hub, or `f`. While the
serving hub is out of service the other one serves its sessions. -/
def State.onSession (s : State) (b : BulkIn) (tenant : Nat) (h : BHead) (f : Bulk → State) : State :=
  match s.bulk? tenant h.session with
  | none => s.replyTo b none 3 0
  | some x =>
    if x.aborted then s.replyTo b (some x.cursor) 0x15 0
    else if x.hub ≠ b.port / 4 ∧ (s.hub x.hub).up then s.replyTo b (some x.cursor) 6 0
    else f x

/-- The stacks that hold the 4 KiB pages of an object from byte `pos` on (R319). -/
def stagePages (pos len : Nat) : List Nat :=
  let n := (pos + len - 1) / 4096 - pos / 4096 + 1
  (List.range (min n 16)).flatMap (fun i => [(pos / 4096 + i) % 16, (pos / 4096 + i + 4) % 16])

/-- Bytes staged at `pos` of an object, and the cursor of their session moved on. -/
def State.stage (s : State) (x : Bulk) (pos : Nat) (data : List Byte) : State :=
  { s with
    objects := s.objects.map (fun o => if o.is x.tenant x.target x.name then
      { o with data := Mem.writeBytes o.data pos data, staged := o.staged ++ [(pos, pos + data.length)] } else o)
    bulk := s.bulk.map (fun y => if y.tenant == x.tenant && y.id == x.id then
      { y with cursor := pos + data.length } else y) }

/-- An object committed here is committed at the partner too; `place` is where a REPLY that waits for it goes (R331,
R427). -/
def State.mirrorCommit (s : State) (target name : Nat) (place : List Nat) : State :=
  let s1 := s.sendPair 6 (objcommitFields target 0 name) []
  { s1 with pair := { s1.pair with replies := s1.pair.replies ++ [target :: name :: place] } }

/-- An object committed for a frame that arrived at port `port` is committed at the partner too, unless it came from
there; no REPLY waits. -/
def State.mirrorDone (s : State) (port target name : Nat) : State :=
  if s.mirrors ∧ port ≠ 8 then s.mirrorCommit target name [9] else s

/-- A PAIR OBJECT copy of bytes of an object (R427, R429). -/
def State.mirrorBytes (s : State) (target name pos : Nat) (data : List Byte) : State :=
  if s.mirrors then s.sendPair 5 (objFields target name pos) data else s

/-- BURST (R326): the tests in order. -/
def State.burst (s : State) (b : BulkIn) (tenant : Nat) (h : BHead) : State :=
  s.onSession b tenant h (fun x =>
    if x.base + x.len < h.pos + h.len then s.replyTo b (some x.cursor) 2 0
    else if h.pos = x.cursor then
      ((((s.stage x h.pos (b.body.drop 32)).noteStaging (b.port / 4) h.len).wakeStacks (stagePages h.pos h.len)).mirrorBytes x.target
        x.name h.pos (b.body.drop 32)).replyTo b (h.pos + h.len) 0 0
    else if h.pos + h.len ≤ x.cursor then s.replyTo b (some x.cursor) 0 0
    else s.replyTo b (some x.cursor) 1 0)

/-- BURST (R326). -/
def execBurst (b : BulkIn) (s : State) : Host.Outcome State Fault Refusal :=
  answer (portOk b.port) (s.bulkFrame 2 b (fun s t h => s.burst b t h))

/-- The session is closed. -/
def State.closeBulk (s : State) (x : Bulk) : State :=
  { s with bulk := s.bulk.filter (fun y => !(y.tenant == x.tenant && y.id == x.id)) }

/-- BULK_CLOSE (R327, R328): refused before every byte of the session is staged. -/
def execBulkClose (b : BulkIn) (s : State) : Host.Outcome State Fault Refusal :=
  answer (portOk b.port) (s.bulkFrame 3 b (fun s t h => s.onSession b t h (fun x =>
    if x.cursor < x.base + x.len then s.replyTo b (some x.cursor) 0x0C x.cursor
    else (s.closeBulk x).replyTo b (some x.cursor) 0 0)))

/-- ABORT (R327): the session ends; what it staged stays until the object is discarded. -/
def execAbort (b : BulkIn) (s : State) : Host.Outcome State Fault Refusal :=
  answer (portOk b.port) (s.bulkFrame 4 b (fun s t h => s.onSession b t h (fun x =>
    (s.closeBulk x).replyTo b (some x.cursor) 0 0)))

/-- QUERY (R327): answered by either hub. -/
def execQuery (b : BulkIn) (s : State) : Host.Outcome State Fault Refusal :=
  answer (portOk b.port) (s.bulkFrame 5 b (fun s t h =>
    match s.bulk? t h.session with
    | none => s.replyTo b none 3 0
    | some x => s.replyTo b (some x.cursor) (if x.aborted then 0x15 else 0) 0))

/-- NOTES (R329). -/
def execNotes (b : BulkIn) (s : State) : Host.Outcome State Fault Refusal :=
  answer (portOk b.port) (s.bulkFrame 8 b (fun s t h =>
    match s.placements.find? (fun p => p.handle == h.name) with
    | none => s.replyTo b none 0x16 h.name
    | some p =>
      if p.tenant ≠ t then s.replyTo b none 7 0
      else s.reply (placeOf b) 8 0 h.name (some h.pos) 0 p.notes.length
        (((p.notes.drop h.pos).take 1024).flatMap (beBytes 8))))

/-- BULK_IDLE (R325, R327): a session without an accepted BURST is aborted; an object with no open session that is
not committed is discarded; so is one that waits with no STAGING object of its handle open or committed. -/
def State.bulkIdle (s : State) (session : Option Nat) (tenant target name : Nat) : State :=
  match session with
  | some id => { s with bulk := s.bulk.map (fun x => if x.tenant == tenant && x.id == id then
      { x with aborted := true } else x) }
  | none =>
    match s.obj? tenant target name with
    | none => s
    | some o =>
      let staging := (s.obj? tenant 0 name).isSome || s.installs.any (fun i => i.pl.handle == name) ||
        s.placements.any (fun p => p.handle == name)
      if !(s.sessionsOn tenant target name).isEmpty ∨ (o.waiting ∧ staging) then s else s.dropObj tenant target name

/-- BULK_IDLE (R327). -/
def execBulkIdle (session : Option Nat) (tenant target name : Nat) (s : State) : Host.Outcome State Fault Refusal :=
  answer true (s.bulkIdle session tenant target name)

end Sys2Proof.Machine
end

