-- ==== Sys2Proof/Machine/Load.lean ====
section
/-! DEFINITION. CFG: loads of near-unit configuration (07 R227, 03 R98 to R101). -/
namespace Sys2Proof.Machine
open Sys2Proof

/-- The engines of a mask, ascending. -/
def enginesOf (mask : Nat) : List Nat := (List.range 32).filter (bitAt mask)

/-- The index of the first threshold that is not above its predecessor. -/
def notRising : Nat → List Int → Option Nat
  | i, a :: b :: r => if b ≤ a then some (i + 1) else notRising (i + 1) (b :: r)
  | _, _ => none

/-- Clamp bounds are out of order: above one another both as ACC32 and as FP32 values (R99). -/
def boundsBad (lo hi : Nat) : Bool :=
  let a := Acc.decode lo
  let b := Acc.decode hi
  a != .void && b != .void && decide (b.key < a.key) && fp32Shape.lt hi lo

/-- The load targets the active threshold bank of the near unit (R101). -/
def bankFault (item : Nat) (u : NearUnit) : Bool := (item == 5 || item == 6) && u.bankB == (item == 6)

/-- Why the table's entries cannot be loaded as `item` (R99): reason and detail. -/
def tableFault (item : Nat) (es : List Nat) : Chk :=
  match item with
  | 0 => if es.any (fun e => bits e 29 6 == 0) then some (0x02, fieldDetail 0 18) else none
  | 3 => let e := es.headD 0
         if boundsBad (e % 2 ^ 32) (e / 2 ^ 32) then some (0x02, fieldDetail 0 18) else none
  | 5 | 6 =>
    if es.length < 1 ∨ 255 < es.length then some (0x15, 0)
    else match notRising 0 (es.map (signedVal 32)) with
      | some i => some (0x15, i * 256)
      | none => none
  | _ => none

/-- Why the table cannot be loaded on the near units (R99, R101): an active bank on any of them comes before the
thresholds are examined. -/
def loadFault (us : List NearUnit) (item : Nat) (es : List Nat) : Chk :=
  if us.any (bankFault item) then some (0x16, item - 5)
  else if us.isEmpty then none
  else tableFault item es

/-- The near unit with the table's entries in item `item`. -/
def loadTable (u : NearUnit) (item : Nat) (es : List Nat) : NearUnit :=
  match item with
  | 0 => { u with scale := es }
  | 1 => { u with zp := es }
  | 3 => { u with lo := word (es.headD 0), hi := word (es.headD 0 / 2 ^ 32) }
  | 4 => { u with pwl := es }
  | 5 => { u with cbA := ⟨es.length, es.map word⟩ }
  | 6 => { u with cbB := ⟨es.length, es.map word⟩ }
  | _ => { u with inCb := some es }

/-- The near units of the engines changed by `f`. -/
def Core.modUnits (c : Core) (f : NearUnit → NearUnit) : List Nat → Core
  | [] => c
  | e :: r => Core.modUnits (c.setEngine e { c.engine e with nu := f (c.engine e).nu }) f r

/-- The placement that a handle of the program names for the frame on a core, or the cause of
PLACEMENT_DENIED (R231, R317). -/
def State.namedPlacement (s : State) (c : Core) (h : Nat) : Except Nat Placement :=
  match s.frameOf c with
  | none => .error 1
  | some e =>
    match e.handleFor h with
    | none => .error 1
    | some h' =>
      match s.placementAt h' (e.epoch.getD 0) with
      | some p => .ok p
      | none => .error 6

/-- The effect of CFG. -/
def cfgBody (s : State) (c : Core) (f : Flight) : Eff Core :=
  let i := f.ent.ins
  let es := enginesOf i.gEMASK
  if i.gITEM = 2 then .ok (c.modUnits (fun u => { u with act := word i.gWORD }) es)
  else if i.gITEM = 8 then .ok (c.modUnits (fun u => { u with outctl := word i.gWORD }) es)
  else match s.namedPlacement c i.gHANDLE with
    | .error x => .stop c 0x07 (deniedDetail i.gHANDLE 0 0 x)
    | .ok p =>
      match p.tables.find? (fun t => t.tidx == i.gTIDX) with
      | none => .stop c 0x02 (fieldDetail 0 18)
      | some t =>
        if t.kind ≠ i.gITEM then .stop c 0x02 (fieldDetail 0 18)
        else match loadFault (es.map (fun e => (c.engine e).nu)) i.gITEM t.entries with
          | some (r, x) => .stop c r x
          | none => .ok (c.modUnits (fun u => loadTable u i.gITEM t.entries) es)

/-- CFG (R227). -/
def execCfg (k : Nat) (ph : Sys2Proof.Phase) (s : State) : Host.Outcome State Fault Refusal :=
  answer (coreOk k) (s.queued k ph (hasOp 0x80) (coreBody k cfgBody))

end Sys2Proof.Machine
end

