-- ==== Sys2Proof/Machine/Lanes.lean ====
section
/-! DEFINITION. What the vector engine computes in one lane (09 R300 to R304, R312, R313) and over the
elements of a reduction (R306 to R309). Codes are the bits of an element. -/
namespace Sys2Proof.Machine
open Sys2Proof

/-- The result of a lane: its code, the flags it raises (R312) and the tag of R304 beyond that of the code. -/
structure Lane where
  code  : Nat
  flags : Nat
  tag   : Nat
  deriving DecidableEq, Repr

/-- A rounded result as a lane. -/
def Rounded.lane (r : Rounded) : Lane := ⟨r.pat, r.flags, 0⟩

/-- The tag bits of a code that is written (R313). -/
def codeTag (f : Fmt) (w : Nat) : Nat :=
  match f.shape? with
  | some sh => (match sh.decode w with
    | .nan => 2
    | .inf _ => 1
    | .fin _ _ _ => 0)
  | none => if f = .acc32 then wordTag false (word w) else 0

/-- An exact integer clamped to a format of integers (R302). -/
def clampLane (f : Fmt) (v : Int) : Lane :=
  if v < f.lo then ⟨pattern f.width f.lo, flSaturate, 0⟩
  else if f.hi < v then ⟨pattern f.width f.hi, flSaturate, 0⟩
  else ⟨pattern f.width v, 0, 0⟩

/-- A key that orders the patterns of a shape that are no NaN, −0 below +0 (R301). -/
def FpShape.total (f : FpShape) (w : Nat) : Int := if f.neg w then -(f.mag w : Int) - 1 else (f.mag w : Int)

/-- The smaller (`small`) or larger of two patterns of a shape (R301). -/
def FpShape.pick (f : FpShape) (small : Bool) (a b : Nat) : Nat :=
  if f.isNan a || f.isNan b then f.nanPat
  else if (if small then decide (f.total b < f.total a) else decide (f.total a < f.total b)) then b else a

/-- The smaller or larger of two ACC32 codes (R303). -/
def accPick (small : Bool) (a b : Nat) : Nat :=
  let x := Acc.decode a
  let y := Acc.decode b
  if x = .void ∨ y = .void then Acc.void.encode
  else if (if small then decide (y.key < x.key) else decide (x.key < y.key)) then b else a

/-- The smaller or larger of two codes of an integer format. -/
def intPick (f : Fmt) (small : Bool) (a b : Nat) : Nat :=
  if (if small then decide (f.intVal b < f.intVal a) else decide (f.intVal a < f.intVal b)) then b else a

/-- MIN and MAX (R300). -/
def pickLane (f : Fmt) (small : Bool) (a b : Nat) : Nat :=
  match f.shape? with
  | some sh => sh.pick small a b
  | none => if f = .acc32 then accPick small a b else intPick f small a b

/-- ADD. -/
def addLane (f : Fmt) (a b : Nat) : Lane :=
  match f.shape? with
  | some sh => (sh.result ((sh.decode a).add (sh.decode b))).lane
  | none => if f = .acc32 then ⟨accAdd a b, 0, 0⟩ else clampLane f (f.intVal a + f.intVal b)

/-- MUL. -/
def mulLane (f : Fmt) (a b : Nat) : Lane :=
  match f.shape? with
  | some sh => (sh.result ((sh.decode a).mul (sh.decode b))).lane
  | none =>
    if f = .acc32 then ⟨((Acc.decode a).mul (Acc.decode b)).encode, 0, 0⟩
    else clampLane f (f.intVal a * f.intVal b)

/-- FMA: A × B + D, rounded once. -/
def fmaLane (f : Fmt) (a b d : Nat) : Lane :=
  match f.shape? with
  | some sh =>
    let p := (sh.decode a).mul (sh.decode b)
    let q := p.1.add (sh.decode d)
    (sh.result (q.1, p.2 || q.2)).lane
  | none =>
    if f = .acc32 then ⟨(((Acc.decode a).mul (Acc.decode b)).add (Acc.decode d)).encode, 0, 0⟩
    else clampLane f (f.intVal a * f.intVal b + f.intVal d)

/-- Whether "element op value" holds in a format (R162): `rel` 0 EQ, 1 NE, 2 LT, 3 LE, 4 GT, 5 GE. -/
def compareCodes (f : Fmt) (rel a b : Nat) : Bool :=
  match f.shape? with
  | some sh => relation rel (!sh.isNan a && !sh.isNan b) (sh.eq a b) (sh.lt a b)
  | none =>
    if f = .acc32 then
      let x := Acc.decode a
      let y := Acc.decode b
      relation rel (x != .void && y != .void) (decide (x.key = y.key)) (decide (x.key < y.key))
    else relation rel true (decide (f.intVal a = f.intVal b)) (decide (f.intVal a < f.intVal b))

/-! ### CONVERT (R304) -/

/-- A finite value ±m·2^e rounded to an integer, and whether rounding changed it. -/
def toInteger (neg : Bool) (m : Nat) (e : Int) : Int × Bool :=
  let n : Nat := if 0 ≤ e then m * 2 ^ e.toNat else shiftRound m (-e).toNat
  (if neg then -(n : Int) else (n : Int), decide (e < 0) && n * 2 ^ (-e).toNat != m)

/-- A value into a floating-point format: beyond the range only the overflow flag. -/
def toFloat (f : Fmt) (sh : FpShape) (v : Val) : Lane :=
  match v with
  | .inf neg => if f = .e4m3 then ⟨sh.infPat neg, flInvalid, 1⟩ else ⟨sh.infPat neg, 0, 0⟩
  | _ =>
    let r := sh.encode v
    ⟨r.pat, if r.flags / flOverflow % 2 = 1 then flOverflow else r.flags, 0⟩

/-- A value into an integer format. -/
def toInt (f : Fmt) (v : Val) : Lane :=
  match v with
  | .nan => ⟨0, flInvalid, 0⟩
  | .inf neg => ⟨pattern f.width (if neg then f.lo else f.hi), flInvalid, 0⟩
  | .fin neg m e =>
    let r := toInteger neg m e
    let l := clampLane f r.1
    if l.flags = 0 ∧ r.2 then { l with flags := flInexact } else l

/-- A value into ACC32. -/
def toAcc (v : Val) : Lane :=
  match v with
  | .nan => ⟨Acc.void.encode, flInvalid, 0⟩
  | .inf neg => ⟨(Acc.inf neg).encode, 0, 0⟩
  | .fin neg m e =>
    let r := toInteger neg m e
    match Acc.ofInt r.1 with
    | .fin x => ⟨(Acc.fin x).encode, if r.2 then flInexact else 0, 0⟩
    | a => ⟨a.encode, flOverflow, 0⟩

/-- An integer as a value. -/
def intVal (v : Int) : Val := .fin (decide (v < 0)) v.natAbs 0

/-- CONVERT from `fa` to `fd`. -/
def convertLane (fa fd : Fmt) (a : Nat) : Lane :=
  match fa.shape? with
  | some sh =>
    let v := sh.decode a
    (match fd.shape? with
    | some sd => toFloat fd sd v
    | none => if fd = .acc32 then toAcc v else toInt fd v)
  | none =>
    if fa = fd then ⟨a, 0, 0⟩
    else if fa = .acc32 then
      let v : Val := match Acc.decode a with
        | .void => .nan
        | .inf neg => .inf neg
        | .fin x => intVal x
      (match fd.shape? with
      | some sd => toFloat fd sd v
      | none => { toInt fd v with tag := wordTag false (word a) })
    else
      (match fd.shape? with
      | some sd => toFloat fd sd (intVal (fa.intVal a))
      | none => if fd = .acc32 then ⟨(Acc.ofInt (fa.intVal a)).encode, 0, 0⟩ else clampLane fd (fa.intVal a))

/-- The smooth functions (R301): 0x11 EXP2, 0x12 RECIP, 0x13 RSQRT. -/
def smoothLane (vop : Nat) (f : Fmt) (a : Nat) : Lane :=
  match f.shape? with
  | some sh =>
    let v := sh.decode a
    (if vop = 0x11 then sh.exp2 v else if vop = 0x12 then sh.recip v else sh.rsqrt v).lane
  | none => ⟨a, 0, 0⟩

/-- A lane of the operation `vop` (R300) on sources `a`, `b` of format `fa` and the destination's previous
value `d`. -/
def laneOp (vop : Nat) (fa fd : Fmt) (a b d : Nat) : Lane :=
  match vop with
  | 0x01 => addLane fa a b
  | 0x02 => mulLane fa a b
  | 0x03 => fmaLane fa a b d
  | 0x04 => ⟨pickLane fa true a b, 0, 0⟩
  | 0x05 => ⟨pickLane fa false a b, 0, 0⟩
  | 0x0E => ⟨if b ≠ 0 then a else d, 0, 0⟩
  | 0x10 => convertLane fa fd a
  | 0x11 | 0x12 | 0x13 => smoothLane vop fa a
  | _ => ⟨flag (compareCodes fa (vop - 8) a b), 0, 0⟩

/-! ### Reductions -/

/-- What a reduction gives: the code for its destination, the 32-bit value for an S register, the index of
TOP1 and its flags. -/
structure RedOut where
  code  : Nat
  sval  : Nat
  index : Nat
  flags : Nat
  deriving DecidableEq, Repr

/-- The 32-bit value of a code for an S register (R306). -/
def svalOf (f : Fmt) (w : Nat) : Nat :=
  match f.shape? with
  | some sh => (fp32Shape.encode (sh.decode w)).pat
  | none => if f = .acc32 then w else pattern 32 (f.intVal w)

/-- The FP32 sum of two patterns with the flags collected so far. -/
def sumFp (a b : Nat × Nat) : Nat × Nat :=
  let r := fp32Shape.result ((fp32Shape.decode a.1).add (fp32Shape.decode b.1))
  (r.pat, a.2 ||| b.2 ||| r.flags)

/-- SUM of the groups of elements: the tree of each group, then the tree over the groups that are not empty
(R307). -/
def sumGroups (fa fd : Fmt) (groups : List (List Nat)) : RedOut :=
  let gs := groups.filter (fun g => !g.isEmpty)
  match fa.shape? with
  | some sh =>
    let sums := gs.filterMap (fun g =>
      treeSum sumFp g.length (g.map (fun w => ((fp32Shape.encode (sh.decode w)).pat, 0))))
    let t := (treeSum sumFp sums.length sums).getD (0, 0)
    let r := toFloat fd ((fd.shape?).getD fp32Shape) (fp32Shape.decode t.1)
    ⟨r.code, t.1, 0, t.2 ||| r.flags⟩
  | none =>
    let conv (w : Nat) : Nat := if fa = .acc32 then w else (Acc.ofInt (fa.intVal w)).encode
    let sums := gs.filterMap (fun g => treeSum accAdd g.length (g.map conv))
    let t := (treeSum accAdd sums.length sums).getD 0
    ⟨t, t, 0, 0⟩

/-- The lowest (`small` false, for MAX) or highest value of a format (R308). -/
def extreme (f : Fmt) (small : Bool) : Nat :=
  match f.shape? with
  | some sh => sh.infPat (!small)
  | none => if f = .acc32 then (Acc.inf (!small)).encode else pattern f.width (if small then f.hi else f.lo)

/-- The element is a NaN or VOID. -/
def isSpecial (f : Fmt) (w : Nat) : Bool :=
  match f.shape? with
  | some sh => sh.isNan w
  | none => f == .acc32 && Acc.decode w == .void

/-- MAX, MIN and TOP1 (R306, R308, R309) of elements with their indices, in ascending order. -/
def pickElems (f : Fmt) (small : Bool) (l : List (Nat × Nat)) : RedOut :=
  match l.find? (fun p => isSpecial f p.2) with
  | some p =>
    let w := pickLane f small p.2 p.2
    ⟨w, svalOf f w, p.1, 0⟩
  | none =>
    match l with
    | [] =>
      let w := extreme f small
      ⟨w, svalOf f w, 0xFFFFFFFF, 0⟩
    | p :: r =>
      -- a later element is taken only when it differs from the one it would replace in the order
      let q := r.foldl (fun a x => if pickLane f small a.2 x.2 = a.2 then a else x) p
      ⟨q.2, svalOf f q.2, q.1, 0⟩

/-- The element is not zero (R306): NaN and VOID count. -/
def nonZero (f : Fmt) (w : Nat) : Bool :=
  match f.shape? with
  | some sh => sh.mag w != 0
  | none => w != 0

/-- The reduction `rop` (0 SUM, 1 MAX, 2 MIN, 3 COUNT, 4 TOP1) of groups of elements with their indices. -/
def reduceGroups (rop : Nat) (fa fd : Fmt) (groups : List (List (Nat × Nat))) : RedOut :=
  match rop with
  | 0 => sumGroups fa fd (groups.map (fun g => g.map (·.2)))
  | 3 =>
    let n := (groups.map (fun g => (g.filter (fun p => nonZero fa p.2)).length)).foldl (· + ·) 0
    ⟨n, n, 0, 0⟩
  | 2 => pickElems fa true (groups.flatMap id)
  | _ => pickElems fa false (groups.flatMap id)

end Sys2Proof.Machine
end

