-- ==== Sys2Proof/Machine/Vector.lean ====
section
/-! DEFINITION. The vector engine (09): the walk of VEC and REDUCE over tile registers, masks, tags, flags,
and compare-and-count (05 R161 to R163). -/
namespace Sys2Proof.Machine
open Sys2Proof

/-! ### Shapes -/

/-- The TENSOR words of a VEC, REDUCE or MOVE macro. -/
def QEntry.tens (e : QEntry) : List Ten := tabulate e.ins.mNDESC (fun i => e.ten (i + 1))

/-- The actual M and N of the words of a macro (R265). -/
def rowsOf (ts : List Ten) : Nat := (ts.findSome? Ten.rowLen).getD ((ts.map (·.maxr)).foldl max 0)
def colsOf (ts : List Ten) : Nat := (ts.findSome? Ten.colLen).getD ((ts.map (·.maxc)).foldl max 0)

/-- Issue cycles (R295). -/
def issueCycles (ts : List Ten) : Nat :=
  let m := rowsOf ts
  let w := (ts.map (·.fmt.width)).foldl max 0
  if w ≤ 8 then ceilDiv m 2 else if w = 16 then m else m * ceilDiv (colsOf ts) 256

/-- The register rows of a tensor, as linear rows 64·t + r. -/
def Ten.regRows (t : Ten) : List Nat :=
  let w := t.fmt.width
  if 8 ≤ w then (List.range t.maxr).flatMap (fun i => (List.range (w / 8)).map (fun j => t.base + i * t.rstr + j))
  else (List.range (ceilDiv t.maxr (8 / w))).map (fun g => t.base + g * t.rstr)

/-- The destination overlaps a source in a way R298 does not allow. -/
def badOverlap (reduce : Bool) (src dst : Ten) : Bool :=
  src.regRows.any (fun r => dst.regRows.contains r) &&
    (reduce || !(src.base == dst.base && src.maxr == dst.maxr && src.maxc == dst.maxc))

/-- Run-time lengths against their planned maxima (R264 step 3): the word that governs each dimension. -/
def chkRunLens : Bool → Bool → List Ten → Chk
  | _, _, [] => none
  | rows, cols, t :: l =>
    if rows ∧ t.ldim = 1 ∧ t.maxr < t.len then chkLen t.word 0 t.len t.maxr
    else if cols ∧ t.ldim = 2 ∧ t.maxc < t.len then chkLen t.word 1 t.len t.maxc
    else chkRunLens (rows && t.ldim != 1) (cols && t.ldim != 2) l

/-- The checks of VEC and REDUCE at the head of the vector queue (R264, R298), and whether an actual length
is 0. -/
def vecChecks (e : QEntry) (reduce : Bool) : Chk × Bool :=
  let ts := e.tens
  let dst := e.ten e.ins.mNDESC
  let srcs := ts.dropLast
  let c := firstOf (ts.map chkTenBase
    ++ [if srcs.any (fun x => badOverlap reduce x dst) then some (0x02, fieldDetail dst.word 113) else none]
    ++ ts.map chkTenTreg ++ [chkRunLens true true ts])
  (c, rowsOf ts == 0 || colsOf ts == 0)

/-! ### Masks and lanes (R310, R311) -/

/-- The row mask does not clear tensor row `r`; it has no bit for rows above 63. -/
def CoreMem.rowOn (m : CoreMem) (r : Nat) : Bool := decide (64 ≤ r) || m.rowMask.getLsbD r

/-- The element mask does not clear position `n`. -/
def CoreMem.elemOn (m : CoreMem) (n : Nat) : Bool := decide (512 ≤ n) || m.elemMask.getLsbD n

/-- The tag of the register row that holds element `n` of row `i`. -/
def Core.laneTag (c : Core) (v : View) (i n : Nat) : Nat := Tbl.num c.mem.rowTag ((v.row i + n * v.w / 8) / 512)

/-- The register rows of the first `n` elements of the tensor row at byte `a`. -/
def rowRegs (a w n : Nat) : List Nat :=
  if n = 0 then [] else tabulate ((a + (n - 1) * w / 8) / 512 - a / 512 + 1) (fun r => a / 512 + r)

/-- The lanes of a row of `n` elements written, with one tag for the row (R313): a register row of it whose every lane is
written takes the tag, and every other one ORs it in. Parity is written with the lanes and tags (R178). -/
def Core.writeLanes (c : Core) (v : View) (i n : Nat) (lanes : List (Nat × Nat)) (tag : Nat) : Core :=
  let a := v.row i
  let regs := rowRegs a v.w n
  { c with mem := { c.mem with
      treg := lanes.foldl (fun m l => Mem.setElem m a v.w l.1 l.2) c.mem.treg
      rowTag := regs.foldl (fun t r =>
        let n := (lanes.filter (fun l => (a + l.1 * v.w / 8) / 512 == r)).length
        Tbl.setNum t r (if n * v.w = 4096 then tag else Tbl.num t r ||| tag)) c.mem.rowTag
      tregBad := c.mem.tregBad.filter (fun w => !(lanes.any (fun l => (a + l.1 * v.w / 8) / 4 == w)))
      tagBad := c.mem.tagBad.filter (fun r => !(regs.contains r)) } }

/-- Row `i` of a source of `n` columns, broadcast over rows (R292): codes by column, with the row read. -/
def Core.vecRow (c : Core) (t : Ten) (i n : Nat) : Eff (List Nat × Nat) :=
  let r := if t.maxr = 1 then 0 else i
  (c.readRun t.view r 0 (if t.maxc = 1 then min n 1 else n)).bind fun x => .ok (x.1, r)

/-- Column `n` of a source, broadcast over columns. -/
def Ten.col (t : Ten) (n : Nat) : Nat := if t.maxc = 1 then 0 else n

/-- The rows of the sources read for row `i`. -/
def Core.vecRows (c : Core) (i n : Nat) : List Ten → Eff (List (Ten × List Nat × Nat))
  | [] => .ok []
  | t :: l => (c.vecRow t i n).bind fun x => (Core.vecRows c i n l).bind fun r => .ok ((t, x) :: r)

/-- One row of a VEC: the lanes that are not masked, computed and written. The result carries the flags. -/
def Core.vecStep (c : Core) (vop : Nat) (srcs : List Ten) (dst : Ten) (i n : Nat) : Eff (Core × Nat) :=
  let dop := vop == 0x03 || vop == 0x0E
  (c.vecRows i n (if dop then srcs ++ [{ dst with maxr := dst.maxr + 2, maxc := dst.maxc + 2 }] else srcs)).bind fun rows =>
    let cols := if c.mem.rowOn i then (List.range n).filter c.mem.elemOn else []
    if cols.isEmpty then .ok (c, 0)
    else
      let fa := ((srcs.head?).map (·.fmt)).getD .int8
      let arg (q x : Nat) : Nat := match rows[q]? with
        | some r => at' r.2.1 (r.1.col x) 0
        | none => 0
      let res := cols.map (fun x => (x, laneOp vop fa dst.fmt (arg 0 x) (arg 1 x) (if dop then arg srcs.length x else 0)))
      let tag := res.foldl (fun t r => t ||| r.2.tag ||| codeTag dst.fmt r.2.code |||
        rows.foldl (fun t q => t ||| c.laneTag q.1.view q.2.2 (q.1.col r.1)) 0) 0
      .ok (c.writeLanes dst.view i n (res.map (fun r => (r.1, r.2.code))) tag, res.foldl (fun f r => f ||| r.2.flags) 0)

/-- The rows from `i` of a VEC, in ascending order (R292). -/
def vecLoop (vop : Nat) (srcs : List Ten) (dst : Ten) (n : Nat) : Nat → Nat → Core → Nat → Eff (Core × Nat)
  | 0, _, c, fl => .ok (c, fl)
  | k + 1, i, c, fl => (c.vecStep vop srcs dst i n).bind fun r => vecLoop vop srcs dst n k (i + 1) r.1 (fl ||| r.2)

/-- The flags of a macro joined to the frame's flag word (R312), and a tag to the tags of its result. -/
def State.joinFlags (s : State) (c : Core) (flags tag : Nat) : State :=
  match c.entry with
  | some q => s.modEntry q (fun e => { e with frame := { e.frame with
      vflags := e.frame.vflags ||| flags
      rtag := e.frame.rtag ||| tag } })
  | none => s

/-- Issue cycles counted (R314). -/
def Core.countIssue (c : Core) (n : Nat) : Core :=
  { c with prog := { c.prog with issueCycles := incBy c.prog.issueCycles n } }

/-- The effect of a VEC whose lanes compute. A macro that completed under R264 step 4 has none. -/
def vecBody (k : Nat) (s : State) (c : Core) (f : Flight) : Eff (State × List DCmd) :=
  if f.zero then .ok (s, [])
  else
    let ts := f.ent.tens
    (vecLoop f.ent.ins.mVOP ts.dropLast (f.ent.ten f.ent.ins.mNDESC) (colsOf ts) (rowsOf ts) 0 c 0).bind fun r =>
      .ok ((s.setCore k (r.1.countIssue (issueCycles ts))).joinFlags c r.2 0, [])

/-- The opcode is VEC or REDUCE with this operation. -/
def isVec (vop : Nat) (i : MInstr) : Bool := i.op == 0x48 && i.mVOP == vop
def isRed (rop : Nat) (i : MInstr) : Bool := i.op == 0x49 && i.mVOP / 8 % 8 == rop

/-- A row of `VEC`. -/
def State.vecRowCmd (s : State) (k : Nat) (ph : Sys2Proof.Phase) (vop : Nat) : State :=
  s.queued k ph (isVec vop) (vecBody k)

/-- VEC ADD (R300). -/
def execVecAdd (k : Nat) (ph : Sys2Proof.Phase) (s : State) : Host.Outcome State Fault Refusal :=
  answer (coreOk k) (s.vecRowCmd k ph 0x01)
/-- VEC MUL (R300). -/
def execVecMul (k : Nat) (ph : Sys2Proof.Phase) (s : State) : Host.Outcome State Fault Refusal :=
  answer (coreOk k) (s.vecRowCmd k ph 0x02)
/-- VEC FMA (R300). -/
def execVecFma (k : Nat) (ph : Sys2Proof.Phase) (s : State) : Host.Outcome State Fault Refusal :=
  answer (coreOk k) (s.vecRowCmd k ph 0x03)
/-- VEC MIN (R300). -/
def execVecMin (k : Nat) (ph : Sys2Proof.Phase) (s : State) : Host.Outcome State Fault Refusal :=
  answer (coreOk k) (s.vecRowCmd k ph 0x04)
/-- VEC MAX (R300). -/
def execVecMax (k : Nat) (ph : Sys2Proof.Phase) (s : State) : Host.Outcome State Fault Refusal :=
  answer (coreOk k) (s.vecRowCmd k ph 0x05)
/-- CMPEQ (R300, R162). -/
def execCmpeq (k : Nat) (ph : Sys2Proof.Phase) (s : State) : Host.Outcome State Fault Refusal :=
  answer (coreOk k) (s.vecRowCmd k ph 0x08)
/-- CMPNE (R300, R162). -/
def execCmpne (k : Nat) (ph : Sys2Proof.Phase) (s : State) : Host.Outcome State Fault Refusal :=
  answer (coreOk k) (s.vecRowCmd k ph 0x09)
/-- CMPLT (R300, R162). -/
def execCmplt (k : Nat) (ph : Sys2Proof.Phase) (s : State) : Host.Outcome State Fault Refusal :=
  answer (coreOk k) (s.vecRowCmd k ph 0x0A)
/-- CMPLE (R300, R162). -/
def execCmple (k : Nat) (ph : Sys2Proof.Phase) (s : State) : Host.Outcome State Fault Refusal :=
  answer (coreOk k) (s.vecRowCmd k ph 0x0B)
/-- CMPGT (R300, R162). -/
def execCmpgt (k : Nat) (ph : Sys2Proof.Phase) (s : State) : Host.Outcome State Fault Refusal :=
  answer (coreOk k) (s.vecRowCmd k ph 0x0C)
/-- CMPGE (R300, R162). -/
def execCmpge (k : Nat) (ph : Sys2Proof.Phase) (s : State) : Host.Outcome State Fault Refusal :=
  answer (coreOk k) (s.vecRowCmd k ph 0x0D)
/-- SELECT (R300). -/
def execSelect (k : Nat) (ph : Sys2Proof.Phase) (s : State) : Host.Outcome State Fault Refusal :=
  answer (coreOk k) (s.vecRowCmd k ph 0x0E)
/-- CONVERT (R304). -/
def execConvert (k : Nat) (ph : Sys2Proof.Phase) (s : State) : Host.Outcome State Fault Refusal :=
  answer (coreOk k) (s.vecRowCmd k ph 0x10)
/-- EXP2 (R301). -/
def execExp2 (k : Nat) (ph : Sys2Proof.Phase) (s : State) : Host.Outcome State Fault Refusal :=
  answer (coreOk k) (s.vecRowCmd k ph 0x11)
/-- RECIP (R301). -/
def execRecip (k : Nat) (ph : Sys2Proof.Phase) (s : State) : Host.Outcome State Fault Refusal :=
  answer (coreOk k) (s.vecRowCmd k ph 0x12)
/-- RSQRT (R301). -/
def execRsqrt (k : Nat) (ph : Sys2Proof.Phase) (s : State) : Host.Outcome State Fault Refusal :=
  answer (coreOk k) (s.vecRowCmd k ph 0x13)

/-! ### The mask operations (R310) -/

/-- A mask of `w` bits from a test of each position. -/
def maskBits (w : Nat) (p : Nat → Bool) : BitVec w :=
  BitVec.ofNat w ((List.range w).foldl (fun a i => if p i then a + 2 ^ i else a) 0)

/-- EMASK: element-mask bit i is set when element (0, i) of the source is nonzero. -/
def emaskBody (_s : State) (c : Core) (f : Flight) : Eff Core :=
  if f.zero then .ok c
  else
    let ts := f.ent.tens
    let t := f.ent.ten 1
    (c.readRun t.view 0 0 (colsOf ts)).bind fun r =>
      .ok { c.countIssue (issueCycles ts) with
        mem := { c.mem with elemMask := maskBits 512 (fun i => decide (i < colsOf ts) && at' r.1 i 0 != 0) } }

/-- The column of a tensor, read row by row. -/
def Core.readCol (c : Core) (t : Ten) : Nat → Nat → Eff (List Nat)
  | 0, _ => .ok []
  | n + 1, i => (c.readRun t.view i 0 1).bind fun r => (Core.readCol c t n (i + 1)).bind fun l => .ok (r.1 ++ l)

/-- RMASK: row-mask bit r is set when element (r, 0) of the source is nonzero. -/
def rmaskBody (_s : State) (c : Core) (f : Flight) : Eff Core :=
  if f.zero then .ok c
  else
    let ts := f.ent.tens
    let t := f.ent.ten 1
    (c.readCol t (rowsOf ts) 0).bind fun l =>
      .ok { c.countIssue (issueCycles ts) with
        mem := { c.mem with rowMask := maskBits 64 (fun i => decide (i < rowsOf ts) && at' l i 0 != 0) } }

/-- MASKALL sets both masks to all ones. -/
def maskallBody (_s : State) (c : Core) (f : Flight) : Eff Core :=
  if f.zero then .ok c
  else .ok { c.countIssue (issueCycles f.ent.tens) with
    mem := { c.mem with rowMask := BitVec.allOnes 64, elemMask := BitVec.allOnes 512 } }

/-- EMASK (R310). -/
def execEmask (k : Nat) (ph : Sys2Proof.Phase) (s : State) : Host.Outcome State Fault Refusal :=
  answer (coreOk k) (s.queued k ph (isVec 0x18) (coreBody k emaskBody))
/-- RMASK (R310). -/
def execRmask (k : Nat) (ph : Sys2Proof.Phase) (s : State) : Host.Outcome State Fault Refusal :=
  answer (coreOk k) (s.queued k ph (isVec 0x19) (coreBody k rmaskBody))
/-- MASKALL (R310). -/
def execMaskall (k : Nat) (ph : Sys2Proof.Phase) (s : State) : Host.Outcome State Fault Refusal :=
  answer (coreOk k) (s.queued k ph (isVec 0x1A) (coreBody k maskallBody))

/-! ### REDUCE (R305 to R309) -/

/-- A row of the source: the elements taking part, as (column, code, tag). -/
def Core.partRow (c : Core) (t : Ten) (i n : Nat) : Eff (List (Nat × Nat × Nat)) :=
  (c.readRun t.view i 0 n).bind fun r =>
    .ok (if c.mem.rowOn i then
      ((List.range n).filter c.mem.elemOn).map (fun x => (x, at' r.1 x 0, c.laneTag t.view i x)) else [])

/-- The rows of the source from row `i`. -/
def Core.partRows (c : Core) (t : Ten) (n : Nat) : Nat → Nat → Eff (List (List (Nat × Nat × Nat)))
  | 0, _ => .ok []
  | k + 1, i => (c.partRow t i n).bind fun r => (Core.partRows c t n k (i + 1)).bind fun l => .ok (r :: l)

/-- One element of a reduction's result: row, column, its value, and the tags of the rows that took part. -/
structure RedElem where
  row : Nat
  col : Nat
  out : RedOut
  tag : Nat

/-- The tags of elements, ORed. -/
def tagsOf (l : List (Nat × Nat × Nat)) : Nat := l.foldl (fun t x => t ||| x.2.2) 0

/-- The elements that a reduction along `rax` writes (R305, R308). -/
def redElems (c : Core) (rax rop n : Nat) (fa fd : Fmt) (rows : List (List (Nat × Nat × Nat))) : List RedElem :=
  let idx (l : List (Nat × Nat × Nat)) : List (Nat × Nat) := l.map (fun x => (x.1, x.2.1))
  if rax = 0 then
    ((rows.mapIdx (fun r l => (r, l))).filter (fun p => c.mem.rowOn p.1)).map (fun p =>
      ⟨p.1, 0, reduceGroups rop fa fd [idx p.2], tagsOf p.2⟩)
  else if rax = 1 then
    ((List.range n).filter c.mem.elemOn).map (fun x =>
      let col := (rows.mapIdx (fun r l => (l.filter (fun y => y.1 == x)).map (fun y => (r, y.2.1, y.2.2)))).flatMap id
      ⟨0, x, reduceGroups rop fa fd [idx col], tagsOf col⟩)
  else
    [⟨0, 0, reduceGroups rop fa fd (rows.mapIdx (fun r l => l.map (fun x => (r * n + x.1, x.2.1)))),
      (rows.map tagsOf).foldl (· ||| ·) 0⟩]

/-- The effect of REDUCE. -/
def reduceBody (k : Nat) (s : State) (c : Core) (f : Flight) : Eff (State × List DCmd) :=
  if f.zero then .ok (s, [])
  else
    let ts := f.ent.tens
    let src := f.ent.ten 1
    let dst := f.ent.ten 2
    let vop := f.ent.ins.mVOP
    let rax := vop / 64
    let rop := vop / 8 % 8
    let n := colsOf ts
    (c.partRows src n (rowsOf ts) 0).bind fun rows =>
      let es := redElems c rax rop n src.fmt dst.fmt rows
      let code (e : RedElem) : Nat := if rop = 4 ∧ rax ≠ 2 then e.out.index else e.out.code
      let rowTags (r : Nat) : Nat := (es.filter (fun e => e.row == r)).foldl
        (fun t e => t ||| e.tag ||| codeTag dst.fmt (code e)) 0
      let c1 := (((es.map (·.row)).eraseDups).foldl (fun c r =>
        c.writeLanes dst.view r (if rax = 1 then n else 1) ((es.filter (fun e => e.row == r)).map (fun e => (e.col, code e))) (rowTags r)) c).countIssue
          (issueCycles ts)
      let c2 := match rax, es with
        | 2, e :: _ =>
          let sd := vop % 8
          let c3 := c1.setS sd (word e.out.sval)
          if rop = 4 then c3.setS (sd + 1) (word e.out.index) else c3
        | _, _ => c1
      .ok ((s.setCore k c2).joinFlags c (es.foldl (fun a e => a ||| e.out.flags) 0) (if rax = 2 then rowTags 0 else 0), [])

/-- REDUCE SUM (R306, R307). -/
def execReduceSum (k : Nat) (ph : Sys2Proof.Phase) (s : State) : Host.Outcome State Fault Refusal :=
  answer (coreOk k) (s.queued k ph (isRed 0) (reduceBody k))
/-- REDUCE MAX (R306). -/
def execReduceMax (k : Nat) (ph : Sys2Proof.Phase) (s : State) : Host.Outcome State Fault Refusal :=
  answer (coreOk k) (s.queued k ph (isRed 1) (reduceBody k))
/-- REDUCE MIN (R306). -/
def execReduceMin (k : Nat) (ph : Sys2Proof.Phase) (s : State) : Host.Outcome State Fault Refusal :=
  answer (coreOk k) (s.queued k ph (isRed 2) (reduceBody k))
/-- REDUCE COUNT (R306). -/
def execReduceCount (k : Nat) (ph : Sys2Proof.Phase) (s : State) : Host.Outcome State Fault Refusal :=
  answer (coreOk k) (s.queued k ph (isRed 3) (reduceBody k))
/-- REDUCE TOP1 (R309). -/
def execReduceTop1 (k : Nat) (ph : Sys2Proof.Phase) (s : State) : Host.Outcome State Fault Refusal :=
  answer (coreOk k) (s.queued k ph (isRed 4) (reduceBody k))

/-! ### CCOUNT (R161 to R163, R224) -/

/-- The elements from element `i` of the region, sheet row by sheet row: the count of matches. -/
def countFrom (a : Nat) (f : Fmt) (rel v : Nat) : Nat → Nat → Nat → Core → Nat → Eff (Core × Nat)
  | 0, _, _, c, acc => .ok (c, acc)
  | fuel + 1, i, left, c, acc =>
    if left = 0 then .ok (c, acc)
    else
      -- the part of the region within one sheet row of 2,048 bytes
      let b := a + i * f.width / 8
      let n := min left ((2048 - b % 2048) * 8 / f.width)
      (c.spRead b (rowBytes n f.width)).bind fun r =>
        let hits := ((elems r.2 f.width n).filter (fun w => compareCodes f rel w v)).length
        countFrom a f rel v fuel (i + n) (left - n) r.1 (acc + hits)

/-- The effect of CCOUNT. -/
def ccountBody (_s : State) (c : Core) (f : Flight) : Eff Core :=
  let i := f.ent.ins
  let a := f.ent.reg i.cRA
  if a % 64 ≠ 0 then .stop c 0x02 (fieldDetail 0 82)
  else match Fmt.ofCode i.cFMT with
    | none => .stop c 0x02 (fieldDetail 0 54)
    | some fm =>
      if fm = .bfp12 then .stop c 0x02 (fieldDetail 0 54)
      else if i.cE = 0 then .ok (c.setS i.cSD 0)
      else
        let lines := rowLines i.cE fm.width
        (c.spRange a (lines * 64) (a + lines * 64 - 1)).bind fun _ =>
          (countFrom a fm i.cREL (i.cVALUE % 2 ^ fm.width) (lines + 1) 0 i.cE c 0).bind fun r =>
            .ok (r.1.setS i.cSD (word r.2))

/-- CCOUNT (R161). -/
def execCcount (k : Nat) (ph : Sys2Proof.Phase) (s : State) : Host.Outcome State Fault Refusal :=
  answer (coreOk k) (s.queued k ph (hasOp 0x41) (coreBody k ccountBody))

end Sys2Proof.Machine
end

