-- ==== Sys2Proof/Machine/Walks.lean ====
section
/-! DEFINITION. The walks of the Drover (08 R266, R270 to R283, R289): the commands a macro issues, in
order. -/
namespace Sys2Proof.Machine
open Sys2Proof

/-! ### Units and their passes -/

/-- A unit of a core: its number, its output block, its members and its issued steps with their positions and
chunks. -/
structure UnitPlan where
  u     : Nat
  j     : Nat
  ms    : List Member
  steps : List (Nat × Nat × List Member)

/-- The units of MATMUL: a step belongs to the chunk of its first reduction index (R277, DEDUCED, log 20). -/
def Geo.unitPlans (g : Geo) (pl : Placement) (k : Nat) : List UnitPlan :=
  g.js.mapIdx (fun u j =>
    let ms := pl.blocks k j
    ⟨u, j, ms, (g.steps ms).map (fun p => (p.1, ((p.2.head?.map (·.kb)).getD 0) / g.p.kch, p.2))⟩)

/-- The lowest engine of a unit. -/
def UnitPlan.lead (up : UnitPlan) : Nat := (up.ms.map (·.e)).foldl min 32

/-- The segment of a position (R272). -/
def Geo.segOf (g : Geo) (p : Nat) : Nat := if g.long then p / 128 else 0

/-- The slot of vector `m` of M-tile `mt` of a unit, by segment (R272). -/
def Geo.slotFor (g : Geo) (slot0 nch u mt m seg : Nat) : Nat :=
  if nch ≤ 1 then g.slot slot0 u 1 0 seg
  else if g.p.visit = 2 then g.slot slot0 u (ceilDiv g.mplan g.p.pm * g.p.pm) (mt * g.p.pm + m) seg
  else g.slot slot0 u g.p.pm m seg

/-- The commands of vector `m` of M-tile `mt` for a unit in chunk `c`: its passes, and after the unit's last
pass the segment sum and the partial (R273, R277, R283). -/
def Geo.vecCmds (g : Geo) (slot0 nch : Nat) (up : UnitPlan) (mt m c half : Nat) (kbs : List Nat) : List DCmd :=
  let pos := up.steps.map (·.1)
  let slot (p : Nat) : Nat := g.slotFor slot0 nch up.u mt m (g.segOf p)
  let nlim := g.nlim up.j ((up.ms.head?.map (·.cnt)).getD 0)
  let passes := (up.steps.mapIdx (fun i s => (i, s))).filterMap (fun q =>
    if q.2.2.1 = c then
      some (DCmd.pass q.2.2.2 mt m up.u up.j (slot q.2.1) (passMode g.r.split g.long pos q.1) half kbs)
    else none)
  let last := match up.steps.getLast? with
    | some s => s.2.1 == c
    | none => false
  if !last then passes
  else
    let slots := ((pos.map g.segOf).eraseDups).map (fun x => g.slotFor slot0 nch up.u mt m x)
    passes
      ++ (if g.long then [DCmd.segsum up.lead slots mt m up.u (up.j * g.wfmt.outputs) nlim g.r.split] else [])
      ++ (if g.r.split then [DCmd.part up.lead (slots.headD 0) m up.j false] else [])

/-! ### MATMUL (R277) -/

/-- The vectors of a row quad of a pen tile (R175, R274): 8 of 4 bits, 4 of 8 bits, 2 of 16 bits. -/
def quadVecs (w : Nat) : Nat := 32 / w

/-- The pen tiles that a chunk loads (R275). -/
def chunkKbs (ups : List UnitPlan) (c : Nat) : List Nat :=
  sortedSet (ups.flatMap (fun up => up.steps.flatMap (fun s =>
    if s.2.1 = c then (s.2.2.filter (fun x => !x.mask)).map (·.kb) else [])))

/-- A visit of the walk: M-tile, unit and chunk, and the row writes that come before it (R277, R282). -/
structure Visit where
  mt  : Nat
  u   : Nat
  c   : Nat
  pre : List DCmd

/-- The passes of vector `m` of a visit: none where the unit has no pass in the chunk or lies beyond the actual N
(R266). -/
def Geo.visitCmds (g : Geo) (slot0 nch : Nat) (ups : List UnitPlan) (x : Visit) (half : Nat) (kbs : List Nat) (m : Nat) :
    List DCmd :=
  match ups[x.u]? with
  | some up =>
    if up.steps.any (fun s => s.2.1 == x.c) ∧ up.j * g.wfmt.outputs < g.n then g.vecCmds slot0 nch up x.mt m x.c half kbs
    else []
  | none => []

/-- The walk over the tiles: `cur` lists the (mt, chunk) held by the halves of the pen buffer, last used first. A
(mt, chunk) not held is loaded into the idle half, whichever unit is visited, one row quad of every pen tile after the
other, each before the passes that read it (R274, R275, R277). -/
def Geo.walk (g : Geo) (slot0 nch : Nat) (cin : Bool) (ups : List UnitPlan) :
    List Visit → List (Nat × Nat × Nat) → List DCmd
  | [], _ => []
  | x :: r, cur =>
    let kbs := chunkKbs ups x.c
    let found := cur.find? (fun y => y.1 == x.mt && y.2.1 == x.c)
    let half := match found with
      | some y => y.2.2
      | none => if g.p.pdbl then 1 - ((cur.head?.map (·.2.2)).getD 1) else 0
    let others := cur.filter (fun y => !(y.1 == x.mt && y.2.1 == x.c))
    let n := g.rowsIn x.mt
    let q := quadVecs g.x.fmt.width
    let load (i : Nat) : List DCmd := if cin ∨ found.isSome ∨ kbs.isEmpty then [] else [DCmd.pen x.mt half i kbs]
    x.pre
      ++ (List.range (ceilDiv n q)).flatMap (fun i => load i ++
        (tabulate (min q (n - i * q)) (fun m => i * q + m)).flatMap (g.visitCmds slot0 nch ups x half kbs))
      ++ g.walk slot0 nch cin ups r (((x.mt, x.c, half) :: others).take (if g.p.pdbl then 2 else 1))

/-- The last partial of a walk steps the owner's counter (R284). -/
def markLast : List DCmd → List DCmd
  | [] => []
  | .part l s m j b :: r =>
    if r.any (fun d => match d with
      | .part _ _ _ _ _ => true
      | _ => false) then .part l s m j b :: markLast r
    else .part l s m j true :: r
  | d :: r => d :: markLast r

/-- The commands of MATMUL on core `k`. -/
def walkMatmul (e : QEntry) (pl : Placement) (k : Nat) : List DCmd :=
  let g := geoMatmul e pl k
  let ups := g.unitPlans pl k
  let cells := (visits g.p.visit g.mt ups.length).flatMap (fun q =>
    (List.range g.nch).map (fun c => (⟨q.1, q.2, c, []⟩ : Visit)))
  markLast (g.walk e.ins.mSLOT g.nch e.ins.mCIN ups cells [])

/-! ### DMATMUL and WPLANE (R281, R282) -/

/-- The geometry of DMATMUL: planned blocks follow the words' planned maxima. -/
def geoDmatmul (e : QEntry) (pl : Placement) : Geo :=
  let x := e.ten 1
  let w := e.ten 2
  let p := { e.plan 3 with ptn := (e.plan 3).ptn - stagingReg w }
  let kplan := max x.maxc w.maxr
  let nplan := max w.maxc p.ymaxc
  { x := x, p := p, r := ⟨0, false, 0, 0, 0, 1, 0, false⟩, wfmt := pl.wfmt,
    m := actualLen x.rowLen p.rowLen x.maxr, n := actualLen w.colLen p.colLen nplan,
    kk := actualLen x.colLen w.rowLen kplan, kplan := kplan, nplan := nplan, mplan := x.maxr,
    js := List.range (ceilDiv nplan pl.wfmt.outputs) }

/-- The number of a block of W in kb-major order. -/
def Geo.blockNo (g : Geo) (kb j : Nat) : Nat := kb * g.js.length + j

/-- The units of DMATMUL with `D` dynamic planes on the engines `dyn`. -/
def Geo.dynPlans (g : Geo) (dyn : List Nat) : List UnitPlan :=
  g.js.mapIdx (fun u j =>
    let ms := (List.range g.kb).map (fun kb =>
      (⟨at' dyn (g.blockNo kb j % dyn.length) 0, 7, 0, g.wfmt.outputs, kb, false⟩ : Member))
    ⟨u, j, ms, ms.map (fun x => (x.kb, g.blockNo x.kb j / dyn.length, [x]))⟩)

/-- Chunks of DMATMUL: the planned blocks over the dynamic planes. -/
def Geo.dynChunks (g : Geo) (d : Nat) : Nat := ceilDiv (ceilDiv g.kplan 512 * g.js.length) d

/-- The row writes of one block (R281): the rows below the actual K. -/
def blockWrites (e p kb j kk : Nat) : List DCmd :=
  (List.range (min 512 (kk - kb * 512))).map (fun r => .rowWrite e p kb j r (r == 0))

/-- The block writes of a unit in chunk `c`. -/
def Geo.unitWrites (g : Geo) (c : Nat) (up : UnitPlan) : List DCmd :=
  up.steps.flatMap (fun s => if s.2.1 = c then
    s.2.2.flatMap (fun x => blockWrites x.e x.p x.kb up.j g.kk) else [])

/-- The commands of DMATMUL on core `k`. Under OUTPUT_INNER each chunk is written once, before its first
tile; otherwise a tile writes its blocks of each chunk again (R282). -/
def walkDmatmul (e : QEntry) (pl : Placement) (k : Nat) : List DCmd :=
  let g := geoDmatmul e pl
  let dyn := pl.dynOn k
  let nch := g.dynChunks dyn.length
  let ups := g.dynPlans dyn
  let cols := ceilDiv g.n g.wfmt.outputs
  let writes (u c : Nat) : List DCmd := ((ups[u]?).map (g.unitWrites c)).getD []
  let cells : List Visit :=
    if g.p.visit = 2 then
      (List.range nch).flatMap (fun c => (visits 1 g.mt cols).mapIdx (fun i q =>
        ⟨q.1, q.2, c, if i = 0 then (ups.take cols).flatMap (g.unitWrites c) else []⟩))
    else
      (visits g.p.visit g.mt cols).flatMap (fun q => (List.range nch).map (fun c => ⟨q.1, q.2, c, writes q.2 c⟩))
  g.walk e.ins.mSLOT nch e.ins.mCIN ups cells []

/-- The commands of WPLANE on core `k`: all of W in one chunk. -/
def walkWplane (e : QEntry) (pl : Placement) (k : Nat) : List DCmd :=
  let w := e.ten 1
  let dyn := pl.dynOn k
  let jn := ceilDiv w.maxc pl.wfmt.outputs
  let kk := actualLen w.rowLen none w.maxr
  let n := actualLen w.colLen none w.maxc
  (List.range (ceilDiv kk 512)).flatMap (fun kb =>
    (List.range (ceilDiv n pl.wfmt.outputs)).flatMap (fun j =>
      blockWrites (at' dyn (kb * jn + j) 0) 7 kb j kk))

/-! ### MOVE (R289) -/

/-- The field tiles of MOVE for `m` actual rows and `n` actual columns. -/
def walkMove (e : QEntry) : List DCmd :=
  let t := e.ten 1
  let v := e.mov 2
  let m := actualLen t.rowLen none t.maxr
  let n := actualLen t.colLen none t.maxc
  let lines := rowLines t.maxc t.fmt.width
  let cells := visits v.visit (ceilDiv m v.fr) (ceilDiv (rowLines n t.fmt.width) v.fc)
  let tiles := cells.map (fun q => (q.1 * v.fr, min ((q.1 + 1) * v.fr) t.maxr, q.2 * v.fc, min ((q.2 + 1) * v.fc) lines))
  tiles.mapIdx (fun i q => .field q.1 q.2.1 q.2.2.1 q.2.2.2 (i + 1 == tiles.length))

end Sys2Proof.Machine
end

