-- ==== Sys2Proof/Machine/Head.lean ====
section
/-! DEFINITION. The start of queued instructions at the heads of their queues (07 R214, R243) and the checks
of R264 (08). -/
namespace Sys2Proof.Machine
open Sys2Proof

/-- What the checks before the first tile give: the first that fails, and whether the macro completes under
step 4. -/
abbrev HeadChk := Chk × Bool

/-- The checks in their order around step 4: those before it, the zero lengths, those after. -/
def headChecks (before : List Chk) (zero : Bool) (after : List Chk) : HeadChk :=
  match firstOf before with
  | some x => (some x, false)
  | none => if zero then (none, true) else (firstOf after, false)

/-- The highest slot that a walk names in a mode other than ONCE, with the engines of the first pass that names it
(R264 step 7). -/
def topSlot (l : List DCmd) : Option (Nat × List Nat) :=
  l.foldl (fun a d => match d, a with
    | .pass ms _ _ _ _ slot mode _ _, none => if mode = 3 then none else some (slot, ms.map (·.e))
    | .pass ms _ _ _ _ slot mode _ _, some x => if mode ≠ 3 ∧ x.1 < slot then some (slot, ms.map (·.e)) else some x
    | _, a => a) none

/-- The slot belongs to an open run of another engine or reduction group, opened by another macro (R119, R125, R277). -/
def Core.otherRun (c : Core) (group : List Nat) (slot : Nat) (flight : Option Nat) : Bool :=
  c.acc.opens.any (fun x => x.slot == slot && x.group != group && some x.flight != flight)

/-- R119 for a slot that the engines of a pass name. -/
def chkSlot (c : Core) (wfmt : Fmt) (slot : Option (Nat × List Nat)) : Chk :=
  match slot with
  | some n => (c.regionFault wfmt n.1 (c.otherRun n.2 n.1 none)).map (fun x => (0x12, regionDetail x n.1))
  | none => none

/-- The fusion register of a macro with `CIN` (R276, R288). -/
def fusionRegs (i : MInstr) : List Nat := if i.mCIN then [i.mCTREG] else []

/-- A BFP12 reduction longer than 65,536 under STRICT (R141). -/
def chkBound (s : State) (g : Geo) : Chk :=
  if s.profile.work.boundStrict ∧ g.long then some (0x13, g.kk) else none

/-- The owner of a split reduction runs the frame (R283). -/
def State.chkOwner (s : State) (c : Core) (r : Red) : Chk :=
  if r.split ∧ (s.coreOfRank c r.owner).isNone then some (0x07, deniedDetail 0xFFFF 0 0 4) else none

/-- A chunk is not a multiple of a group that forms (R271). -/
def chkChunk (g : Geo) (pl : Placement) (k : Nat) : Chk :=
  if g.js.any (fun j => match groupOf g.r.gmask g.long (pl.blocks k j) with
      | some es => decide (g.p.kch % es.length ≠ 0)
      | none => false) then some (0x02, fieldDetail g.p.word 97) else none

/-- The checks of MATMUL. The rows of Y follow the pooling of the lowest engine of its first unit as it stands at the queue
head (R108; DESIGN CHOICE, log 113). -/
def State.chkMatmul (s : State) (c : Core) (k : Nat) (e : QEntry) (pl : Placement) : HeadChk :=
  let g := geoMatmul e pl k
  let lead := (((pl.blocks k (g.js.headD 0)).map (·.e)).foldl min 32) % 32
  let yr := yRows g.p g.mplan (c.engine lead).nu
  headChecks
    [if (pl.staticOn k).isEmpty then some (0x07, deniedDetail e.handle 0 0 2) else none,
     chkTenBase g.x, chkYBase g.p, chkCout e.ins g.p, chkCin e g.x g.p g.kplan, s.chkOwner c g.r,
     chkChunk g pl k, chkTenSp g.x, chkYSp g.p yr, chkTenTreg g.x, chkYTreg g.p yr,
     chkPen g.p.word g.p.ptr g.p.ptn (g.p.yregs ++ fusionRegs e.ins),
     chkOptLen 1 0 g.x.rowLen g.x.maxr, chkOptLen 1 2 g.x.colLen g.x.maxc, chkLen 1 2 g.kk pl.kp,
     if g.x.rowLen.isSome then none else chkOptLen 2 0 g.p.rowLen g.mplan,
     chkOptLen 2 1 g.p.colLen g.p.ymaxc, chkLen 2 1 g.n pl.np]
    (g.m == 0 || g.n == 0 || g.kk == 0)
    [chkBound s g, chkSlot c g.wfmt (topSlot (walkMatmul e pl k))]

/-- The checks of DMATMUL. -/
def State.chkDmatmul (s : State) (c : Core) (k : Nat) (e : QEntry) (pl : Placement) : HeadChk :=
  let g := geoDmatmul e pl
  let w := e.ten 2
  let dyn := pl.dynOn k
  let yr := yRows g.p g.mplan (c.engine (dyn.headD 0)).nu
  let st := stagingReg w
  let need := ((g.dynPlans dyn).flatMap (fun up => up.steps.map (·.2.1))).eraseDups.map (fun ch =>
    (chunkKbs (g.dynPlans dyn) ch).length)
  headChecks
    [if dyn.isEmpty then some (0x07, deniedDetail e.handle 0 0 2) else none,
     chkTenBase g.x, chkTenBase w, chkYBase g.p, chkCout e.ins g.p, chkCin e g.x g.p g.kplan,
     chkTenSp g.x, chkTenSp w, chkYSp g.p yr, chkTenTreg g.x, chkTenTreg w, chkYTreg g.p yr,
     chkPen g.p.word g.p.ptr (g.p.ptn + st) (g.p.yregs ++ fusionRegs e.ins),
     if !e.ins.mCIN ∧ need.any (fun n => decide (g.p.penMax g.x.fmt.width < n)) then
       some (0x02, fieldDetail g.p.word 110) else none,
     chkOptLen 1 0 g.x.rowLen g.x.maxr, chkOptLen 1 2 g.x.colLen g.x.maxc,
     if g.x.colLen.isSome then none else chkOptLen 2 2 w.rowLen w.maxr,
     chkOptLen 2 1 w.colLen w.maxc,
     if g.x.rowLen.isSome then none else chkOptLen 3 0 g.p.rowLen g.mplan,
     if w.colLen.isSome then none else chkOptLen 3 1 g.p.colLen g.p.ymaxc]
    (g.m == 0 || g.n == 0 || g.kk == 0)
    [chkBound s g, chkSlot c g.wfmt (topSlot (walkDmatmul e pl k))]

/-- The checks of WPLANE. -/
def chkWplane (k : Nat) (e : QEntry) (pl : Placement) : HeadChk :=
  let w := e.ten 1
  let dyn := pl.dynOn k
  headChecks
    [if dyn.isEmpty then some (0x07, deniedDetail e.handle 0 0 2) else none, chkTenBase w,
     if dyn.length < ceilDiv w.maxr 512 * ceilDiv w.maxc pl.wfmt.outputs then some (0x02, fieldDetail 1 57) else none,
     chkTenSp w, chkTenTreg w, chkOptLen 1 2 w.rowLen w.maxr, chkOptLen 1 1 w.colLen w.maxc]
    (actualLen w.rowLen none w.maxr == 0 || actualLen w.colLen none w.maxc == 0) []

/-- The lowest engine of output block `j` on core `k`. -/
def unitLead (pl : Placement) (k j : Nat) : Nat := ((pl.blocks k j).map (·.e)).foldl min 32

/-- What COMBINE works on: actual vectors and outputs, and the units that hold outputs. -/
def combineUnits (e : QEntry) (pl : Placement) (k : Nat) : List (Nat × Nat) :=
  let p := e.plan 1
  let n := actualLen p.colLen none p.ymaxc
  ((pl.units k (min p.ymaxc pl.np)).mapIdx (fun u j => (u, j))).filter (fun q => decide (q.2 * pl.wfmt.outputs < n))

/-- The checks of COMBINE. -/
def State.chkCombine (c : Core) (k : Nat) (e : QEntry) (pl : Placement) : HeadChk :=
  let p := e.plan 1
  let us := combineUnits e pl k
  let m := actualLen p.rowLen none p.pm
  let n := actualLen p.colLen none p.ymaxc
  let lead := (((pl.blocks k ((us.head?.map (·.2)).getD 0)).map (·.e)).foldl min 32) % 32
  let yr := yRows p p.pm (c.engine lead).nu
  headChecks
    [if (pl.staticOn k).isEmpty then some (0x07, deniedDetail e.handle 0 0 2) else none,
     chkYBase p, chkCout e.ins p, chkYSp p yr, chkYTreg p yr,
     chkOptLen 1 0 p.rowLen p.pm, chkOptLen 1 1 p.colLen p.ymaxc, chkLen 1 1 n pl.np]
    (m == 0 || n == 0)
    [chkSlot c pl.wfmt ((us.getLast?).map (fun q => (e.ins.mSLOT + q.1 * p.pm + (m - 1), [unitLead pl k q.2])))]

/-! ### MOVE -/

/-- The bytes of an HBM space for the frame and a placement (R260). -/
def spaceBytes (e : Entry) (pl : Option Placement) (space : Nat) : Nat :=
  match e.op with
  | .run b => if space = 0 then b.input.length else if space = 1 then b.wlen
    else ((pl.map (·.region.length)).getD 0)
  | _ => 0

/-- The cores of a multicast mask (R263). -/
def mcastCores (k mask : Nat) : List Nat := ((List.range 16).filter (bitAt mask)).map (fun i => k / 16 * 16 + i)

/-- A handle that a macro names though its effect needs none is in the frame's placement list (R231, R264 step 1). -/
def State.chkHandle (s : State) (c : Core) (h : Nat) : Chk :=
  if h = 0xFFFF then none
  else match s.namedPlacement c h with
    | .ok _ => none
    | .error x => some (0x07, deniedDetail h 0 0 x)

/-- The checks of MOVE. -/
def State.chkMove (s : State) (c : Core) (k : Nat) (e : QEntry) : HeadChk :=
  let t := e.ten 1
  let v := e.mov 2
  let m := actualLen t.rowLen none t.maxr
  let n := actualLen t.colLen none t.maxc
  let lines := rowLines t.maxc t.fmt.width
  let en := s.frameOf c
  let pl := match s.namedPlacement c e.handle with
    | .ok p => some p
    | .error _ => none
  let deny := if t.loc = 1 ∧ t.space = 2 then (match s.namedPlacement c e.handle with
    | .ok _ => none
    | .error x => some (0x07, deniedDetail e.handle 0 0 x)) else s.chkHandle c e.handle
  let size (sp : Nat) : Nat := (en.map (fun x => spaceBytes x pl sp)).getD 0
  let last := t.base * 64 + (t.maxr - 1) * t.rstr * 64
  headChecks
    [deny, chkTenBase t,
     if v.mcast = 0 ∧ !v.dwork ∧ v.dbase % 64 ≠ 0 then some (0x02, fieldDetail 2 120) else none,
     if (mcastCores k v.mcast).any (fun d => (s.core d).entry ≠ c.entry) then
       some (0x07, deniedDetail 0xFFFF 0 0 4) else none,
     chkTenSp t,
     if v.mcast = 0 ∧ !v.dwork then chkSpExtent v.dbase t.maxr v.dstr lines else none,
     if t.loc = 1 ∧ (t.devPad ∨ t.space ≠ 0) ∧ size t.space < last + lines * 64 then
       some (0x02, fieldDetail 1 113) else none,
     if v.dwork ∧ size 1 < v.dbase * 64 + (t.maxr - 1) * v.dstr * 64 + lines * 64 then
       some (0x02, fieldDetail 2 120) else none,
     chkOptLen 1 0 t.rowLen t.maxr, chkOptLen 1 1 t.colLen t.maxc]
    (m == 0 || n == 0)
    [if t.loc = 1 ∧ t.space = 0 ∧ !t.devPad ∧ size 0 < last + rowBytes t.maxc t.fmt.width then
       some (0x11, 1 * 2 ^ 30 + size 0 % 2 ^ 30) else none]

/-- The checks of a macro at the head of its queue (R264). -/
def State.macroChecks (s : State) (c : Core) (k : Nat) (e : QEntry) : HeadChk :=
  let withPl (f : Placement → HeadChk) : HeadChk :=
    match s.namedPlacement c e.handle with
    | .ok p => f p
    | .error x => (some (0x07, deniedDetail e.handle 0 0 x), false)
  let named (x : HeadChk) : HeadChk := match s.chkHandle c e.handle with
    | some r => (some r, false)
    | none => x
  match e.ins.op with
  | 0x28 => withPl (s.chkMatmul c k e)
  | 0x29 => withPl (s.chkDmatmul c k e)
  | 0x2A => withPl (chkWplane k e)
  | 0x2B => withPl (State.chkCombine c k e)
  | 0x48 => named (vecChecks e false)
  | 0x49 => named (vecChecks e true)
  | 0x68 => s.chkMove c k e
  | _ => (none, false)

/-! ### QUEUE_HEAD_START and the waits (R214, R217) -/

/-- A started instruction lets no later one of its queue start yet: a macro that holds the head (R243), an ACC
instruction, which has its effect at the head (R229), and a VXFER that has not written its rows, which a later
instruction of the vector queue must see (R299; DEDUCED, log 68). -/
def Flight.holdsBack (f : Flight) : Bool :=
  f.atHead || (!f.ran && (f.ent.ins.op == 0x20 || f.ent.ins.op == 0x21 || f.ent.ins.op == 0x22 ||
    (f.ent.ins.op == 0x40 && !f.ent.ins.xDIR)))

/-- The entry at the head of queue `q` that has not started, once nothing holds it back. -/
def Core.headEntry (c : Core) (q : Nat) : Option QEntry :=
  if c.q.flights.any (fun f => f.q == q && f.holdsBack) then none else (c.queue q).head?

/-- A started instruction. -/
def Core.addFlight (c : Core) (q : Nat) (e : QEntry) (zero : Bool) : Core :=
  { c with q := { c.q with
      flights := c.q.flights ++ [⟨c.q.nextId, q, e, false, [], isMacro e.ins.op, zero, none, none⟩]
      nextId := c.q.nextId + 1 } }

/-- A wait on counter `i` that R216 evaluates before that of queue `q` is satisfied: that of the control core, or of a
queue with a lower number. -/
def Core.waiterBefore (c : Core) (q i : Nat) : Bool :=
  (match c.ctl.stall with
    | some (.wait j v) => j == i && v != 0 && c.waitOk j v
    | _ => false) ||
  (List.range q).any (fun p => decide (p ≠ 0) && match c.headEntry p with
    | some e => e.ins.we && e.ins.wctr == i && e.ins.wval != 0 && c.waitOk i e.ins.wval
    | none => false)

/-- The head of queue `q` starts once its wait is satisfied and no wait before it takes what it waits for (R216); a
macro makes its checks and holds the head (R243, R264). -/
def State.startHead (s : State) (k q : Nat) : State :=
  let c := s.core k
  if !c.live then s
  else match c.headEntry q with
    | none => s
    | some e =>
      if e.ins.we ∧ (!(c.waitOk e.ins.wctr e.ins.wval) ∨ (e.ins.wval ≠ 0 ∧ c.waiterBefore q e.ins.wctr)) then s
      else
        let c1 := if e.ins.we then c.consume e.ins.wctr e.ins.wval else c
        let s1 := s.setCore k c1
        if isMacro e.ins.op then
          match s1.macroChecks c1 k e with
          | (some (r, x), _) => s1.haltEntry k e r x
          | (none, zero) => s1.setCore k (c1.addFlight q e zero)
        else s1.setCore k ((c1.setQueue q (c1.queue q).tail).addFlight q e false)

/-- QUEUE_HEAD_START (R243). -/
def execQueueHeadStart (k q : Nat) (s : State) : Host.Outcome State Fault Refusal :=
  answer (coreOk k && decide (1 ≤ q) && decide (q ≤ 4)) (s.startHead k q)

/-- A stalled wait on the control core is satisfied and consumes its threshold (R214). -/
def satisfyWait (c : Core) : Core :=
  match c.ctl.stall with
  | some (.wait i v) =>
    if c.waitOk i v then
      let c1 := c.consume i v
      { c1 with ctl := { c1.ctl with stall := some .ready } }
    else c
  | _ => c

/-- WAIT_SATISFIED (R214). -/
def execWaitSatisfied (k : Nat) (s : State) : Host.Outcome State Fault Refusal :=
  answer (coreOk k) (s.modCore k satisfyWait)

/-- The detail of WAIT_TIMEOUT (R249). -/
def waitDetail (i v : Nat) : Nat := i * 2 ^ 26 + v * 2 ^ 10

/-- A wait of the control core (`q` 0) or of the head of queue `q` that is still not satisfied halts the core
(R217), in a cycle that counts for it. -/
def State.timeoutWait (s : State) (k q : Nat) : State :=
  let c := s.core k
  if !(s.counts k) then s
  else if q = 0 then
    match c.ctl.stall with
    | some (.wait i v) => if c.waitOk i v then s else s.haltDue k 0x0D (waitDetail i v)
    | _ => s
  else match c.headEntry q with
    | some e =>
      if e.ins.we ∧ !(c.waitOk e.ins.wctr e.ins.wval) then
        s.haltEntry k e 0x0D (waitDetail e.ins.wctr e.ins.wval)
      else s
    | none => s

/-- WAIT_TIMEOUT (R217). -/
def execWaitTimeout (k q : Nat) (s : State) : Host.Outcome State Fault Refusal :=
  answer (coreOk k && decide (q ≤ 4)) (s.timeoutWait k q)

/-- RUN_LIMIT (R241), in a cycle that counts for it. -/
def execRunLimit (k : Nat) (s : State) : Host.Outcome State Fault Refusal :=
  answer (coreOk k) (if s.counts k then s.haltDue k 0x19 s.profile.work.runLimit else s)

end Sys2Proof.Machine
end

