-- ==== Sys2Proof/Machine/Drover.lean ====
section
/-! DEFINITION. The Drover at work (08, 02, 04): the effects of the matrix and move macros, pen-tile loads,
passes and their results, dynamic row writes, field tiles, and completion (R215). -/
namespace Sys2Proof.Machine
open Sys2Proof

/-! ### The effects of the macros -/

/-- One step of a destination's window counter without lines (R284, R290). -/
def State.bareStep (s : State) (d w : Nat) : State :=
  match (s.core d).window w with
  | some v => s.depositStep d v.ctr
  | none => s

/-- A split MATMUL that deposits no partial steps the owner's counter once (R284). -/
def State.ownerStep (s : State) (c : Core) (r : Red) : State :=
  if r.split then
    match s.coreOfRank c r.owner with
    | some d => s.bareStep d r.win
    | none => s
  else s

/-- The effect of MATMUL: the Drover's commands in walk order. -/
def matmulBody (k : Nat) (s : State) (c : Core) (f : Flight) : Eff (State × List DCmd) :=
  if f.zero then .ok (s.ownerStep c (f.ent.red 3), [])
  else match s.namedPlacement c f.ent.handle with
    | .error x => .stop c 0x07 (deniedDetail f.ent.handle 0 0 x)
    | .ok pl =>
      let todo := walkMatmul f.ent pl k
      let parts := todo.any (fun d => match d with
        | .part _ _ _ _ _ => true
        | _ => false)
      .ok (if parts then s else s.ownerStep c (f.ent.red 3), todo)

/-- MATMUL (R277). -/
def execMatmul (k : Nat) (ph : Sys2Proof.Phase) (s : State) : Host.Outcome State Fault Refusal :=
  answer (coreOk k) (s.queued k ph (hasOp 0x28) (matmulBody k))

/-- The effect of a macro that only walks its placement. -/
def walkBody (walk : QEntry → Placement → List DCmd) (s : State) (c : Core) (f : Flight) :
    Eff (State × List DCmd) :=
  if f.zero then .ok (s, [])
  else match s.namedPlacement c f.ent.handle with
    | .error x => .stop c 0x07 (deniedDetail f.ent.handle 0 0 x)
    | .ok pl => .ok (s, walk f.ent pl)

/-- DMATMUL (R282). -/
def execDmatmul (k : Nat) (ph : Sys2Proof.Phase) (s : State) : Host.Outcome State Fault Refusal :=
  answer (coreOk k) (s.queued k ph (hasOp 0x29) (walkBody (fun e pl => walkDmatmul e pl k)))

/-- WPLANE (R281). -/
def execWplane (k : Nat) (ph : Sys2Proof.Phase) (s : State) : Host.Outcome State Fault Refusal :=
  answer (coreOk k) (s.queued k ph (hasOp 0x2A) (walkBody (fun e pl => walkWplane e pl k)))

/-- The partials of one output block and vector, in ascending contributors (R285): their words and tags. -/
def partialsFrom (r : Red) (a lim : Nat) : Nat → Nat → Core → Eff (Core × List (List Word) × Nat)
  | 0, _, c => .ok (c, [], 0)
  | n + 1, i, c =>
    let x := a + i * r.cspan * 64
    (c.spRead x (4 * lim)).bind fun q =>
      (partialsFrom r a lim n (i + 1) q.1).bind fun z =>
        .ok (z.1, tabulate lim (fun j => word (leAt q.2 (4 * j) 4)) :: z.2.1, c.lineTags x (4 * lim) ||| z.2.2)

/-- COMBINE of one unit and vector: INIT, ADD and FINAL in the unit's slot (R285). -/
def Core.combineOne (c : Core) (f : Flight) (pl : Placement) (k : Nat) (win : Window) (u j m : Nat) : Eff Core :=
  let p := f.plan
  let r := f.ent.red 2
  let ms := pl.blocks k j
  let lead := (ms.map (·.e)).foldl min 32
  let n := actualLen p.colLen none p.ymaxc
  let o := pl.wfmt.outputs
  let lim := min ((ms.head?.map (·.cnt)).getD 0) (n - j * o)
  let slot := f.ent.ins.mSLOT + u * p.pm + m
  match c.regionFault pl.wfmt slot (c.otherRun [unitLead pl k j] slot (some f.id)) with
  | some x => .stop c 0x12 (regionDetail x slot)
  | none =>
    let off := (j * p.pm + m) * c.acc.accStride
    if win.lines < off + (r.ncon - 1) * r.cspan + c.acc.accStride then
      .stop c 0x04 (3 * 2 ^ 28 + (off + (r.ncon - 1) * r.cspan) % 2 ^ 28)
    else
      (partialsFrom r ((win.base + off) * 64) lim r.ncon 0 c).bind fun q =>
        let sum := match q.2.1 with
          | [] => []
          | x :: l => l.foldl (addWords r.pfp) x
        (q.1.setSlotEntry slot ⟨q.2.2, some r.pfp⟩).finalRoute f lead 0 m u (j * o) q.2.2 r.pfp sum

/-- The units and vectors of COMBINE one after the other. -/
def combineAll (f : Flight) (pl : Placement) (k : Nat) (win : Window) : List (Nat × Nat × Nat) → Core → Eff Core
  | [], c => .ok c
  | (u, j, m) :: l, c => (c.combineOne f pl k win u j m).bind (combineAll f pl k win l)

/-- The effect of COMBINE. -/
def combineBody (k : Nat) (s : State) (c : Core) (f : Flight) : Eff Core :=
  if f.zero then .ok c
  else match s.namedPlacement c f.ent.handle with
    | .error x => .stop c 0x07 (deniedDetail f.ent.handle 0 0 x)
    | .ok pl =>
      let p := f.plan
      let r := f.ent.red 2
      if !outAllowed r.pfp p.yfmt then .stop c 0x10 (4 * 2 ^ 28 + p.yfmt.code * 2 ^ 24)
      else match c.window r.win with
        | none => .stop c 0x04 (4 * 2 ^ 28)
        | some v =>
          combineAll f pl k v ((combineUnits f.ent pl k).flatMap (fun q =>
            (List.range (actualLen p.rowLen none p.pm)).map (fun m => (q.1, q.2, m)))) c

/-- COMBINE (R285). -/
def execCombine (k : Nat) (ph : Sys2Proof.Phase) (s : State) : Host.Outcome State Fault Refusal :=
  answer (coreOk k) (s.queued k ph (hasOp 0x2B) (coreBody k (combineBody k)))

/-- The effect of MOVE: its field tiles; a zero length steps each destination's counter once (R290). -/
def moveBody (k : Nat) (s : State) (_c : Core) (f : Flight) : Eff (State × List DCmd) :=
  let v := f.ent.mov 2
  if f.zero then .ok ((mcastCores k v.mcast).foldl (fun s d => s.bareStep d v.dwin) s, [])
  else .ok (s, walkMove f.ent)

/-- MOVE (R289). -/
def execMove (k : Nat) (ph : Sys2Proof.Phase) (s : State) : Host.Outcome State Fault Refusal :=
  answer (coreOk k) (s.queued k ph (hasOp 0x68) (moveBody k))

/-! ### Pen tiles (R274, R275) -/

/-- The bytes of one vector's part for reduction index `kb`, within the lines of its row. -/
def penPart (x : Ten) (kb : Nat) : Nat × Nat :=
  let w := x.fmt.width
  let off := kb * 64 * w
  (off, min (64 * w) (rowLines x.maxc w * 64 - off))

/-- The vectors of a pen tile from `m`, loaded for one reduction index. -/
def loadVecs (x : Ten) (p : Plan) (mt kb base : Nat) : Nat → Nat → Core → Eff Core
  | 0, _, c => .ok c
  | n + 1, m, c =>
    let q := penPart x kb
    let a := x.view.row (mt * p.pm + m) + q.1
    let v : View := ⟨true, base, penStride x.fmt.width, x.fmt.width⟩
    (c.spRead a q.2).bind fun r =>
      loadVecs x p mt kb base n (m + 1) (r.1.trStore (v.row m) r.2 (r.1.lineTags a q.2))

/-- `rows` vectors from vector `m0` of the pen tiles of a chunk, `i` counting the tiles. -/
def loadTiles (x : Ten) (p : Plan) (mt half m0 rows : Nat) : Nat → List Nat → Core → Eff Core
  | _, [], c => .ok c
  | i, kb :: l, c =>
    (loadVecs x p mt kb (p.penBase x.fmt.width i half) rows m0 c).bind (loadTiles x p mt half m0 rows (i + 1) l)

/-- The X word of a matrix macro and its actual M. -/
def Flight.vectors (f : Flight) (mt : Nat) : Nat := min f.plan.pm (f.rows - mt * f.plan.pm)

/-- The vectors of row quad `quad` of M-tile `mt`: the first, and how many lie below the actual M. -/
def Flight.quadOf (f : Flight) (mt quad : Nat) : Nat × Nat :=
  let q := quadVecs (f.ent.ten 1).fmt.width
  (quad * q, min q (f.vectors mt - quad * q))

/-- PEN_TILE_LOAD: the Drover's next command is the load of a row quad of a chunk's pen tiles. -/
def State.penLoad (s : State) (k : Nat) (tm : Timing) : State :=
  if !(s.core k).live then s
  else match (s.core k).drover (fun d => match d with
      | .pen _ _ _ _ => true
      | _ => false) with
    | some (f, .pen mt half quad kbs, rest) =>
      match s.conflictStop (some 1) tm with
      | some d => s.haltEntry k f.ent 0x0E d
      | none =>
        let s0 := s.enter k tm
        match loadTiles (f.ent.ten 1) f.plan mt half (f.quadOf mt quad).1 (f.quadOf mt quad).2 0 kbs (s0.core k) with
        | .wait => s
        | .stop c1 r x => ((s0.setCore k c1).timed k (some 1) tm).haltEntry k f.ent r x
        | .ok c1 => (s0.setCore k (c1.popTodo f.id rest)).timed k (some 1) tm
    | _ => s

/-- PEN_TILE_LOAD (R275). -/
def execPenTileLoad (k : Nat) (tm : Timing) (s : State) : Host.Outcome State Fault Refusal :=
  answer (coreOk k) (s.penLoad k tm)

/-! ### Passes (R44 to R51, R88, R119, R122, R128) -/

/-- The plane state check of R51: a cause of PLACEMENT_DENIED. -/
def planeCause (handle : Nat) (pl : Plane) : Option Nat :=
  match pl.st with
  | .live | .fenced =>
    if pl.spans.any (fun x => x.handle == handle) || pl.dyn == some handle then none else some 2
  | _ => some 3

/-- The checks of a pass before it starts, member by member. -/
def passMemberFault (c : Core) (h hd : Nat) (fx : Fmt) (m : Member) : Chk :=
  let pl := (c.engine m.e).plane m.p
  match planeCause h pl with
  | some x => some (0x07, deniedDetail hd m.e m.p x)
  | none =>
    if (fx = .cb4 ∧ ((c.engine m.e).nu.inCb.map (·.length)) ≠ some 16) ∨
        (fx = .cb8 ∧ ((c.engine m.e).nu.inCb.map (·.length)) ≠ some 256) then
      some (0x10, 3 * 2 ^ 28 + fx.code * 2 ^ 24)
    else none

/-- The members of a pass have planes of one weight format (R128). -/
def mixedFormats (c : Core) (ms : List Member) : Bool :=
  let f (m : Member) : Option Fmt := ((c.engine m.e).plane m.p).wfmt
  match ms with
  | [] => false
  | m :: r => r.any (fun x => f x != f m)

/-- A result of other engines that names the slot is on its way: the later pass waits until it has drained (R277). -/
def Core.slotBusy (c : Core) (group : List Nat) (slot : Nat) : Bool :=
  c.inPipe (fun r => r.slot == slot && r.mode != 3 && r.group != group)

/-- A pass or result on its way, of lead engine `e`, with property `p e`. -/
def Core.inPipeAt (c : Core) (p : Nat → Result → Bool) : Bool :=
  c.acc.passes.any (fun x => p x.lead x.res) ||
    c.engines.any (fun g => (g.2.active.map (p g.1)).getD false || (g.2.shadow.map (p g.1)).getD false)

/-- The tensor rows of `w`-bit elements that share the register rows of row `y` (R259). -/
def rowShare (w y : Nat) : Nat := if w < 8 then y / (8 / w) else y

/-- The fused macro before `f` still has a write on its way to the register rows that hold vector `m` of M-tile `mt`
(R288). -/
def Core.fusionPending (c : Core) (f : Flight) (mt m : Nat) : Bool :=
  f.ent.ins.mCIN && c.q.flights.any (fun g => decide (g.id < f.id) && g.q == 1 && g.ent.ins.mCOUT &&
    g.ent.ins.mCTREG == f.ent.ins.mCTREG &&
    (!g.ran || !g.todo.isEmpty || c.inPipeAt (fun e r => r.flight == g.id && decide (2 ≤ r.mode) &&
      rowShare g.plan.yfmt.width ((c.engine e).nu.yRow g.plan.pm r.mt r.m) ==
        rowShare g.plan.yfmt.width (mt * f.plan.pm + m))))

/-- The input vector of one member: values, block exponents and tag (R88, R49, R60). -/
def Core.memberVec (c : Core) (f : Flight) (x : Ten) (m half : Nat) (kbs : List Nat) (kk : Nat) (mb : Member) :
    Eff ((Member × List Int × List Nat) × Nat) :=
  let w := x.fmt.width
  let base := if f.ent.ins.mCIN then x.base else f.plan.penBase w (kbs.findIdx (· == mb.kb)) half
  let g := c.engine mb.e
  let pl := g.plane mb.p
  let keep (i : Nat) : Bool := !mb.mask && decide (mb.kb * 512 + i < kk) &&
    (pl.dyn.isNone || bitAt pl.written i)
  let ptag := if pl.dyn.isSome then pl.tag else 0
  if mb.mask then .ok ((mb, [], []), ptag)
  else
    (c.readRun ⟨true, base, penStride w, w⟩ m 0 512).bind fun r =>
      let v := inputVector x.fmt (g.nu.inCb.getD []) r.1 keep
      .ok ((mb, v.1, v.2.1), ptag ||| r.2 ||| v.2.2)

/-- The input vectors of the members. -/
def Core.memberVecs (c : Core) (f : Flight) (x : Ten) (m half : Nat) (kbs : List Nat) (kk : Nat) :
    List Member → Eff (List (Member × List Int × List Nat) × Nat)
  | [] => .ok ([], 0)
  | mb :: l =>
    (c.memberVec f x m half kbs kk mb).bind fun a =>
      (Core.memberVecs c f x m half kbs kk l).bind fun b => .ok (a.1 :: b.1, a.2 ||| b.2)

/-- What a pass may meet before it starts. -/
inductive Gate where
  | go
  | wait
  | fence (e p : Nat)
  | stop (reason detail : Nat)

/-- The geometry of a started matrix macro. -/
def Flight.geo (f : Flight) (pl : Placement) (k : Nat) : Geo :=
  if f.ent.ins.op = 0x29 then geoDmatmul f.ent pl else geoMatmul f.ent pl k

/-- The conditions of a pass that do not depend on power (R45, R51, R96, R119, R122, R124, R128, R277). -/
def State.passGate (s : State) (c : Core) (k : Nat) (f : Flight) (g : Geo) (h : Nat) (ms : List Member)
    (mt m slot mode : Nat) : Gate :=
  let grp := ms.map (·.e)
  let fx := g.x.fmt
  let kind := (c.slotEntry slot).kind
  if c.diag ∨ ms.any (fun m => (c.engine m.e).active.isSome || s.engineTested k m.e) ∨ c.fusionPending f mt m then .wait
  else match ms.findSome? (fun m => s.substOn k (some m.e)) with
  | some lv => .stop 0x41 (lv * 2 ^ 28)
  | none =>
    if !fx.isInput then .stop 0x10 (1 * 2 ^ 28 + fx.code * 2 ^ 24)
    else match ms.findSome? (passMemberFault c h f.ent.handle fx) with
    | some (r, x) => .stop r x
    | none =>
      if mixedFormats c ms then .stop 0x10 (2 * 2 ^ 28 + g.wfmt.code * 2 ^ 24)
      else match (if mode = 3 then none else c.regionFault g.wfmt slot (c.otherRun grp slot (some f.id))) with
      | some x => .stop 0x12 (regionDetail x slot)
      | none =>
        if (mode = 1 ∨ mode = 2) ∧ kind.isSome ∧ kind ≠ some fx.viaBfp then
          .stop 0x10 (2 * 2 ^ 28 + fx.code * 2 ^ 24)
        else match ms.find? (fun m => ((c.engine m.e).plane m.p).st == .fenced) with
        | some m => .fence m.e m.p
        | none => if mode ≠ 3 ∧ c.slotBusy grp slot then .wait else .go

/-- The input class of `EPASS` (R391). -/
def inputClass (f : Fmt) : Nat :=
  match f with
  | .int4 | .uint4 => 0
  | .int8 | .uint8 | .cb4 | .cb8 => 1
  | _ => 2

/-- The weight class of `EPASS` (R391). -/
def weightClass (f : Fmt) : Nat :=
  match f with
  | .int4 => 1
  | .int2 | .tern => 2
  | _ => 0

/-- The energy of the passes of a group in pJ (R377, R391). -/
def passEnergy (pl : Placement) (x w : Fmt) (n : Nat) : Nat := n * at' pl.psig.epass (3 * inputClass x + weightClass w) 0

/-- Energy of the present tick on the die of core `k` (R377). -/
def State.addEnergy (s : State) (k pj : Nat) : State :=
  { s with dies := modAt s.dies (k / 128) (fun d => { d with act := d.act + pj }) }

/-- The Yoke's estimate of die `d` in this tick with `pj` more energy, in mW (R377, R378). -/
def State.drawWith (s : State) (d pj : Nat) : Nat :=
  let m := at' s.yoke.doms d Domain.fresh
  let e := m.kappa * ((s.die d).standing * 1000 + (s.die d).act + pj) / 65536 / 1000
  if m.limited then m.draw + e - m.estS else e

/-- Starting passes of `pj` would take the die's estimate above its part of the envelope, and it has no ballast left to
withdraw (R392). -/
def State.overPart (s : State) (d pj : Nat) : Bool := (s.die d).bal.isEmpty && decide ((s.die d).part < s.drawWith d pj)

/-- The power conditions of passes of `pj` (R387, R392 to R394): the state after counting, and whether they may start. The
engines of a group that run ballast change to work without a start, and those that go on in the next cycle have not stopped. -/
def State.powerGate (s : State) (k : Nat) (ms : List Member) (pj : Nat) (tm : PassTiming) : State × Bool :=
  let lead := ((ms.head?).map (·.e)).getD 0
  let key := 32 * k + lead
  let d := k / 128
  let n := (ms.filter (fun m => !(s.ballastOn k m.e))).length
  if s.overPart d pj then
    if s.yoke.held.contains key then (s, false)
    else ({ s with yoke := { s.yoke with
            held := key :: s.yoke.held
            regs := { s.yoke.regs with powerHold := inc s.yoke.regs.powerHold } } }, false)
  else
    let s1 := { s with yoke := { s.yoke with held := s.yoke.held.filter (· != key) } }
    match s1.dies[d]? with
    | none => (s1, true)
    | some die =>
      if n = 0 then (s1, true)
      else if !tm.start then ({ s1 with dies := s1.dies.set d { die with stops := die.stops - n } }, true)
      else if die.granted.contains (k, lead) then
        ({ s1 with dies := s1.dies.set d { die with granted := die.granted.filter (· != (k, lead)) } }, true)
      else if die.waiting.any (fun w => w.1 == k && w.2.1 == lead) then (s1, false)
      else if die.waiting.isEmpty ∧ die.starts + n ≤ die.limit then
        ({ s1 with dies := s1.dies.set d { die with starts := die.starts + n } }, true)
      else
        ({ s1 with
            dies := s1.dies.set d { die with waiting := die.waiting ++ [(k, lead, n)] }
            yoke := { s1.yoke with regs := { s1.yoke.regs with combWait := incBy s1.yoke.regs.combWait n } } },
          false)

/-- The run that a pass of the engines `grp` of flight `fl` on a slot continues (R125). -/
def Core.runFor (c : Core) (grp : List Nat) (slot mode fl : Nat) : Option OpenRun :=
  c.acc.opens.find? (fun x => x.group == grp && x.slot == slot && x.flight == fl && mode != 3)

/-- The open runs after that pass: those of the same engines end, and those of other engines of the macro on its slot;
the run of an INIT or ADD is open (R125, R277). -/
def Core.opensAfter (c : Core) (grp : List Nat) (slot mode fl rid : Nat) : List OpenRun :=
  c.acc.opens.filter (fun x => x.group != grp && !(mode != 3 && x.slot == slot && x.flight == fl)) ++
    (if mode < 2 then [⟨rid, grp, slot, fl⟩] else [])

/-- The pass names its run; the runs that it ends, and whose results have drained, are written to their slots (R125). -/
def Core.nameRun (c : Core) (grp : List Nat) (slot mode fl : Nat) : Eff (Core × Nat) :=
  let rid := match c.runFor grp slot mode fl with
    | some x => x.id
    | none => c.acc.nextRun
  let c1 := { c with acc := { c.acc with
    opens := c.opensAfter grp slot mode fl rid
    nextRun := max c.acc.nextRun (rid + 1) } }
  (closeRuns (c1.acc.runs.filter (fun r => r.id != rid && c1.runOver r.id)) c1).bind fun c2 => .ok (c2, rid)

/-- The pass of `ms` starts: its vectors are read, its result set is prepared (R89, R120, R122). -/
def State.startPass (s : State) (k : Nat) (f : Flight) (g : Geo) (ms : List Member) (mt m u j slot mode half : Nat)
    (kbs : List Nat) (rest : List DCmd) (tm : PassTiming) : Eff State :=
  let lead := ((ms.head?).map (·.e)).getD 0
  let fx := g.x.fmt
  (((s.core k).enter [] tm.upset).nameRun (ms.map (·.e)) slot mode f.id).bind fun q =>
  let c1 := q.1
  (c1.memberVecs f g.x m half kbs g.kk ms).bind fun v =>
    let cnt := ((ms.head?).map (·.cnt)).getD 0
    let res : Result := ⟨[], fx.viaBfp, v.2, mode, slot, c1.acc.accBase, c1.acc.accStride, f.id, mt, m, u,
      j * g.wfmt.outputs, g.nlim j cnt, ms.map (·.e), q.2⟩
    let c2 := { c1 with
      acc := { c1.acc with
        passes := c1.acc.passes ++ [(⟨lead, v.1, fx.viaBfp, v.2, res⟩ : PassRun)]
        slotTag := if mode = 0 then Tbl.set c1.acc.slotTag slot { c1.slotEntry slot with kind := some fx.viaBfp }
          else c1.acc.slotTag }
      prog := { c1.prog with penWait := incBy c1.prog.penWait tm.penWait }
      sp := { c1.sp with portWait := incBy c1.sp.portWait tm.portWait } }
    .ok (s.setCore k ((c2.modFlight f.id (fun x => { x with fence := none })).popTodo f.id rest))

/-- A pass that reaches a FENCED plane waits, and is counted once (R336, R339). -/
def State.fencePass (s : State) (k : Nat) (f : Flight) (e p : Nat) : State :=
  if f.fence.isSome then s
  else { s.modCore k (fun c => c.modFlight f.id (fun x => { x with fence := some (e, p) })) with
    inst := { s.inst with fenceWaits := inc s.inst.fenceWaits } }

/-- PASS_ISSUE: the Drover's next command is a pass or a group step. -/
def State.issuePass (s : State) (k : Nat) (tm : PassTiming) : State :=
  let c := s.core k
  if !c.live then s
  else match c.drover (fun d => match d with
      | .pass _ _ _ _ _ _ _ _ _ => true
      | _ => false) with
    | some (f, .pass ms mt m u j slot mode half kbs, rest) =>
      match s.namedPlacement c f.ent.handle with
      | .error x => s.haltEntry k f.ent 0x07 (deniedDetail f.ent.handle 0 0 x)
      | .ok pl =>
        let g := f.geo pl k
        match s.passGate c k f g pl.handle ms mt m slot mode with
        | .wait => s
        | .stop r x => s.haltEntry k f.ent r x
        | .fence e p => s.fencePass k f e p
        | .go =>
          let pj := passEnergy pl g.x.fmt g.wfmt ms.length
          match s.powerGate k ms pj tm with
          | (s1, false) => s1
          | (s1, true) =>
            match s1.startPass k f g ms mt m u j slot mode half kbs rest tm with
            | .wait => s
            | .stop c1 r x => (s1.setCore k c1).haltEntry k f.ent r x
            | .ok s2 => (s2.endBallast k (ms.map (·.e))).addEnergy k pj
    | _ => s

/-- PASS_ISSUE (R44). -/
def execPassIssue (k : Nat) (tm : PassTiming) (s : State) : Host.Outcome State Fault Refusal :=
  answer (coreOk k) (s.issuePass k tm)

/-! ### Pass results and the check (R48 to R55, R64, R68) -/

/-- The result of one member: block outputs of `nlim` words, whether the check is good, blocks flushed. `errs` are the
errors of array logic in the pass. -/
def Core.memberResult (c : Core) (bfp : Bool) (nlim : Nat) (errs : List ArrayErr) (v : Member × List Int × List Nat) :
    List Word × Bool × Nat :=
  let r := (c.engine v.1.e).pass v.1.p bfp v.2.1 v.2.2 (errsOf errs v.1.e)
  (tabulate nlim (fun n => resultWord bfp r.scale (at' r.ys (v.1.off + n) 0)), r.good,
    if bfp then flushCount (fun i => at' v.2.1 i 0) v.2.2 else 0)

/-- A plane whose check failed: a LIVE or EMPTY one is FENCED, and its doubt is to be diagnosed (R68, R69, R385). -/
def Plane.suspect (p : Plane) : Plane :=
  match p.st with
  | .live | .fenced | .empty => { p with st := .fenced, doubt := true }
  | _ => p

/-- A plane whose check failed is FENCED (R68, R69). -/
def Core.fencePlane (c : Core) (e p : Nat) : Core :=
  let g := c.engine e
  c.setEngine e (g.setPlane p (g.plane p).suspect)

/-- ARRAY.BW_EVENT and ARRAY.BW_COUNT after a failed check (R83). -/
def Core.countBw (c : Core) : Core :=
  { c with arr := { c.arr with bwEvent := setBit c.arr.bwEvent 0, bwCount := inc c.arr.bwCount } }

/-- PASS_RESULT_COMPLETE on lead engine `e`; the merged result of a group stands in its lead's result sets (
DEDUCED, log 94). -/
def State.completePass (s : State) (k e : Nat) (errs : List ArrayErr) : State :=
  let c := s.core k
  if (c.engine e).active.isSome then s
  else match c.acc.passes.find? (fun x => x.lead == e) with
  | none => s
  | some x =>
    let c0 := { c with acc := { c.acc with passes := c.acc.passes.erase x } }
    let rs := x.members.map (fun v => (v.1, c.memberResult x.bfp x.res.nlim errs v))
    let bad := (rs.filter (fun r => !r.2.2.1)).map (·.1)
    let flushed := (rs.map (fun r => r.2.2.2)).foldl (· + ·) 0
    match bad with
    | b :: _ =>
      let c1 := bad.foldl (fun c m => (c.fencePlane m.e m.p).countBw) c0
      let s1 := s.setCore k c1
      (match c.q.flights.find? (fun f => f.id == x.res.flight) with
      | some f => s1.haltEntry k f.ent 0x20 (b.e * 2 ^ 11 + b.p * 2 ^ 8)
      | none => s1)
    | [] =>
      if !c.live then s.setCore k c0
      else
        let outs := (treeSum (addWords x.bfp) rs.length (rs.map (fun r => r.2.1))).getD []
        let c1 := c0.setEngine e { c0.engine e with active := some { x.res with outs := outs } }
        let s1 := s.setCore k c1
        match c.entry with
        | some q => s1.modEntry q (fun en => { en with frame := { en.frame with flushed := en.frame.flushed + flushed } })
        | none => s1

/-- The engines whose pass of lead `e` completes. -/
def Core.passEngines (c : Core) (e : Nat) : List Nat :=
  match c.acc.passes.find? (fun x => x.lead == e) with
  | some x => x.members.map (fun v => v.1.e)
  | none => []

/-- PASS_RESULT_COMPLETE (R48); engines with no further pass may change to ballast (R387). -/
def execPassResultComplete (k : Nat) (r : ResultIn) (s : State) : Host.Outcome State Fault Refusal :=
  answer (coreOk k && engineOk r.e) (((s.core k).passEngines r.e).foldl (fun t x => t.keepBallast k x)
    (s.completePass k r.e r.errs))

/-! ### Dynamic row writes (R58 to R62, R281) -/

/-- The weights of plane row `row` of block (kb, j): elements O·j to O·j + O − 1 of W row 512·kb + row, zero at or
beyond the actual N; with the tag of their source. -/
def Core.dynSource (c : Core) (w : Ten) (o n kb j row : Nat) : Eff (Core × List Nat × Nat) :=
  let i := kb * 512 + row
  let lim := min o (min n w.maxc - j * o)
  let v := w.view
  let fin (c1 : Core) (codes : List Nat) (t : Nat) : Eff (Core × List Nat × Nat) :=
    .ok (c1, codes ++ List.replicate (o - codes.length) 0, t)
  if w.loc = 2 then (c.readRun v i (j * o) lim).bind fun r => fin c r.1 r.2
  else
    let a := v.row i + j * o * v.w / 8
    (c.spRead a (rowBytes lim v.w)).bind fun r =>
      fin r.1 (elems r.2 v.w lim) (r.1.lineTags a (rowBytes lim v.w))

/-- The 256 data bits that codes of `w` bits make (R39). -/
def packRow (w : Nat) (codes : List Nat) : Nat := codes.foldr (fun x a => a * 2 ^ w + x % 2 ^ w) 0

/-- A row of W staged through a register: the register row's bytes are not stated and become free values,
`free` counting them. -/
def Core.stageRow (c : Core) (reg row tag free : Nat) : Core :=
  c.trWrite reg (row % 64) 0 (tabulate 512 (fun i => BitVec.ofNat 8 (Config.openValue 1 free i))) tag

/-- The staging register of a macro whose W lies in the scratchpad (R281). -/
def Flight.staging (f : Flight) : Nat :=
  if f.ent.ins.op = 0x2A then f.ent.ins.mCTREG else f.plan.ptr + f.plan.ptn

/-- The plane after a row write (R58, R60, R61, R63). -/
def Plane.writeRow (p : Plane) (fm : Fmt) (row data tag : Nat) (clear : Bool) : Plane :=
  let p0 := if clear then { p with written := 0, tag := 0 } else p
  { p0 with
    rows := Tbl.setNum p0.rows row (rowWithResidue fm data)
    written := if bitAt p0.written row then p0.written else p0.written + 2 ^ row
    tag := p0.tag ||| tag }

/-- The dynamic row write that is the Drover's next command. -/
def State.rowWrite (s : State) (k : Nat) (f : Flight) (e p kb j row : Nat) (clear : Bool) : Eff State :=
  let c := s.core k
  let pl := (c.engine e).plane p
  let w := f.ent.ten (if f.ent.ins.op = 0x2A then 1 else 2)
  let en := s.frameOf c
  let mine := match pl.dyn, en with
    | some h, some x => x.frame.places.contains h
    | _, _ => false
  if !mine then .stop c 0x14 (f.ent.handle * 2 ^ 16 + e * 2 ^ 11 + p * 2 ^ 8)
  else if pl.wfmt ≠ some w.fmt then .stop c 0x10 (2 * 2 ^ 28 + w.fmt.code * 2 ^ 24)
  else if pl.st ≠ .live ∨ c.diag ∨ c.acc.passes.any (fun x => x.members.any (fun v => v.1.e == e && v.1.p == p)) then .wait
  else
    let n := match f.ent.ins.op with
      | 0x2A => actualLen w.colLen none w.maxc
      | _ => actualLen w.colLen f.plan.colLen (max w.maxc f.plan.ymaxc)
    (c.dynSource w w.fmt.outputs n kb j row).bind fun r =>
      if w.fmt = .tern ∧ r.2.1.any (fun x => x % 4 == 2) then
        .stop r.1 0x10 (2 * 2 ^ 28 + w.fmt.code * 2 ^ 24)
      else
        let g := r.1.engine e
        let c1 := r.1.setEngine e (g.setPlane p (pl.writeRow w.fmt row (packRow w.fmt.width r.2.1) r.2.2 clear))
        if w.loc = 2 then .ok (s.setCore k c1)
        else .ok { s.setCore k (c1.stageRow f.staging row r.2.2 s.pkg.free) with
          pkg := { s.pkg with free := s.pkg.free + 1 } }

/-- DYNAMIC_ROW_WRITE (R58). -/
def execDynamicRowWrite (k : Nat) (tm : Timing) (s : State) : Host.Outcome State Fault Refusal :=
  answer (coreOk k) (
    let c := s.core k
    if !c.live then s
    else match c.drover (fun d => match d with
        | .rowWrite _ _ _ _ _ _ => true
        | _ => false) with
      | some (f, .rowWrite e p kb j row clear, rest) =>
        (match s.conflictStop (some 1) tm with
        | some d => s.haltEntry k f.ent 0x0E d
        | none =>
          let s0 := s.enter k tm
          match s0.rowWrite k f e p kb j row clear with
          | .wait => s
          | .stop c1 r x => ((s0.setCore k c1).timed k (some 1) tm).haltEntry k f.ent r x
          | .ok s1 =>
            ((s1.modCore k (fun c1 => c1.popTodo f.id rest)).timed k (some 1) tm).addEnergy k
              (match s.namedPlacement c f.ent.handle with
              | .ok pl => pl.psig.erow
              | .error _ => 0))
      | _ => s)

/-! ### Field tiles (R289 to R291) -/

/-- Lines `c0` to `c1 − 1` of a row with the elements beyond an actual length replaced by the pad value, within the
planned columns (R267). -/
def padRow (t : Ten) (m n i c0 c1 : Nat) (b : List Byte) : List Byte :=
  if !t.devPad then b
  else
    let from_ := if m ≤ i then 0 else n
    let w := t.fmt.width
    let hit := (List.range t.maxc).filter (fun j => decide (from_ ≤ j) && decide (c0 ≤ j * w / 512) && decide (j * w / 512 < c1))
    let mem : Mem := Mem.writeBytes [] (c0 * 64) b
    Mem.readBytes (hit.foldl (fun x j => Mem.setElem x 0 w j t.padval) mem) (c0 * 64) b.length

/-- Lines `c0` to `c1 − 1` of row `i` of the source: bytes and line tags. -/
def State.moveRow (s : State) (c : Core) (f : Flight) (t : Ten) (i c0 c1 : Nat) : Eff (Core × List Byte × List Nat) :=
  let lines := c1 - c0
  let a := t.base * 64 + i * t.rstr * 64 + c0 * 64
  if t.loc = 0 then
    let x := t.base + i * t.rstr * 64 + c0 * 64
    (c.spRead x (lines * 64)).bind fun r =>
      .ok (r.1, r.2, tabulate lines (fun j => Tbl.num r.1.mem.lineTag (x / 64 + j)))
  else match s.frameOf c with
    | none => .wait
    | some e =>
      if t.space = 1 then
        .ok (c, Mem.readBytes e.frame.work a (lines * 64), tabulate lines (fun j => Tbl.num e.frame.workTag (a / 64 + j)))
      else
        let src := match t.space, e.op, s.namedPlacement c f.ent.handle with
          | 0, .run b, _ => b.input
          | 2, _, .ok p => p.region
          | _, _, _ => []
        .ok (c, tabulate (lines * 64) (fun j => at' src (a + j) 0), List.replicate lines 0)

/-- The lines of rows `r0` on, columns of lines `c0` to `c1`: (source row, first line, bytes, tags). -/
def State.moveRows (s : State) (f : Flight) (t : Ten) (m n c0 c1 : Nat) :
    Nat → Nat → Core → Eff (Core × List (Nat × Nat × List Byte × Nat))
  | 0, _, c => .ok (c, [])
  | k + 1, i, c =>
    (s.moveRow c f t i c0 c1).bind fun r =>
      let b := padRow t m n i c0 c1 r.2.1
      let ls := (List.range (c1 - c0)).map (fun j => (i, c0 + j, slice b (j * 64) 64, at' r.2.2 j 0))
      (State.moveRows s f t m n c0 c1 k (i + 1) r.1).bind fun z => .ok (z.1, ls ++ z.2)

/-- Lines written to the scratchpad of the core. -/
def putLines (v : Mov) : List (Nat × Nat × List Byte × Nat) → Core → Eff Core
  | [], c => .ok c
  | (i, l, b, t) :: r, c => (c.spWrite 2 (v.dbase + (i * v.dstr + l) * 64) b (some t)).bind (putLines v r)

/-- Lines written to WORK. -/
def workLines (v : Mov) (ls : List (Nat × Nat × List Byte × Nat)) (fr : FrameRun) : FrameRun :=
  { fr with
    work := ls.foldl (fun m l => Mem.writeBytes m ((v.dbase + l.1 * v.dstr + l.2.1) * 64) l.2.2.1) fr.work
    workTag := ls.foldl (fun m l => Tbl.setNum m (v.dbase + l.1 * v.dstr + l.2.1) l.2.2.2) fr.workTag }

/-- A multicast field tile (R290): it lands in every destination once all hold credit, and waits until then. -/
def State.castTile (s : State) (k : Nat) (f : Flight) (v : Mov) (ls : List (Nat × Nat × List Byte × Nat))
    (last : Bool) : Eff State :=
  let c := s.core k
  let dests := mcastCores k v.mcast
  let data := ls.map (fun l => (v.dbase + l.1 * v.dstr + l.2.1, l.2.2.1, l.2.2.2))
  let n := ls.length
  let off := (data.head?.map (·.1)).getD 0
  let ends := (data.map (fun l => l.1)).foldl max 0
  match dests.findSome? (fun d => match s.substOn d none with
      | some lv => some (0x41, lv * 2 ^ 28)
      | none => s.depositFault k d v.dwin off (ends + 1 - off)) with
  | some (r, x) => .stop c r x
  | none =>
    let is (d : Deposit) : Bool := match d.src with
      | .multicast k' fl => k' == k && fl == f.id
      | _ => false
    let me : Deposit := ⟨((s.deposits.find? is).map (·.id)).getD s.nextDep, .multicast k f.id, dests, v.dwin, 0, n, none,
      data, true, last⟩
    if dests.all (fun d => s.hasCredit d v.dwin n) && !(s.depositBefore me) then
      let s1 := dests.foldl (fun s d => s.takeCredit d v.dwin n) { s with deposits := s.deposits.filter (fun d => !is d) }
      match landAll me data dests s1 with
      | some s2 => .ok s2
      | none => .wait
    else if s.deposits.any is then .wait
    else .ok (s.addDeposit ⟨0, .multicast k f.id, dests, v.dwin, 0, n, none, data, false, last⟩)

/-- The field tile that is the Drover's next command. A multicast tile that must wait for credit is only
recorded as waiting. -/
def State.fieldStep (s : State) (k : Nat) (f : Flight) (r0 r1 c0 c1 : Nat) (last : Bool) : Eff State :=
  let t := f.ent.ten 1
  let v := f.ent.mov 2
  let m := actualLen t.rowLen none t.maxr
  let n := actualLen t.colLen none t.maxc
  (s.moveRows f t m n c0 c1 (r1 - r0) r0 (s.core k)).bind fun q =>
    let s1 := s.setCore k q.1
    if v.mcast ≠ 0 then s1.castTile k f v q.2 last
    else if v.dwork then
      match q.1.entry with
      | some id => .ok (s1.modEntry id (fun e => { e with frame := workLines v q.2 e.frame }))
      | none => .ok s1
    else (putLines v q.2 q.1).bind fun c1 => .ok (s.setCore k c1)

/-- A multicast tile of flight `fl` of core `k` waits for credit. -/
def State.castWaits (s : State) (k fl : Nat) : Bool :=
  s.deposits.any (fun d => match d.src with
    | .multicast k' fl' => k' == k && fl' == fl
    | _ => false)

/-- The field tile that is due moves, or it waits for credit. -/
def State.moveField (s : State) (k coalesced : Nat) (tm : Timing) : State :=
  let c := s.core k
  if !c.live then s
  else match c.drover (fun d => match d with
      | .field _ _ _ _ _ => true
      | _ => false) with
    | some (f, .field r0 r1 c0 c1 last, rest) =>
      let s0 := s.enter k tm
      (match s0.fieldStep k f r0 r1 c0 c1 last with
      | .wait => s
      | .stop c1 r x => ((s0.setCore k c1).timed k none tm).haltEntry k f.ent r x
      | .ok s1 =>
        if s1.castWaits k f.id then s1.timed k none tm
        else (s1.modCore k (fun c1 => { c1.popTodo f.id rest with
          prog := { c1.prog with coalesced := incBy c1.prog.coalesced coalesced } })).timed k none tm)
    | _ => s

/-- FIELD_TILE (R289). -/
def execFieldTile (k : Nat) (t : TileIn) (s : State) : Host.Outcome State Fault Refusal :=
  answer (coreOk k) (s.moveField k t.coalesced t.tm)

/-! ### Completion (R215, R126) -/

/-- Nothing of the flight is on its way. -/
def State.flightDone (s : State) (k : Nat) (c : Core) (f : Flight) : Bool :=
  f.ran && f.todo.isEmpty && !f.atHead && !c.inPipe (fun r => r.flight == f.id) &&
    !(s.deposits.any (fun d => match d.src with
      | .core k' fl => k' == k && fl == f.id
      | .multicast k' fl => k' == k && fl == f.id
      | .hub _ => false))

/-- The counters of a completed macro (R293, R314). -/
def countMacro (f : Flight) (p : ProgRegs) : ProgRegs :=
  let op := f.ent.ins.op
  if !isMacro op then p
  else { p with
    macros := inc p.macros
    zeroLen := if f.zero then inc p.zeroLen else p.zeroLen
    vecMacros := if op = 0x48 ∨ op = 0x49 then inc p.vecMacros else p.vecMacros }

/-- A started instruction completes: every run it opened is written to its slot, and it signals. -/
def State.finishFlight (s : State) (k : Nat) (f : Flight) : State :=
  let c := s.core k
  match closeRuns (c.acc.runs.filter (fun r => r.flight == f.id)) c with
  | .wait => s
  | .stop c1 r x => (s.setCore k c1).haltEntry k f.ent r x
  | .ok c1 =>
    let c2 := { c1 with
      q := { c1.q with flights := c1.q.flights.filter (fun g => g.id != f.id) }
      acc := { c1.acc with opens := c1.acc.opens.filter (fun x => x.flight != f.id) }
      prog := countMacro f c1.prog }
    let s1 := s.setCore k c2
    let s2 := if f.ent.ins.se then s1.signal k f.ent.ins.sctr (f.ent.ins.sinc + 1) f.ent.ctx f.ent.pc f.ent.depth else s1
    s2.settle k

/-- INSTRUCTION_COMPLETE (R215). -/
def execInstructionComplete (k id : Nat) (s : State) : Host.Outcome State Fault Refusal :=
  answer (coreOk k) (
    let c := s.core k
    if !c.live then s
    else match c.q.flights.find? (fun f => f.id == id) with
      | some f => if s.flightDone k c f then s.finishFlight k f else s
      | none => s)

end Sys2Proof.Machine
end

