-- ==== Sys2Proof/Machine/Install.lean ====
section
/-! DEFINITION. Commits of bulk objects (10 R321, R322, R330 to R338, 06 R203 to R205, 02 R76): the layout of an
installation image, its checks, the claim and programming of planes, routines, patches and removal. -/
namespace Sys2Proof.Machine
open Sys2Proof

/-! ### Planes -/

/-- The smallest of a list, 0 when it is empty. -/
def least : List Nat → Nat
  | [] => 0
  | a :: r => r.foldl min a

/-- The threshold of a plane: the smallest among the placements on it that no commit has removed; with all of them
removed, the smallest among those (R65). -/
def State.planeThr (s : State) (spans : List SpanOn) (dyn : Option Nat) : Nat :=
  let on := s.placements.filter (fun p => (spans.map (·.handle) ++ dyn.toList).contains p.handle)
  let kept := on.filter (fun p => p.removed.isNone)
  least ((if kept.isEmpty then on else kept).map (·.bwth))

/-- The span covers columns `off·w` to `(off + cnt)·w − 1` of a plane. -/
def SpanOn.overlaps (x : SpanOn) (off cnt : Nat) : Bool := meets x.off x.cnt off cnt

/-- The bits from `a` on, `n` of them, of a row replaced by those of `v`. -/
def putField (row a n v : Nat) : Nat := row - row / 2 ^ a % 2 ^ n * 2 ^ a + v % 2 ^ n * 2 ^ a

/-- A span's rows written into a plane of format `f`: other columns keep what they held, residues are computed on
the way in (R41, R63, R331). -/
def writeSpan (f : Fmt) (off cnt : Nat) (rows : List Nat) (t : Tbl Nat) : Tbl Nat :=
  (List.range 512).filterMap (fun r =>
    let new := putField (Tbl.num t r % 2 ^ 256) (off * f.width) (cnt * f.width) (at' rows r 0)
    if new = 0 then none else some (r, rowWithResidue f new))

/-- A plane with a span of placement `h` programmed. -/
def Plane.addSpan (p : Plane) (f : Fmt) (tenant h : Nat) (x : Span) (rows : List Nat) : Plane :=
  if x.dyn then { p with wfmt := some f, tenant := some tenant, dyn := some h, written := 0, tag := 0 }
  else { p with
    wfmt := some f
    tenant := some tenant
    spans := p.spans ++ [⟨h, x.off, x.cnt + 1, x.kb, x.j⟩]
    rows := writeSpan f x.off (x.cnt + 1) rows p.rows }

/-! ### The installation image (R321) -/

/-- The header's fields. -/
structure Img where
  handle  : Nat
  wcode   : Nat
  bwth    : Nat
  flags   : Nat
  replica : Nat
  kp      : Nat
  np      : Nat
  nspan   : Nat
  ncore   : Nat
  tables  : Nat
  region  : Nat
  psig    : Nat
  wkey    : Nat

/-- The header of an image. -/
def imgOf (m : Mem) : Img :=
  let n := Mem.readNum m
  ⟨n 6 2, n 8 1, n 9 1, n 0xA 2, n 0xC 2, n 0x10 4, n 0x14 4, n 0x18 4, n 0x1C 2, n 0x20 8, n 0x28 8, n 0x30 4, n 0x40 512⟩

/-- The span entry of word `w`. -/
def spanOf (w : Nat) : Span :=
  ⟨bits w 63 62, bits w 61 59, bits w 58 55, bits w 54 50, bits w 49 47, bitAt w 46, bits w 45 39, bits w 38 32,
    bits w 31 18, bits w 17 2⟩

/-- The spans of an image. -/
def imgSpans (m : Mem) (g : Img) : List Span := tabulate g.nspan (fun i => spanOf (Mem.readNum m (1024 + 8 * i) 8))

/-- Where the core entries start. -/
def Img.coreOff (g : Img) : Nat := 1024 + 8 * g.nspan

/-- Where the core entries end: they are padded with zeros to a multiple of 64 bytes. -/
def Img.recOff (g : Img) : Nat := g.coreOff + 64 * ceilDiv (2 * g.ncore) 64

/-- The core group of an image, as logical core indices. -/
def imgCores (m : Mem) (g : Img) : List Nat :=
  tabulate g.ncore (fun i =>
    let w := Mem.readNum m (g.coreOff + 2 * i) 2
    128 * bits w 15 14 + 16 * bits w 13 11 + bits w 10 7)

/-- A condition on an image, with the offset that is reported. -/
def first? (l : List (Bool × Nat)) : Option Nat := (l.find? (fun x => !x.1)).map (·.2)

/-- A reserved field of `n` bytes at `a` is 0 (R6). -/
def zeroFrom (m : Mem) (a n : Nat) : Bool × Nat := (Mem.readNum m a n == 0, a)

/-- The header's first invalid field. -/
def hdrBad (m : Mem) (g : Img) : Option Nat :=
  let dynamic := g.kp = 0 ∧ g.np = 0
  first? [(Mem.readNum m 0 4 == 0xD401, 0), (Mem.readNum m 4 2 == 1, 4),
    (g.wcode == 0 || g.wcode == 1 || g.wcode == 2 || g.wcode == 4, 8), (decide (g.bwth < 16), 9),
    (decide (g.flags < 2), 0xA), zeroFrom m 0xE 2,
    (decide (dynamic ∨ (1 ≤ g.kp ∧ g.kp ≤ 2 ^ 23)), 0x10), (decide (dynamic ∨ (1 ≤ g.np ∧ g.np ≤ 2 ^ 21)), 0x14),
    (decide (1 ≤ g.nspan ∧ g.nspan ≤ 131072), 0x18), (decide (1 ≤ g.ncore ∧ g.ncore ≤ 512), 0x1C), zeroFrom m 0x1E 2,
    (g.region % 64 == 0, 0x28), (g.psig == 32 + 2 * g.ncore, 0x30), zeroFrom m 0x34 12,
    zeroFrom m 0x240 448]

/-- The span and core entries' first invalid field: a dynamic span is a whole P7, a dynamic placement has no other,
the group holds every core with a span; then the padding of the core entries. -/
def listBad (m : Mem) (g : Img) : Option Nat :=
  let sp := imgSpans m g
  let cs := imgCores m g
  let spanOk (i : Nat) (x : Span) : Bool × Nat :=
    (Mem.readNum m (1024 + 8 * i) 8 % 4 == 0 &&
      (if x.dyn then x.plane == 7 && x.off == 0 && x.cnt == 0 && x.kb == 0 && x.j == 0 else decide (g.kp ≠ 0)) &&
      cs.contains x.k, 1024 + 8 * i)
  let coreOk' (i : Nat) : Bool × Nat := (Mem.readNum m (g.coreOff + 2 * i) 2 % 128 == 0, g.coreOff + 2 * i)
  let used := g.coreOff + 2 * g.ncore
  first? (sp.mapIdx spanOk ++ tabulate g.ncore coreOk' ++ tabulate (g.recOff - used) (fun i => zeroFrom m (used + i) 1))

/-- The first invalid field of the power signature table, as an offset of its plaintext (R391). -/
def psigBad (b : List Byte) (g : Img) : Option Nat :=
  first? [(leAt b 0 2 == 1, 0), (leAt b 2 2 == g.ncore, 2),
    ((List.range 9).all (fun i => leAt b (4 + 2 * i) 2 != 0), 4), (leAt b 0x18 8 == 0, 0x18)]

/-- The power signature table. -/
def psigOf (b : List Byte) (g : Img) : Psig :=
  ⟨tabulate 9 (fun i => leAt b (4 + 2 * i) 2), leAt b 0x16 2, tabulate g.ncore (fun i => leAt b (0x20 + 2 * i) 2)⟩

/-- The rows of each static span in list order from byte `o` on: 512 rows of `CNT` + 1 weights, each padded to a whole
byte (R321); dynamic spans carry none. -/
def goldOf (f : Fmt) (b : List Byte) : List Span → Nat → List (List Nat)
  | [], _ => []
  | x :: r, o =>
    if x.dyn then [] :: goldOf f b r o
    else
      let n := ceilDiv ((x.cnt + 1) * f.width) 8
      tabulate 512 (fun i => leAt b (o + i * n) n) :: goldOf f b r (o + 512 * n)

/-- Where the rows of each span lie in the plaintext from byte `o` on: first byte and end. -/
def rowRanges (f : Fmt) : List Span → Nat → List (Nat × Nat)
  | [], _ => []
  | x :: r, o =>
    let n := if x.dyn then 0 else 512 * ceilDiv ((x.cnt + 1) * f.width) 8
    (o, o + n) :: rowRanges f r (o + n)

/-- Bytes that power signatures and rows take. -/
def plainLen (f : Fmt) (g : Img) (sp : List Span) : Nat :=
  g.psig + ((sp.filter (fun x => !x.dyn)).map (fun x => 512 * ceilDiv ((x.cnt + 1) * f.width) 8)).foldl (· + ·) 0

/-- The plaintext offset of the first byte with a TERN code 0b10 among the weights from byte `o` on (R40). -/
def badTern (f : Fmt) (b : List Byte) (o : Nat) : Option Nat :=
  if f = .tern then
    ((b.drop o).findIdx? (fun x => (List.range 4).any (fun n => x.toNat / 4 ^ n % 4 == 2))).map (· + o)
  else none

/-! ### Records (R323) -/

/-- The records of an object from byte `o` on: where the plaintext of each lies in the object, and its length; then the
offset of the first field that breaks R323. -/
def recordsOf (m : Mem) (len : Nat) : Nat → Nat → List (Nat × Nat) × Option Nat
  | 0, o => ([], some o)
  | f + 1, o =>
    if o = len then ([], none)
    else
      let n := Mem.readNum m (o + 12) 4
      if len < o + 16 then ([], some o)
      else if n = 0 ∨ 65536 < n ∨ len < o + 32 + n then ([], some (o + 12))
      else
        let r := recordsOf m len f (o + 32 + n)
        ((o + 16, n) :: r.1, r.2)

/-- Where byte `p` of the plaintext lies in the object; beyond its end, the end of the last record's. -/
def objOffset : List (Nat × Nat) → Nat → Nat
  | [], p => p
  | [x], p => x.1 + min p x.2
  | x :: y :: r, p => if p < x.2 then x.1 + p else objOffset (y :: r) (p - x.2)

/-- The offset of an object's bytes from `o` on that breaks R323. -/
def Obj.records (x : Obj) (o : Nat) : List (Nat × Nat) × Option Nat := recordsOf x.data x.len (x.len + 1) o

/-! ### Tables (R322) -/

/-- The bytes of an entry of an item (R98). -/
def entryBytes (kind : Nat) : Nat :=
  match kind with
  | 0 => 4
  | 1 => 2
  | 3 => 8
  | 4 => 8
  | 5 => 4
  | 6 => 4
  | _ => 1

/-- The count that an item must have. -/
def countOk (kind n : Nat) : Bool :=
  match kind with
  | 0 => n == 128
  | 1 => n == 128
  | 3 => n == 1
  | 4 => n == 256
  | 5 => decide (1 ≤ n) && decide (n ≤ 255)
  | 6 => decide (1 ≤ n) && decide (n ≤ 255)
  | 7 => n == 16 || n == 256
  | _ => false

/-- The tables of a plaintext from byte `o` on, or the offset of the first field that breaks R322. -/
def tablesOf (b : List Byte) : Nat → Nat → List Table → Except Nat (List Table)
  | 0, o, _ => .error o
  | f + 1, o, acc =>
    if o = b.length then .ok acc
    else
      let tidx := leAt b o 2
      let kind := leAt b (o + 2) 1
      let n := leAt b (o + 4) 4
      let next := o + 8 * ceilDiv (8 + n * entryBytes kind) 8
      if b.length < o + 8 ∨ 4096 ≤ tidx ∨ acc.any (fun t => t.tidx == tidx) then .error o
      else if kind = 2 ∨ 8 ≤ kind then .error (o + 2)
      else if leAt b (o + 3) 1 ≠ 0 then .error (o + 3)
      else if !(countOk kind n) then .error (o + 4)
      else if b.length < next then .error b.length
      else tablesOf b f next (acc ++ [⟨tidx, kind, tabulate n (fun i =>
        leAt b (o + 8 + i * entryBytes kind) (entryBytes kind))⟩])

/-- The tables of a waiting TABLES object, or the offset in the object of the first field that breaks R322 or R323. -/
def objTables (o : Option Obj) (b : List Byte) : Except Nat (List Table) :=
  match o with
  | none => .ok []
  | some x =>
    let r := x.records 0
    match r.2, tablesOf b (b.length + 1) 0 [] with
    | some n, _ => .error n
    | none, .error n => .error (objOffset r.1 n)
    | none, .ok l => .ok l

/-! ### The checks of a STAGING commit (R330) -/

/-- A static span's plane takes it: EMPTY, or LIVE with spans of the same tenant and format that it does not overlap;
a dynamic span's plane is EMPTY and no static span lies on it. -/
def State.planeTakes (s : State) (tenant : Nat) (f : Fmt) (x : Span) : Bool :=
  let p := ((s.core x.k).engine x.engine).plane x.plane
  match p.st with
  | .empty => true
  | .live => !x.dyn && p.tenant == some tenant && p.wfmt == some f && p.dyn.isNone &&
      !(p.spans.any (fun y => y.overlaps x.off (x.cnt + 1)))
  | _ => false

/-- Two spans of one image do not fit together: they overlap on one plane. -/
def clash (x y : Span) : Bool :=
  x.k == y.k && x.engine == y.engine && x.plane == y.plane && (x.dyn || y.dyn || meets x.off (x.cnt + 1) y.off (y.cnt + 1))

/-- The first span that does not fit (R330 check 6); a block that no span covers, or that two do, is reported at the
second span or at `NSPAN` (DEDUCED, log 36). -/
def State.noFit (s : State) (tenant : Nat) (f : Fmt) (g : Img) (sp : List Span) : Option Nat :=
  let o := f.outputs
  let js := ceilDiv g.np o
  let ks := ceilDiv g.kp 512
  let bad (i : Nat) (x : Span) : Bool :=
    !(s.planeTakes tenant f x) || (sp.take i).any (clash x) ||
      (!x.dyn && (decide (ks ≤ x.kb) || decide (js ≤ x.j) ||
        (x.cnt + 1 != (if x.j + 1 < js then o else g.np - o * x.j)) || decide (o < x.off + x.cnt + 1) ||
        (sp.take i).any (fun y => !y.dyn && y.kb == x.kb && y.j == x.j)))
  match (sp.mapIdx (fun i x => (i, bad i x))).find? (·.2) with
  | some (i, _) => some i
  | none => if ks * js ≠ (sp.filter (fun x => !x.dyn)).length then some g.nspan else none

/-- The placements that are installed or claim planes. -/
def State.allPlacements (s : State) : List Placement := s.placements ++ s.installs.map (·.pl)

/-- Bytes of TB and PM that a placement takes on a die (06 R184). -/
def Placement.tbOn (p : Placement) (d : Nat) : Nat := if p.cores.any (fun k => dieOf k == d) then p.tabBytes else 0
def Placement.pmOn (p : Placement) (d : Nat) : Nat :=
  8 * (p.spans.filter (fun x => x.die == d)).length + 2 * (p.cores.filter (fun k => dieOf k == d)).length

/-- Bytes of TB and PM in use on a die, installations in progress among them. -/
def State.tbUsed (s : State) (d : Nat) : Nat := (s.allPlacements.map (fun p => p.tbOn d)).foldl (· + ·) 0
def State.pmUsed (s : State) (d : Nat) : Nat := (s.allPlacements.map (fun p => p.pmOn d)).foldl (· + ·) 0

/-- The bytes of a region of `mib` MiB on die `d` that are not on retired lines (R184, R464). -/
def State.roomOf (s : State) (d : Nat) (r : DsmRegion) (mib : Nat) : Nat :=
  mib * 1048576 - 64 * ((s.dsmOf d).badLines.filter (fun x => regionOf d x.1 == r)).length

/-- The MiB that the install pool, TB or PM lacks for a placement; the staged objects' own share is given back
(R330 check 7). -/
def State.poolLack (s : State) (pl : Placement) (freed : Nat) : Option Nat :=
  let room := s.poolSize + freed - s.poolUsed
  if room < pl.pool then some (mibLacking pl.pool room)
  else
    (sortedSet (pl.cores.map dieOf)).findSome? (fun d =>
      let tb := s.tbUsed d + pl.tbOn d
      let pm := s.pmUsed d + pl.pmOn d
      if s.roomOf d .tb 10 < tb then some (mibLacking tb (s.roomOf d .tb 10))
      else if s.roomOf d .pm 4 < pm then some (mibLacking pm (s.roomOf d .pm 4))
      else none)

/-- The placement is a replica of `q`: equal record, rows, tables and region, and spans at the same places relative to
the core groups (R338). -/
def replicaOk (p q : Placement) : Bool :=
  p.tenant == q.tenant && p.wfmt == q.wfmt && p.bwth == q.bwth && p.kp == q.kp && p.np == q.np && p.wkey == q.wkey &&
    p.copies.tlen == q.copies.tlen && p.cores.length == q.cores.length &&
    p.psig == q.psig && p.tables == q.tables && p.region == q.region && p.gold == q.gold &&
    p.spans.map (fun x => (p.cores.idxOf x.k, x.engine, x.plane, x.dyn, x.off, x.cnt, x.kb, x.j)) ==
      q.spans.map (fun x => (q.cores.idxOf x.k, x.engine, x.plane, x.dyn, x.off, x.cnt, x.kb, x.j))

/-- The stacks of the pages of a staged object: page p on stack p modulo 16 and four stacks further on (R319;
DESIGN CHOICE, log 95). -/
def stageStacks : List (Nat × Nat) := tabulate 16 (fun i => (i, (i + 4) % 16))

/-- The ciphertext that a placement keeps of its staged objects (R319). -/
def copiesOf (o : Obj) (tab reg : Option Obj) : Copies :=
  ⟨o.data, o.len, (tab.map (·.data)).getD [], (tab.map (·.len)).getD 0, (reg.map (·.data)).getD [],
    (reg.map (·.len)).getD 0, stageStacks, []⟩

/-- The placement that a staged image and its plaintexts give; its digest is that of the object as staged (R481). -/
def placementOf (tenant : Nat) (o : Obj) (g : Img) (f : Fmt) (i : CommitIn) (tb : List Table) (tab reg : Option Obj)
    (recs : List (Nat × Nat)) : Placement :=
  let c := copiesOf o tab reg
  { handle := g.handle, tenant := tenant, wfmt := f, bwth := g.bwth,
    replica := if bitAt g.flags 0 then some g.replica else none, replicaAt := 0, wkey := g.wkey, kp := g.kp, np := g.np, spans := imgSpans o.data g,
    cores := imgCores o.data g, psig := psigOf i.plain g, tables := tb, region := i.region,
    gold := goldOf f i.plain (imgSpans o.data g) g.psig, goldOk := 2, copies := c,
    rowsAt := (rowRanges f (imgSpans o.data g) g.psig).map (fun r => (objOffset recs r.1, objOffset recs r.2)), commit := 0, removed := none, notes := [],
    patched := [], digest := Config.sha512 ((Mem.dump o.data 0 o.len).map (·.toNat)),
    pool := 2 * o.len + 2 * c.tlen + c.rlen + g.region, tabBytes := i.tables.length, patch := [], reply := [],
    retiring := false }

/-- The planes that a placement claims, each once: core, engine, plane. -/
def Placement.planeKeys (p : Placement) : List (Nat × Nat × Nat) :=
  (p.spans.map (fun x => (x.k, x.engine, x.plane))).eraseDups

/-- Plane (k, e, p). -/
def State.planeAt (s : State) (x : Nat × Nat × Nat) : Plane := ((s.core x.1).engine x.2.1).plane x.2.2

/-- The waiting object of a target. -/
def State.waitingObj (s : State) (tenant target name : Nat) : Option Obj :=
  (s.obj? tenant target name).filter (·.waiting)

/-- The objects of a handle are discarded (R325, R331). -/
def State.dropObjects (s : State) (tenant name : Nat) : State :=
  ((s.dropObj tenant 0 name).dropObj tenant 2 name).dropObj tenant 3 name

/-- A refusal of a STAGING commit: waiting TABLES and REGION objects of the handle are discarded (R325). -/
def State.refuseStaging (s : State) (b : BulkIn) (tenant name status detail : Nat) : State :=
  let s1 := if (s.waitingObj tenant 2 name).isSome then s.dropObj tenant 2 name else s
  let s2 := if (s1.waitingObj tenant 3 name).isSome then s1.dropObj tenant 3 name else s1
  s2.replyTo b none status detail

/-- A refusal whose offset the spec does not give (DESIGN CHOICE, log 37). -/
def State.refuseOpenOffset (s : State) (b : BulkIn) (tenant name : Nat) : State :=
  let p := s.openWord 3 32
  p.1.refuseStaging b tenant name 8 p.2

/-- The planes of a placement are claimed, and the staged objects become its copies (R331 step 1). -/
def State.claim (s : State) (b : BulkIn) (tenant : Nat) (pl : Placement) (late : Option (Nat × Nat)) : State :=
  let keys := pl.planeKeys
  let empty := keys.filter (fun x => (s.planeAt x).st == .empty)
  let shared := keys.filter (fun x => (s.planeAt x).st == .live)
  let s1 := empty.foldl (fun s x => s.modPlane x.1 x.2.1 x.2.2 (fun _ => { Plane.fresh with st := .programming })) s
  let s2 := shared.foldl (fun s x => s.modPlane x.1 x.2.1 x.2.2 (fun p => { p with st := .fenced })) s1
  { s2.dropObjects tenant pl.handle with
    installs := s2.installs ++ [⟨{ pl with reply := (placeOf b).keep (bulkHead b.body).session }, empty, shared,
      b.port, b.body, late, []⟩] }

/-- What stops the decryption of an image's records, which goes in their order: a TERN code, or a record whose tag fails;
its status, its detail and the offset at which it is met (R331 step 2). -/
def decryptStop (i : CommitIn) (f : Fmt) (g : Img) (recs : List (Nat × Nat)) : Option (Nat × Nat) :=
  let t := (badTern f i.plain g.psig).map (objOffset recs)
  match i.badRecord, t with
  | none, none => none
  | some n, none => some (7, n)
  | none, some x => some (8, x)
  | some n, some x => if (at' recs n (0, 0)).1 ≤ x then some (7, n) else some (8, x)

/-- The first field of a REGION object that breaks R323. -/
def regionBad (reg : Option Obj) : Option Nat := reg.bind (fun o => (o.records 0).2)

/-- What stops step 4 of R331: a record of TABLES or REGION whose tag fails, a table that breaks R322, a record of the
region that breaks R323. -/
def partStop (i : CommitIn) (tb : Except Nat (List Table)) (reg : Option Obj) : Option (Nat × Nat) :=
  match i.badPart, tb, regionBad reg with
  | some n, _, _ => some (7, n)
  | none, .error x, _ => some (8, x)
  | none, .ok _, some x => some (8, x)
  | none, .ok _, none => none

/-- Check 7 of R330 and the replica's condition, then steps 1 and 2 of R331. -/
def State.stageImage (s : State) (b : BulkIn) (tenant : Nat) (o : Obj) (i : CommitIn) (g : Img) (f : Fmt)
    (tab reg : Option Obj) (recs : List (Nat × Nat)) : State :=
  let name := o.name
  let tb := objTables tab i.tables
  let pl0 := placementOf tenant o g f i (match tb with
    | .ok l => l
    | .error _ => []) tab reg recs
  let named := s.placements.find? (fun q => pl0.replica == some q.handle && q.removed.isNone && replicaOk pl0 q)
  let pl := { pl0 with replicaAt := (named.map (·.commit)).getD 0 }
  if pl.replica.isSome ∧ named.isNone then s.refuseStaging b tenant name 8 0xC
  else match s.poolLack pl (2 * o.len + 2 * pl.copies.tlen + 2 * pl.copies.rlen) with
    | some n => s.refuseStaging b tenant name 0x0B n
    | none => match decryptStop i f g recs with
      | some x => (s.dropObjects tenant name).replyTo b none x.1 x.2
      | none => s.claim b tenant pl (partStop i tb reg)

/-- The digest by which Sphinx keeps an unwrapped content key (R323). -/
def keyDigest (wkey : Nat) : Nat := Config.sha512 [wkey]

/-- The wrapped key unwraps: Sphinx has done so before and keeps it, or does so now (R323). -/
def State.unwraps (s : State) (wkey : Nat) (ok : Bool) : Bool := s.secure.content.contains (keyDigest wkey) || ok

/-- A content key that was unwrapped is kept; beyond 256 the one kept longest goes (R323; DESIGN CHOICE, log 96). -/
def State.keepKey (s : State) (wkey : Nat) : State :=
  let l := s.secure.content
  if l.contains (keyDigest wkey) then s
  else { s with secure := { s.secure with content := l.drop (l.length - 255) ++ [keyDigest wkey] } }

/-- Checks 2 to 7 of R330 on a complete STAGING object, then the claim. -/
def State.commitStaging (s0 : State) (b : BulkIn) (tenant : Nat) (o : Obj) (i : CommitIn) : State :=
  let known := s0.unwraps (imgOf o.data).wkey i.wkeyOk
  let s := if known then s0.keepKey (imgOf o.data).wkey else s0
  let name := o.name
  let no (st d : Nat) : State := s.refuseStaging b tenant name st d
  let g := imgOf o.data
  let sp := imgSpans o.data g
  let tab := s.waitingObj tenant 3 name
  let reg := s.waitingObj tenant 2 name
  if s.objects.any (fun x => x.name == name && x.tenant != tenant && (x.target == 0 || x.target == 2 || x.target == 3)) then
    no 7 0
  else if !known ∨ i.badRecord = some 0 then no 7 0
  else if s.placements.any (fun p => p.handle == name) ∨ s.installs.any (fun x => x.pl.handle == name) then no 9 name
  else match hdrBad o.data g with
    | some d => no 8 d
    | none =>
      if g.handle ≠ name then no 8 6
      else if o.len < g.recOff then no 8 0x18
      else match listBad o.data g, Fmt.ofCode g.wcode with
        | some d, _ => no 8 d
        | none, none => no 8 8
        | none, some f =>
          let tlen := (tab.map (·.len)).getD 0
          let recs := o.records g.recOff
          if tlen ≠ g.tables then no 8 0x20
          else if (if reg.isSome then i.region.length else 0) ≠ g.region then no 8 0x28
          else match recs.2, psigBad i.plain g with
            | some d, _ => no 8 d
            | none, some d => no 8 (objOffset recs.1 d)
            | none, none =>
              if i.plain.length ≠ plainLen f g sp then s.refuseOpenOffset b tenant name
              else if s.profile.work.bwThreshMax < g.bwth then no 0x13 g.bwth
              else match s.noFit tenant f g sp with
                | some n => no 0x0A n
                | none => s.stageImage b tenant o i g f tab reg recs.1

/-! ### Routines (06 R203 to R205) -/

/-- A reload refused under R205 counts on every die of the mask, and on the hubs, whose Moult refuses it (R207; DESIGN
CHOICE, log 106). -/
def State.countRefused (s : State) (mask : Nat) : State :=
  { s with dsm := s.dsm.mapIdx (fun d x => if bitAt mask d ∨ 4 ≤ d then { x with refused := inc x.refused } else x) }

/-- A complete ROUTINE object: header, translation and the refusals of R205; then its version waits for its commit. -/
def State.commitRoutine (s : State) (b : BulkIn) (tenant : Nat) (o : Obj) (i : CommitIn) : State :=
  let mask := leAt i.plain 0 1 % 16
  let image := i.plain.drop 64
  let old := s.routines.find? (fun r => r.name == o.name)
  let lines := ceilDiv image.length 64
  let dies := (List.range 4).filter (fun d => bitAt mask d && (s.rsSpace d lines).isSome && s.rdRoom d o.name)
  if !i.wkeyOk ∨ i.badRecord.isSome then s.replyTo b none 7 (i.badRecord.getD 0)
  else if i.plain.length < 64 then s.replyTo b none 8 i.plain.length
  else match (List.range 64).find? (fun n => if n = 0 then decide (16 ≤ leAt i.plain 0 1) else leAt i.plain n 1 != 0) with
    | some n => s.replyTo b none 8 n
    | none =>
      match translate true image with
      | .error (x, _) => (s.dropObj tenant 1 o.name).replyTo b none 0x10 x
      | .ok (_, prog) =>
        if (old.map (·.tenant)).getD tenant ≠ tenant then (s.countRefused mask).replyTo b none 7 0
        else if 4 ≤ ((old.map (·.resident.length)).getD 0) then (s.countRefused mask).replyTo b none 0x0F 0
        else if dies.isEmpty then (s.countRefused mask).replyTo b none 0x0E 0
        else
          let num := ((old.bind (fun r => r.resident.getLast?)).map (·.num + 1)).getD 1
          let v : Version := {
            num := num % 65536, lines := lines, code := prog, from_ := 0, until_ := none, refs := 0
            lineAt := dies.foldl (fun t d => Tbl.set t d ((s.rsSpace d lines).getD 0)) [], src := o.data, srcLen := o.len }
          let q : Reload := ⟨v, mask, (placeOf b).keep (bulkHead b.body).session⟩
          let s1 := s.dropObj tenant 1 o.name
          match old with
          | some _ => { s1 with routines := s1.routines.map (fun r => if r.name == o.name then { r with queue := r.queue ++ [q] } else r) }
          | none => { s1 with routines := s1.routines ++ [⟨o.name, tenant, mask, none, [], [q]⟩] }

/-- The current version of a routine ends at the commit `ep`. -/
def Routine.endCurrent (r : Routine) (ep : Nat) : Routine :=
  { r with current := none, versions := r.versions.map (fun v => if v.until_.isNone then { v with until_ := some ep } else v) }

/-- A commit of name `r` is applied on the dies that hold its old or its new current version (R203, R207). -/
def State.countCommit (s : State) (old new : List Version) : State :=
  { s with dsm := s.dsm.mapIdx (fun d x => if (old.filter (·.until_.isNone) ++ new).any (·.onDie d) then
      { x with commits := inc x.commits } else x) }

/-- ROUTINE_COMMIT (R203): the version that has waited longest becomes current on every die that holds it. -/
def State.routineCommit (s : State) (tenant name : Nat) : State :=
  match s.routines.find? (fun r => r.name == name && r.tenant == tenant) with
  | none => s
  | some r =>
    match r.queue with
    | [] => s
    | q :: rest =>
      let s1 := s.nextEpoch.countCommit r.versions [q.v]
      let ep := s1.pkg.epoch
      let r1 := r.endCurrent ep
      let r2 := { r1 with
        current := some q.v.num, versions := r1.versions ++ [{ q.v with from_ := ep }], queue := rest, dieMask := q.mask }
      let s2 : State := { s1 with routines := s1.routines.map (fun x => if x.name == name then r2 else x) }
      (s2.freeVersions.mirrorDone (keptPlace q.reply).port 1 name).replyLater q.reply name 0 0

/-- ROUTINE_COMMIT (R203). -/
def execRoutineCommit (tenant name : Nat) (s : State) : Host.Outcome State Fault Refusal :=
  answer true (s.routineCommit tenant name)

/-! ### Patches (02 R76 to R78) -/

/-- An entry of a patch: the index of a span of the placement, a row, an output and a value (DESIGN CHOICE, log 38). -/
structure PEntry where
  span : Nat
  row  : Nat
  out  : Nat
  val  : Nat

/-- The entries of a patch's plaintext: 12 bytes each (DESIGN CHOICE, log 38). -/
def patchOf (b : List Byte) : List PEntry :=
  tabulate (b.length / 12) (fun i => ⟨leAt b (12 * i) 4, leAt b (12 * i + 4) 2, leAt b (12 * i + 6) 2, leAt b (12 * i + 8) 4⟩)

/-- The fields of a defect note (R74). -/
def noteOf (h : Nat) (x : Nat × Nat × Nat) (row col : Nat) (v : Bool) : Nat :=
  h % 65536 * 2 ^ 48 + x.1 / 128 % 4 * 2 ^ 46 + x.1 / 16 % 8 * 2 ^ 43 + x.1 % 16 * 2 ^ 39 + x.2.1 % 32 * 2 ^ 34 +
    x.2.2 % 8 * 2 ^ 31 + row % 512 * 2 ^ 22 + col % 256 * 2 ^ 14 + flag v * 2 ^ 13

/-- The plane, row and column that a note names. -/
def notePlane (n : Nat) : Nat × Nat × Nat := (bits n 47 46 * 128 + bits n 45 43 * 16 + bits n 42 39, bits n 38 34, bits n 33 31)
def noteRow (n : Nat) : Nat := bits n 30 22
def noteCol (n : Nat) : Nat := bits n 21 14

/-- Why an entry of a patch is refused: outside the spans, a noted cell changed (R76), or the TERN code 0b10 (R40;
DESIGN CHOICE, log 38); 1, or 2 when its plane is no longer fenced under a note (R76, R78). -/
def State.entryBad (s : State) (p : Placement) (e : PEntry) : Nat :=
  match p.spans[e.span]? with
  | none => 1
  | some x =>
    let key := (x.k, x.engine, x.plane)
    let w := p.wfmt.width
    let noted := p.notes.filter (fun n => notePlane n == key)
    if x.dyn ∨ x.cnt < e.out ∨ 512 ≤ e.row ∨ noted.isEmpty ∨ (p.wfmt = .tern ∧ e.val % 4 = 2) then 1
    else if !((s.planeAt key).st == .fenced && (s.planeAt key).absorb) then 2
    else
      let old := at' (at' p.gold e.span []) e.row 0 / 2 ^ (e.out * w) % 2 ^ w
      if noted.any (fun n => noteRow n == e.row && decide ((x.off + e.out) * w ≤ noteCol n) &&
          decide (noteCol n < (x.off + e.out + 1) * w) &&
          bitAt old (noteCol n - (x.off + e.out) * w) != bitAt e.val (noteCol n - (x.off + e.out) * w)) then 1
      else 0

/-- A complete PATCH object: signature, entries, then it waits to be applied; one without an entry changes nothing and is
answered at once (DESIGN CHOICE, log 38). -/
def State.commitPatch (s : State) (b : BulkIn) (tenant : Nat) (o : Obj) (i : CommitIn) : State :=
  let s1 := s.dropObj tenant 4 o.name
  match s.placements.find? (fun p => p.handle == o.name && p.removed.isNone) with
  | none => s1.replyTo b none 0x16 o.name
  | some p =>
    let es := patchOf i.plain
    if p.tenant ≠ tenant ∨ !i.sigOk ∨ !(s.unwraps p.wkey i.wkeyOk) ∨ i.badRecord.isSome then
      s1.replyTo b none 7 (i.badRecord.getD 0)
    else if (o.records 0).2.isSome then s1.replyTo b none 8 ((o.records 0).2.getD 0)
    else if es.isEmpty then s1.replyTo b none 0 0
    else if 64 < es.length then s1.replyTo b none 0x11 64
    else match (es.mapIdx (fun n e => (n, s.entryBad p e))).find? (fun x => x.2 != 0) with
      | some (n, 1) => s1.replyTo b none 0x11 n
      | some _ => s1.replyTo b none 0x12 0
      | none =>
        let put (q : Placement) : Placement := { q with
          patch := es.map (fun e => [e.span, e.row, e.out, e.val])
          reply := (placeOf b).keep (bulkHead b.body).session }
        { s1 with placements := s1.placements.map (fun q => if q.handle == p.handle && q.removed.isNone then put q else q) }

/-! ### BULK_COMMIT -/

/-- A TABLES or REGION object waits, staged, for the STAGING commit of its handle (R330). -/
def State.commitWaiting (s : State) (b : BulkIn) (o : Obj) : State :=
  let s1 : State := { s with objects := s.objects.map (fun x =>
    if x.is o.tenant o.target o.name then { x with waiting := true } else x) }
  (s1.mirrorDone b.port o.target o.name).replyTo b none 0 0

/-- COMMIT (R330): every byte staged and every session closed, then by target (DEDUCED, log 39). -/
def State.bulkCommit (s : State) (b : BulkIn) (tenant : Nat) (h : BHead) (i : CommitIn) : State :=
  match s.obj? tenant h.target h.name with
  | none => s.replyTo b none 0x0C 0
  | some o =>
    if o.missing < o.len then s.replyTo b none 0x0C o.missing
    else if !(s.sessionsOn tenant h.target h.name).isEmpty then s.replyTo b none 0x0C o.len
    else match h.target with
      | 0 => s.commitStaging b tenant o i
      | 1 => s.commitRoutine b tenant o i
      | 4 => s.commitPatch b tenant o i
      | _ => s.commitWaiting b o

/-- BULK_COMMIT (R330). -/
def execBulkCommit (b : BulkIn) (o : CommitIn) (s : State) : Host.Outcome State Fault Refusal :=
  answer (portOk b.port) (s.bulkFrame 6 b (fun s t h => s.bulkCommit b t h o))

/-- The rows of a span of a placement. -/
def Placement.rowsOf (p : Placement) (i : Nat) : List Nat := at' p.gold i []

/-! ### Removal (R335) -/

/-- The thresholds of planes after a commit that adds a placement to them or removes one (R65). -/
def State.setThresholds (s : State) (keys : List (Nat × Nat × Nat)) : State :=
  keys.foldl (fun t x => t.modPlane x.1 x.2.1 x.2.2 (fun p => { p with thr := s.planeThr p.spans p.dyn })) s

/-- REMOVE: a placement, or the current version of a routine (R205). -/
def State.removeObj (s : State) (b : BulkIn) (tenant : Nat) (h : BHead) : State :=
  if h.target = 1 then
    match s.routines.find? (fun r => r.name == h.name && r.current.isSome) with
    | none => s.replyTo b none 0x16 h.name
    | some r =>
      if r.tenant ≠ tenant then s.replyTo b none 7 0
      else
        let s1 := s.nextEpoch.countCommit r.versions []
        let s2 : State := { s1 with
          routines := s1.routines.map (fun x => if x.name == h.name then x.endCurrent s1.pkg.epoch else x) }
        s2.freeVersions.replyTo b none 0 0
  else match s.placements.find? (fun p => p.handle == h.name && p.removed.isNone) with
    | none => s.replyTo b none 0x16 h.name
    | some p =>
      if p.tenant ≠ tenant then s.replyTo b none 7 0
      else
        let s1 := s.nextEpoch
        let s2 : State := { s1 with placements := s1.placements.map (fun q =>
          if q.handle == h.name && q.removed.isNone then { q with removed := some s1.pkg.epoch } else q) }
        (s2.setThresholds p.planeKeys).replyTo b none 0 0

/-- REMOVE (R335). -/
def execRemove (b : BulkIn) (s : State) : Host.Outcome State Fault Refusal :=
  answer (portOk b.port) (s.bulkFrame 7 b (fun s t h => s.removeObj b t h))

/-- A frame bound before the removal names the placement and has not completed (R204, R335). -/
def State.stillUsed (s : State) (h epoch : Nat) : Bool :=
  s.entries.any (fun e => !e.completed &&
    (match e.epoch with
      | some ep => decide (ep < epoch)
      | none => false) && e.frame.places.contains h)

/-- PLACEMENT_RETIRE: its planes become RETIRED, or FENCED where others share them (R335). -/
def State.retirePlacement (s : State) (handle : Nat) : State :=
  match s.placements.find? (fun p => p.handle == handle) with
  | none => s
  | some p =>
    match p.removed with
    | none => s
    | some ep =>
      if p.retiring ∨ s.stillUsed handle ep then s
      else
        let s1 := p.planeKeys.foldl (fun s x => s.modPlane x.1 x.2.1 x.2.2 (fun q =>
          if q.spans.any (fun y => y.handle != handle) then { q with st := .fenced }
          else { q with st := .retired })) s
        { s1 with placements := s1.placements.map (fun q => if q.handle == handle then { q with retiring := true } else q) }

/-- PLACEMENT_RETIRE (R335). -/
def execPlacementRetire (handle : Nat) (s : State) : Host.Outcome State Fault Refusal :=
  answer true (s.retirePlacement handle)

/-- The placement `h` is being emptied. -/
def State.retiring (s : State) (h : Nat) : Bool := s.placements.any (fun p => p.handle == h && p.retiring)

/-- A shared plane with the columns of removed placements written to zero (R335). -/
def Plane.dropSpans (p : Plane) (gone : Nat → Bool) : Plane :=
  let f := p.wfmt.getD .int8
  { p with
    spans := p.spans.filter (fun x => !(gone x.handle))
    rows := (p.spans.filter (fun x => gone x.handle)).foldl (fun t x => writeSpan f x.off x.cnt [] t) p.rows }

/-- A placement whose planes hold nothing of it any more is freed with its handle (R335). -/
def State.freePlacements (s : State) : State :=
  { s with placements := s.placements.filter (fun p => !(p.retiring && p.planeKeys.all (fun x =>
      !((s.planeAt x).spans.any (fun y => y.handle == p.handle)) && (s.planeAt x).dyn != some p.handle))) }

/-- A plane of which no span is left is zeroised, refilled and EMPTY; one that keeps spans is LIVE, unless it is fenced
for a doubt that has not ended (R70, R335) or held by an installation (R331); what its patch waited for is diagnosed
anew. -/
def State.afterDrop (s : State) (held : Bool) (q : Plane) : Plane :=
  if q.spans.isEmpty ∧ q.dyn.isNone then { Plane.fresh with st := if held then .programming else .empty }
  else { q with
    st := if held || q.doubt || q.absorb || q.lost then .fenced else .live, doubt := q.doubt || q.absorb || q.lost
    absorb := false, lost := false, thr := s.planeThr q.spans q.dyn }

/-- PLANE_EMPTY: the zeroise of a RETIRED plane and its refill end, or the removed columns of a shared one are
zero (R42, R335). -/
def State.planeEmpty (s : State) (k e p : Nat) : State :=
  let q := s.planeAt (k, e, p)
  match q.st with
  | .retired => (s.modPlane k e p (fun _ => Plane.fresh)).freePlacements
  | .fenced =>
    if q.spans.any (fun x => s.retiring x.handle) then
      (s.modPlane k e p (fun q => s.afterDrop (s.installs.any (fun i => i.fenced.contains (k, e, p)))
        (q.dropSpans s.retiring))).freePlacements
    else s
  | _ => s

/-- PLANE_EMPTY (R335). -/
def execPlaneEmpty (k e p : Nat) (s : State) : Host.Outcome State Fault Refusal :=
  answer (coreOk k && engineOk e && decide (p < 8)) (s.planeEmpty k e p)

end Sys2Proof.Machine
end

