-- ==== Sys2Proof/Machine/Losses.lean ====
section
/-! DEFINITION. QUIET (13 R422, R423), uncontrolled steps of power (12 R404), and compute dies and stacks that are
lost (13 R418, R419). -/
namespace Sys2Proof.Machine
open Sys2Proof

/-! ### Power (R376, R404) -/

/-- The measured draw of the package in milliwatts (R376). -/
def State.drawTotal (s : State) : Nat :=
  (s.yoke.doms.map (·.draw)).foldl (· + ·) 0

/-- An uncontrolled step: YOKE.EVENT[4], and the envelope is the measured draw (R404). -/
def State.uncontrolled (s : State) : State :=
  { s with yoke := { s.yoke with
      envelope := s.drawTotal * 1000
      regs := { s.yoke.regs with event := setBit s.yoke.regs.event 4, step := inc s.yoke.regs.step } } }

/-! ### Frames that a loss ends -/

/-- The frame ends as a hardware fault ends it (R34, R248, R418): replayed, or WITHHELD beyond `REPLAY_MAX`. -/
def State.hwEnd (s : State) (cseq : Nat) : State :=
  match s.entry? cseq with
  | some e => if e.st = .running ∧ !e.ended then s.endHalted e ⟨0, 0, 0x23, 0, 0x3FF, 0⟩ else s
  | none => s

/-- The frames that run on a core that `p` picks. -/
def State.framesOn (s : State) (p : Nat → Bool) : List Nat :=
  ((s.entries.filter (fun e => e.st == .running && (s.coresOf e.cseq).any p)).map (·.cseq))

/-- Every frame on a core that `p` picks ends as by a hardware fault. -/
def State.hwEndOn (s : State) (p : Nat → Bool) : State := (s.framesOn p).foldl (fun s n => s.hwEnd n) s

/-! ### QUIET (R422, R423) -/

/-- How strict the way of leaving QUIET is: automatic, an owner's command, a cold start (R423). -/
def quietRank (cause : Nat) : Nat :=
  match cause with
  | 0 => 0
  | 2 => 1
  | 3 | 5 | 7 => 2
  | _ => 3

/-- Causes that end running frames (R423). -/
def quietEnds (cause : Nat) : Bool := quietRank cause == 3

/-- QUIET is entered, or its cause becomes the stricter one; some causes end the running frames, whose entries stay
(R423). -/
def State.enterQuiet (s : State) (cause : Nat) : State :=
  let s1 := if s.pkg.quiet = 0 then s.modFlt (fun r => { r with event := setBit r.event 3, quiet := inc r.quiet }) else s
  let s2 : State := { s1 with
    pkg := { s1.pkg with quiet := if quietRank s.pkg.quiet < quietRank cause then cause else s.pkg.quiet } }
  if quietEnds cause then
    (s2.entries.filter (fun e => e.st == .running && !e.ended && s2.runsHere e)).foldl (fun s e => s.requeue e.cseq 0 id) s2
  else s2

/-! ### Stacks (R419) -/

/-- A parcel with a copy on stack `st`. -/
def Parcel.on (p : Parcel) (st : Nat) : Bool := p.pages != 0 && (p.stack == st || p.mirror == st)

/-- A parcel of entry `cseq` after its stack `st` is gone: copied again, or lost with both copies (R365). -/
def State.parcelGone (s : State) (cseq st : Nat) (input : Bool) : State :=
  match s.entry? cseq with
  | none => s
  | some e =>
    let p := if input then e.ipar else e.rpar
    if !(p.on st) then s else s.parcelError e input (p.mirror == st) (!(s.stackUp p.stack) && !(s.stackUp p.mirror))

/-- Where the copies of a placement's pages lie once stack `st` is lost: the copy left is the first, and it is copied
again to stack `new`; a page uncorrectable in it is so in both (R333, R419). -/
def Copies.rehome (c : Copies) (st : Nat) (new : Nat → Option Nat) : Copies :=
  let hit (x : Nat × Nat) : Bool := x.1 == st || x.2 == st
  let kept (x : Nat × Nat) : Nat := if x.1 = st then 1 else 0
  { c with
    homes := c.homes.map (fun x =>
      if hit x then
        let a := if x.1 = st then x.2 else x.1
        (a, (new a).getD a)
      else x)
    bad := (c.bad.flatMap (fun b =>
      let x := at' c.homes (b.1 % 16) (0, 0)
      if hit x then (if b.2 = kept x then [(b.1, 0), (b.1, 1)] else []) else [b])).eraseDups }

/-- The copies of a placement that keeps one copy of each page, on lost stack `st`, are gone there. -/
def Copies.gone (c : Copies) (st : Nat) : Copies :=
  { c with bad := (c.bad ++ ((List.range (ceilDiv c.slen 4096)).filter (fun n =>
      (at' c.homes (n % 16) (0, 0)).1 == st)).map (fun n => (n, 0))).eraseDups }

/-- The golden copies after stack `st` is lost. -/
def State.rehomeGold (s : State) (st : Nat) : State :=
  { s with placements := s.placements.map (fun p => { p with
      copies := if p.goldOk < 2 then p.copies.gone st else p.copies.rehome st s.mirrorOf }) }

/-- Golden copies kept singly, in the order of installation, until the pool holds the rest (R419). -/
def singleGold (need : Nat) : List Placement → List Placement
  | [] => []
  | p :: r =>
    if need = 0 ∨ p.goldOk < 2 then p :: singleGold need r
    else { p with goldOk := 1, pool := p.pool - p.copies.slen } :: singleGold (need - p.copies.slen) r

/-- The install pool shrinks with the stack. -/
def State.shrinkPool (s : State) : State :=
  let need := s.poolUsed - s.poolSize
  if need = 0 then s else { s with placements := singleGold need s.placements }.countLostUnit

/-- Stack `st` is lost (R419). -/
def State.loseStack (s : State) (st : Nat) : State :=
  if !(s.stackUp st) then s
  else
    let frames := (s.entries.filter (fun e => e.st == .running && e.frame.pages.any (fun p => p.1 == st))).map (·.cseq)
    let s1 := { s with
      hbmStacks := s.hbmStacks.set st (false, false), pages := s.pages.set st 0, used := s.used.set st [] }.countLostUnit
    let s2 := frames.foldl (fun s n => s.hwEnd n) s1
    let s3 := (s2.entries.map (·.cseq)).foldl (fun s n => (s.parcelGone n st true).parcelGone n st false) s2
    (s3.rehomeGold st).shrinkPool

/-! ### Compute dies (R418) -/

/-- Compute die `d` is lost until the next cold start: its frames end and wait, its stacks cannot be reached (R23), and
its rail's load is gone (R404). -/
def State.loseDie (s : State) (d : Nat) : State :=
  if !(s.die d).up then s
  else
    let s1 := ({ s with maps := { s.maps with subst := s.maps.subst.filter (fun u => dieOf u.k != d) } }.modDie d (fun x => { x with up := false, part := 0, act := 0, ballast := 0, bal := [], balN := 0, standing := 0, waiting := [], granted := [], ordered := 0 })).countLostUnit
    let s2 := s1.hwEndOn (fun k => dieOf k == d)
    let s3 := (tabulate 4 (fun i => 4 * d + i)).foldl (fun s n => s.loseStack n) s2
    { s3 with yoke := { s3.yoke with doms := modAt s3.yoke.doms d (fun x => { x with draw := 0, est := 0, estS := 0, estE := 0 }) } }.uncontrolled

end Sys2Proof.Machine
end

