-- ==== Sys2Proof/Machine/Spares.lean ====
section
/-! DEFINITION. Golden copies and doubt of planes, and spare units (02 R69 to R77, R567, 10 R333, 13 R412 to R415, 01 R16
to R21). -/
namespace Sys2Proof.Machine
open Sys2Proof

/-! ### Planes and their golden copies -/

/-- The 264 bits that a row reads when `w` is written in it: stuck cells read their value. -/
def Engine.readBack (g : Engine) (p r w : Nat) : Nat :=
  (g.stuck.filter (fun c => c.plane == p && c.row == r)).foldl (fun row c =>
    match (List.range 264).find? (fun s => g.physCol s == c.col) with
    | some s => putBit row s c.val
    | none => row) w

/-- The cells that patches have accepted on a plane: row and column (R77). -/
def State.patchedCells (s : State) (x : Nat × Nat × Nat) : List (Nat × Nat) :=
  (s.placements.flatMap (·.patched)).filterMap (fun n =>
    if notePlane n == x then some (noteRow n, noteCol n) else none)

/-- Rows of a plane as they are written: a row with a patched cell has the residue of what it reads (R77). -/
def State.withPatches (s : State) (x : Nat × Nat × Nat) (rows : Tbl Nat) : Tbl Nat :=
  let g := (s.core x.1).engine x.2.1
  let f := (s.planeAt x).wfmt.getD .int8
  ((s.patchedCells x).map (·.1)).eraseDups.foldl (fun t r =>
    let d := Tbl.num t r % 2 ^ 256
    Tbl.setNum t r (d + rowResidue f (g.readBack x.2.2 r d % 2 ^ 256) * 2 ^ 256)) rows

/-- The rows that the golden copies give a plane (R333). -/
def State.goldenRows (s : State) (x : Nat × Nat × Nat) : Tbl Nat :=
  let p := s.planeAt x
  let f := p.wfmt.getD .int8
  s.withPatches x (p.spans.foldl (fun t y =>
    match s.placements.find? (fun q => q.handle == y.handle) with
    | some q =>
      (match q.spans.findIdx? (fun z => (z.k, z.engine, z.plane) == x && z.off == y.off && z.j == y.j && z.kb == y.kb) with
      | some i => writeSpan f y.off y.cnt (q.rowsOf i) t
      | none => t)
    | none => t) [])

/-- The pages of the golden copy that hold the rows of span `i`. -/
def Placement.rowPages (p : Placement) (i : Nat) : List Nat :=
  let r := at' p.rowsAt i (0, 0)
  if r.2 ≤ r.1 then [] else tabulate ((r.2 - 1) / 4096 - r.1 / 4096 + 1) (fun n => r.1 / 4096 + n)

/-- Copy `c` of page `n` of a placement's golden copy can be read: it is kept, its stack is in service, and it is not
uncorrectable (R333, R419). -/
def State.goldCopy (s : State) (p : Placement) (n c : Nat) : Bool :=
  let st := at' p.copies.homes (n % 16) (0, 0)
  decide (c < p.goldOk) && s.stackUp (if c = 0 then st.1 else st.2) && !(p.copies.bad.contains (n, c))

/-- The golden copy of the rows of span `i` of a placement can be read (R333). -/
def State.goldReads (s : State) (p : Placement) (i : Nat) : Bool :=
  (p.rowPages i).all (fun n => s.goldCopy p n 0 || s.goldCopy p n 1)

/-- Every placement on a plane has a golden copy of its rows that can be read. -/
def State.goldWhole (s : State) (x : Nat × Nat × Nat) : Bool :=
  s.placements.all (fun p => (p.spans.mapIdx (fun i y => (i, y))).all (fun z =>
    (z.2.k, z.2.engine, z.2.plane) != x || s.goldReads p z.1))

/-- Golden blocks that are found uncorrectable. -/
def State.loseGold (s : State) (l : List GoldLoss) : State :=
  { s with placements := s.placements.map (fun p => { p with copies := { p.copies with
      bad := (p.copies.bad ++ (l.filter (fun g => g.handle == p.handle)).map (fun g => (g.page, g.copy))).eraseDups } }) }

/-- The mismatched cells of a plane whose rows are `rows`: row, slot, value read; accepted cells are none (R70,
R77). -/
def State.badCells (s : State) (x : Nat × Nat × Nat) (rows : Tbl Nat) : List (Nat × Nat × Bool) :=
  let g := (s.core x.1).engine x.2.1
  let ok := s.patchedCells x
  (g.stuck.filter (fun c => c.plane == x.2.2)).filterMap (fun c =>
    match (List.range 264).find? (fun n => g.physCol n == c.col) with
    | some n => if bitAt (Tbl.num rows c.row) n == c.val || ok.contains (c.row, n) then none else some (c.row, n, c.val)
    | none => none)

/-- The placement whose span covers a data column of a plane (R567). -/
def Plane.coveredBy (p : Plane) (n : Nat) : Option Nat :=
  let w := (p.wfmt.getD .int8).width
  if 256 ≤ n then none
  else (p.spans.find? (fun y => decide (y.off * w ≤ n) && decide (n < (y.off + y.cnt) * w))).map (·.handle)

/-- The cell policy of a handle: true for ABSORB (R71). -/
def State.absorbs (s : State) (h : Nat) : Bool :=
  match s.profile.work.cellPolicy.find? (fun r => decide (r.1 ≤ h) && decide (h ≤ r.2.1)) with
  | some r => r.2.2
  | none => false

/-- Registers of the ARRAY block of core `k` changed. -/
def State.modArr (s : State) (k : Nat) (f : ArrayRegs → ArrayRegs) : State :=
  s.modCore k (fun c => { c with arr := f c.arr })

/-- Rows of a plane replaced. -/
def State.setRows (s : State) (x : Nat × Nat × Nat) (rows : Tbl Nat) : State :=
  s.modPlane x.1 x.2.1 x.2.2 (fun p => { p with rows := rows })

/-- A plane is LIVE again: its doubt has ended, and it no longer waits for a patch. -/
def State.liveAgain (s : State) (x : Nat × Nat × Nat) : State :=
  s.modPlane x.1 x.2.1 x.2.2 (fun p => { p with st := .live, doubt := false, absorb := false })

/-- A block whose golden copies are both lost: the plane stays FENCED, which is reported once (R333). -/
def State.goldGone (s : State) (x : Nat × Nat × Nat) : State :=
  if (s.planeAt x).lost then s
  else { s.modPlane x.1 x.2.1 x.2.2 (fun p => { p with st := .fenced, lost := true }) with
    inst := { s.inst with lostEvent := setBit s.inst.lostEvent 0, lostCount := inc s.inst.lostCount } }

/-- ARRAY.REPROGRAM counts a plane made LIVE by rewrite (R83). -/
def State.countReprogram (s : State) (k : Nat) : State := s.modArr k (fun r => { r with reprogram := inc r.reprogram })

/-- ARRAY.TRANSIENT counts a failure cleared with no mismatch found (R83). -/
def State.countTransientPlane (s : State) (k : Nat) : State := s.modArr k (fun r => { r with transient := inc r.transient })

/-- A plane that holds no span is EMPTY again, with the filler, when every cell holds it; else it stays in doubt (R42, R70). -/
def State.refill (s : State) (x : Nat × Nat × Nat) : State :=
  if (((s.core x.1).engine x.2.1).mismatches x.2.2).isEmpty then s.modPlane x.1 x.2.1 x.2.2 (fun _ => Plane.fresh)
  else s.modPlane x.1 x.2.1 x.2.2 (fun p => { p with st := .fenced, doubt := true })

/-- A static plane written from its golden copies and verified: LIVE when it reads what is written, to be diagnosed when
it does not, lost when no golden copy can be read (R72, R333). -/
def State.rewritePlane (s : State) (x : Nat × Nat × Nat) : State :=
  if (s.planeAt x).bare then s.refill x
  else if !(s.goldWhole x) then s.goldGone x
  else
    let s1 := s.setRows x (s.goldenRows x)
    if (s1.badCells x (s1.goldenRows x)).isEmpty then (s1.liveAgain x).countReprogram x.1
    else s1.modPlane x.1 x.2.1 x.2.2 (fun p => { p with st := .fenced, doubt := !p.absorb })

/-! ### Spare units (01 R16 to R20) -/

/-- A physical unit is marked defective or out of service. -/
def State.isBad (s : State) (lv d c k e : Nat) : Bool := s.maps.bad.contains (lv, d, c, k, e)

/-- The unit of level `lv` that a target names or lies in, as the maps have it. -/
def unitKey (lv : Nat) (t : Target) : Nat × Nat × Nat × Nat × Nat :=
  (lv, t.die, t.cluster, if lv = 4 then 0 else t.core, if lv = 2 then t.engine else 0)

/-- A unit that failed logic BIST or test vectors is tested again once it is out of service (R465). -/
def State.toRetest (s : State) (lv : Nat) (t : Target) : State :=
  { s with maps := { s.maps with retest := (unitKey lv t :: s.maps.retest).eraseDups } }

/-- The physical cluster of core `k`, or a number that no cluster has. -/
def State.pcOf (s : State) (k : Nat) : Nat := (s.physCluster (dieOf k) (clusterOf k)).getD 99

/-- The spare engines of core `k`. -/
def State.spareEngines (s : State) (k : Nat) : List Nat :=
  let used := (List.range 32).map (s.physEngine k)
  (List.range 33).filter (fun e => !used.contains e && !(s.isBad 2 (dieOf k) (s.pcOf k) (s.physCore k) e))

/-- The spare cores of the cluster of core `k`. -/
def State.spareCores (s : State) (k : Nat) : List Nat :=
  let used := (List.range 16).map (fun i => s.physCore (k / 16 * 16 + i))
  (List.range 17).filter (fun c => !used.contains c && !(s.isBad 3 (dieOf k) (s.pcOf k) c 0))

/-- The spare clusters of the die of core `k`. -/
def State.spareClusters (s : State) (k : Nat) : List Nat :=
  let d := dieOf k
  let used := (List.range 8).filterMap (s.physCluster d)
  (List.range 9).filter (fun c => !used.contains c && !(s.isBad 4 d c 0 0))

/-- The lowest spare of a level for core `k`. -/
def State.spareEngine (s : State) (k : Nat) : Option Nat := (s.spareEngines k).head?
def State.spareCore (s : State) (k : Nat) : Option Nat := (s.spareCores k).head?
def State.spareCluster (s : State) (k : Nat) : Option Nat := (s.spareClusters k).head?

/-- Two units of one level draw on the same spares: engines of a core, cores of a cluster, clusters of a die. -/
def samePool (lv j k : Nat) : Bool :=
  match lv with
  | 2 => j == k
  | 3 => j / 16 == k / 16
  | _ => j / 128 == k / 128

/-- A spare of level `lv` is left for core `k` that no pending substitution is to take (R20). -/
def State.spareLeft (s : State) (lv k : Nat) : Bool :=
  let n := match lv with
    | 2 => (s.spareEngines k).length
    | 3 => (s.spareCores k).length
    | _ => (s.spareClusters k).length
  decide ((s.maps.subst.filter (fun u => u.level == lv && samePool lv u.k k)).length < n)

/-- Frames that run on a unit of level `lv` at core `k` (R34, R415): they use its engine `e`, its core or its cluster. -/
def State.endOnUnit (s : State) (lv k e : Nat) : State :=
  match lv with
  | 2 => ((s.entries.filter (fun x => x.st == .running && !x.ended && (s.coresOf x.cseq).contains k &&
      (s.enginesUsed x k).contains e)).map (·.cseq)).foldl (fun s n => s.hwEnd n) s
  | 3 => s.hwEndOn (fun j => j == k)
  | _ => s.hwEndOn (fun j => j / 16 == k / 16)

/-- The cluster of core `k` is left without hardware: work on it ends and waits as on a lost die; a die with none left
is lost (R20, R21, R418). -/
def State.loseCluster (s : State) (k : Nat) : State :=
  let d := dieOf k
  let s1 := { s with maps := { s.maps with
    bad := (4, d, s.pcOf k, 0, 0) :: s.maps.bad
    subst := s.maps.subst.filter (fun u => u.k / 16 != k / 16)
    cluster := Tbl.set s.maps.cluster (8 * d + clusterOf k) none } }.countLostUnit
  let s2 := s1.hwEndOn (fun j => dieOf j == d && clusterOf j == clusterOf k)
  if (List.range 8).any (fun c => (s2.physCluster d c).isSome) then s2 else s2.loseDie d

/-- A pending substitution of level `lv` for the unit of core `k` and engine `e`. -/
def coversUnit (u : FaultUnit) (lv k e : Nat) : Bool :=
  u.level == lv && (match lv with
    | 2 => u.k == k && u.e == e
    | 3 => u.k == k
    | _ => u.k / 16 == k / 16)

/-- A substitution begins at level `lv` for a unit, or at the level above while a level has no spare left for it (R20,
R412): engine 2, core 3, cluster 4. Frames that run on the unit end (R34, R415). -/
def State.beginSubst (s : State) : Nat → Nat → Nat → Nat → State
  | 0, _, _, _ => s
  | n + 1, lv, k, e =>
    if s.maps.subst.any (fun u => coversUnit u lv k e) then s
    else if s.spareLeft lv k then
      { s with maps := { s.maps with subst := s.maps.subst ++ [(⟨lv, k, e, 0⟩ : FaultUnit)] } }.endOnUnit lv k e
    else
      let s1 := s.countNospare
      if 4 ≤ lv then s1.loseCluster k else State.beginSubst s1 n (lv + 1) k (if lv = 2 then 0 else e)

/-- The static planes of an engine are fenced (R72); what is in doubt stays so. -/
def State.fenceEngine (s : State) (k e : Nat) : State :=
  (List.range 8).foldl (fun s p => s.modPlane k e p (fun q => if q.st = .live then { q with st := .fenced } else q)) s

/-- Column substitutions begin for the slots, or an engine substitution when the spare columns do not suffice (R70). -/
def State.beginColumns (s : State) (k e : Nat) (slots : List Nat) : State :=
  let pend := s.maps.subst.filter (fun u => u.level == 1 && u.k == k && u.e == e)
  let new := (sortedSet slots).filter (fun n => !(pend.any (fun u => u.slot == n)))
  let s1 := s.fenceEngine k e
  if ((s.core k).engine e).spareCols < pend.length + new.length then (s1.countNospare).beginSubst 3 2 k e
  else { s1 with maps := { s1.maps with subst := s1.maps.subst ++ new.map (fun n => ⟨1, k, e, n⟩) } }

/-! ### Doubt -/

/-- A pass in flight uses engine `e`. -/
def Core.passOn (c : Core) (e : Nat) : Bool := c.acc.passes.any (fun x => x.members.any (fun v => v.1.e == e))

/-- The plane is fenced for a doubt that is to be diagnosed: it waits for no patch, its golden copies can be read, no
installation holds it, and no placement of it is removed (R335). -/
def State.inDoubt (s : State) (x : Nat × Nat × Nat) : Bool :=
  let p := s.planeAt x
  p.st == .fenced && p.doubt && !p.absorb && !p.lost && !(s.installs.any (fun i => i.fenced.contains x)) &&
    !(p.spans.any (fun y => s.placements.any (fun q => q.handle == y.handle && q.removed.isSome)))

/-- A static plane is due for diagnosis: of an engine's planes in doubt, the lowest (R69). -/
def State.toDiagnose (s : State) (x : Nat × Nat × Nat) : Bool :=
  s.inDoubt x && (s.planeAt x).dyn.isNone && (List.range x.2.2).all (fun p => !(s.inDoubt (x.1, x.2.1, p)))

/-- The planes that a committed patch changes. -/
def Placement.patchKeys (p : Placement) : List (Nat × Nat × Nat) :=
  (p.patch.filterMap (fun e => (p.spans[at' e 0 0]?).map (fun x => (x.k, x.engine, x.plane)))).eraseDups

/-! ### What is due (13 R439, R441) -/

/-- The place of an activity in the order of priority. -/
def actRank (code : Nat) : Nat :=
  match code with
  | 6 => 1
  | 5 => 2
  | 3 => 3
  | 8 => 4
  | 7 => 5
  | 1 | 2 => 6
  | 4 => 7
  | _ => 8

/-- The unit that a substitution rewrites, as a physical target. -/
def State.unitTarget (s : State) (u : FaultUnit) : Target :=
  match u.level with
  | 1 | 2 => s.engineTarget u.k u.e
  | 3 => s.coreTarget u.k
  | _ => { s.coreTarget u.k with kind := 2 }

/-- The engines of planes in doubt. -/
def State.doubtTargets (s : State) : List Target :=
  s.cores.flatMap (fun c => c.2.engines.flatMap (fun g =>
    (g.2.planes.filter (fun p => s.inDoubt (c.1, g.1, p.1))).map (fun _ => s.engineTarget c.1 g.1)))

/-- The engines of planes that a committed patch is to change. -/
def State.patchTargets (s : State) : List Target :=
  s.placements.flatMap (fun p => p.patchKeys.map (fun x => s.engineTarget x.1 x.2.1))

/-- Activities that are due and do not run: planes to be re-programmed, and what waits in the queue. -/
def State.dueActs (s : State) : List Act :=
  (s.maps.subst.map s.unitTarget ++ s.doubtTargets ++ s.patchTargets).map (fun t => ⟨3, t⟩)
    ++ (s.maint.filter (fun a => !a.running)).map (fun a =>
      ⟨a.code, if a.code = 4 then s.engineTarget (a.unit / 32) (a.unit % 32) else ⟨0, a.die, a.cluster, 0, 0, 0, 0⟩⟩)

/-- The activity may start: R440 allows it beside what runs, and beside what is due with a higher priority (R441). -/
def State.mayStart (s : State) (a : Act) : Bool :=
  s.mayRun a && s.dueActs.all (fun x => decide (actRank a.code ≤ actRank x.code) || mayMeet x a)

/-- A test vector of a sweep, or a ballast pass, failed its check (R83; DESIGN CHOICE, log 97). -/
def State.countSweepFail (s : State) (k : Nat) : State :=
  s.modArr k (fun r => { r with bwEvent := setBit r.bwEvent 0, bwCount := inc r.bwCount })

end Sys2Proof.Machine
end

