-- ==== Sys2Proof/Machine/Faults.lean ====
section
/-! DEFINITION. Faults of paths, die shared memory, stacks, dies and hubs (06 R184 to R195, 13 R411, R412, R418 to
R424). -/
namespace Sys2Proof.Machine
open Sys2Proof

/-! ### FABRIC_TIMEOUT (R412) -/

/-- The cores that waited on the path halt with FABRIC_TIMEOUT (R247); with none, the fault is detected here (R411). -/
def State.haltWaiting (s : State) (path : Nat) (cores : List Nat) : State :=
  let ks := cores.filter (fun k => (s.core k).live)
  if ks.isEmpty then s.localFault else ks.foldl (fun s k => s.haltDue k 0x23 (path * 2 ^ 28)) s

/-- What the doubted path leads to: the cluster's fabric is diagnosed, the die or the stack is lost, or traffic takes
another way; a die with no hub link left is lost (R28, R412). -/
def State.doubtPath (s : State) (path unit : Nat) : State :=
  match path with
  | 1 => s.modCl (unit / 9) (unit % 9) (fun c => { c with doubt := true })
  | 2 => s.loseDie unit
  | 3 => { s with pkg := { s.pkg with rings := s.pkg.rings.set unit false } }
  | 4 =>
    let s1 := s.modDie (unit / 2) (fun d => { d with hubLinks := d.hubLinks.set (unit % 2) false })
    if (s1.die (unit / 2)).hubLinks.any id then s1 else s1.loseDie (unit / 2)
  | _ => s.loseStack unit

/-- FABRIC_TIMEOUT (R412). -/
def execFabricTimeout (path unit : Nat) (cores : List Nat) (s : State) : Host.Outcome State Fault Refusal :=
  answer (pathOk path unit && cores.all coreOk) ((s.haltWaiting path cores).doubtPath path unit)

/-! ### Die shared memory -/

/-- Bank `b` of compute die `d` has a line in use (R184, R191): the runs of RS, and the bytes of the other regions, whose
lines fill their banks in ascending order; a name entry takes 64 bytes and a version record 32, which fill RD with the numbers
of R199 (DESIGN CHOICE, log 7, 46). -/
def State.bankUsed (s : State) (d b : Nat) : Bool :=
  let on (l : List Nat) : Bool := l.any (fun k => dieOf k == d)
  let past (first used : Nat) : Bool := decide ((b - first) * 1048576 < used)
  match regionOf d b with
  | .rs => (s.codeRuns d).any (fun x => decide (x.1 < 16384 * (b + 1)) && decide (16384 * b < x.1 + x.2))
  | .tb => past 44 (s.tbUsed d)
  | .pm => past 54 (s.pmUsed d)
  | .ps => past 58 ((s.placements.map (fun p => if on p.cores then 32 + 2 * p.cores.length else 0)).foldl (· + ·) 0)
  | _ => past 62 (64 * (s.rdNames d).length + 32 * (s.rdRecords d).length)

/-- The state of bank `b` of die `d` (R191, R192): a bank of a compute die with no line in use is OFF; FS is ON where it
holds a frame, else in RETENTION once it has held one. -/
def State.bankState (s : State) (d b : Nat) : BankSt :=
  let x := at' (s.dsmOf d).banks b .off
  if d < 4 then (if s.bankUsed d b then x else .off)
  else if regionOf d b ≠ .fs ∨ x = .waking then x
  else if (b - 16) * 1048576 < s.stagingUse (d - 4) then .on
  else if (b - 16) * 1048576 < (s.hub (d - 4)).fsHigh then .retention
  else .off

/-- The detail word of a halt by a bad line (R195). -/
def dsmDetail (die bank line : Nat) : Nat := (if die < 4 then 1 else 2) * 2 ^ 30 + bank * 2 ^ 24 + line * 2 ^ 10

/-- The core that read the word halts (R194). -/
def State.haltReader (s : State) (core : Option Nat) (detail : Nat) : State :=
  match core with
  | some k => s.haltDue k 0x21 detail
  | none => s

/-- A line of RS is damaged: it is used no more, and what it held lies elsewhere from now on (R194). -/
def State.badRs (s : State) (die bank line : Nat) : State :=
  (s.modDsm die (fun d => if d.badLines.contains (bank, line) then d else
    { d with badLines := d.badLines ++ [(bank, line)] })).moveCode die (lineNo bank line)

/-- RD of a compute die is bad: it is rebuilt from RM of a hub in service, and calls on the die wait; without such a copy
the package enters QUIET (R194, R201). -/
def State.badRd (s : State) (die : Nat) (mirrorBad : Bool) : State :=
  if mirrorBad ∨ !((s.hub 0).up || (s.hub 1).up) then s.enterQuiet 3
  else s.modDsm die (fun d => { d with rebuild := true })

/-- RM of hub `h` is bad: the item is read from its die's RD, or from the other hub's RM (R194, R201). -/
def State.badRm (s : State) (h bank : Nat) (mirrorBad : Bool) : State :=
  if mirrorBad ∨ !((s.die (mirrorDie bank)).up || (s.hub (1 - h)).up) then s.enterQuiet 3 else s

/-- An uncorrectable word, by region (R194): `mirrorBad` says that no other copy serves. -/
def State.badWord (s : State) (die bank line : Nat) (mirrorBad : Bool) (core : Option Nat) : State :=
  match regionOf die bank with
  | .rs => (s.badRs die bank line).haltReader core (dsmDetail die bank line)
  | .tb | .pm | .ps => s.haltReader core (dsmDetail die bank line)
  | .lg => if mirrorBad then { s with ledgerLost := s.ledgerLost + 1 }.enterQuiet 3 else s
  | .rd => s.badRd die mirrorBad
  | .rm => s.badRm (die - 4) bank mirrorBad
  | .sc => if mirrorBad then s.enterQuiet 4 else s
  | .fs => s

/-- A DSM ECC error (R194): corrected, or counted as uncorrectable and handled by region. No master reads a bank that is
OFF, so no error is found in one (R192). -/
def State.dsmEcc (s : State) (die bank line : Nat) (dbl mirrorBad : Bool) (core : Option Nat) : State :=
  if s.bankState die bank = .off then s
  else if dbl then
    (s.modDsm die (fun d => { d with err := setBit d.err 1, eccUncorr := inc d.eccUncorr })).badWord die bank line mirrorBad core
  else s.modDsm die (fun d => { d with err := setBit d.err 0, eccCorr := inc d.eccCorr })

/-- DSM_ECC_ERROR (R194). -/
def execDsmEccError (die bank line : Nat) (dbl mirrorBad : Bool) (core : Option Nat) (s : State) :
    Host.Outcome State Fault Refusal :=
  answer (decide (die < 6) && bankOk die bank && decide (line < 16384) && core.all coreOk)
    (s.dsmEcc die bank line dbl mirrorBad core)

/-- The bank is under test by a march (R185, R459). -/
def State.marchedBank (s : State) (die bank : Nat) : Bool :=
  s.grazer.marches.any (fun m => m.1.kind == 6 && m.1.die == die && m.1.bank == bank)

/-- A control core is one of the die (R185). -/
def ofDie (die : Nat) (core : Option Nat) : Bool := core.any (fun k => dieOf k == die)

/-- What a master may do with a line of a bank (R185): Moult writes free lines of RS, and a control core reads its own die's
tables and maps, and of its RS the code that its frame is bound to. -/
def State.mayAccess (s : State) (die master bank line : Nat) (write : Bool) (core : Option Nat) : Bool :=
  let r := regionOf die bank
  match master, write with
  | 0, false => r == .fs || r == .lg
  | 0, true => r == .fs || r == .lg || r == .tb || r == .pm || r == .ps
  | 1, false => r == .fs || r == .rd || r == .rm
  | 1, true => (r == .rs && s.rsLineFree die (lineNo bank line)) || r == .rd || r == .rm
  | 2, false => ofDie die core && (r == .tb || r == .pm || (r == .rs && core.any (fun k => s.mayFetch k (lineNo bank line))))
  | 3, false => r == .tb || r == .pm
  | 4, _ => r != .sc && s.marchedBank die bank
  | 5, false => r == .sc || r == .fs
  | 5, true => r == .sc
  | 6, false => r == .ps
  | 7, false => r == .rd
  | _, _ => false

/-! ### Hubs (R420, R421) -/

/-- The standby Yoke of hub `h` takes over (R406). -/
def State.yokeTakeover (s : State) (h : Nat) : State :=
  { s with
    yoke := { s.yoke with
      target := s.standby.target, envelope := s.standby.envelope, active := h
      doms := s.yoke.doms.mapIdx (fun i d => { d with kappa := at' s.standby.kappas i d.kappa })
      regs := { s.yoke.regs with event := setBit s.yoke.regs.event 5, takeover := inc s.yoke.regs.takeover } }
    dies := s.dies.mapIdx (fun i d => { d with
      bal := (at' s.standby.ballast i []).filter (fun x => d.up && !d.alarm && s.engineIdle x.1 x.2.1)
      offset := at' s.standby.offsets i d.offset }) }

/-- Every result that is SENT and not released is transmitted again, in order (R370). -/
def State.resendSent (s : State) : State :=
  if s.refusing.isSome then s else s.resendAll (s.entries.filter (fun e => e.st == .sent && e.parcelOk && e.here))

/-- Hub `h` leaves service until the next cold start, and the survivor takes over its duties (R25, R327, R404, R421). -/
def State.hubFail (s : State) (h : Nat) : State :=
  let o := 1 - h
  let s1 := (s.modHub h (fun x => { x with up := false, segs := [], copies := [], backlog := 0 })).countLostUnit
  let s2 : State := { s1 with
    pkg := { s1.pkg with leader := if s1.pkg.leader = h then o else s1.pkg.leader }
    bulk := s1.bulk.map (fun b => if b.hub = h then { b with hub := o } else b) }
  let s3 := if s2.yoke.active = h then s2.yokeTakeover o else s2
  (s3.uncontrolled.dropHub h).resendSent

/-- HUB_SELF_CHECK_FAIL: takeover, or QUIET when the other hub has failed too (R420, R423). -/
def State.selfCheckFail (s : State) (h : Nat) : State :=
  if !(s.hub h).up then s
  else if (s.hub (1 - h)).up then s.hubFail h
  else (((s.modHub h (fun x => { x with up := false })).countLostUnit).enterQuiet 6).uncontrolled

/-- HUB_SELF_CHECK_FAIL (R420). -/
def execHubSelfCheckFail (h : Nat) (s : State) : Host.Outcome State Fault Refusal :=
  answer (hubOk h) (s.selfCheckFail h)

/-- A heartbeat of hub `h` arrives over a bridge, through the hub links of a compute die, or both (R420). -/
def State.heartbeat (s : State) (h : Nat) (bridge relay : Bool) : State :=
  let b := bridge && s.bridgeUp
  let r := relay && s.dies.any (fun d => d.up && d.hubLinks.all id)
  if !(s.hub h).up then s
  else s.modHub h (fun x => { x with beatBridge := x.beatBridge || b, beatDie := x.beatDie || r })

/-- HUB_HEARTBEAT (R420). -/
def execHubHeartbeat (h : Nat) (bridge relay : Bool) (s : State) : Host.Outcome State Fault Refusal :=
  answer (hubOk h) (s.heartbeat h bridge relay)

/-- HUB_HEARTBEAT_LOSS: the 100 µs in which heartbeats of hub `h` are awaited are over; no heartbeat on any path fails
the hub, none over the bridges loses the bridges (R29, R420). -/
def State.heartbeatLoss (s : State) (h : Nat) : State :=
  let x := s.hub h
  let s1 := s.modHub h (fun x => { x with beatBridge := false, beatDie := false })
  if !x.up ∨ !(s.hub (1 - h)).up then s
  else if x.beatBridge then s1
  else if x.beatDie then { s1 with pkg := { s1.pkg with bridges := [false, false] } }.enterQuiet 2
  else s1.hubFail h

/-- HUB_HEARTBEAT_LOSS (R420). -/
def execHubHeartbeatLoss (h : Nat) (s : State) : Host.Outcome State Fault Refusal :=
  answer (hubOk h) (s.heartbeatLoss h)

/-- DIGEST_EXCHANGE: unequal digests of the hubs give QUIET (R424). -/
def execDigestExchange (s : State) : Host.Outcome State Fault Refusal :=
  answer true (
    if (s.hub 0).up ∧ (s.hub 1).up ∧ s.bridgeUp ∧ (s.hub 0).digest ≠ (s.hub 1).digest then s.enterQuiet 5 else s)

/-- BRIDGE_RESTORED: QUIET for lost bridges ends when the two copies of LG are equal (R423). -/
def State.bridgeBack (s : State) (b : Nat) (logsEqual : Bool) : State :=
  let s1 : State := { s with pkg := { s.pkg with bridges := s.pkg.bridges.set b true } }
  if s.pkg.quiet ≠ 2 then s1
  else if logsEqual then { s1 with pkg := { s1.pkg with quiet := 0 } }
  else s1.enterQuiet 5

/-- BRIDGE_RESTORED (R423). -/
def execBridgeRestored (b : Nat) (logsEqual : Bool) (s : State) : Host.Outcome State Fault Refusal :=
  answer (decide (b < 2)) (s.bridgeBack b logsEqual)

/-! ### DSM_ACCESS_DENIED and DSM_PRIORITY_ESCALATE -/

/-- The master is one of a hub's (R185, R186): hub ingress, Moult, Sphinx, Yoke, management processor. -/
def hubMaster (m : Nat) : Bool := m == 0 || m == 1 || m == 5 || m == 6 || m == 7

/-- The unit that made a refused access is treated as faulty: the control core is diagnosed and its frame replayed, a
hub master is a fault of its hub, on a compute die of the leader hub (R186, R412; DESIGN CHOICE, log 74). -/
def State.doubtMaster (s : State) (die master : Nat) (core : Option Nat) : State :=
  if hubMaster master then s.selfCheckFail (if die < 4 then s.pkg.leader else die - 4)
  else match master, core with
    | 2, some k => (match (s.core k).entry with
        | some q => s.hwEnd q
        | none => s).modCore k (fun c => { c with diag := true })
    | _, _ => s

/-- DSM_ACCESS_DENIED: an access that R185 does not allow is not performed (R186). -/
def State.denyAccess (s : State) (die master bank line : Nat) (write : Bool) (core : Option Nat) : State :=
  if s.mayAccess die master bank line write core then s
  else ((s.modDsm die (fun d => { d with err := setBit d.err 2, denied := inc d.denied })).localFault).doubtMaster die master core

/-- DSM_ACCESS_DENIED (R186). -/
def execDsmAccessDenied (die master : Nat) (l : BankLine) (write : Bool) (core : Option Nat) (s : State) :
    Host.Outcome State Fault Refusal :=
  answer (decide (die < 6) && bankOk die l.bank && decide (master < 8) && decide (l.line < 16384) && core.all coreOk)
    (s.denyAccess die master l.bank l.line write core)

/-- A master that has an access on the die (R185, R189). -/
def hasAccess (die master : Nat) : Bool :=
  if die < 4 then master != 5 else master == 0 || master == 1 || master == 4 || master == 5

/-- DSM_PRIORITY_ESCALATE: the cycles that an access waited are counted; what it takes precedence over is timing only
(R187 to R189). No master waits for a bank that is OFF (R192). -/
def execDsmPriorityEscalate (die bank master waited : Nat) (s : State) : Host.Outcome State Fault Refusal :=
  answer (decide (die < 6) && bankOk die bank && decide (master < 8)) (
    if hasAccess die master ∧ s.bankState die bank ≠ .off then
      s.modDsm die (fun d => { d with conflicts := modAt d.conflicts master (fun w => incBy w waited) })
    else s)

/-! ### The remaining losses -/

/-- STACK_LOST (R419). -/
def execStackLost (st : Nat) (s : State) : Host.Outcome State Fault Refusal := answer (decide (st < 16)) (s.loseStack st)

/-- DIE_LOST (R418). -/
def execDieLost (d : Nat) (s : State) : Host.Outcome State Fault Refusal := answer (computeOk d) (s.loseDie d)

/-- FAULT_PULSE_END: the 1 ms of an assertion is over (R411). -/
def execFaultPulseEnd (s : State) : Host.Outcome State Fault Refusal :=
  answer true { s with pkg := { s.pkg with faultPulse := false } }

end Sys2Proof.Machine
end

