-- ==== Sys2Proof/Machine/Yoke.lean ====
section
/-! DEFINITION. The Yoke (12): the envelope and its parts, calibration, the start comb, heat and voltage, cluster
clocks and sleep, and the sleep of stacks and banks (06 R191, R192). -/
namespace Sys2Proof.Machine
open Sys2Proof

/-- Clocks other than the Cocoon's run (R396, R563). -/
def State.clocked (s : State) : Bool := s.pkg.phase != .down && s.pkg.phase != .clocksOff

/-! ### Demand (R381, R390) -/

/-- An entry with the cores that its placements give, bound or not. -/
def State.planned (s : State) (e : Entry) : Entry :=
  match e.op, e.epoch with
  | .run b, none =>
    { e with epoch := some s.pkg.epoch
             frame := { e.frame with places := b.placements, cores := frameCores (s.placesAt b.placements s.pkg.epoch) } }
  | _, _ => e

/-- The frame still runs on die `d`. -/
def State.onDie (s : State) (e : Entry) (d : Nat) : Bool :=
  (dieCores d).any (fun k => (s.core k).entry == some e.cseq && (s.core k).live)

/-- The reserved power of an entry on die `d` that the target counts, in units of 1/800 mW: RUNNING, READY, and
ADMITTED under `LOOKAHEAD` (R381, R390). -/
def State.frameDemand (s : State) (d : Nat) (e : Entry) : Nat :=
  if !(s.runsHere e) || e.ended then 0
  else match e.st with
    | .running => if s.onDie e d then s.reservation e d else 0
    | .ready => s.reservation e d
    | .admitted => if s.profile.power.lookahead then s.reservation (s.planned e) d else 0
    | _ => 0

/-- The power of slices and maintenance that the demand of domain `i` counts: what is in progress, and what is queued as far
as it would displace ballast (R381, R388). -/
def State.sliceDemand (s : State) (t : TickPower) (i : Nat) : Nat :=
  at' t.slices i 0 + (if i < 4 then min (at' t.queued i 0) (s.die i).ballast else 0)

/-- The demand of the six AVSBus domains in milliwatts: the standing draws with the clusters that the work needs taken in
RUN, the Cocoon's with the hub's (R379), the reservations, slices and maintenance (R381). -/
def State.demands (s : State) (t : TickPower) : List Nat :=
  tabulate 6 (fun i =>
    at' t.needed i 0 + s.sliceDemand t i + (if i = 4 then at' t.needed 6 0 + s.sliceDemand t 6 else 0) +
      (if i < 4 then ((s.entries.map (s.frameDemand i)).foldl (· + ·) 0) / 800 else 0))

/-- The target (R381, R404, R405). -/
def State.newTarget (s : State) (t : TickPower) : Nat :=
  let p := s.profile.power
  if s.pkg.quiet ≠ 0 ∨ s.yoke.hot then p.floor * 1000
  else min (p.ceiling * 1000) (max (p.floor * 1000) ((s.demands t).foldl (· + ·) 0))

/-! ### The envelope (R380, R382) and its parts (R384) -/

/-- The envelope moves by one tick towards the target: `CEILING`·`SLEW` per ms is `ceiling·slew` microwatts per tick. -/
def stepEnvelope (p : ProfPower) (y : Yoke) (target standing : Nat) : Yoke :=
  let t := target * 1000
  let d := p.ceiling * p.slew
  let fall := y.falling && decide (target ≤ y.target)
  let e := if y.envelope < t then min t (y.envelope + d)
    else if fall then min y.envelope (max (max t (standing * 1000)) (y.envelope - d))
    else y.envelope
  { y with target := target, envelope := e, standing := standing, below := decide (t < e), falling := fall && decide (t < e) }

/-- The ceilings of the six domains in milliwatts; a lost die or hub has no share (R384, R404). -/
def State.domCeilings (s : State) : List Nat :=
  let c := s.profile.power.ceiling * 1000
  tabulate 4 (fun d => if (s.die d).up then s.dieCeiling else 0) ++
    [c * s.profile.power.fracHub * (flag (s.hub 0).up + flag (s.hub 1).up) / 200, c * s.profile.power.fracHbm / 200]

/-- Slack given in equal parts to those of the pairs (part, ceiling) that can take it. -/
def shareSlack : Nat → Nat → List (Nat × Nat) → List Nat
  | 0, _, l => l.map (·.1)
  | n + 1, slack, l =>
    let m := (l.filter (fun x => decide (x.1 < x.2))).length
    if m = 0 ∨ slack < m then l.map (·.1)
    else
      let l1 := l.map (fun x => if x.1 < x.2 then (min x.2 (x.1 + slack / m), x.2) else x)
      let used := (l1.map (·.1)).foldl (· + ·) 0 - (l.map (·.1)).foldl (· + ·) 0
      shareSlack n (slack - used) l1

/-- The parts of the compute dies (R384): in proportion to demand, each capped, then the slack. -/
def State.dieParts (s : State) (env : Nat) (dem : List Nat) : List Nat :=
  let sum := dem.foldl (· + ·) 0
  let caps := s.domCeilings
  let base := dem.mapIdx (fun i d => if sum = 0 then 0 else min (at' caps i 0) (env * d / sum))
  shareSlack 5 (env - base.foldl (· + ·) 0) (((base.zip caps)).take 4)

/-! ### YOKE_TICK -/

/-- The estimate of a domain in milliwatts for a tick with standing draw `x` and pass energy `pj` (R377). -/
def Domain.tick (d : Domain) (x pj : Nat) : Domain :=
  let e := d.kappa * (x * 1000 + pj) / 65536 / 1000
  { d with est := e, estE := d.estE + e }

/-- The draw that the Yoke takes for a domain between samples (R377, R378). -/
def Domain.now (d : Domain) : Nat := if d.limited then d.draw + d.est - d.estS else d.est

/-- Energy in pJ that `n` engines spend on ballast in a tick: 1,500 cycles of 1.5 GHz, in passes of 8 (R385, R402). -/
def Die.ballastEnergy (d : Die) (n : Nat) : Nat := n * d.epass * 1875 / 10

/-- The energy in pJ, beside the standing draw, that the estimate of domain `i` counts in a tick (R377, R388): passes, row
writes, ballast and slices of a compute die, link and access counters of the hub and HBM domains. -/
def State.tickEnergy (s : State) (t : TickPower) (n : TickCounts) (i : Nat) : Nat :=
  let d := s.die i
  let c (j : Nat) : Nat := at' n.counts j 0 * at' s.yoke.coef j 0
  match i with
  | 4 => c 0 + c 1
  | 5 => c 2 + c 3
  | 6 => 0
  | _ => d.act + d.ballastEnergy d.bal.length + at' t.slices i 0 * 1000

/-- How many engines of a die are to run ballast, so that its draw `now` becomes its part `p` of the envelope (R383, R386): as
many more as fit, or fewer by as many as exceed it, within the starts and stops that the comb allows (R393). -/
def Die.wanted (d : Die) (kappa p now : Nat) : Nat :=
  let one := kappa * d.ballastEnergy 1
  let n := d.bal.length
  if !d.up || d.alarm || one == 0 then 0
  else if now ≤ p then min (n + (p - now) * 1000 * 65536 / one) (n + (d.limit - d.starts))
  else max (n - ceilDiv ((now - p) * 1000 * 65536) one) (n - (d.limit - d.stops))

/-- Estimates, parts, and the ballast that the dies want (R377, R384, R386). -/
def State.balance (s : State) (t : TickPower) (n : TickCounts) (parts : List Nat) : State :=
  let doms := s.yoke.doms.mapIdx (fun i d => d.tick (at' t.standing i 0) (s.tickEnergy t n i))
  { s with
    yoke := { s.yoke with doms := doms }
    dies := s.dies.mapIdx (fun i d =>
      let p := if d.up then at' parts i 0 else 0
      let m := at' doms i Domain.fresh
      let n := d.wanted m.kappa p m.now
      { d with
        part := p, act := 0, standing := at' t.standing i 0, balN := n, ballast := d.ballastEnergy n / 1000
        starts := d.starts + (n - d.bal.length), stops := d.stops + (d.bal.length - n) }) }

/-- Work keeps physical cluster `c` of die `d` in RUN: a frame, a slice or a march (R399). -/
def State.clusterWorks (s : State) (d c : Nat) : Bool :=
  (match s.logCluster d c with
    | some l => (clusterCores d l).any (fun k => (s.core k).live)
    | none => false) ||
    s.grazer.slices.any (fun x => x.t.kind < 6 && x.t.die == d && x.t.cluster == c) ||
    s.grazer.marches.any (fun x => x.1.kind < 6 && x.1.die == d && x.1.cluster == c)

/-- Ballast may run on engine `e` of core `k`: it is in service and awake, no work, test or substitution is on it, and a plane
of it may be used (R385, R387). -/
def State.ballastOk (s : State) (k e : Nat) : Bool :=
  s.engineIdle k e && !(s.engineTested k e) && !(s.substBlocks k [e]) && !((s.core k).engine e).ballastPlanes.isEmpty

/-- The cluster of core `k` was woken for ballast. -/
def State.forBallast (s : State) (k : Nat) : Bool := (s.clOf k).any (·.woken)

/-- The engines of die `d` for ballast in the order of R386: idle engines of cores that run a frame, engines of idle cores,
engines of clusters woken for the purpose; ascending within each. -/
def State.ballastOrder (s : State) (d : Nat) : List (Nat × Nat) :=
  let ks := (dieCores d).filter (fun k => s.coreUp k && s.coreAwake k && !(s.core k).diag)
  let idle := ks.filter (fun k => !(s.core k).live)
  ((ks.filter (fun k => (s.core k).live)) ++ idle.filter (fun k => !(s.forBallast k)) ++ idle.filter s.forBallast).flatMap
    (fun k => ((List.range 32).filter (s.ballastOk k)).map (fun e => (k, e)))

/-- The plane that ballast uses after a tick: it rotates among the planes of the engine in ascending order (R385;
DESIGN CHOICE, log 108). -/
def Engine.nextBallast (g : Engine) (p : Nat) : Nat :=
  let l := g.ballastPlanes
  at' l ((l.idxOf p + 187) % max 1 l.length) 0

/-- The ballast of die `d` with `n` engines: more in the order of R386, or fewer in the reverse of it. -/
def State.newBallast (s : State) (d n : Nat) : List (Nat × Nat × Nat) :=
  if n = 0 then []
  else
    let order := s.ballastOrder d
    let old := ((s.die d).bal.filter (fun x => order.contains (x.1, x.2.1))).map (fun x =>
      (x.1, x.2.1, ((s.core x.1).engine x.2.1).nextBallast x.2.2))
    let has (y : Nat × Nat) : Bool := old.any (fun x => (x.1, x.2.1) == y)
    if old.length ≤ n then
      old ++ ((order.filter (fun y => !(has y))).take (n - old.length)).map (fun y =>
        (y.1, y.2, ((s.core y.1).engine y.2).ballastPlanes.headD 0))
    else
      let stay := (order.filter has).take n
      old.filter (fun x => stay.contains (x.1, x.2.1))

/-- Ballast is on an engine of physical cluster `c` of die `d`. -/
def State.holdsBallast (s : State) (d c : Nat) : Bool :=
  (s.die d).bal.any (fun x => s.logCluster d c == some (clusterOf x.1))

/-- The dozing clusters of die `d` that are woken so that `lack` more engines can hold ballast, beside those that wake
already (R386, R400). -/
def State.toWake (s : State) (d lack : Nat) : List Nat :=
  let waking := ((List.range 9).filter (fun c => (s.cl d c).waking && (s.cl d c).woken)).length
  ((List.range 9).filter (fun c => let x := s.cl d c
    x.st == .doze && !x.waking && x.ok && !x.unlocked && (s.logCluster d c).isSome)).take (ceilDiv lack 512 - waking)

/-- Ballast is placed on die `d` (R386). -/
def State.placeBallast (s : State) (d : Nat) : State :=
  let n := (s.die d).balN
  let s1 := s.modDie d (fun x => { x with bal := s.newBallast d n })
  (s1.toWake d (n - (s1.die d).bal.length)).foldl (fun s c => (s.startWake d c).modCl d c (fun x => { x with woken := true })) s1

/-- RUN and IDLE of a cluster: one that holds ballast or work is in RUN (R386, R399). -/
def State.runOrIdle (s : State) (d c : Nat) : State :=
  let x := s.cl d c
  if x.st = .off ∨ x.st = .doze then s
  else s.modCl d c (fun x => { x with
    woken := x.woken && !(s.clusterWorks d c)
    st := if (s.holdsBallast d c || s.clusterWorks d c) && !(s.die d).alarm then .run else .idle })

/-- Ballast passes that failed their check: steps 2 and 3 of R68, and the diagnosis follows (R68, R385). -/
def State.ballastFails (s : State) (l : List (Nat × Nat × Nat)) : State :=
  l.foldl (fun s x =>
    if s.ballastOn x.1 x.2.1 ∧ ((s.core x.1).engine x.2.1).ballastPlanes.contains x.2.2 then
      s.modCore x.1 (fun c => (c.fencePlane x.2.1 x.2.2).countBw)
    else s) s

/-- The standby Yoke's copy (R406). -/
def State.copyYoke (s : State) : State :=
  if s.bridgeUp && (s.hub 0).up && (s.hub 1).up then
    { s with standby := { envelope := s.yoke.envelope, target := s.yoke.target, kappas := s.yoke.doms.map (·.kappa),
                          ballast := s.dies.map (·.bal), offsets := s.dies.map (·.offset) } }
  else s

/-- What ends with a tick: the rebuild of a directory (R194; DESIGN CHOICE, log 107), and the copies of WORK segments that the
bridges have carried, 64,000 bytes in 1 µs over each (R27, R354; DESIGN CHOICE, log 109). -/
def State.tickEnds (s : State) : State :=
  let n := 64000 * (s.pkg.bridges.filter id).length
  { s with
    dsm := s.dsm.map (fun x => { x with rebuild := false })
    hubs := s.hubs.map (fun h => { h with backlog := h.backlog - n }) }

/-- One tick of 1 µs: 100 cycles of the always-on clock (R377, R380, R398). -/
def State.tick (s : State) (t : TickPower) (n : TickCounts) : State :=
  let s0 : State := { s with pkg := { s.pkg with aon := (s.pkg.aon + 100) % 2 ^ 64 } }
  if !s.clocked then s0
  else
    let standing := (t.standing.take 7).foldl (· + ·) 0
    let target := if s.pkg.phase = .warm then standing else s0.newTarget t
    let y := stepEnvelope s.profile.power
      { s0.yoke with falling := s0.yoke.falling || s.pkg.phase == .warm } target standing
    let s1 : State := (({ s0 with yoke := y } : State).ballastFails n.fails).tickEnds
    let s2 := s1.balance t n (s1.dieParts (y.envelope / 1000) (s1.demands t))
    let s3 := (List.range 4).foldl (fun s d => s.placeBallast d) s2
    ((List.range 36).foldl (fun s i => s.runOrIdle (i / 9) (i % 9)) s3).copyYoke

/-- YOKE_TICK (R380). -/
def execYokeTick (p : TickPower) (c : TickCounts) (s : State) : Host.Outcome State Fault Refusal := answer true (s.tick p c)

/-- ENV_HOLD: the target has stayed below the envelope for `ENV_HOLD` (R382). -/
def execEnvHold (s : State) : Host.Outcome State Fault Refusal :=
  answer true (if s.yoke.below then { s with yoke := { s.yoke with falling := true } } else s)

/-! ### Voltage (R403) -/

/-- Every core of die `d` halts with VOLTAGE_ALARM; its clusters stay in IDLE (R403). -/
def State.voltAlarm (s : State) (d : Nat) : State :=
  if !(s.die d).up then s
  else if (s.die d).alarm then s.modDie d (fun x => { x with okReads := 0 })
  else
    let ks := (dieCores d).filter (fun k => (s.core k).live)
    let s1 := if ks.isEmpty then s.localFault else ks.foldl (fun s k => s.haltDue k 0x25 (d * 2 ^ 28)) s
    let s2 := s1.modDie d (fun x => { x with alarm := true, okReads := 0, ballast := 0, bal := [], balN := 0 })
    (List.range 9).foldl (fun s c => s.modCl d c (fun x => { x with
      st := if x.st = .run then .idle else x.st })) s2

/-- VOLTAGE_ALARM (R403). -/
def execVoltageAlarm (d : Nat) (s : State) : Host.Outcome State Fault Refusal := answer (computeOk d) (s.voltAlarm d)

/-- VOLTAGE_ALARM_PERSIST: the alarm has lasted 100 ms (R412). -/
def execVoltageAlarmPersist (d : Nat) (s : State) : Host.Outcome State Fault Refusal :=
  answer (computeOk d) (if (s.die d).alarm then s.loseDie d else s)

/-- A readback of a core rail: two in a row within 25 mV end an alarm, one outside begins it (R403). -/
def State.railRead (s : State) (d volts : Nat) : State :=
  let v := (s.die d).vset
  if volts ≤ v + 25 ∧ v ≤ volts + 25 then
    s.modDie d (fun x => { x with okReads := if x.alarm then (x.okReads + 1) % 2 else 0, alarm := x.alarm && x.okReads == 0 })
  else s.voltAlarm d

/-! ### Samples (R376, R378, R383) -/

/-- Kappa after a sample: measured over estimated energy, and whether it is held at a limit. With nothing measured and
nothing estimated it is `free` (DESIGN CHOICE, log 4). -/
def newKappa (kappa measured est free : Nat) : Nat × Bool :=
  if est = 0 ∧ measured = 0 then (32768 + free % 98305, false)
  else if est = 0 then (131072, true)
  else
    let k := kappa * measured / est
    if k < 32768 then (32768, true) else if 131072 < k then (131072, true) else (k, false)

/-- Domain `i` after a sample of `mw` milliwatts (R378). -/
def State.calibrate (s : State) (i mw : Nat) : State :=
  let o := s.openWord 20 32
  let d := at' s.yoke.doms i Domain.fresh
  let k := newKappa d.kappa (mw * 100) d.estE o.2
  let y := o.1.yoke
  { o.1 with yoke := { y with
      doms := y.doms.set i { kappa := k.1, est := d.est, estS := d.est, estE := 0, limited := k.2, draw := mw }
      regs := if k.2 then { y.regs with event := setBit y.regs.event 0, cal := inc y.regs.cal } else y.regs } }

/-- The draw against the envelope, once in each 100 µs (R383). -/
def State.checkDraw (s : State) : State :=
  let r := s.yoke.regs
  let d := s.drawTotal * 1000 * 100
  let r1 := if s.yoke.envelope * 102 < d then { r with event := setBit r.event 1, overs := inc r.overs } else r
  let r2 := if d < s.yoke.envelope * 98 then { r1 with shortfall := inc r1.shortfall } else r1
  { s with yoke := { s.yoke with regs := r2 } }

/-- The measured draw of the hub domain or of the Cocoon domain: its rails at their latest samples (R376). -/
def Yoke.hubDraw (y : Yoke) : Nat := at' y.rails 4 0 + at' y.pmb 0 0 + at' y.pmb 1 0
def Yoke.cocoonDraw (y : Yoke) : Nat := at' y.pmb 2 0

/-- AVS_SAMPLE: current in mA and voltage in mV of an AVSBus group (R376, R378); with the last group the Cocoon domain, which
has no AVSBus rail, takes its new kappa (DESIGN CHOICE, log 110), and the draw of the package is compared with the envelope. -/
def State.avs (s : State) (group volts amps : Nat) : State :=
  let s0 : State := { s with yoke := { s.yoke with rails := s.yoke.rails.set group (volts * amps / 1000) } }
  let s1 := s0.calibrate group (if group = 4 then s0.yoke.hubDraw else volts * amps / 1000)
  let s2 := if group < 4 then s1.railRead group volts else s1
  if group = 5 then (s2.calibrate 6 s2.yoke.cocoonDraw).checkDraw else s2

/-- AVS_SAMPLE (R378). -/
def execAvsSample (group volts amps : Nat) (s : State) : Host.Outcome State Fault Refusal :=
  answer (decide (group < 6)) (if s.clocked then s.avs group volts amps else s)

/-- PMBUS_SAMPLE (R376): a rail whose regulator is missing is not read (R518). -/
def execPmbusSample (rail milliwatts : Nat) (s : State) : Host.Outcome State Fault Refusal :=
  answer (decide (rail < 3)) (if !(bitAt s.idr.regs.toNat (6 + rail)) then s else
    let y := { s.yoke with pmb := s.yoke.pmb.set rail milliwatts }
    let hub := modAt y.doms 4 (fun d => { d with draw := y.hubDraw })
    { s with yoke := { y with doms := modAt hub 6 (fun d => { d with draw := y.cocoonDraw }) } })

/-! ### The start comb (R393, R394) -/

/-- The place of a start in the ring of a die (R394). -/
def ringKey (offset : Nat) (w : Nat × Nat × Nat) : Nat := (w.1 % 128 + 128 - offset) % 128 * 32 + w.2.1

/-- A start in its place of the ring order. -/
def insertStart (offset : Nat) (w : Nat × Nat × Nat) : List (Nat × Nat × Nat) → List (Nat × Nat × Nat)
  | [] => [w]
  | x :: r => if ringKey offset w < ringKey offset x then w :: x :: r else x :: insertStart offset w r

/-- Starts granted in order: those granted whole, and those left. -/
def grantStarts : Nat → List (Nat × Nat × Nat) → List (Nat × Nat) × List (Nat × Nat × Nat)
  | _, [] => ([], [])
  | avail, w :: r =>
    if w.2.2 ≤ avail then
      let x := grantStarts (avail - w.2.2) r
      ((w.1, w.2.1) :: x.1, x.2)
    else ([], (w.1, w.2.1, w.2.2 - avail) :: r)

/-- A new window of the comb: delayed starts are granted, those of earlier windows first, the others in ring order, and
the offset advances at a barrier; `amps` is the current in mA that one start is estimated to add (R393, R394). -/
def State.newWindow (s : State) (d amps : Nat) : State :=
  s.modDie d (fun x =>
    let limit := if amps = 0 then s.profile.power.comb else min s.profile.power.comb (40000 / amps)
    let alive := fun (w : Nat × Nat × Nat) => (s.core w.1).live
    let old := (x.waiting.take x.ordered).filter alive
    let new := (x.waiting.drop x.ordered).filter alive
    let due := old ++ new.foldl (fun l w => insertStart x.offset w l) []
    let g := grantStarts limit due
    { x with
      limit := limit
      stops := 0
      starts := min limit ((due.map (·.2.2)).foldl (· + ·) 0)
      granted := (x.granted.filter (fun w => (s.core w.1).live)) ++ g.1
      waiting := g.2
      ordered := g.2.length
      offset := if new.isEmpty then x.offset else (x.offset + 1) % 128 })

/-- COMB_WINDOW (R393). -/
def execCombWindow (d amps : Nat) (s : State) : Host.Outcome State Fault Refusal := answer (computeOk d) (s.newWindow d amps)

/-! ### Heat (R405, R563) -/

/-- A rise through a threshold. -/
def risesTo (old new t : Nat) : Bool := decide (old < t) && decide (t ≤ new)

/-- TEMP_REPORT (R405). -/
def State.tempReport (s : State) (die temp : Nat) : State :=
  let y := s.yoke
  let old := at' y.temps die 0
  let warn := s.profile.power.tjWarn
  let ts := y.temps.set die temp
  let r1 := if risesTo old temp warn then { y.regs with event := setBit y.regs.event 2, twarn := inc y.regs.twarn } else y.regs
  let r2 := if risesTo old temp 105 then { r1 with event := setBit r1.event 3, tlimit := inc r1.tlimit } else r1
  { s with yoke := { y with
      temps := ts, regs := r2
      hot := (y.hot || decide (105 ≤ temp)) && ts.any (fun t => decide (warn ≤ t)) } }

/-- TEMP_REPORT (R405). -/
def execTempReport (die temp : Nat) (s : State) : Host.Outcome State Fault Refusal :=
  answer (decide (die < 6)) (s.tempReport die temp)

/-- What stops with the clocks outside the Cocoon and cannot be reached until a cold start clears it: programs, deposits,
frames, sessions of bulk and the links. Cells keep their defects (R505, R563). -/
def State.stopClocks (s : State) : State :=
  { s with
    cores := s.cores.map (fun p => (p.1, { Core.fresh with
      engines := p.2.engines.map (fun g => (g.1, { Engine.fresh with stuck := g.2.stuck })) }))
    deposits := [], entries := [], commits := [], streams := [], objects := [], bulk := [], installs := []
    placements := [], routines := [], maint := []
    dies := s.dies.map (fun d => { d with ballast := 0, bal := [], balN := 0 })
    hubs := s.hubs.map (fun h => { h with segs := [], copies := [], backlog := 0 })
    dsm := s.dsm.mapIdx (fun d x => { x with banks := x.banks.mapIdx (fun b y =>
      if 4 ≤ d ∧ (regionOf d b = .lg ∨ regionOf d b = .rm) then .retention else y) })
    ports := s.ports.map (fun p => { p with up := false, secured := false })
    grazer := { s.grazer with slices := [], marches := [], progress := [] } }

/-- THERMTRIP: the pin is latched and every clock except the Cocoon's stops (R405, R563). -/
def execThermtrip (die : Nat) (s : State) : Host.Outcome State Fault Refusal :=
  answer (decide (die < 6)) (
    let s1 : State := { s with pkg := { s.pkg with therm := true } }
    if s.clocked then { s1.stopClocks with pkg := { s1.stopClocks.pkg with phase := .clocksOff } } else s1)

/-! ### Cluster clocks (R397) -/

/-- The first logical core of physical cluster `c`. -/
def State.firstCore (s : State) (d c : Nat) : Option Nat := (s.logCluster d c).map (fun l => 128 * d + 16 * l)

/-- CLOCK_LOSS: the cores of the cluster halt (R397). -/
def State.clockLoss (s : State) (d c : Nat) : State :=
  if (s.cl d c).unlocked ∨ ((s.cl d c).st ≠ .run ∧ (s.cl d c).st ≠ .idle) then s
  else
    let s1 := (s.modCl d c (fun x => { x with unlocked := true })).modDie d (fun x => { x with
      bal := x.bal.filter (fun y => s.logCluster d c != some (clusterOf y.1)) })
    match s.logCluster d c with
    | none => s1.localFault
    | some l =>
      let ks := (clusterCores d l).filter (fun k => (s.core k).live)
      if ks.isEmpty then s1.localFault else ks.foldl (fun s k => s.haltDue k 0x24 (d * 2 ^ 30 + l * 2 ^ 27)) s1

/-- CLOCK_LOSS (R397). -/
def execClockLoss (die cluster : Nat) (s : State) : Host.Outcome State Fault Refusal :=
  answer (computeOk die && decide (cluster < 9)) (s.clockLoss die cluster)

/-- A cluster that failed leaves its place, or the spare pool when it served none (R412). -/
def State.replaceCluster (s : State) (d c : Nat) : State :=
  match s.firstCore d c with
  | some k => s.beginSubst 3 4 k 0
  | none => { s with maps := { s.maps with bad := (4, d, c, 0, 0) :: s.maps.bad } }

/-- RELOCK_TIMEOUT: lock not regained within 60 µs (R397). -/
def execRelockTimeout (die cluster : Nat) (s : State) : Host.Outcome State Fault Refusal :=
  answer (computeOk die && decide (cluster < 9)) (if (s.cl die cluster).unlocked then s.replaceCluster die cluster else s)

/-- The cluster is being replaced. -/
def State.replacing (s : State) (d c : Nat) : Bool :=
  match s.firstCore d c with
  | some k => s.maps.subst.any (fun u => u.level == 4 && u.k / 16 == k / 16)
  | none => s.isBad 4 d c 0 0

/-- CLUSTER_RELOCKED: the cluster returns to service (R397). -/
def execClusterRelocked (die cluster : Nat) (s : State) : Host.Outcome State Fault Refusal :=
  answer (computeOk die && decide (cluster < 9)) (
    if s.replacing die cluster then s else s.modCl die cluster (fun x => { x with unlocked := false }))

/-! ### Sleep (R399 to R401) -/

/-- A frame is READY or RUNNING on a core of logical cluster `l` (R400). -/
def State.clusterNeeded (s : State) (d l : Nat) : Bool :=
  s.entries.any (fun e => (e.st == .ready || e.st == .running) && e.ks.any (fun k => dieOf k == d && clusterOf k == l))

/-- Every cluster of the die is in DOZE or OFF (R401). -/
def State.dieAsleep (s : State) (d : Nat) : Bool :=
  (List.range 9).all (fun c => (s.cl d c).st == .doze || (s.cl d c).st == .off)

/-- A die whose clusters all sleep: its stacks enter self-refresh, its banks RETENTION (R191, R401). -/
def State.sleepDie (s : State) (d : Nat) : State :=
  if !(s.dieAsleep d) then s
  else { s.modDsm d (fun x => { x with banks := x.banks.map (fun b => if b = .on then .retention else b) }) with
    hbmStacks := s.hbmStacks.mapIdx (fun i x => if i / 4 = d then (x.1, x.1) else x) }

/-- DOZE_ENTRY: a cluster idle for `DOZE_HOLD` with no frame and no ballast (R399, R400). -/
def State.doze (s : State) (d c : Nat) : State :=
  let x := s.cl d c
  let busy : Bool := match s.logCluster d c with
    | some l => s.clusterNeeded d l
    | none => false
  if x.st ≠ .idle ∨ s.holdsBallast d c ∨ x.waking ∨ busy ∨ s.clusterWorks d c then s
  else
    let s1 := s.modCl d c (fun x => { x with st := .doze, woken := false })
    let s2 := match s.logCluster d c with
      | some l => s1.modCluster d l (moveSheets .on .retention)
      | none => s1
    let s3 : State := { s2 with yoke := { s2.yoke with regs := { s2.yoke.regs with dozes := inc s2.yoke.regs.dozes } } }
    s3.sleepDie d

/-- DOZE_ENTRY (R399). -/
def execDozeEntry (die cluster : Nat) (s : State) : Host.Outcome State Fault Refusal :=
  answer (computeOk die && decide (cluster < 9)) (s.doze die cluster)

/-- The cluster holds a placement, installed or being installed. -/
def State.holdsPlacement (s : State) (d l : Nat) : Bool :=
  (s.placements ++ s.installs.map (·.pl)).any (fun p => p.spans.any (fun x => x.die == d && x.cluster == l))

/-- Everything that power gating loses in a core: sheets and planes (R155, R399). -/
def offCore (c : Core) : Core :=
  { c with
    mem := { c.mem with spad := [], lineTag := [], spadBad := [], prior := [], sheets := c.mem.sheets.map (fun _ => .off) }
    engines := c.engines.map (fun p => (p.1, { p.2 with planes := [] })) }

/-- CLUSTER_OFF: 100 ms in DOZE without a placement (R399). -/
def State.clusterOff (s : State) (d c : Nat) : State :=
  let x := s.cl d c
  let holds : Bool := match s.logCluster d c with
    | some l => s.holdsPlacement d l || s.clusterNeeded d l
    | none => false
  if x.st ≠ .doze ∨ x.waking ∨ holds then s
  else
    let s1 := s.modCl d c (fun x => { x with st := .off })
    match s.logCluster d c with
    | some l => s1.modCluster d l offCore
    | none => s1

/-- CLUSTER_OFF (R399). -/
def execClusterOff (die cluster : Nat) (s : State) : Host.Outcome State Fault Refusal :=
  answer (computeOk die && decide (cluster < 9)) (s.clusterOff die cluster)

/-- CLUSTER_WAKE_DONE: the cluster is in RUN, its sheets are ON again, its die's banks and stacks are awake (R158, R192,
R400). -/
def State.wakeDone (s : State) (d c : Nat) : State :=
  if !(s.cl d c).waking then s
  else
    let s1 := s.modCl d c (fun x => { x with st := .run, waking := false })
    let s2 := match s.logCluster d c with
      | some l => s1.modCluster d l (fun c => moveSheets .retention .on (moveSheets .waking .on c))
      | none => s1
    let s3 : State := { s2 with
      yoke := { s2.yoke with regs := { s2.yoke.regs with wakes := inc s2.yoke.regs.wakes } }
      hbmStacks := s2.hbmStacks.mapIdx (fun i x => if i / 4 = d then (x.1, false) else x) }
    s3.modDsm d (fun x => { x with banks := x.banks.map (fun b => if b = .retention ∨ b = .waking then .on else b) })

/-- CLUSTER_WAKE_DONE (R400). -/
def execClusterWakeDone (die cluster : Nat) (s : State) : Host.Outcome State Fault Refusal :=
  answer (computeOk die && decide (cluster < 9)) (s.wakeDone die cluster)

/-- STACK_SELF_REFRESH: 100 µs without access while every cluster of its die sleeps (R401). -/
def execStackSelfRefresh (st : Nat) (s : State) : Host.Outcome State Fault Refusal :=
  answer (decide (st < 16)) (
    if s.stackUp st && s.dieAsleep (st / 4) then { s with hbmStacks := s.hbmStacks.set st (true, true) } else s)

/-- DSM_BANK_WAKE_DONE: a waking bank is ON (R191). -/
def execDsmBankWakeDone (die bank : Nat) (s : State) : Host.Outcome State Fault Refusal :=
  answer (decide (die < 6) && bankOk die bank)
    (s.modDsm die (fun x => { x with banks := modAt x.banks bank (fun b => if b = .waking then .on else b) }))

end Sys2Proof.Machine
end

