-- ==== Sys2Proof/Machine/Grazer.lean ====
section
/-! DEFINITION. Grazer, the march engine and hard repair (14): slices and rounds, sweeps, marches, soft repair and fuse
burns. -/
namespace Sys2Proof.Machine
open Sys2Proof

/-! ### Units of a target (R446, R447) -/

/-- Unit time, and entry and exit together, in tenths of a microsecond (R446, R447). -/
def sliceTimes (kind : Nat) : Nat × Nat :=
  match kind with
  | 1 | 2 => (50, 20)
  | 3 => (30, 0)
  | 4 => (3, 20)
  | 5 => (5, 20)
  | _ => (10, 0)

/-- Bytes of a placement's TB and PM contents on a die (R446). -/
def State.digestBytes (s : State) (d h : Nat) : Nat :=
  match s.placement? h with
  | some p =>
    (if p.cores.any (fun k => dieOf k == d) then p.tabBytes else 0) + 8 * (p.spans.filter (fun x => x.die == d)).length
      + 2 * (p.cores.filter (fun k => dieOf k == d)).length
  | none => 0

/-- Units of a target in one round (R446). -/
def State.targetUnits (s : State) (t : Target) : Nat :=
  match t.kind with
  | 1 => 384
  | 2 => 160
  | 3 => 8
  | 4 => 32
  | 5 => 1
  | 6 => 230
  | _ => ceilDiv (s.digestBytes t.die t.handle) 65536

/-- What the round has recorded of a target. -/
def Grazer.mark (g : Grazer) (t : Target) : Nat := ((g.progress.find? (fun x => x.1 == t)).map (·.2)).getD 0

/-- Units of a target completed in the round. -/
def Grazer.unitsDone (g : Grazer) (t : Target) : Nat := if t.kind = 3 then popCount 8 (g.mark t) else g.mark t

/-- The record of a target replaced. -/
def Grazer.setMark (g : Grazer) (t : Target) (n : Nat) : Grazer :=
  { g with progress := if g.progress.any (fun x => x.1 == t) then g.progress.map (fun x => if x.1 == t then (t, n) else x)
    else g.progress ++ [(t, n)] }

/-- Units of a slice at the owner's budget (R447). -/
def State.sliceLimit (s : State) (t : Target) : Nat :=
  let x := sliceTimes t.kind
  min ((s.profile.power.budget * 10 - x.2) / x.1) (s.targetUnits t - s.grazer.unitsDone t)

/-! ### Where and when slices run (R446, R451) -/

/-- No READY or RUNNING frame needs core `k` (R446). -/
def State.coreFree (s : State) (k : Nat) : Bool :=
  (s.core k).entry.isNone && !(s.entries.any (fun e => (e.st == .ready || e.st == .running) && e.ks.contains k))

/-- The logical cores that lie in a target: none for a spare. -/
def State.targetCores (s : State) (t : Target) : List Nat :=
  match t.kind with
  | 2 => (match s.logCluster t.die t.cluster with
    | some l => clusterCores t.die l
    | none => [])
  | _ => (s.logCore t.die t.cluster t.core).toList

/-- The condition of R446 on the target. -/
def State.targetReady (s : State) (t : Target) : Bool :=
  match t.kind with
  | 1 | 2 | 4 | 5 => (s.targetCores t).all s.coreFree
  | 3 =>
    (match s.targetCores t with
    | k :: _ =>
      (match s.logEngine k t.engine with
      | some e => !((s.core k).acc.passes.any (fun x => x.members.any (fun v => v.1.e == e)))
      | none => true)
    | [] => true)
  | 6 => regionOf t.die t.bank != .sc
  | _ => decide (0 < s.digestBytes t.die t.handle)

/-- The physical cluster of the target is in RUN or IDLE; die shared memory needs none. -/
def State.targetAwake (s : State) (t : Target) : Bool :=
  decide (6 ≤ t.kind) ||
    (let c := s.cl t.die t.cluster
     (c.st == .run || c.st == .idle) && !c.waking && !c.unlocked)

/-- The activity that a slice is (R439). -/
def sliceAct (t : Target) : Act := ⟨if t.kind = 3 then 4 else 0, t⟩

/-- The cluster of the target is neither waking nor without its clock. -/
def State.targetStill (s : State) (t : Target) : Bool :=
  decide (6 ≤ t.kind) || !((s.cl t.die t.cluster).waking || (s.cl t.die t.cluster).unlocked)

/-- A slice can start (R451): its power can be withdrawn from ballast on a compute die (R388; a hub has none:
DESIGN CHOICE, log 108), the matrix and the limits per cluster and die
allow it, and units remain. -/
def State.sliceCan (s : State) (t : Target) : Bool :=
  s.targetStill t && s.grazer.started && s.pkg.phase == .running && s.targetReady t && s.mayStart (sliceAct t) &&
    decide (0 < s.sliceLimit t) && (decide (4 ≤ t.die) || ((s.die t.die).up && decide (at' (s.die t.die).slicemW t.kind 0 ≤ (s.die t.die).ballast))) &&
    !(s.grazer.slices.any (fun x =>
      (x.t.kind ≤ 2 && t.kind ≤ 2 && x.t.die == t.die && x.t.cluster == t.cluster) ||
        (x.t.kind == 6 && t.kind == 6 && x.t.die == t.die)))

/-- The targets of a kind on die `d` in ascending order of cluster, core, engine and bank, or of handle (R446, R451). -/
def State.kindTargets (s : State) (kind d : Nat) : List Target :=
  let cores (f : Nat → Nat → List Target) : List Target :=
    if d < 4 then (List.range 9).flatMap (fun c => (List.range 17).flatMap (f c)) else []
  match kind with
  | 2 => if d < 4 then (List.range 9).map (fun c => ⟨2, d, c, 0, 0, 0, 0⟩) else []
  | 3 => cores (fun c i => (List.range 33).map (fun e => ⟨3, d, c, i, e, 0, 0⟩))
  | 6 => ((List.range 64).filter (fun b => bankOk d b && regionOf d b != .sc)).map (fun b => ⟨6, d, 0, 0, 0, b, 0⟩)
  | 7 => if d < 4 then (sortedSet (s.placements.map (·.handle))).map (fun h => ⟨7, d, 0, 0, 0, 0, h⟩) else []
  | k => cores (fun c i => [⟨k, d, c, i, 0, 0, 0⟩])

/-- The targets that come before `t`: those of its kind in the order of R451, and those of lower kinds on its die. -/
def State.before (s : State) (t : Target) : List Target :=
  (s.kindTargets t.kind t.die).takeWhile (fun x => x != t) ++ (List.range t.die).flatMap (s.kindTargets t.kind)
    ++ ((List.range t.kind).drop 1).flatMap (fun k => s.kindTargets k t.die)

/-- A slice starts on `t`: it can, and no target before it can (R451; DEDUCED, log 123). -/
def State.sliceMay (s : State) (t : Target) : Bool := s.sliceCan t && !((s.before t).any s.sliceCan)

/-- What the hardware zeroises in a core before scan (R455). -/
def zeroiseCore (c : Core) : Core :=
  { c with
    ctl := CtlRegs.fresh
    wins := List.replicate 8 none
    acc := { c.acc with slotTag := [] }
    mem := { c.mem with
      spad := [], lineTag := [], spadBad := [], prior := [], same := [], treg := [], rowTag := [], tregBad := [], tagBad := [], rowMask := 0, elemMask := 0 }
    engines := c.engines.map (fun p => (p.1, { p.2 with
      nu := NearUnit.fresh, active := none, shadow := none
      planes := p.2.planes.map (fun q => (q.1, { q.2 with written := 0 })) })) }

/-- Sheets all OFF at the exit of a LOGIC slice (R455). -/
def sheetsOff (c : Core) : Core := { c with mem := { c.mem with sheets := c.mem.sheets.map (fun _ => .off) } }

/-- The cores of a target changed. -/
def State.modTarget (s : State) (t : Target) (f : Core → Core) : State := (s.targetCores t).foldl (fun s k => s.modCore k f) s

/-- GRAZER_SLICE_START: a sleeping cluster is woken first (R451, R455). -/
def State.sliceStart (s : State) (t : Target) : State :=
  if !(s.sliceMay t) then s
  else if !(s.targetAwake t) then s.startWake t.die t.cluster
  else
    let s0 := s.modDie t.die (fun d => { d with ballast := d.ballast - at' d.slicemW t.kind 0 })
    let s1 := if t.kind = 1 then s0.modTarget t zeroiseCore else s0
    { s1 with grazer := { s1.grazer with
        slices := s1.grazer.slices ++ [⟨t, 0, s.sliceLimit t, s.pkg.aon % 2 ^ 32, 0, false, 0⟩] } }

/-- GRAZER_SLICE_START (R451). -/
def execGrazerSliceStart (t : Target) (s : State) : Host.Outcome State Fault Refusal := answer (targetOk t) (s.sliceStart t)

/-! ### Sweeps (R450) -/

/-- A plane of engine `e` of core `k` is skipped by a sweep: FENCED, PROGRAMMING, RETIRED, or dynamic and in use. -/
def State.sweepSkips (s : State) (k e p : Nat) : Bool :=
  let q := s.planeAt (k, e, p)
  q.st == .fenced || q.st == .programming || q.st == .retired ||
    (match q.dyn with
    | some h => s.entries.any (fun x => (x.st == .ready || x.st == .running) && x.frame.places.contains h)
    | none => false)

/-- A plane that is not skipped compares good: with its golden copy, with the filler, or by patterns for a dynamic one
(R73, R450). -/
def State.compares (s : State) (k e p : Nat) : Bool :=
  let q := s.planeAt (k, e, p)
  let g := (s.core k).engine e
  if q.dyn.isSome then
    !(g.stuck.any (fun c => c.plane == p && (List.range 264).any (fun n => g.physCol n == c.col)))
  else if q.st = .empty then (g.mismatches p).isEmpty
  else (s.badCells (k, e, p) (s.goldenRows (k, e, p))).isEmpty

/-- A tested dynamic plane is left cleared (R450). -/
def clearDyn (q : Plane) : Plane := if q.dyn.isSome then { q with rows := [], written := 0, tag := 0 } else q

/-- A plane that a sweep finds bad: FENCED until it is diagnosed, or for an EMPTY one the columns of its mismatches are
substituted (R70, R412). One that compares good has failed the check of its test vectors (R83). -/
def State.sweepFails (s : State) (k e p : Nat) : State :=
  let s1 := if s.compares k e p then s.localFault.countSweepFail k else s.localFault
  if (s.planeAt (k, e, p)).st = .empty then
    s1.beginColumns k e (sortedSet ((((s.core k).engine e).mismatches p).map (·.2.1)))
  else s1.modPlane k e p Plane.suspect

/-- The planes that a sweep of engine `e` takes now. -/
def State.sweepPlanes (s : State) (k e : Nat) : List Nat := (List.range 8).filter (fun p => !(s.sweepSkips k e p))

/-- BELLWETHER_SWEEP: each plane compared, then test vectors on the non-EMPTY ones (R450). -/
def State.sweep (s : State) (k e : Nat) (vectorsOk : Bool) : State :=
  if !(s.mayStart ⟨4, s.engineTarget k e⟩) ∨ (s.core k).passOn e ∨ s.substBlocks k [e] then s
  else
    let ps := s.sweepPlanes k e
    let bad := ps.filter (fun p => !(s.compares k e p) || (!vectorsOk && (s.planeAt (k, e, p)).st != .empty))
    let s1 := bad.foldl (fun s p => s.sweepFails k e p) s
    ps.foldl (fun s p => s.modPlane k e p clearDyn) s1

/-- BELLWETHER_SWEEP (R450). -/
def execBellwetherSweep (k e : Nat) (vectorsOk : Bool) (s : State) : Host.Outcome State Fault Refusal :=
  answer (coreOk k && engineOk e) ({ s with
    maint := s.maint.filter (fun a => !(a.code == 4 && a.unit == 32 * k + e)) }.sweep k e vectorsOk)

/-! ### Units of a slice (R447) -/

/-- The plane that a SWEEP slice takes next. -/
def State.nextPlane (s : State) (x : Slice) : Option Nat :=
  (List.range 8).find? (fun p => !(bitAt (s.grazer.mark x.t) p) && !(bitAt x.tried p) &&
    match (s.targetCores x.t).head? with
    | some k => (match s.logEngine k x.t.engine with
      | some e => !(s.sweepSkips k e p)
      | none => true)
    | none => true)

/-- What a completed unit leaves in the target: a tested dynamic plane is cleared, tile registers are zero after the
destructive march (R450, R459). -/
def State.unitEffect (s : State) (t : Target) (p : Nat) : State :=
  match t.kind, s.targetCores t with
  | 3, k :: _ =>
    (match s.logEngine k t.engine with
    | some e => s.modPlane k e p clearDyn
    | none => s)
  | 5, _ => s.modTarget t (fun c => { c with mem := { c.mem with treg := [], rowTag := [], tregBad := [], tagBad := [] } })
  | _, _ => s

/-- The plane compares good, and its test vectors pass. -/
def State.planeGood (s : State) (t : Target) (p : Nat) (ok : Bool) : Bool :=
  match (s.targetCores t).head? with
  | some k =>
    (match s.logEngine k t.engine with
    | some e => s.compares k e p && (ok || (s.planeAt (k, e, p)).st == .empty)
    | none => ok)
  | none => ok

/-- A slice replaced. -/
def Grazer.setSlice (g : Grazer) (x : Slice) : Grazer := { g with slices := g.slices.map (fun y => if y.t == x.t then x else y) }

/-- A unit of slice `x` is complete and checked: `n` is its mark in the round, `p` the plane or row that fails. -/
def State.unitDone (s : State) (x : Slice) (n : Nat) (good : Bool) (p : Nat) : State :=
  { s with grazer := (s.grazer.setMark x.t n).setSlice { x with
      units := x.units + 1, failed := !good, bad := if good then x.bad else p } }

/-- SLICE_UNIT_DONE (R447). -/
def State.sliceUnit (s : State) (t : Target) (ok : Bool) (row : Nat) : State :=
  match s.grazer.slices.find? (fun x => x.t == t) with
  | none => s
  | some x =>
    if x.failed ∨ x.limit ≤ x.units then s
    else if t.kind = 3 then
      match s.nextPlane x with
      | some p =>
        (s.unitDone { x with tried := x.tried + 2 ^ p } (s.grazer.mark t + 2 ^ p) (s.planeGood t p ok) p).unitEffect t p
      | none => s
    else (s.unitDone x (s.grazer.mark t + 1) ok row).unitEffect t 0

/-- SLICE_UNIT_DONE (R447). -/
def execSliceUnitDone (t : Target) (ok : Bool) (row : Nat) (s : State) : Host.Outcome State Fault Refusal :=
  answer (targetOk t) (s.sliceUnit t ok row)

/-! ### Soft repair (R462 to R464) -/

/-- The repair segment of row `row` of a memory target. -/
def segmentOf (t : Target) (row : Nat) : Nat :=
  match t.kind with
  | 4 => segKey 4 t.cluster t.core (row / 1024 % 32) 0
  | 5 => segKey 5 t.cluster t.core 0 0
  | _ => segKey 6 0 0 t.bank (row / 1024 % 16)

/-- The record of the row (R466). -/
def rowRecord (t : Target) (row : Nat) : Nat :=
  match t.kind with
  | 4 => repairRecord 5 t.cluster t.core 0 0 (row / 1024 % 32) (row % 1024)
  | 5 => repairRecord 6 t.cluster t.core 0 0 0 (row % 1024)
  | _ => repairRecord 7 0 0 0 0 t.bank (row % 16384)

/-- A unit out of service leaves the spare pool (R449). -/
def State.leavePool (s : State) (lv : Nat) (t : Target) : State :=
  if s.maps.bad.contains (unitKey lv t) then s else { s with maps := { s.maps with bad := unitKey lv t :: s.maps.bad } }

/-- A unit out of service fails a test: a spare leaves the spare pool and its record is due; so is the record of a unit that
has failed such a test in service too (R449, R465). -/
def State.spareFails (s : State) (lv : Nat) (t : Target) : State :=
  if s.maps.bad.contains (unitKey lv t) && !(s.maps.retest.contains (unitKey lv t)) then s
  else (s.leavePool lv t).addDue t.die
    (repairRecord lv t.cluster (if lv = 4 then 0 else t.core) (if lv = 2 then t.engine else 0) 0 0 0)

/-- No spare row: the core is substituted, a spare one leaves the pool, a line of die shared memory is retired, and code in
it moves (R464). -/
def State.rowLost (s : State) (t : Target) (row : Nat) : State :=
  if t.kind = 6 then
    let s1 := s.modRep t.die (fun r => { r with retired := inc r.retired })
    if regionOf t.die t.bank = .rs then s1.badRs t.die t.bank (row % 16384)
    else s1.modDsm t.die (fun d =>
      if d.badLines.contains (t.bank, row % 16384) then d else { d with badLines := d.badLines ++ [(t.bank, row % 16384)] })
  else match s.targetCores t with
    | k :: _ => s.beginSubst 3 3 k 0
    | [] => s.spareFails 3 t

/-- A scratchpad row of a core that is being diagnosed has been repaired (R412). -/
def State.mend (s : State) (t : Target) : State :=
  if t.kind = 4 then s.modTarget t (fun c => { c with mended := c.mended || c.diag }) else s

/-- A faulty row takes the next free spare row of its segment (R463). -/
def State.softRepair (s : State) (t : Target) (row : Nat) : State :=
  let seg := segmentOf t row
  if Tbl.num (s.rep t.die).spares seg < 4 then
    ((s.modRep t.die (fun r => { r with
      spares := Tbl.setNum r.spares seg (Tbl.num r.spares seg + 1), event := setBit r.event 0, soft := inc r.soft })).addDue
      t.die (rowRecord t row)).mend t
  else (s.modRep t.die (fun r => { r with event := setBit r.event 2, rowsOut := inc r.rowsOut })).rowLost t row

/-! ### The end of a slice (R448, R449) -/

/-- Faulty rows of a memory are repaired softly, and a spare core that has one leaves the spare pool (R449, R463). -/
def State.rowsFail (s : State) (t : Target) (rows : List Nat) : State :=
  let s1 := rows.foldl (fun s r => s.softRepair t r) s
  if t.kind = 6 ∨ rows.isEmpty ∨ !(s.targetCores t).isEmpty then s1 else s1.leavePool 3 t

/-- The doubt that a failed slice raises (R412, R449). -/
def State.sliceDoubt (s : State) (x : Slice) : State :=
  let t := x.t
  match t.kind, (s.targetCores t).head? with
  | 1, some k => (s.localFault.toRetest 3 t).beginSubst 3 3 k 0
  | 1, none => s.localFault.spareFails 3 t
  | 2, some k => (s.localFault.toRetest 4 t).beginSubst 3 4 k 0
  | 2, none => s.localFault.spareFails 4 t
  | 3, some k =>
    (match s.logEngine k t.engine with
    | some e => s.sweepFails k e x.bad
    | none => s.localFault.spareFails 2 t)
  | 3, none => s.localFault.spareFails 2 t
  | 7, _ => s.localFault
  | _, _ => s.localFault.rowsFail t [x.bad]

/-- All units of a kind in one round; LOGIC and FABRIC count together (R448). -/
def State.roundUnits (s : State) (kind : Nat) : Nat :=
  match kind with
  | 1 | 2 => 612 * 384 + 36 * 160
  | 3 => 612 * 33 * 8
  | 4 => 612 * 32
  | 5 => 612
  | 6 => 350 * 230
  | _ => (s.placements.flatMap (fun p => tabulate 4 (fun d => ceilDiv (s.digestBytes d p.handle) 65536))).foldl (· + ·) 0

/-- A report record (R448); `result` 0 PASS, 1 FAIL, 2 STOPPED. -/
def State.sliceReport (s : State) (x : Slice) (result : Nat) : List Word :=
  let t := x.t
  let loc := t.kind < 6
  let cl := if loc then t.cluster else 0
  let co := if loc ∧ t.kind ≠ 2 then t.core else 0
  let en := if t.kind = 3 then t.engine else 0
  let bk := if t.kind = 6 then t.bank else 0
  [ word (t.kind * 2 ^ 28 + t.die * 2 ^ 25 + cl * 2 ^ 21 + co * 2 ^ 16 + en * 2 ^ 10 + bk * 2 ^ 4 + result * 4),
    word ((s.pkg.aon + 2 ^ 32 - x.start) % 2 ^ 16 * 2 ^ 16 + x.units % 2 ^ 16),
    word (divRound (x.units * 2 ^ 32) (max 1 (s.roundUnits t.kind))),
    word x.start ]

/-- The report in the ring (R469). -/
def pushReport (r : GrzRegs) (w : List Word) : GrzRegs :=
  { r with
    ring := if r.ring.length ≤ r.head then r.ring ++ [w] else r.ring.set r.head w
    head := (r.head + 1) % 64, slices := inc r.slices }

/-- A target of the round that no slice can take: its die or unit is out of service. -/
def State.outOfRound (s : State) (t : Target) : Bool :=
  (decide (t.die < 4) && !(s.die t.die).up) || (decide (t.die = 4 ∨ t.die = 5) && !(s.hub (t.die - 4)).up) ||
    (decide (t.kind < 6) && (s.isBad 4 t.die t.cluster 0 0 || (t.kind != 2 && s.isBad 3 t.die t.cluster t.core 0) ||
      (t.kind == 3 && s.isBad 2 t.die t.cluster t.core t.engine)))

/-- The target has nothing left to do in the round. -/
def State.targetDone (s : State) (t : Target) : Bool := s.outOfRound t || decide (s.targetUnits t ≤ s.grazer.unitsDone t)

/-- Every target of a kind is done in the round. -/
def State.kindDone (s : State) (kind : Nat) : Bool := (List.range 6).all (fun d => (s.kindTargets kind d).all s.targetDone)

/-- The coverages so far in units of 0.01 %: arrays by planes swept, SRAM by bits marched; for logic the manual gives no
rule, and they are free, but a round whose logic is done has covered what R454 says (DESIGN CHOICE, log 4). -/
def State.coverage (s : State) : State :=
  let g := s.grazer
  let sum (k : Nat) := ((g.progress.filter (fun x => x.1.kind == k)).map (fun x => g.unitsDone x.1)).foldl (· + ·) 0
  let a := s.openWord 21 14
  let b := a.1.openWord 22 14
  let none' := sum 1 + sum 2 == 0
  let done := s.kindDone 1 && s.kindDone 2
  let bits := sum 4 * 65536 * 230 + sum 5 * 524288 * 230 + sum 6 * 1048576
  let all := 612 * 32 * 65536 * 230 + 612 * 524288 * 230 + 350 * 230 * 1048576
  { b.1 with grazer := { b.1.grazer with regs := { b.1.grazer.regs with cov :=
      [if none' then 0 else word (if done then 9700 + a.2 % 301 else a.2 % 10001),
       if none' then 0 else word (if done then 8800 + b.2 % 1201 else b.2 % 10001),
       word (divRound (sum 3 * 10000) (612 * 33 * 8)), word (divRound (bits * 10000) all)] } } }

/-- Every unit of every kind on every target is done (R453). -/
def State.roundDone (s : State) : Bool := [1, 2, 3, 4, 5, 6, 7].all s.kindDone

/-- A completed round, and the next one started at once (R453). -/
def State.endRound (s : State) : State :=
  if !s.roundDone then s
  else
    let r := s.grazer.regs
    { s with grazer := { s.grazer with
        regs := { r with rounds := inc r.rounds, last := r.cov, cov := List.replicate 4 0
                         lastMs := word ((s.pkg.aon + 2 ^ 64 - s.grazer.roundStart) % 2 ^ 64 / 100000) }
        progress := [], overran := false, roundStart := s.pkg.aon } }

/-- A spare cluster on which no test runs any more is OFF again (R399). -/
def State.spareRests (s : State) (t : Target) : State :=
  if t.kind < 6 && (s.logCluster t.die t.cluster).isNone && !(s.clusterWorks t.die t.cluster) then
    s.modCl t.die t.cluster (fun x => { x with st := .off, waking := false, woken := false })
  else s

/-- Slice `x` ends with `result`: its report, the exit of a LOGIC slice, the target released. -/
def State.closeSlice (s : State) (x : Slice) (result : Nat) : State :=
  let s1 : State := { s with grazer := { s.grazer with
    slices := s.grazer.slices.filter (fun y => y.t != x.t), regs := pushReport s.grazer.regs (s.sliceReport x result) } }
  ((if x.t.kind = 1 then s1.modTarget x.t sheetsOff else s1).spareRests x.t).coverage

/-- A slice that failed a unit. -/
def State.failSlice (s : State) (x : Slice) : State :=
  let s1 := s.closeSlice x 1
  let r := s1.grazer.regs
  ({ s1 with grazer := { s1.grazer with regs := { r with event := setBit r.event 0, fail := inc r.fail } } }.sliceDoubt x).endRound

/-- SLICE_END: all its units are done, no plane is left to it, or one failed (R447 to R449). -/
def State.sliceEnd (s : State) (t : Target) : State :=
  match s.grazer.slices.find? (fun x => x.t == t) with
  | none => s
  | some x =>
    if x.failed then s.failSlice x
    else if x.units < x.limit ∧ (t.kind ≠ 3 ∨ (s.nextPlane x).isSome) then s
    else (s.closeSlice x 0).endRound

/-- SLICE_END (R448). -/
def execSliceEnd (t : Target) (s : State) : Host.Outcome State Fault Refusal := answer (targetOk t) (s.sliceEnd t)

/-- SLICE_STOP: the running unit is abandoned and runs again in a later slice (R452). -/
def State.sliceStop (s : State) (t : Target) : State :=
  match s.grazer.slices.find? (fun x => x.t == t) with
  | none => s
  | some x =>
    if x.failed then s.failSlice x
    else
      let s1 := s.closeSlice x 2
      let r := s1.grazer.regs
      { s1 with grazer := { s1.grazer with regs := { r with event := setBit r.event 2, stop := inc r.stop } } }.endRound

/-- SLICE_STOP (R452). -/
def execSliceStop (t : Target) (s : State) : Host.Outcome State Fault Refusal := answer (targetOk t) (s.sliceStop t)

/-- ROUND_OVERRUN: set once in a round that has run for `GRAZER_ROUND` (R453). -/
def execRoundOverrun (s : State) : Host.Outcome State Fault Refusal :=
  answer true (
    let g := s.grazer
    if g.started ∧ !g.overran then
      { s with grazer := { g with overran := true, regs := { g.regs with event := setBit g.regs.event 1, overrun := inc g.regs.overrun } } }
    else s)

/-! ### The march engine (R459 to R461) -/

/-- The physical unit is out of service: a spare, or marked bad. -/
def State.outOfService (s : State) (t : Target) : Bool :=
  match t.kind with
  | 2 => (s.logCluster t.die t.cluster).isNone
  | 3 =>
    (match s.logCore t.die t.cluster t.core with
    | some k => (s.logEngine k t.engine).isNone
    | none => true)
  | _ => (s.logCore t.die t.cluster t.core).isNone

/-- A march may run on the target (R460, R461): preserving on a scratchpad or a bank; destructive on the OFF sheets of a
scratchpad, the tile registers of a free core, and units out of service. -/
def State.marchTarget (s : State) (t : Target) (transparent : Bool) : Bool :=
  match t.kind, transparent with
  | 4, true => true
  | 6, true => regionOf t.die t.bank != .sc
  | 4, false => s.outOfService t || (s.targetCores t).all (fun k => s.coreFree k && (s.core k).mem.sheets.all (fun x => x == .off))
  | 5, false => s.outOfService t || (s.targetCores t).all s.coreFree
  | 1, false | 2, false | 3, false => s.outOfService t
  | _, _ => false

/-- MARCH_START (R459): no march or slice of the same target runs, and the matrix allows it. -/
def execMarchStart (t : Target) (transparent : Bool) (s : State) : Host.Outcome State Fault Refusal :=
  answer (targetOk t) (
    if s.marchTarget t transparent && s.mayStart ⟨if transparent then 2 else 1, t⟩ && !(s.grazer.marches.any (fun m => m.1 == t)) then
      { s with grazer := { s.grazer with marches := s.grazer.marches ++ [(t, transparent)] } }
    else s)

/-- What a destructive march leaves: tile registers and OFF sheets hold zero. -/
def State.marched (s : State) (t : Target) (transparent : Bool) : State :=
  if transparent ∨ t.kind ≠ 5 then s
  else s.modTarget t (fun c => { c with mem := { c.mem with treg := [], rowTag := [], tregBad := [], tagBad := [] } })

/-- MARCH_DONE: failing rows are repaired softly; another unit whose march fails is defective (R460, R463). -/
def State.marchEnd (s : State) (t : Target) (badRows : List Nat) : State :=
  match s.grazer.marches.find? (fun m => m.1 == t) with
  | none => s
  | some m =>
    let s1 : State := { s with grazer := { s.grazer with marches := s.grazer.marches.filter (fun x => x.1 != t) } }
    let s2 := (s1.marched t m.2).spareRests t
    if t.kind < 4 then
      if badRows.isEmpty then s2 else s2.spareFails (match t.kind with
        | 1 => 3
        | 2 => 4
        | _ => 2) t
    else s2.rowsFail t badRows

/-- MARCH_DONE (R460). -/
def execMarchDone (t : Target) (badRows : List Nat) (s : State) : Host.Outcome State Fault Refusal :=
  answer (targetOk t) (s.marchEnd t badRows)

/-! ### Hard repair (R465 to R468) -/

/-- A record may be burned (R465, R467, R468): `HARD_REPAIR` is 1, its fault is persistent, a slot is left, and no other
activity forbids it; the burn's cluster is that of the record, and a bank lies in none (R440; DEDUCED, log 124). -/
def State.mayBurn (s : State) (d r : Nat) : Bool :=
  let x := s.rep d
  s.profile.power.hardRepair && decide (x.records.length < 4096) && x.due.contains r &&
    s.mayRun ⟨5, ⟨0, d, if r / 2 ^ 60 = 7 then 99 else bits r 59 56, 0, 0, 0, 0⟩⟩

/-- FUSE_BURN: the next slot takes the record; a failed read-back is burned once more (R467), and the tally may fall
below 256 slots left (R468). -/
def burnRecord (r : Nat) (ok : Bool) (x : Repair) : Repair :=
  let again := x.records.any (fun y => y.1 == r && !y.2)
  let n := x.records.length + 1
  let x1 := if ok then { x with event := setBit x.event 1, hard := inc x.hard, due := x.due.filter (fun y => y != r) }
    else { x with
      event := setBit x.event 4, burnFail := inc x.burnFail
      due := if again then x.due.filter (fun y => y != r) else if x.due.contains r then x.due else x.due ++ [r] }
  let x2 := if n = 3841 then { x1 with event := setBit x1.event 3, low := inc x1.low } else x1
  { x2 with records := x2.records ++ [(r, ok)] }

/-- FUSE_BURN (R467). -/
def execFuseBurn (die record : Nat) (readBackOk : Bool) (s : State) : Host.Outcome State Fault Refusal :=
  answer (decide (die < 6) && decide (record < 2 ^ 64))
    (if s.mayBurn die record then s.modRep die (burnRecord record readBackOk) else s)

end Sys2Proof.Machine
end

