-- ==== Sys2Proof/Machine/Nvm.lean ====
section
/-! DEFINITION. The NVM and what it holds (16 R506 to R510, R521 to R523): header, signature blocks, profiles, and the
checks of a firmware slot and of a profile slot (R513, R523, R491). -/
namespace Sys2Proof.Machine
open Sys2Proof

/-! ### The header (R508) -/

/-- One bit of CRC-32 (IEEE 802.3), least significant first. -/
def crc32Bit (c : Nat) : Nat := if c % 2 = 1 then (c / 2) ^^^ 0xEDB88320 else c / 2

/-- CRC-32 of bytes from the register `c`. -/
def crc32From (c : Nat) : List Byte → Nat
  | [] => c
  | b :: r => crc32From (crc32Bit (crc32Bit (crc32Bit (crc32Bit (crc32Bit (crc32Bit (crc32Bit (crc32Bit (c ^^^ b.toNat))))))))) r

/-- CRC-32 (R508). -/
def crc32 (l : List Byte) : Nat := crc32From 0xFFFFFFFF l ^^^ 0xFFFFFFFF

/-- The firmware slot that a header names: A when the header is wrong (R508). -/
def headerSlot (b : List Byte) : Nat :=
  if beAt b 0 4 = 0x0000D4F0 ∧ beAt b 64 4 = crc32 (b.take 64) ∧ beAt b 5 1 = 1 then 1 else 0

/-! ### Signature blocks (R509) -/

/-- Bytes of a firmware region and of a profile region (R507). -/
def regionSize (target : Nat) : Nat := if target = 1 ∨ target = 2 then 25165824 else 1048576

/-- The image that the block names: the first `ILEN` bytes of the region, erased bytes being 0xFF (DEDUCED, log 57). -/
def slotImage (data block : List Byte) : List Byte :=
  let n := beAt block 8 4
  let d := data.take (data.length - 4096)
  d.take n ++ List.replicate (n - d.length) 0xFF

/-- The block of the last 4,096 bytes of a slot's data. -/
def slotBlock (data : List Byte) : List Byte := data.drop (data.length - 4096)

/-- Bytes as SHA-512 takes them. -/
def shaOf (b : List Byte) : Nat := Config.sha512 (b.map (·.toNat))

/-- The fields of a signature block are right for its type (R509). -/
def blockOk (target : Nat) (data : List Byte) : Bool :=
  let b := slotBlock data
  let fw := target == 1 || target == 2
  beAt b 0 4 == 0x0000D45B && beAt b 4 1 == (if fw then 1 else 2) && decide (beAt b 8 4 ≤ regionSize target) &&
    (if fw then beAt b 0x50 512 == 0 else beAt b 5 1 == 0 && beAt b 6 2 == 0 && beAt b 12 4 == 0 && beAt b 0x450 0xBB0 == 0)

/-- `IDIG` is the digest of the image. -/
def digestOk (data : List Byte) : Bool := beAt (slotBlock data) 0x10 64 == shaOf (slotImage data (slotBlock data))

/-- A firmware slot with this data. -/
def fwSlotOf (target : Nat) (data : List Byte) (sigOk : Bool) : FwSlot :=
  ⟨blockOk target data && sigOk, digestOk data, beAt (slotBlock data) 5 1, shaOf (slotImage data (slotBlock data))⟩

/-! ### Profiles (R521 to R523) -/

/-- The defaults of R522 for an ordering code. -/
def defaults (part : Nat) : Profile :=
  { Profile.dflt with work := { Profile.dflt.work with hbmInstall := if part = 0x0448 then 384 else 512 } }

/-- HBM in GB of an ordering code (R1). -/
def hbmTotal (part : Nat) : Nat := if part = 0x0448 then 768 else 1024

/-- A value in a range. -/
def within (a b n : Nat) : Bool := decide (a ≤ n) && decide (n ≤ b)

/-- A port entry of `PORT_NET` (R516). -/
def portEntryOk (b : List Byte) : Bool :=
  decide (beAt b 0 1 ≤ 2) && beAt b 3 1 == 0 && decide (beAt b 4 2 < 4096) && beAt b 6 2 == 0 && beAt b 28 4 == 0

/-- An entry of `PAIR_PEER` (R522). -/
def peerEntryOk (b : List Byte) : Bool := decide (leAt b 18 2 < 4096) && beAt b 26 6 == 0

/-- The entries of `CELL_POLICY` (R522). -/
def cellEntries (v : List Byte) : List (Nat × Nat × Bool) :=
  tabulate (v.length / 8) (fun i => (leAt v (8 * i) 2, leAt v (8 * i + 2) 2, beAt v (8 * i + 4) 1 == 1))

/-- Network records 0x0001 to 0x0009. -/
def netRecord (id : Nat) (v : List Byte) (p : ProfNet) : Option ProfNet :=
  let n := leNat v
  let len := v.length
  match id with
  | 0x01 => if len = 256 ∧ (List.range 8).all (fun i => portEntryOk (slice v (32 * i) 32)) then
      some { p with portNet := v.map (·.toNat) } else none
  | 0x02 => if len = 2 then some { p with udpPort := n } else none
  | 0x03 => if len = 2 then some { p with etherType := n } else none
  | 0x04 => if len = 64 ∧ peerEntryOk (slice v 0 32) ∧ peerEntryOk (slice v 32 32) then
      some { p with pairPeer := v.map (·.toNat) } else none
  | 0x05 => if len = 1 then some { p with macsec := n } else none
  | 0x06 => if len = 8 * 544 then some { p with macsecCak := v.map (·.toNat) } else none
  | 0x07 => if len = 1 then some { p with mkaPrio := n } else none
  | 0x08 => if len = 1 ∧ within 4 100 n then some { p with modPmax := n } else none
  | 0x09 => if len = 1 ∧ within 8 100 n then some { p with modPhub := n } else none
  | _ => none

/-- Records of work, installation and tenants. -/
def workRecord (part id : Nat) (v : List Byte) (p : ProfWork) : Option ProfWork :=
  let n := leNat v
  let len := v.length
  match id with
  | 0x10 => if len = 1 ∧ n ≤ 2 then some { p with tagPolicy := n } else none
  | 0x11 => if len = 1 ∧ within 1 15 n then some { p with replayMax := n } else none
  | 0x12 => if len = 1 ∧ n ≤ 1 then some { p with dualRun := n == 1 } else none
  | 0x20 => if len = 1 ∧ n ≤ 15 then some { p with bwThreshMax := n } else none
  | 0x21 => if len % 8 = 0 ∧ len ≤ 512 ∧ (List.range (len / 8)).all (fun i => decide (beAt v (8 * i + 4) 1 ≤ 1) && beAt v (8 * i + 5) 3 == 0) then
      some { p with cellPolicy := cellEntries v } else none
  | 0x22 => if len = 2 ∧ within 1 3600 n then some { p with absorbWait := n } else none
  | 0x23 => if len = 1 ∧ n ≤ 1 then some { p with boundStrict := n == 1 } else none
  | 0x24 => if len = 1 ∧ n ≤ 1 then some { p with conflictHalt := n == 1 } else none
  | 0x25 => if len = 8 then some { p with dsmRdwOld := n } else none
  | 0x26 => if len = 4 ∧ within 1 60000 n then some { p with runLimit := n } else none
  | 0x27 => if len = 2 ∧ within 1 1000 n then some { p with fenceWait := n } else none
  | 0x30 => if len = 2 ∧ within 64 (hbmTotal part - 128) n then some { p with hbmInstall := n } else none
  | 0x31 => if len = 2 ∧ within 1 600 n then some { p with bulkIdle := n } else none
  | 0x60 => if len % 16 = 0 ∧ len ≤ 4096 then
      some { p with tenantList := tabulate (len / 16) (fun i => beAt v (16 * i) 16) } else none
  | 0x61 => if len = 1 ∧ n ≤ 1 then some { p with svnAuto := n == 1 } else none
  | _ => none

/-- Records of the Yoke and of Grazer (R379, R445). -/
def powerRecord (id : Nat) (v : List Byte) (p : ProfPower) : Option ProfPower :=
  let n := leNat v
  let b (i : Nat) := beAt v i 1
  let len := v.length
  match id with
  | 0x40 => if len = 4 ∧ within 1200 3200 (leAt v 0 2) ∧ leAt v 2 2 ≤ leAt v 0 2 then
      some { p with ceiling := leAt v 0 2, floor := leAt v 2 2 } else none
  | 0x41 => if len = 1 ∧ within 1 200 n then some { p with slew := n } else none
  | 0x42 => if len = 2 ∧ b 0 ≤ 1 ∧ b 1 ≤ 30 then some { p with lookahead := b 0 == 1, workGuard := b 1 } else none
  | 0x43 => if len = 4 ∧ leAt v 0 2 ≤ 1000 ∧ within 1 1000 (leAt v 2 2) then
      some { p with envHold := leAt v 0 2, dozeHold := leAt v 2 2 } else none
  | 0x44 => if len = 3 ∧ within 30 50 (b 0) ∧ within 4 10 (b 1) ∧ within 20 40 (b 2) ∧ 4 * b 0 + 2 * b 1 + b 2 = 200 then
      some { p with fracCd := b 0, fracHub := b 1, fracHbm := b 2 } else none
  | 0x45 => if len = 2 ∧ within 64 1024 n then some { p with comb := n } else none
  | 0x46 => if len = 2 ∧ within 50 100 (b 0) ∧ b 0 % 5 = 0 ∧ within 85 105 (b 1) then
      some { p with vmargin := b 0, tjWarn := b 1 } else none
  | 0x50 => if len = 4 ∧ within 10 200 (b 0) ∧ within 1 1440 (leAt v 1 2) ∧ b 3 ≤ 1 then
      some { p with budget := b 0, round := leAt v 1 2, hardRepair := b 3 == 1 } else none
  | _ => none

/-- A record applied to the settings before it (R522). -/
def profRecord (part id : Nat) (v : List Byte) (p : Profile) : Option Profile :=
  if id < 0x10 then (netRecord id v p.net).map (fun x => { p with net := x })
  else if 0x40 ≤ id ∧ id < 0x60 then (powerRecord id v p.power).map (fun x => { p with power := x })
  else (workRecord part id v p.work).map (fun x => { p with work := x })

/-- `n` records in the bytes: no identifier twice, and each padded with zeros to 4 bytes (R521, R523). -/
def profRecords (part : Nat) : Nat → List Nat → List Byte → Profile → Option Profile
  | 0, _, b, p => if b.isEmpty then some p else none
  | n + 1, seen, b, p =>
    let id := leAt b 0 2
    let len := leAt b 2 2
    let pad := ceilDiv len 4 * 4 - len
    if b.length < 4 + len + pad ∨ seen.contains id ∨ beAt b (4 + len) pad ≠ 0 then none
    else (profRecord part id (slice b 4 len) p).bind (profRecords part n (id :: seen) (b.drop (4 + len + pad)))

/-- The profile in an image, when every field of R521 to R523 is right. -/
def profileOf (part serial : Nat) (b : List Byte) : Option Profile :=
  if b.length < 64 ∨ leAt b 0 4 ≠ 0x0000D4C0 ∨ leAt b 4 2 ≠ 1 ∨ beAt b 24 40 ≠ 0 ∨
      (beAt b 8 16 ≠ 0 ∧ beAt b 8 16 ≠ serial) then none
  else profRecords part (leAt b 6 2) [] (b.drop 64) (defaults part)

/-- A profile slot with this data. -/
def profSlotOf (part serial : Nat) (target : Nat) (data : List Byte) (sigOk cakOk : Bool) : ProfSlot :=
  let img := slotImage data (slotBlock data)
  let p := profileOf part serial img
  { signer := shaOf (slice (slotBlock data) 0x50 512)
    sigOk := blockOk target data && digestOk data && sigOk
    fieldsOk := p.isSome && cakOk
    prof := p.getD (defaults part)
    digest := shaOf img }

/-! ### What the device reads -/

/-- A slot that verifies nothing. -/
def FwSlot.blank : FwSlot := ⟨false, false, 0, 0⟩
def ProfSlot.blank : ProfSlot := ⟨0, false, false, Profile.dflt, 0⟩

/-- The NVM after the region of `target` is erased (R546 step 4). -/
def Nvm.erase (m : Nvm) (target : Nat) : Nvm :=
  match target with
  | 0 => { m with fwsel := 0 }
  | 1 | 2 => { m with fw := m.fw.set (target - 1) FwSlot.blank }
  | _ => { m with prof := m.prof.set (target - 3) ProfSlot.blank }

/-- The NVM after an image is programmed. -/
def Nvm.program (part serial : Nat) (m : Nvm) (i : NvmImage) : Nvm :=
  match i.target with
  | 0 => { m with fwsel := headerSlot i.data }
  | 1 | 2 => { m with fw := m.fw.set (i.target - 1) (fwSlotOf i.target i.data i.sigOk) }
  | _ => { m with prof := m.prof.set (i.target - 3) (profSlotOf part serial i.target i.data i.sigOk i.cakOk) }

/-- No transfer (R546). -/
def Xfer.idle : Xfer := ⟨.idle, 0, 0, 0, 0, []⟩

/-- The firmware slot `n` passes (R513). -/
def State.fwOk (s : State) (n : Nat) : Bool :=
  match s.nvm.fw[n]? with
  | some f => f.sigOk && f.digOk && decide (s.fuses.svnFloor ≤ f.svn)
  | none => false

/-- The slot that the boot ROM boots: the one that the header names, else the other (R490, R513). -/
def State.bootSlot (s : State) : Option Nat := [s.nvm.fwsel, 1 - s.nvm.fwsel].find? s.fwOk

/-- Profile slot `n`, when it passes R523: signed under an owner key that R491 accepts, and right in every field. -/
def State.profOk (s : State) (n : Nat) : Option ProfSlot :=
  (s.nvm.prof[n]?).filter (fun p => p.sigOk && p.fieldsOk &&
    (some p.signer == s.fuses.owner || some p.signer == s.fuses.prevOwner))

end Sys2Proof.Machine
end

