-- ==== Sys2Proof/Machine/Repairs.lean ====
section
/-! DEFINITION. Diagnosis and repair (02 R70 to R79, R567, 10 R333 to R337, 13 R412 to R416): fenced planes, column
substitution, patches, fence waits, and spares taken into service. -/
namespace Sys2Proof.Machine
open Sys2Proof

/-! ### PLANE_DIAGNOSIS (R70, R567) -/

/-- Defect notes for persistent cells; the plane waits for a patch (R70, R74). -/
def State.noteCells (s : State) (x : Nat × Nat × Nat) (cells : List (Nat × Nat × Bool)) : State :=
  let p := s.planeAt x
  let notes := cells.filterMap (fun c => (p.coveredBy c.2.1).map (fun h => (h, noteOf h x c.1 c.2.1 c.2.2)))
  let fresh := notes.filter (fun n => !(s.placements.any (fun q => q.handle == n.1 && q.removed.isNone && q.notes.contains n.2)))
  let s1 := fresh.foldl (fun s n =>
    { s with placements := s.placements.map (fun q => if q.handle == n.1 && q.removed.isNone then
        { q with notes := q.notes ++ [n.2] } else q) }) s
  let s2 := s1.modPlane x.1 x.2.1 x.2.2 (fun q => { q with doubt := false, absorb := true })
  if fresh.isEmpty then s2
  else s2.modArr x.1 (fun r =>
    { r with defectEvent := setBit r.defectEvent 0, defectCount := incBy r.defectCount fresh.length })

/-- Room for the notes of the cells (R329). -/
def State.notesFit (s : State) (p : Plane) (cells : List (Nat × Nat × Bool)) : Bool :=
  s.placements.all (fun q =>
    decide (q.notes.length + (cells.filter (fun c => p.coveredBy c.2.1 == some q.handle)).length ≤ 4096))

/-- Slices on engine `e` of core `k` stop, for a re-program, a column substitution or a patch (R79, R442). -/
def State.yieldSlices (s : State) (k e : Nat) : State :=
  ((s.grazer.slices.filter (fun x => sameTarget x.t (s.engineTarget k e))).map (·.t)).foldl (fun s t => s.sliceStop t) s

/-- The planes of engine `e` of core `k` may be programmed (R79, R440): slices and sweeps, which stop at once, apart
(R442). -/
def State.mayProgram (s : State) (k e : Nat) : Bool :=
  s.running.all (fun x => x.code == 0 || x.code == 4 || mayMeet x ⟨3, s.engineTarget k e⟩)

/-- The diagnosis of a plane has decided on a substitution: its own doubt is settled by that. -/
def State.settled (s : State) (x : Nat × Nat × Nat) : State :=
  s.modPlane x.1 x.2.1 x.2.2 (fun q => { q with doubt := false, absorb := false })

/-- Test vectors fail on a plane whose cells are good: the engine is substituted, and tested again out of service (R70,
R465). -/
def State.vectorsFail (s : State) (x : Nat × Nat × Nat) : State :=
  ((((s.settled x).countSweepFail x.1).fenceEngine x.1 x.2.1).toRetest 2 (s.engineTarget x.1 x.2.1)).beginSubst 3 2 x.1 x.2.1

/-- The diagnosis of a plane that holds no span: its cells are held to the filler, and belong to no placement, so no policy
covers them (R42, R70, R567). -/
def State.diagnoseBare (s : State) (x : Nat × Nat × Nat) (sweepOk : Bool) : State :=
  let cells := ((s.core x.1).engine x.2.1).mismatches x.2.2
  if !cells.isEmpty then (s.settled x).beginColumns x.1 x.2.1 (cells.map (·.2.1))
  else if sweepOk then (s.refill x).countTransientPlane x.1
  else s.vectorsFail x

/-- The diagnosis of a fenced static plane (R70, R567): persistent cells that no policy covers come first, then those
under REPROGRAM, then those under ABSORB, each kind on the plane as the substitutions before it have left it. -/
def State.diagnose (s : State) (x : Nat × Nat × Nat) (sweepOk : Bool) : State :=
  let p := s.planeAt x
  let gold := s.goldenRows x
  let cells := s.badCells x gold
  if p.bare then s.diagnoseBare x sweepOk
  else if !(s.goldWhole x) then s.goldGone x
  else if p.rows = gold ∧ cells.isEmpty then
    if sweepOk then (s.liveAgain x).countTransientPlane x.1
    else s.vectorsFail x
  else
    let s1 := s.setRows x gold
    if cells.isEmpty then (s1.liveAgain x).countReprogram x.1
    else
      let loose := cells.filter (fun c => (p.coveredBy c.2.1).isNone)
      let hard := cells.filter (fun c => match p.coveredBy c.2.1 with
        | some h => !(s.absorbs h)
        | none => false)
      let slots := if !loose.isEmpty then loose else if !hard.isEmpty then hard else if s.notesFit p cells then [] else cells
      if slots.isEmpty then s1.noteCells x cells
      else (s1.settled x).beginColumns x.1 x.2.1 (slots.map (·.2.1))

/-- PLANE_DIAGNOSIS (R70): while no pass, substitution or activity forbids it (R79, R440); slices on the engine yield. -/
def execPlaneDiagnosis (k e p : Nat) (o : SweepIn) (s : State) : Host.Outcome State Fault Refusal :=
  answer (coreOk k && engineOk e && decide (p < 8)) (
    if s.toDiagnose (k, e, p) && !((s.core k).passOn e) && !(s.substBlocks k [e]) && s.mayProgram k e then
      ((s.yieldSlices k e).loseGold o.lost).diagnose (k, e, p) o.ok
    else s)

/-- The committed patch of placements with a noted plane `x` is superseded: it is never applied, and its commit is
answered so (R78). -/
def State.dropPatches (s : State) (x : Nat × Nat × Nat) : State :=
  (s.placements.filter (fun p => !p.patch.isEmpty && p.patchKeys.contains x)).foldl (fun s p =>
    { s with placements := s.placements.map (fun (q : Placement) => if q.handle == p.handle && q.removed.isNone then
        { q with patch := [], reply := [] } else q) }.replyLater p.reply p.handle 0x12 0) s

/-- ABSORB_WAIT (R78): the plane is handled under the REPROGRAM row. -/
def execAbsorbWait (k e p : Nat) (s : State) : Host.Outcome State Fault Refusal :=
  answer (coreOk k && engineOk e && decide (p < 8)) (
    let x := (k, e, p)
    if (s.planeAt x).st = .fenced ∧ (s.planeAt x).absorb then
      ((s.dropPatches x).settled x).beginColumns k e ((s.badCells x (s.goldenRows x)).map (·.2.1))
    else s)

/-! ### Rewriting an engine (R72, R414) -/

/-- The planes of an engine written anew: static planes from their golden copies, dynamic ones cleared; those fenced for
the substitution are LIVE again, those in doubt, or held by an installation or a removal, stay FENCED (R69, R72). -/
def State.rewriteEngine (s : State) (k e : Nat) : State :=
  (List.range 8).foldl (fun s p =>
    let x := (k, e, p)
    let q := s.planeAt x
    let held := q.doubt || s.installs.any (fun i => i.fenced.contains x) || q.spans.any (fun y => s.retiring y.handle)
    if q.st = .empty ∨ q.st = .retired ∨ q.st = .programming then s
    else if q.dyn.isSome then s.modPlane k e p (fun q => { q with
      rows := [], written := 0, tag := 0, st := if q.st = .fenced ∧ !q.doubt then .live else q.st })
    else if q.st = .fenced ∧ !held then s.rewritePlane x
    else if s.goldWhole x then s.setRows x (s.goldenRows x)
    else s.goldGone x) s

/-- Substitution counters (R443): the level and the time. -/
def State.countSubst (s : State) (lv us : Nat) : State :=
  s.modFlt (fun r => { r with
    event := setBit r.event 1
    subst := inc r.subst
    sEngine := if lv = 2 then inc r.sEngine else r.sEngine
    sCore := if lv = 3 then inc r.sCore else r.sCore
    sCluster := if lv = 4 then inc r.sCluster else r.sCluster
    substMax := keepMax r.substMax us })

/-- The unit is no longer being substituted. -/
def State.endSubst (s : State) (u : FaultUnit) : State :=
  { s with maps := { s.maps with subst := s.maps.subst.filter (fun x => x != u) } }

/-- COLUMN_SUBSTITUTION (R72): the slot takes the next spare column, and the engine's planes are rewritten once its
last pending column is done; `us` is the time that it took (R414, R443). -/
def State.columnSubst (s0 : State) (k e slot us : Nat) (lost : List GoldLoss) : State :=
  let u : FaultUnit := ⟨1, k, e, slot⟩
  let s := (s0.yieldSlices k e).loseGold lost
  if !(s0.maps.subst.contains u) || (s0.core k).passOn e || !(s0.mayProgram k e) then s0
  else
    let c := s.core k
    let s1 := ((s.setCore k (c.setEngine e ((c.engine e).substColumn slot))).endSubst u).modArr k
      (fun r => { r with colSubst := inc r.colSubst })
    let s2 := (s1.countSubst 1 us).addDue (dieOf k)
      (repairRecord 1 (s.pcOf k) (s.physCore k) (s.physEngine k e) ((c.engine e).physCol slot) 0 0)
    if s2.maps.subst.any (fun v => v.level == 1 && v.k == k && v.e == e) then s2 else s2.rewriteEngine k e

/-- COLUMN_SUBSTITUTION (R72). -/
def execColumnSubstitution (k e slot : Nat) (r : RepairIn) (s : State) : Host.Outcome State Fault Refusal :=
  answer (coreOk k && engineOk e && decide (slot < 264)) (s.columnSubst k e slot r.us r.lost)

/-- DYNAMIC_PLANE_TEST (R73): good cells clear the plane; a defective one begins column substitutions. -/
def State.dynTest (s : State) (k e : Nat) : State :=
  let g := (s.core k).engine e
  let q := g.plane 7
  if q.st ≠ .fenced ∨ !q.doubt ∨ q.dyn.isNone ∨ (List.range 7).any (fun p => s.inDoubt (k, e, p)) ∨ (s.core k).passOn e ∨
    s.substBlocks k [e] ∨ !(s.mayProgram k e) then s
  else
    let bad := (g.stuck.filter (fun c => c.plane == 7)).filterMap (fun c =>
      (List.range 264).find? (fun n => g.physCol n == c.col))
    let s1 := s.yieldSlices k e
    if bad.isEmpty then
      (s1.modPlane k e 7 (fun q => { q with rows := [], written := 0, tag := 0, st := .live, doubt := false })).countTransientPlane k
    else (s1.settled (k, e, 7)).beginColumns k e bad

/-- DYNAMIC_PLANE_TEST (R73). -/
def execDynamicPlaneTest (k e : Nat) (s : State) : Host.Outcome State Fault Refusal :=
  answer (coreOk k && engineOk e) (s.dynTest k e)

/-! ### PATCH_APPLY (R77) -/

/-- The golden rows with a patch's entries; a value beyond the weight's width is cut to it (DESIGN CHOICE, log 38). -/
def patchGold (p : Placement) : List (List Nat) :=
  p.patch.foldl (fun g e =>
    let w := p.wfmt.width
    modAt g (at' e 0 0) (fun rows => modAt rows (at' e 1 0) (fun r => putField r (at' e 2 0 * w) w (at' e 3 0)))) p.gold

/-- A plane after its patch: verified, it is LIVE; one that still mismatches is diagnosed anew (DESIGN CHOICE, log 98). -/
def State.patchedPlane (s : State) (x : Nat × Nat × Nat) : State :=
  if !(s.goldWhole x) then s.goldGone x
  else
    let s1 := s.setRows x (s.goldenRows x)
    if (s1.badCells x (s1.goldenRows x)).isEmpty then s1.liveAgain x
    else s1.modPlane x.1 x.2.1 x.2.2 (fun q => { q with doubt := true, absorb := false })

/-- PATCH_APPLY: golden copy and plane take the patched weights, noted cells count as they read, and the plane is LIVE
once it verifies (R77). -/
def State.applyPatch (s : State) (p : Placement) : State :=
  let q := { p with
    gold := patchGold p
    patched := (p.patched ++ p.notes.filter (fun n => p.patchKeys.contains (notePlane n))).eraseDups
    patch := [], reply := [] }
  let s1 := { s with placements := s.placements.map (fun (x : Placement) =>
    if x.handle == p.handle && x.removed.isNone then q else x) }
  let s2 := p.patchKeys.foldl (fun s x => (s.yieldSlices x.1 x.2.1).patchedPlane x) s1
  (s2.mirrorDone (keptPlace p.reply).port 4 p.handle).replyLater p.reply p.handle 0 0

/-- PATCH_APPLY (R77): only while the planes are fenced under their notes; afterwards the patch is superseded (R78). -/
def execPatchApply (handle : Nat) (s : State) : Host.Outcome State Fault Refusal :=
  answer true (match s.placements.find? (fun p => p.handle == handle && p.removed.isNone) with
    | some p =>
      if p.patch.isEmpty ∨ p.spans.any (fun x => !(s.mayProgram x.k x.engine)) then s
      else match p.patchKeys.find? (fun x => !((s.planeAt x).st == .fenced && (s.planeAt x).absorb)) with
        | some x => s.dropPatches x
        | none => s.applyPatch p
    | none => s)

/-! ### FENCE_WAIT (R337) -/

/-- One of the placements names the other as that of which it is a replica: that very placement, not a later one under
its handle (R337, R338). -/
def replicaLink (p q : Placement) : Bool :=
  (q.replica == some p.handle && q.replicaAt == p.commit) || (p.replica == some q.handle && p.replicaAt == q.commit)

/-- A replica of `h` that the frame sees with every plane LIVE. -/
def State.replicaFor (s : State) (e : Entry) (h : Nat) : Option Placement :=
  match s.placementAt h (e.epoch.getD 0) with
  | none => none
  | some p => s.placements.find? (fun q => q.handle != h && replicaLink p q &&
      ((s.placementAt q.handle (e.epoch.getD 0)).map (·.commit)) == some q.commit &&
      q.planeKeys.all (fun x => (s.planeAt x).st == .live))

/-- The frame restarts on a replica, with ranks taken afresh (R337). -/
def State.redirect (s : State) (e : Entry) (h : Nat) (q : Placement) : State :=
  let places := e.frame.places.map (fun x => if x = h then q.handle else x)
  let s1 := s.requeue e.cseq 0 (fun x => { x with frame := { x.frame with
    places := places, cores := frameCores (s.placesAt places (e.epoch.getD 0)) } })
  let s1 := s1.moveProgram e.cseq
  { s1 with inst := { s1.inst with redirects := inc s1.inst.redirects } }

/-- FENCE_WAIT: a pass of core `k` that still waits at its fence. -/
def State.fenceExpired (s : State) (k : Nat) : State :=
  let c := s.core k
  match c.q.flights.find? (fun f => f.fence.isSome), s.frameOf c with
  | some f, some e =>
    let fe := f.fence.getD (0, 0)
    if ((c.engine fe.1).plane fe.2).st ≠ .fenced ∨ !c.live then s
    else
      let h := (e.handleFor f.ent.handle).getD f.ent.handle
      match s.replicaFor e h with
      | some q => s.redirect e h q
      | none =>
        let s1 := s.haltEntry k f.ent 0x40 (h * 2 ^ 16 + fe.1 * 2 ^ 11 + fe.2 * 2 ^ 8)
        { s1 with inst := { s1.inst with requeues := inc s1.inst.requeues } }
  | _, _ => s

/-- FENCE_WAIT (R337). -/
def execFenceWait (k : Nat) (s : State) : Host.Outcome State Fault Refusal :=
  answer (coreOk k) (s.fenceExpired k)

/-! ### SUBSTITUTION_DONE and CORE_DIAGNOSIS_DONE (R413, R414) -/

/-- The engine map of core `k` on a physical core: the good engines in ascending order (R16). -/
def State.engineMap (s : State) (k pc c : Nat) : Tbl Nat :=
  let good := (List.range 33).filter (fun e => !(s.isBad 2 (dieOf k) pc c e))
  (List.range 32).foldl (fun t e => Tbl.set t (32 * k + e) (at' good e e)) s.maps.engine

/-- The physical columns of physical engine `e` that a start passed over (R16, R36). -/
def State.badColumns (s : State) (d c core e : Nat) : List Nat :=
  sortedSet ((s.maps.bad.filter (fun b => b.1 == 1 && b.2.1 == d && b.2.2.1 == c && b.2.2.2.1 == core &&
    b.2.2.2.2 / 512 == e)).map (fun b => b.2.2.2.2 % 512))

/-- A plane on new hardware: its doubts concerned the old one; it is FENCED until it is written. -/
def Plane.renewed (p : Plane) : Plane :=
  match p.st with
  | .live | .fenced => { p with st := .fenced, doubt := false, absorb := false }
  | _ => p

/-- Engine `e` of core `k` on new hardware: planes keep what the golden copies give, everything else is as at a start
(DEDUCED, log 40). -/
def State.renewed (s : State) (k e : Nat) (g : Engine) : Engine :=
  { Engine.fresh with planes := g.planes.map (fun p => (p.1, p.2.renewed)), skipped := s.badColumns (dieOf k) (s.pcOf k) (s.physCore k) (s.physEngine k e) }

/-- The engines of core `k` on new hardware, written from their golden copies. -/
def State.renewCore (s : State) (k : Nat) : State :=
  let s1 := s.modCore k (fun c => { c with
    engines := c.engines.map (fun p => (p.1, s.renewed k p.1 p.2))
    wins := List.replicate 8 none
    mem := CoreMem.fresh
    diag := false, mended := false })
  (s1.core k).engines.foldl (fun s p => s.rewriteEngine k p.1) s1

/-- The spare takes the logical number (R17, R20, R414). -/
def State.takeSpare (s : State) (u : FaultUnit) : State :=
  let k := u.k
  let d := dieOf k
  let pc := s.pcOf k
  match u.level with
  | 2 =>
    (match s.spareEngine k with
    | some n =>
      let s1 := { s with maps := { s.maps with
        bad := (2, d, pc, s.physCore k, s.physEngine k u.e) :: s.maps.bad
        engine := Tbl.set s.maps.engine (32 * k + u.e) n } }
      let s2 := s1.modCore k (fun c => c.setEngine u.e (s1.renewed k u.e (c.engine u.e)))
      s2.rewriteEngine k u.e
    | none => s)
  | 3 =>
    (match s.spareCore k with
    | some n =>
      let s1 := { s with maps := { s.maps with
        bad := (3, d, pc, s.physCore k, 0) :: s.maps.bad
        core := Tbl.set s.maps.core k n
        engine := s.engineMap k pc n } }
      s1.renewCore k
    | none => s)
  | _ =>
    (match s.spareCluster k with
    | some n =>
      let s1 := { s with maps := { s.maps with
        bad := (4, d, pc, 0, 0) :: s.maps.bad
        cluster := Tbl.set s.maps.cluster (8 * d + clusterOf k) (some n) } }
      let good := (List.range 17).filter (fun c => !(s1.isBad 3 d n c 0))
      let ks := clusterCores d (clusterOf k)
      let s2 := ks.foldl (fun s j => { s with maps := { s.maps with
        core := Tbl.set s.maps.core j (at' good (j % 16) (j % 16))
        engine := s.engineMap j n (at' good (j % 16) (j % 16)) } }) s1
      let s3 := ks.foldl (fun s j => s.renewCore j) s2
      let s4 := (s3.modCl d n (fun c => { c with st := .idle, ok := true, unlocked := false, waking := false, doubt := false })).modCl d pc
        (fun c => { c with st := .off, ok := false, unlocked := false, waking := false, woken := false, doubt := false })
      if (s.cl d n).st = .off then
        { s4 with yoke := { s4.yoke with regs := { s4.yoke.regs with wakes := inc s4.yoke.regs.wakes } } }
      else s4
    | none => s)

/-- A spare that fails its verify is removed (R414). -/
def State.dropSpare (s : State) (u : FaultUnit) : State :=
  let d := dieOf u.k
  let pc := s.pcOf u.k
  let b := match u.level with
    | 2 => (s.spareEngine u.k).map (fun n => (2, d, pc, s.physCore u.k, n))
    | 3 => (s.spareCore u.k).map (fun n => (3, d, pc, n, 0))
    | _ => (s.spareCluster u.k).map (fun n => (4, d, n, 0, 0))
  match b with
  | some x => { s with maps := { s.maps with bad := x :: s.maps.bad } }
  | none => s

/-- The substitutions of units within `u` end with it: they are on hardware that has left service. -/
def State.endWithin (s : State) (u : FaultUnit) : State :=
  { s with maps := { s.maps with subst := s.maps.subst.filter (fun x => x != u && !(decide (x.level < u.level) && (match u.level with
      | 2 => x.k == u.k && x.e == u.e
      | 3 => x.k == u.k
      | _ => x.k / 16 == u.k / 16))) } }

/-- The level has a spare for the unit now. -/
def State.hasSpare (s : State) (u : FaultUnit) : Bool :=
  match u.level with
  | 2 => (s.spareEngine u.k).isSome
  | 3 => (s.spareCore u.k).isSome
  | _ => (s.spareCluster u.k).isSome

/-- SUBSTITUTION_DONE: the spare is in service, or it failed its verify, or has left the pool since, and the level above
follows (R414, R415). -/
def State.substDone (s : State) (u : FaultUnit) (us : Nat) (verifyOk : Bool) (lost : List GoldLoss) : State :=
  if !(s.maps.subst.contains u) || u.level == 1 then s
  else if !(s.hasSpare u) then (s.endSubst u).beginSubst 4 u.level u.k u.e
  else if verifyOk then (((s.loseGold lost).takeSpare u).endWithin u).countSubst u.level us
  else
    let s1 := (s.dropSpare u).endSubst u
    if u.level = 4 then s1.countNospare.loseCluster u.k else s1.beginSubst 3 (u.level + 1) u.k (if u.level = 2 then 0 else u.e)

/-- SUBSTITUTION_DONE (R414). -/
def execSubstitutionDone (u : FaultUnit) (r : RepairIn) (verifyOk : Bool) (s : State) : Host.Outcome State Fault Refusal :=
  answer (coreOk u.k && engineOk u.e) (s.substDone u r.us verifyOk r.lost)

/-- A local fault ended with nothing found (R413). -/
def State.countTransient (s : State) : State := s.modFlt (fun r => { r with transient := inc r.transient })

/-- The cluster of core `k` is in doubt (R412). -/
def State.clusterDoubt (s : State) (k : Nat) : Bool := (s.clOf k).any (·.doubt)

/-- The doubt about the cluster of core `k` is decided. -/
def State.clearDoubt (s : State) (k : Nat) : State :=
  if s.clusterDoubt k then s.modCl (dieOf k) (s.pcOf k) (fun c => { c with doubt := false }) else s

/-- A diagnosis ends: the core is substituted, or its cluster when the fabric was in doubt; or the core returns to service,
with nothing found, or with the row mended that the march of its scratchpad has found (R412, R413). A core that failed its
logic BIST is tested again out of service (R465; DEDUCED, log 122). -/
def State.diagnosed (s : State) (k : Nat) (faulty : Bool) : State :=
  if !(s.core k).diag && !(s.clusterDoubt k) then s
  else if faulty then
    let lv := if s.clusterDoubt k then 4 else 3
    ((s.clearDoubt k).toRetest lv (s.coreTarget k)).beginSubst 3 lv k 0
  else
    let s1 := (s.clearDoubt k).modCore k (fun c => { c with diag := false, mended := false })
    if (s.core k).mended then s1 else s1.countTransient

/-- CORE_DIAGNOSIS_DONE (R413). -/
def execCoreDiagnosisDone (k : Nat) (faulty : Bool) (s : State) : Host.Outcome State Fault Refusal :=
  answer (coreOk k) (s.diagnosed k faulty)

end Sys2Proof.Machine
end

