-- ==== Sys2Proof/Machine/Start.lean ====
section
/-! DEFINITION. Starts (16 R504 to R529): the cold start, the warm restart and what leads to it, tamper (15 R496 to R498)
and secure wipes (06 R197), modules and ports, the status pins (18 R560) and boundary scan (R562). -/
namespace Sys2Proof.Machine
open Sys2Proof

/-! ### Pins (R411, R560) -/

/-- `READY`: high only when the package accepts WORK. -/
def State.readyPin (s : State) : Bool := s.pkg.phase == .running && s.pkg.quiet == 0

/-- `NVM_RST_N` is high: released at step 2 of a cold start, which one that heat stops at step 1 does not reach (R560). -/
def State.nvmRstPin (s : State) : Bool := s.pkg.phase != .down && s.pkg.stopped != 1

/-- `MODn_RST_N` is high: released for a present module at step 4 (R515, R560). -/
def State.modRstPin (s : State) (n : Nat) : Bool :=
  s.pkg.phase != .down && decide (s.pkg.stopped = 0 ∨ 5 ≤ s.pkg.stopped) && (s.port n).present

/-- `MODn_LPM` is high: released for a module within budget (R515, R560). -/
def State.modLpmPin (s : State) (n : Nat) : Bool := !(s.modRstPin n) || (s.port n).overs

/-- A plane of core `k` waits for the diagnosis of a failed check (R411): fenced, and not for an installation, a removal
or a patch. -/
def State.planeDoubt (s : State) (k : Nat) (c : Core) : Bool :=
  c.engines.any (fun g => g.2.planes.any (fun p => s.inDoubt (k, g.1, p.1)))

/-- Work waits on a logical cluster that has no hardware (R20). -/
def State.workWaits (s : State) : Bool :=
  s.entries.any (fun e => (e.st == .admitted || e.st == .ready) && !e.ended && (s.planned e).ks.any (fun k => (s.clOf k).isNone))

/-- `FAULT_N` is asserted, low (R411, R506, R513, R525), and while `PORST_N` is low (R560). -/
def State.faultPin (s : State) : Bool :=
  s.pkg.phase == .down || s.pkg.phase == .held || s.pkg.stopped == 2 || s.pkg.stopped == 4 || s.pkg.faultPulse ||
    s.pkg.quiet != 0 || s.hubs.any (fun h => !h.up) || s.dies.any (fun d => !d.up) || !s.maps.subst.isEmpty ||
    s.cores.any (fun p => p.2.diag || s.planeDoubt p.1 p.2) || s.clusters.any (fun p => p.2.doubt || p.2.unlocked) ||
    s.dies.any (fun d => d.alarm) || s.workWaits ||
    s.pair.partnerLost || (s.pair.failedObj && s.pair.leader)

/-! ### The secure wipe (R197, R198) -/

/-- An activity of code 7 or 8 that is abandoned is reported on its command's reply and in
`MGMT.LAST_CMD` (R439, R442, R543). -/
def State.abandon (s : State) (a : Activity) : State :=
  let code := if a.code = 7 then 0x11 else 0x12
  { s with
    maint := s.maint.filter (fun x => x.id != a.id)
    mgmt := { s.mgmt with lastCmd := if s.mgmt.lastCmd.toNat / 65536 = code then word (code * 65536 + 0x1100) else s.mgmt.lastCmd }
    }.mgmtReply a.port a.addr a.tsid 0x10 a.mtag 0x11 (beBytes 4 0)

/-- Both secure parts are wiped: every session, key copy and CAK is lost, and a running profile switch or firmware
activation is abandoned (R197, R442, R472). -/
def State.wipe (s : State) : State :=
  let s1 := (s.maint.filter (·.running)).foldl (fun s a => s.abandon a) s
  { s1 with
    secure := { wiping := true, dwrap := false, pwrap := false, content := [], sessions := [], ivs := [], held := s1.secure.held }
    dsm := s1.dsm.mapIdx (fun d x => if 4 ≤ d then { x with wipes := inc x.wipes } else x)
    ports := s1.ports.mapIdx (fun n p => if s1.macsecPort n then { p with secured := false } else p) }

/-! ### Tamper (R496 to R498) -/

/-- Every plane of every engine is EMPTY, and every placement ends with its planes (R498 step 4). -/
def State.zeroisePlanes (s : State) : State :=
  { s with
    cores := s.cores.map (fun p => (p.1, sheetsOff (zeroiseCore
      { p.2 with engines := p.2.engines.map (fun g => (g.1, { g.2 with planes := [], pool := [] })) })))
    placements := [], installs := [] }

/-- Dozing clusters are woken for the zeroise. -/
def State.wakeDozing (s : State) : State :=
  (List.range 36).foldl (fun s i =>
    if (s.cl (i / 9) (i % 9)).st = .doze then (s.startWake (i / 9) (i % 9)).wakeDone (i / 9) (i % 9) else s) s

/-- TAMPER (R498). -/
def State.tamper (s : State) (source : Nat) : State :=
  let s1 : State := { s with trust := { s.trust with
    event := setBit s.trust.event 0, tamperCnt := inc s.trust.tamperCnt, tamperSrc := word (source % 8) } }
  ((s1.wipe.enterQuiet 1).wakeDozing).zeroisePlanes

/-- TAMPER: honoured in every life-cycle state but BLANK; while `PORST_N` is low Sphinx does not run (R497, R529). -/
def execTamper (source : Nat) (s : State) : Host.Outcome State Fault Refusal :=
  answer true (if s.fuses.lcs = 0 ∨ s.pkg.phase = .down then s else s.tamper source)

/-! ### Modules (R515) -/

/-- The Max Power of the present modules of port `n`'s hub, in ascending port order up to it. -/
def State.modSum (s : State) (n : Nat) : Nat :=
  ((List.range (n % 4 + 1)).map (fun i => if (s.port (n / 4 * 4 + i)).present then (s.port (n / 4 * 4 + i)).power else 0)).foldl
    (· + ·) 0

/-- The module of port `n` is beyond the budget. -/
def State.modOver (s : State) (n : Nat) : Bool :=
  (s.port n).present &&
    (decide (s.profile.net.modPmax < (s.port n).power) || decide (4 * s.profile.net.modPhub < s.modSum n))

/-- The budget applied to port `n`: a module newly beyond it stays in low-power mode, and its port down. -/
def State.checkMod (s : State) (n : Nat) : State :=
  let overs := s.modOver n
  let s1 : State := { s with ports := modAt s.ports n (fun p => { p with
    overs := overs, up := p.up && !overs, secured := p.secured && !overs }) }
  if overs ∧ !(s.port n).overs then
    { s1 with idr := { s1.idr with event := setBit s1.idr.event 1, modpwr := inc s1.idr.modpwr } }
  else s1

/-- The budget applied to every port. -/
def State.checkMods (s : State) : State := (List.range 8).foldl (fun s n => s.checkMod n) s

/-- A module is found at port `n`. -/
def State.moduleAt (s : State) (n power : Nat) : State :=
  { s with ports := modAt s.ports n (fun p => ⟨false, false, true, false, power, p.drops⟩) }

/-- MODULE_INSERT (R515). -/
def execModuleInsert (n power : Nat) (s : State) : Host.Outcome State Fault Refusal :=
  answer (portOk n) (if s.clocked && s.pkg.phase != .stuck then (s.moduleAt n power).checkMod n else s)

/-! ### Ports (R371, R489, R517) -/

/-- Ports are configured: from start-up step 5 on. -/
def State.portsLive (s : State) : Bool := s.clocked && s.pkg.phase != .stuck

/-- PORT_LINK_DOWN (R371). -/
def execPortLinkDown (n : Nat) (s : State) : Host.Outcome State Fault Refusal :=
  answer (portOk n) { s with ports := modAt s.ports n (fun p => { p with up := false, secured := false }) }

/-- PORT_LINK_UP: the link is trained, or MKA has secured it with the CAK that the profile carries (R489). -/
def State.linkTrained (s : State) (n : Nat) (mka : Bool) : State :=
  let p := s.port n
  if s.portsLive && (s.hub (n / 4)).up && p.present && !p.overs && s.addressed n then
    { s with ports := modAt s.ports n (fun p => { p with
        up := true, secured := p.secured || (mka && s.macsecPort n && s.secure.dwrap) }) }
  else s

/-- PORT_LINK_UP (R489). -/
def execPortLinkUp (n : Nat) (mka : Bool) (s : State) : Host.Outcome State Fault Refusal :=
  answer (portOk n) (s.linkTrained n mka)

/-! ### Stopping the clocks (R505) -/

/-- PORST_ASSERT: every clock but the Cocoon's stops (R505, R560). -/
def execPorstAssert (s : State) : Host.Outcome State Fault Refusal :=
  answer true { s.stopClocks with pkg := { s.stopClocks.pkg with phase := .down, stopped := 0 } }

/-! ### The assignment of logical numbers (R16, R36) -/

/-- The unit that contains a unit marked bad: engine of a column, core of an engine, cluster of a core. -/
def parentUnit (b : Nat × Nat × Nat × Nat × Nat) : Nat × Nat × Nat × Nat × Nat :=
  match b.1 with
  | 1 => (2, b.2.1, b.2.2.1, b.2.2.2.1, b.2.2.2.2 / 512)
  | 2 => (3, b.2.1, b.2.2.1, b.2.2.2.1, 0)
  | _ => (4, b.2.1, b.2.2.1, 0, 0)

/-- A unit with `n` bad parts of level `lv` has too few left, and is itself bad (R20). -/
def raiseBad (lv n : Nat) (bad : List (Nat × Nat × Nat × Nat × Nat)) : List (Nat × Nat × Nat × Nat × Nat) :=
  bad.foldl (fun acc b =>
    if b.1 = lv ∧ n ≤ (bad.filter (fun x => x.1 == lv && parentUnit x == parentUnit b)).length ∧ !acc.contains (parentUnit b)
    then acc ++ [parentUnit b] else acc) bad

/-- The units that a hard-repair record marks (R466). -/
def recordUnit (d r : Nat) : List (Nat × Nat × Nat × Nat × Nat) :=
  let c := bits r 59 56
  let k := bits r 55 51
  match r / 2 ^ 60 with
  | 1 => [(1, d, c, k, bits r 50 45 * 512 + bits r 44 36)]
  | 2 => [(2, d, c, k, bits r 50 45)]
  | 3 => [(3, d, c, k, 0)]
  | 4 => [(4, d, c, 0, 0)]
  | _ => []

/-- The repair segment of a row record (R462, R466). -/
def recordSegment (r : Nat) : List Nat :=
  match r / 2 ^ 60 with
  | 5 => [segKey 4 (bits r 59 56) (bits r 55 51) (bits r 35 30) 0]
  | 6 => [segKey 5 (bits r 59 56) (bits r 55 51) 0 0]
  | 7 => [segKey 6 0 0 (bits r 35 30) (bits r 29 16 / 1024)]
  | _ => []

/-- The valid records of a die (R467). -/
def goodRecords (x : Repair) : List Nat := ((x.records.filter (fun y => y.2 && recordOk y.1)).map (·.1)).eraseDups

/-- Records applied to the rows of a die (R463). -/
def applyRows (x : Repair) : Repair :=
  { x with spares := ((goodRecords x).flatMap recordSegment).foldl (fun t n => Tbl.setNum t n (Tbl.num t n + 1)) [] }

/-- Every unit that records and tests mark as defective. -/
def State.defects (s : State) (i : StartIn) : List (Nat × Nat × Nat × Nat × Nat) :=
  let recs := (s.repair.mapIdx (fun d x => (goodRecords x).flatMap (recordUnit d))).flatMap id
  let cols := i.badColumns.map (fun x => ((1, x.1, x.2.1, x.2.2.1, x.2.2.2.1 * 512 + x.2.2.2.2) : Nat × Nat × Nat × Nat × Nat))
  let engs := i.badEngines.map (fun x => ((2, x.1, x.2.1, x.2.2.1, x.2.2.2) : Nat × Nat × Nat × Nat × Nat))
  let cores := i.badCores.map (fun x => ((3, x.1, x.2.1, x.2.2, 0) : Nat × Nat × Nat × Nat × Nat))
  let cls := i.badClusters.map (fun x => ((4, x.1, x.2, 0, 0) : Nat × Nat × Nat × Nat × Nat))
  (recs ++ cols ++ engs ++ cores ++ cls).eraseDups

/-- A row that the destructive march finds faulty: the next free spare row, or the unit that R464 names is given up; a
core is then defective for the assignment (R460, R463). -/
def State.startRow (s : State) (x : Target × Nat) : State :=
  let t := x.1
  if Tbl.num (s.rep t.die).spares (segmentOf t x.2) < 4 ∨ t.kind = 6 then s.softRepair t x.2
  else
    let s1 := s.modRep t.die (fun r => { r with event := setBit r.event 2, rowsOut := inc r.rowsOut })
    let b : Nat × Nat × Nat × Nat × Nat := (3, t.die, t.cluster, t.core, 0)
    if s1.maps.bad.contains b then s1 else { s1 with maps := { s1.maps with bad := s1.maps.bad ++ [b] } }

/-- A column that fails the destructive march: its record is due (R465). -/
def State.startColumn (s : State) (x : Nat × Nat × Nat × Nat × Nat) : State :=
  s.addDue x.1 (repairRecord 1 x.2.1 x.2.2.1 x.2.2.2.1 x.2.2.2.2 0 0)

/-- Logical clusters of die `d` in ascending physical order; a number without hardware maps to none. -/
def State.mapClusters (s : State) (d : Nat) : State :=
  if !(s.maps.bad.any (fun b => b.1 == 4 && b.2.1 == d)) then s
  else
    let good := (List.range 9).filter (fun c => !(s.isBad 4 d c 0 0))
    { s with maps := { s.maps with
        cluster := (List.range 8).foldl (fun t l => Tbl.set t (8 * d + l) good[l]?) s.maps.cluster } }

/-- The logical numbers of a cluster pass over a bad core. -/
def State.mapCore (s : State) (b : Nat × Nat × Nat × Nat × Nat) : State :=
  match s.logCluster b.2.1 b.2.2.1 with
  | some l => { s with maps := { s.maps with core := (List.range 16).foldl (fun t i =>
      if b.2.2.2.1 ≤ i then Tbl.set t (128 * b.2.1 + 16 * l + i) (i + 1) else t) s.maps.core } }
  | none => s

/-- The logical numbers of a core pass over a bad engine. -/
def State.mapEngine (s : State) (b : Nat × Nat × Nat × Nat × Nat) : State :=
  match s.logCore b.2.1 b.2.2.1 b.2.2.2.1 with
  | some k => { s with maps := { s.maps with engine := (List.range 32).foldl (fun t i =>
      if b.2.2.2.2 ≤ i then Tbl.set t (32 * k + i) (i + 1) else t) s.maps.engine } }
  | none => s

/-- The slots of an engine pass over its bad columns (R36). -/
def State.mapColumns (s : State) (b : Nat × Nat × Nat × Nat × Nat) : State :=
  match s.logCore b.2.1 b.2.2.1 b.2.2.2.1 with
  | some k =>
    (match s.logEngine k (b.2.2.2.2 / 512) with
    | some e => s.modCore k (fun c => c.setEngine e { c.engine e with
        skipped := s.badColumns b.2.1 b.2.2.1 b.2.2.2.1 (b.2.2.2.2 / 512) })
    | none => s)
  | none => s

/-- The state of a physical cluster after the assignment: a bad one is out of service, and a spare is OFF. -/
def State.startCluster (s : State) (d c : Nat) : State :=
  let used := (s.logCluster d c).isSome
  if s.isBad 4 d c 0 0 then s.modCl d c (fun x => { x with st := .off, ok := false })
  else if used == decide (c < 8) then s
  else s.modCl d c (fun x => { x with st := if used then .idle else .off })

/-- Start-up steps 7 and 9: repairs, defects and the spare maps (R16, R463). -/
def State.assign (s : State) (i : StartIn) : State :=
  let s1 : State := { s with repair := s.repair.map applyRows, maps := { s.maps with bad := s.defects i } }
  let s2 := i.badRows.foldl (fun s x => s.startRow x) (i.badColumns.foldl State.startColumn s1)
  let s3 : State := { s2 with maps := { s2.maps with bad := raiseBad 3 2 (raiseBad 2 2 (raiseBad 1 5 s2.maps.bad)) } }
  let s4 := (List.range 4).foldl (fun s d => s.mapClusters d) s3
  let bad := s4.maps.bad
  let s5 := (bad.filter (fun b => b.1 == 3)).foldl (fun s b => s.mapCore b) s4
  let s6 := (bad.filter (fun b => b.1 == 2)).foldl (fun s b => s.mapEngine b) s5
  let s7 := (bad.filter (fun b => b.1 == 1)).foldl (fun s b => s.mapColumns b) s6
  (List.range 36).foldl (fun s i => s.startCluster (i / 9) (i % 9)) s7

/-! ### The cold start (R511) -/

/-- Everything that a cold start clears, and what it keeps (R528): fuses, NVM, burned records, cells' defects, the
Cocoon's counter and tamper registers while `VDD_AON` stays up. -/
def State.coldBase (s : State) (i : StartIn) : State :=
  let r := State.reset
  let nvm := i.images.foldl (fun m x => m.program s.fuses.part s.fuses.serial x) s.nvm
  { r with
    pkg := { r.pkg with
      phase := .starting, therm := s.pkg.therm && i.hot, psel := i.psel, pairRole := i.pairRole
      aon := if i.aonKept then s.pkg.aon else 0
      free := s.pkg.free + 2, profNone := true, profSlot := i.psel, bootHub := flag i.bootHubB, leader := flag i.bootHubB }
    fuses := s.fuses
    secure := { wiping := false, dwrap := decide (3 ≤ s.fuses.lcs), pwrap := s.fuses.pairSeed.isSome, content := [], sessions := [], ivs := [], held := [] }
    profile := defaults s.fuses.part
    nvm := { nvm with xfer := Xfer.idle }
    hubs := [{ Hub.fresh with up := !i.bootHubB }, Hub.fresh]
    ports := tabulate 8 (fun n => ⟨false, false, bitAt i.mods n, false, at' i.modPower n 0, 0⟩)
    cores := s.cores
    dies := tabulate 4 (fun d => { Die.fresh with vmin := (s.die d).vmin, epass := (s.die d).epass, slicemW := (s.die d).slicemW })
    repair := s.repair.map (fun x => { Repair.fresh with records := x.records })
    yoke := { r.yoke with
      envelope := s.drawTotal * 1000, temps := s.yoke.temps, rails := s.yoke.rails, pmb := s.yoke.pmb, coef := s.yoke.coef, standing := s.yoke.standing
      doms := s.yoke.doms.map (fun d => { Domain.fresh with draw := d.draw }), active := flag i.bootHubB }
    standby := { r.standby with envelope := s.drawTotal * 1000 }
    pair := { r.pair with
      bound := s.pair.bound, st := if s.pair.bound then .joining else .unpaired, partner := s.pair.partner
      pboot := Config.drbg (s.pkg.free + 1) % 2 ^ 32 }
    grazer := { r.grazer with started := false }
    tap := s.tap
    idr := { r.idr with nvmMbit := word i.nvmMbit, regs := 0, hints := [] }
    trust := if i.aonKept then { r.trust with tamperCnt := s.trust.tamperCnt, tamperSrc := s.trust.tamperSrc } else r.trust
    mgmt := { r.mgmt with challenge := Config.drbg s.pkg.free % 2 ^ 128 }
    out := s.out, pending := s.pending }

/-- The start stops for good. -/
def State.stop (s : State) (why : Nat) : State := { s with pkg := { s.pkg with phase := .stuck, stopped := why } }

/-- The firmware of slot `n` boots (R513). -/
def State.boot (s : State) (n : Nat) : State :=
  let f := at' s.nvm.fw n FwSlot.blank
  { s with pkg := { s.pkg with fwSlot := n, fwSvn := f.svn, fwDigest := f.digest, fwNext := none } }

/-- The bits of a mask below `n` that are 0. -/
def missingBits (n mask : Nat) : Nat := n - popCount n mask

/-- A flag of `ID.EVENT` set when `n` events of it occurred. -/
def flagIf (w : Word) (b n : Nat) : Word := if n = 0 then w else setBit w b

/-- The slot record counts: its magic, version and CRC are right (R516). -/
def slotRecOk (b : List Byte) : Bool :=
  b.length == 0x114 && beAt b 0 4 == 0xD4A1 && beAt b 4 1 == 1 && beAt b 0x110 4 == crc32 (b.take 0x110)

/-- The role of the package: that of a slot record that gives one, else that of the strap (R426, R516). -/
def startRole (i : StartIn) : Nat :=
  if slotRecOk i.slotRec ∧ (beAt i.slotRec 5 1 = 1 ∨ beAt i.slotRec 5 1 = 2) then beAt i.slotRec 5 1 - 1 else i.pairRole

/-- Step 4: slot record, regulators, stacks and modules (R514 to R519, R426). -/
def State.identity (s : State) (i : StartIn) : State :=
  let x := s.idr
  let ok := slotRecOk i.slotRec
  let role := startRole i
  let noRec := flag (!ok)
  let noReg := missingBits 9 i.regs
  let noStack := missingBits 16 i.hbmStacks
  let s1 : State := { s with
    pkg := { s.pkg with pairRole := role }
    pair := { s.pair with leader := s.pair.bound && role == 0 }
    idr := { x with
      slotrec := if ok then word (beAt i.slotRec 6 2 * 65536 + beAt i.slotRec 5 1 % 4) else 0
      slotpos := if ok then word (beAt i.slotRec 10 2 * 65536 + beAt i.slotRec 8 2) else 0
      regs := word (i.regs % 512), hints := if ok then ((i.slotRec.drop 16).take 256).map (·.toNat) else []
      event := flagIf (flagIf (flagIf x.event 2 noRec) 3 noReg) 4 noStack
      slotCnt := incBy x.slotCnt noRec, regCnt := incBy x.regCnt noReg, stackCnt := incBy x.stackCnt noStack }
    dies := s.dies.mapIdx (fun d y => { y with up := bitAt i.regs d }) }
  s1.checkMods

/-- Steps 7 to 9: the maps, then stacks and dies in service (R23, R418, R519). -/
def State.units (s : State) (i : StartIn) : State :=
  let s1 := s.assign i
  let up (d : Nat) : Bool := (s1.die d).up && (List.range 8).any (fun c => (s1.physCluster d c).isSome)
  { s1 with
    dies := s1.dies.mapIdx (fun d x => { x with up := up d })
    hbmStacks := tabulate 16 (fun n => (bitAt i.hbmStacks n && up (n / 4), false)) }

/-- What the settings in force decide at steps 5 to 8: module budget, core rails, parcel space, records to burn (R320,
R402, R515). -/
def State.settle' (s : State) : State :=
  let per := (hbmTotal s.fuses.part - s.profile.work.hbmInstall) * 1000000000 / 16 / 4096
  let s1 := s.checkMods
  { s1 with
    dies := s1.dies.map (fun d => { d with vset := d.vmin + s.profile.power.vmargin })
    pages := tabulate 16 (fun n => if s1.stackUp n then per else 0), used := List.replicate 16 []
    repair := if s.profile.power.hardRepair then s1.repair else s1.repair.map (fun x => { x with due := [] }) }

/-- The profile of slot `n` is in force (R524). -/
def State.inForce (s : State) (n : Nat) (p : ProfSlot) : State :=
  { s with profile := p.prof, pkg := { s.pkg with profSlot := n, profNone := false, profDigest := p.digest, usePending := none } }

/-- Steps 5 to 9: the profile of the straps, defaults where no owner exists, or a start held (R523 to R526). -/
def State.startWith (s : State) (i : StartIn) : State :=
  match s.profOk i.psel with
  | some p => ((s.inForce i.psel p).units i).settle'
  | none =>
    let s1 := (s.units i).settle'
    if s.fuses.lcs = 3 then
      { s1 with
        pkg := { s1.pkg with phase := .held }
        idr := { s1.idr with event := setBit s1.idr.event 0, hold := inc s1.idr.hold } }
    else s1

/-- COLD_START: `PORST_N` rises, and the steps run to a held or stopped start, or up to step 10 (R511). -/
def State.coldStart (s : State) (i : StartIn) : State :=
  let s1 := s.coldBase i
  if s1.pkg.therm then s1.stop 1
  else if !i.sfdpOk ∨ i.nvmMbit < 512 then s1.stop 2
  else if s.fuses.lcs ≠ 0 ∧ !i.chainOk then s1.stop 3
  else match s1.bootSlot with
    | none => s1.stop 4
    | some n =>
      let s2 := (s1.boot n).identity i
      if !(bitAt i.regs 4) ∨ !(bitAt i.regs 5) then s2.stop 5
      else if s.fuses.lcs = 0 then s2.stop 6
      else if s.fuses.lcs = 1 then (s2.units i).settle'
      else s2.startWith i

/-- COLD_START (R511). -/
def execColdStart (i : StartIn) (s : State) : Host.Outcome State Fault Refusal :=
  answer true (if s.pkg.phase = .down then s.coldStart i else s)

/-- BOOT_REPORT_TIMEOUT: HB boots the package alone, and HA stays out of service (R512). -/
def execBootReportTimeout (s : State) : Host.Outcome State Fault Refusal :=
  answer true (
    if s.pkg.phase = .starting ∧ s.pkg.bootHub = 0 then
      { s with
        pkg := { s.pkg with bootHub := 1, leader := 1 }
        hubs := modAt s.hubs 0 (fun h => { h with up := false })
        yoke := { s.yoke with active := 1 } }
    else s)

/-! ### READY_ASSERT -/

/-- The `SVN` floor after `READY` (R501). -/
def State.raiseFloor (s : State) : State :=
  if s.profile.work.svnAuto ∧ s.fuses.svnFloor < s.pkg.fwSvn then { s with fuses := { s.fuses with svnFloor := s.pkg.fwSvn } } else s

/-- Step 10 of a cold start: the first round begins, and the envelope is the measured draw (R407, R453, R501). -/
def State.readyCold (s : State) : State :=
  let s1 : State := { s with
    pkg := { s.pkg with phase := .running }
    yoke := { s.yoke with envelope := s.drawTotal * 1000 } }
  if s.pkg.quiet ≠ 0 then s1
  else { s1 with grazer := { s1.grazer with started := true, roundStart := s.pkg.aon, progress := [] } }.raiseFloor

/-- An entry is gone with its parcels, and with its references unless it has completed. -/
def State.dropEntry (s : State) (e : Entry) : State :=
  let s0 := (s.freeParcel e.ipar).freeParcel e.rpar
  let s1 := if e.holdsRefs then s0.dropRefs e else s0
  { s1 with entries := s1.entries.filter (fun x => x.cseq != e.cseq) }

/-- An entry lost with both copies: its stream is CLOSED, and nothing of the stream is kept (R372, R424). -/
def State.entryGone (s : State) (e : Entry) : State :=
  let s1 := (s.entries.filter (fun x => x.stream == e.stream)).foldl (fun s x => s.dropEntry x) s
  (s1.modStream e.stream (fun x => { x with st := .closed, nextSeq := 0, credit := 64, outst := 0 })).modFlt
    (fun r => { r with event := setBit r.event 5, entryLost := inc r.entryLost })

/-- `n` entries are lost; which ones is not known (R194, R424; DESIGN CHOICE, log 58). -/
def State.losesEntries : Nat → State → State
  | 0, s => s
  | n + 1, s =>
    let o := s.openWord 23 32
    State.losesEntries n (match s.entries[o.2 % s.entries.length]? with
      | some e => o.1.entryGone e
      | none => o.1)

/-- The copies of the entries compared at a restart that leaves cause 3 or 5: in paired mode the partner's copy decides
between two that differ; where the digests differ, how many entries differ is not known (R424). -/
def State.compareLogs (s : State) : State :=
  let o := s.openWord 24 32
  let n := if s.pkg.quiet = 5 then o.2 % (s.entries.length + 1) else min s.ledgerLost s.entries.length
  let s1 := if s.paired then o.1 else State.losesEntries n o.1
  { s1 with
    ledgerLost := 0
    hubs := s1.hubs.map (fun h => { h with digest := (s1.hub s1.pkg.leader).digest })
    pkg := { s1.pkg with quiet := 0 } }

/-- A warm restart ends: hub banks are ON again, a restart that leaves QUIET has left it, and the `SVN` floor follows the
image that has booted (R191, R423, R501, R527). -/
def State.readyWarm (s : State) : State :=
  let s1 := (s.modDsm 4 (fun x => { x with banks := x.banks.map (fun b => if b = .retention then .on else b) })).modDsm 5
    (fun x => { x with banks := x.banks.map (fun b => if b = .retention then .on else b) })
  let s2 : State := { s1 with pkg := { s1.pkg with phase := .running, leaving := false } }
  let s3 := if s.pkg.leaving ∧ (s.pkg.quiet = 3 ∨ s.pkg.quiet = 5) then s2.compareLogs else s2
  if s3.pkg.quiet = 0 then s3.raiseFloor else s3

/-- READY_ASSERT (R511 step 10, R527 step 4). -/
def execReadyAssert (s : State) : Host.Outcome State Fault Refusal :=
  answer true (match s.pkg.phase with
    | .starting => s.readyCold
    | .dozing => s.readyWarm
    | _ => s)

/-! ### The warm restart (R527) -/

/-- Step 1: bulk sessions are aborted and uncommitted objects discarded, running frames return to READY, slices and
marches end, and a transfer to the NVM is aborted (R327, R371, R442, R546). -/
def State.beginWarm (s : State) : State :=
  let s1 := (s.entries.filter (fun e => e.st == .running && !e.ended && s.runsHere e)).foldl (fun s e => s.requeue e.cseq 0 id) s
  let s2 := (s1.grazer.slices.map (·.t)).foldl (fun s t => s.sliceStop t) s1
  { s2 with
    pkg := { s2.pkg with phase := .warm }
    bulk := s2.bulk.map (fun b => { b with aborted := true })
    objects := s2.objects.filter (·.waiting)
    nvm := { s2.nvm with xfer := Xfer.idle }
    grazer := { s2.grazer with marches := [] } }

/-- WRST_PIN: ignored in a cold start, merged with a warm restart that runs (R505). -/
def execWrstPin (s : State) : Host.Outcome State Fault Refusal :=
  answer true (if s.pkg.phase = .running then s.beginWarm else s)

/-- The firmware that step 3 verifies: the slot that an activation names, else the one in force; one that fails R513 is
replaced by the other slot (R490, R527). -/
def State.warmBoot (s : State) : State :=
  let n := s.pkg.fwNext.getD s.pkg.fwSlot
  match [n, 1 - n].find? s.fwOk with
  | some m => s.boot m
  | none => { s with pkg := { s.pkg with fwNext := none } }

/-- A profile that takes effect at a warm restart: parcel space follows `HBM_INSTALL`, and other CAKs end the security of
the links (R320, R402, R472, R524). -/
def State.takeProfile (s : State) (n : Nat) (p : ProfSlot) : State :=
  let per (x : Profile) := (hbmTotal s.fuses.part - x.work.hbmInstall) * 1000000000 / 16 / 4096
  let s1 := s.inForce n p
  { s1 with
    pages := s1.pages.mapIdx (fun i x => if s1.stackUp i then x + per p.prof - per s.profile else x)
    ports := if p.prof.net.macsec = s.profile.net.macsec ∧ p.prof.net.macsecCak = s.profile.net.macsecCak then s1.ports
      else s1.ports.map (fun x => { x with secured := false }) }

/-- The profile chosen at a warm restart: the slot that a USE-PROFILE named, else the slot in force read again (R524). -/
def State.warmProfile (s : State) : State :=
  let n := s.pkg.usePending.getD s.pkg.profSlot
  let s1 : State := { s with pkg := { s.pkg with usePending := none } }
  match s.profOk n with
  | some p => s1.takeProfile n p
  | none => s1

/-- Steps 2 to 4: every cluster dozes, planes and sheets, banks and stacks go to retention, firmware and profile are
chosen, and the core rails are set again (R191, R402, R527, R542). -/
def State.warmDoze (s : State) : State :=
  let awake := (List.range 36).filter (fun i => let c := s.cl (i / 9) (i % 9); c.st == .idle || c.st == .run || c.waking)
  let s1 := awake.foldl (fun s i => s.modCl (i / 9) (i % 9) (fun c => { c with st := .doze, waking := false, woken := false })) s
  let s2 : State := { s1 with
    cores := s1.cores.map (fun p => (p.1, moveSheets .on .retention (moveSheets .waking .retention p.2)))
    dsm := s1.dsm.mapIdx (fun d x => { x with banks := x.banks.mapIdx (fun b y =>
      if y ≠ .off ∧ regionOf d b ≠ .sc then .retention else y) })
    hbmStacks := s1.hbmStacks.map (fun x => (x.1, x.1))
    yoke := { s1.yoke with regs := { s1.yoke.regs with dozes := incBy s1.yoke.regs.dozes awake.length } }
    idr := { s1.idr with warm := inc s1.idr.warm }
    mgmt := { s1.mgmt with challenge := Config.drbg s.pkg.free % 2 ^ 128 }
    pkg := { s1.pkg with phase := .dozing, lastWarm := true, free := s.pkg.free + 1 } }
  let s3 := s2.warmBoot.warmProfile
  { s3 with dies := s3.dies.map (fun d => { d with vset := d.vmin + s3.profile.power.vmargin, ballast := 0, bal := [], balN := 0 }) }

/-- WARM_RESTART_DOZE: the envelope has reached the standing draw (R407, R527). -/
def execWarmRestartDoze (s : State) : Host.Outcome State Fault Refusal :=
  answer true (if s.pkg.phase = .warm ∧ s.yoke.envelope ≤ s.yoke.standing * 1000 then s.warmDoze else s)

/-! ### Activities that end in a warm restart (R439 to R442) -/

/-- A target that names the package. -/
def packageTarget : Target := ⟨0, 0, 0, 0, 0, 0, 0⟩

/-- Plane re-programming in progress: a restart waits for it (R442). -/
def State.reprogramming (s : State) : Bool := !s.maps.subst.isEmpty || !s.installs.isEmpty

/-- The activity of `code` that may run now (R440 to R442). -/
def State.dueActivity (s : State) (code : Nat) : Option Activity :=
  (s.maint.find? (fun a => a.code == code)).filter (fun a =>
    s.pkg.phase == .running && !s.reprogramming && (a.running || s.mayRun ⟨code, packageTarget⟩))

/-- The activity ends, with the reply of its command. -/
def State.endActivity (s : State) (a : Activity) : State :=
  { s with maint := s.maint.filter (fun x => x.id != a.id) }.mgmtReply a.port a.addr a.tsid 0x10 a.mtag 0 []

/-- PROFILE_SWITCH: the slot that USE-PROFILE named is checked; the switch ends in a warm restart, or is abandoned (R524,
R442). A firmware activation comes first (R441). -/
def State.profileSwitch (s : State) : State :=
  match s.dueActivity 7 with
  | none => s
  | some a =>
    if s.maint.any (fun x => x.code == 8) then s
    else match s.profOk a.arg with
      | none => s.abandon a
      | some _ =>
        let s1 := s.endActivity a
        { s1 with pkg := { s1.pkg with usePending := some a.arg } }.beginWarm

/-- PROFILE_SWITCH (R524). -/
def execProfileSwitch (s : State) : Host.Outcome State Fault Refusal := answer true s.profileSwitch

/-- FIRMWARE_ACTIVATION: the slot is checked, and the warm restart begins, or the activation is abandoned (R527). -/
def State.firmwareActivation (s : State) : State :=
  match s.dueActivity 8 with
  | none => s
  | some a =>
    if !(s.fwOk a.arg) then s.abandon a
    else
      let s1 := s.endActivity a
      { s1 with pkg := { s1.pkg with fwNext := some a.arg } }.beginWarm

/-- FIRMWARE_ACTIVATION (R527). -/
def execFirmwareActivation (s : State) : Host.Outcome State Fault Refusal := answer true s.firmwareActivation

/-- MAINT_DEFER: an activity that has waited its timeout. Codes 0 to 5 have no record, and an identifier below 16 is the
waiting one of that code; a sweep that R438 queued goes back to the round, and a profile switch or firmware activation is
abandoned (R439, R441; DESIGN CHOICE, log 59). -/
def State.maintDefer (s : State) (id : Nat) : State :=
  let count (s : State) := s.modFlt (fun r => { r with event := setBit r.event 4, defer := inc r.defer })
  if id < 16 then (if id < 6 then count s else s)
  else match s.maint.find? (fun a => a.id == id && !a.running) with
    | some a =>
      if a.code = 4 then { count s with maint := s.maint.filter (fun x => x.id != id) } else (count s).abandon a
    | none => s

/-- MAINT_DEFER (R441). -/
def execMaintDefer (id : Nat) (s : State) : Host.Outcome State Fault Refusal := answer true (s.maintDefer id)

/-! ### Boundary scan (R458, R562) -/

/-- The instruction that acts: 0 BYPASS, 1 IDCODE, 2 SAMPLE/PRELOAD, 3 another instruction of IEEE 1149.1, 4 and above
internal scan (DESIGN CHOICE, log 60). -/
def State.tapInstr (s : State) (ir : Nat) : Nat :=
  if ir ≤ 2 then ir
  else if ir = 3 then (if s.pkg.phase = .down then 3 else 0)
  else if s.fuses.lcs = 7 then 4 else 0

/-- BOUNDARY_SCAN: `drIn` is shifted through the data register of the TAP. -/
def State.scan (s : State) (tap ir drIn : Nat) : State :=
  match s.tapInstr ir with
  | 0 => s.emitOut (.tap tap (drIn * 2))
  | 1 => s.emitOut (.tap tap (Config.tapOut tap 0 % 2 ^ 32))
  | _ =>
    { s with
      tap := s.tap.set tap drIn
      pkg := { s.pkg with free := s.pkg.free + 1 } }.emitOut (.tap tap (Config.tapOut tap (s.pkg.free + 1)))

/-- BOUNDARY_SCAN (R562). -/
def execBoundaryScan (tap ir drIn : Nat) (s : State) : Host.Outcome State Fault Refusal :=
  answer (decide (tap < 6)) (s.scan tap ir drIn)

end Sys2Proof.Machine
end

