-- ==== Sys2Proof/Machine/Status.lean ====
section
/-! DEFINITION. The status space (17 R531 to R540, R545): where each block lives, the words of its registers, reads with
their effects, and clears. -/
namespace Sys2Proof.Machine
open Sys2Proof

/-! ### Addresses (R531, R532) -/

/-- A block: package 0 to 7 in the order of R531, FOLD of a hub, DSM and REPAIR of a die, and the eight blocks of a
logical core. -/
inductive Block where
  | package (n : Nat)
  | fold (h : Nat)
  | dsm (d : Nat)
  | repair (d : Nat)
  | core (k n : Nat)
  deriving DecidableEq, Repr

/-- The block of an address and the index of the word in its window; none when the address is unassigned. -/
def blockAt (a : Nat) : Option (Block × Nat) :=
  let i := a % 4096 / 4
  if a < 0x8000 then some (.package (a / 4096), i)
  else if 0x100000 ≤ a ∧ a < 0x102000 then some (.fold (a / 4096 % 2), i)
  else if 0x200000 ≤ a ∧ a < 0x20C000 then
    some (if (a - 0x200000) % 0x2000 < 0x1000 then .dsm ((a - 0x200000) / 0x2000) else .repair ((a - 0x200000) / 0x2000), i)
  else if 0x10000000 ≤ a ∧ a < 0x12000000 ∧ a % 0x10000 < 0x8000 then
    some (.core ((a - 0x10000000) / 0x10000) (a % 0x10000 / 0x1000), i)
  else none

/-- The die that holds a die's block is in service. -/
def State.dieServes (s : State) (d : Nat) : Bool := if d < 4 then (s.die d).up else (s.hub (d - 4)).up

/-- The block is available (R533). -/
def State.blockUp (s : State) (b : Block) : Bool :=
  match b with
  | .package _ => true
  | .fold h => (s.hub h).up
  | .dsm d | .repair d => s.dieServes d
  | .core k _ => (s.die (dieOf k)).up && (s.clOf k).isSome

/-! ### Words -/

/-- A number as fields of `w` bits, first element lowest. -/
def packBits (w : Nat) : List Nat → Nat
  | [] => 0
  | x :: r => x % 2 ^ w + packBits w r * 2 ^ w

/-- Part `n` of four of a value of 16 bytes, first bytes first. -/
def quarter (v n : Nat) : Word := word (v / 2 ^ (96 - 32 * n))

/-- ID (R530). -/
def State.idWords (s : State) : List Word :=
  let x := s.idr
  [ word s.fuses.part, word 0xB0, quarter s.fuses.serial 0, quarter s.fuses.serial 1, quarter s.fuses.serial 2,
    quarter s.fuses.serial 3,
    word (s.pkg.bootHub * 65536 + s.pkg.fwSvn % 256 * 256 + s.pkg.fwSlot % 2 * 128 + s.pkg.profSlot % 4 * 4
      + flag s.pkg.profNone * 2 + flag s.pkg.lastWarm),
    x.warm, x.slotrec, x.slotpos,
    word (packBits 1 (s.ports.mapIdx (fun n _ => flag (s.linkUp n))) + packBits 1 (s.ports.map (fun p => flag p.present)) * 256
      + packBits 1 (s.ports.map (fun p => flag p.overs)) * 65536),
    x.regs, word (packBits 1 (s.hbmStacks.map (fun p => flag p.1))), x.nvmMbit, x.event, x.hold, x.modpwr, x.slotCnt,
    x.regCnt, x.stackCnt ]

/-- `TRUST.TALLY` and the report's tallies (R502, R503). -/
def State.tally (s : State) : Nat := s.fuses.svnFloor % 256 * 65536 + s.fuses.bindings % 256 * 256 + s.fuses.rotations % 256

/-- TRUST (R503). -/
def State.trustWords (s : State) : List Word :=
  let x := s.trust
  [ x.event, x.tamperCnt, x.authFail, x.macDrop, x.lcCount, x.tamperSrc, word s.fuses.lcs,
    word s.secure.sessions.length, word s.tally,
    word (packBits 1 (s.ports.map (fun p => flag p.secured)) * 256 + s.profile.net.macsec % 256), x.attests ]

/-- Activities that run, by their codes (R439, R443): a substitution and an installation re-program planes. -/
def State.activeMask (s : State) : Nat :=
  packBits 1 (tabulate 9 (fun n => flag (s.running.any (fun a => a.code == n) ||
    (n == 3 && (s.maps.subst.any (fun u => u.level != 1) || !s.installs.isEmpty)))))

/-- Activities that wait. -/
def State.queuedMask (s : State) : Nat :=
  packBits 1 (tabulate 9 (fun n => flag (s.maint.any (fun a => a.code == n && !a.running) ||
    (n == 3 && (s.maps.subst.any (fun u => u.level == 1) || s.placements.any (fun p => !p.patch.isEmpty))) ||
    (n == 5 && s.repair.any (fun r => !r.due.isEmpty)))))

/-- FAULT (R443). -/
def State.faultWords (s : State) : List Word :=
  let x := s.flt
  [ x.event, x.local_, x.subst, x.nospare, x.quiet, x.defer, x.entryLost, x.lost, x.transient, x.sEngine, x.sCore,
    x.sCluster, x.substMax,
    word (s.pkg.quiet % 16 * 4096 + packBits 1 (s.dies.map (fun d => flag d.up)) % 16 * 256 + flag (s.hub 1).up * 128
      + flag (s.hub 0).up * 64 + flag s.faultPin * 32 + flag (!s.maps.subst.isEmpty) * 16),
    word s.activeMask, word s.queuedMask ]

/-- Pair states (R431). -/
def PairSt.code : PairSt → Nat
  | .unpaired => 0
  | .joining => 1
  | .paired => 2
  | .suspect => 3
  | .solo => 4
  | .diverged => 5

/-- PAIR (R444). -/
def State.pairWords (s : State) : List Word :=
  let p := s.pair
  let x := p.regs
  [ x.event, x.miss, x.lost, x.rejoin, x.strike, x.dual, x.diverge,
    word (p.st.code * 16 + s.pkg.pairRole % 2 * 8 + flag p.leader * 4 + flag p.heardB * 2 + flag p.heardA),
    word (s.pair.unconf.filter (fun x => decide (at' x 1 0 ≤ 1))).length, x.takeover ]

/-- Cluster states in two bits. -/
def ClSt.code : ClSt → Nat
  | .off => 0
  | .doze => 1
  | .idle => 2
  | .run => 3

/-- YOKE (R409). -/
def State.yokeWords (s : State) : List Word :=
  let y := s.yoke
  let x := y.regs
  let p := s.profile.power
  [ x.event, x.cal, x.overs, x.twarn, x.tlimit, x.step, x.takeover, word (y.envelope / 1000000 % 65536),
    word (y.target / 1000 % 65536), word (s.drawTotal / 1000 % 65536),
    word ((s.dies.map (·.ballast)).foldl (· + ·) 0 / 1000 % 65536), word p.ceiling, word p.floor,
    word (p.ceiling * p.slew / 1000), x.powerWait, x.powerHold, x.combWait, x.shortfall, word s.pkg.aon, s.pkg.timeHi ]
    ++ tabulate 4 (fun d => word (packBits 2 (tabulate 9 (fun c => (s.cl d c).st.code))))
    ++ tabulate 6 (fun d => word (at' y.temps d 0 % 256))
    ++ [ word (p.vmargin * 65536 + (s.die 0).vset), x.dozes, x.wakes ]

/-- GRAZER (R469): the ring of reports begins at word 256. -/
def State.grazerWord (s : State) (i : Nat) : Word :=
  let x := s.grazer.regs
  let age := if s.grazer.started then (s.pkg.aon + 2 ^ 64 - s.grazer.roundStart) % 2 ^ 64 / 100000 else 0
  if 256 ≤ i ∧ i < 512 then at' (at' x.ring ((i - 256) / 4) []) (i % 4) 0
  else at' ([ x.event, x.fail, x.overrun, x.stop, x.slices, x.rounds, word age ] ++ x.cov ++ x.last
    ++ [ x.lastMs, word s.profile.power.budget, word x.head ]) i 0

/-- The planes of the package in state `st`. -/
def State.planesIn (s : State) (st : PlaneSt) : Nat :=
  (s.cores.map (fun c => (c.2.engines.map (fun g => (g.2.planes.filter (fun p => p.2.st == st)).length)).foldl (· + ·) 0)).foldl
    (· + ·) 0

/-- INSTALL (R339). -/
def State.installWords (s : State) : List Word :=
  let x := s.inst
  [ word s.placements.length, word (s.planesIn .live), word (s.planesIn .fenced), word s.openBulk.length,
    word ((s.poolSize - s.poolUsed) / 1048576), x.commits, x.refused, x.fenceWaits, x.redirects, x.requeues, x.lostEvent,
    x.lostCount ]

/-- The states of an NVM transfer (R548). -/
def XferSt.code : XferSt → Nat
  | .idle => 0
  | .receiving => 1
  | .programming => 2
  | .done => 3
  | .failed => 4

/-- MGMT (R548). -/
def State.mgmtWords (s : State) : List Word :=
  let x := s.mgmt
  [ x.event, x.refused, x.drops, x.reads, x.commands, quarter x.challenge 0, quarter x.challenge 1, quarter x.challenge 2,
    quarter x.challenge 3, x.lastCmd, word (s.nvm.xfer.st.code * 2 ^ 28 + s.nvm.xfer.target % 16 * 2 ^ 24),
    word s.nvm.xfer.cursor ]

/-- FOLD of hub `h` (R375). -/
def State.foldWords (s : State) (h : Nat) : List Word :=
  let x := (s.hub h).fold
  [ x.event, x.repairs, x.lost, x.rackDrop, word s.entries.length,
    word (s.streams.filter (fun p => p.2.st != .closed)).length, word s.pkg.cseq, word (s.pkg.cseq / 2 ^ 32), x.accepts,
    x.dups ] ++ tabulate 8 (fun i => at' x.refuse i 0)
    ++ [ x.results, x.resends, x.replays, x.requeues, x.withheld, x.cancelled, x.admitMax, word ((s.hub h).backlog / 1024) ]

/-- Bank states in two bits (R207). -/
def BankSt.code : BankSt → Nat
  | .off => 0
  | .retention => 1
  | .on => 2
  | .waking => 3

/-- DSM of die `d` (R207). -/
def State.dsmWords (s : State) (d : Nat) : List Word :=
  let x := at' s.dsm d (Dsm.fresh true)
  let cd (w : Word) : Word := if d < 4 then w else 0
  let rdw := s.profile.work.dsmRdwOld
  let vers := (s.routines.flatMap (fun r => r.versions)).filter (fun v => v.onDie d)
  [ x.err, x.eccCorr, x.eccUncorr, x.denied ]
    ++ tabulate 4 (fun i => word (packBits 2 (tabulate 16 (fun n =>
      if x.banks.length ≤ 16 * i + n then 0 else (s.bankState d (16 * i + n)).code))))
    ++ [ cd (word rdw), cd (word (rdw / 2 ^ 32)), cd (word (s.rsFree d)), cd (word vers.length), word s.pkg.epoch,
      cd x.commits, cd x.freed, x.refused, if d < 4 then 0 else x.wipes ] ++ x.conflicts

/-- REPAIR of die `d` (R470). -/
def State.repairWords (s : State) (d : Nat) : List Word :=
  let x := s.rep d
  [ x.event, x.soft, x.hard, x.rowsOut, x.low, x.burnFail, word x.records.length,
    word ((x.spares.map (·.2)).foldl (· + ·) 0), x.retired ]

/-! ### The blocks of a core -/

/-- ARRAY (R83). -/
def Core.arrayWords (c : Core) : List Word :=
  let x := c.arr
  [ x.bwEvent, x.bwCount, x.transient, x.reprogram, x.colSubst, x.defectEvent, x.defectCount ]
    ++ tabulate 4 (fun m => word (packBits 4 (tabulate 8 (fun i => (c.engine (8 * m + i)).spareCols))))

/-- Sheet states in two bits (R180). -/
def SheetSt.code : SheetSt → Nat
  | .off => 0
  | .retention => 1
  | .on => 2
  | .waking => 3

/-- SPAD (R180). -/
def State.spadWords (s : State) (k : Nat) : List Word :=
  let c := s.core k
  let x := c.sp
  let power (l : List SheetSt) : Word := word (packBits 2 (l.map (·.code)))
  [ x.err, x.conflictCount, x.eccCorr, x.eccUncorr, x.conflictLast, power (c.mem.sheets.take 16), power (c.mem.sheets.drop 16),
    word (flag s.profile.work.conflictHalt * 2 + flag (c.live && x.rdwOld)), x.wakeCount ]

/-- Physical column `n` of those passed over (R534). -/
def Engine.passedOver (g : Engine) (n : Nat) : Nat := at' g.skipped n 0x1FF

/-- MAP (R534): the columns begin at word 16. -/
def State.mapWords (s : State) (k : Nat) : List Word :=
  let cols (i : Nat) : Word :=
    let g := (s.core k).engine (i / 2)
    word (g.passedOver (i % 2 * 2) + g.passedOver (i % 2 * 2 + 1) * 512)
  word (s.pcOf k % 16 * 4096 + s.physCore k % 32) ::
    (tabulate 8 (fun n => word (packBits 8 (tabulate 4 (fun b => s.physEngine k (4 * n + b))))) ++ List.replicate 7 0
      ++ tabulate 64 cols)

/-- Block `n` of core `k`: ARRAY, ACCUM, SPAD, TREG, HALT, DROVER, VECTOR, MAP. -/
def State.coreWords (s : State) (k n : Nat) : List Word :=
  let c := s.core k
  let p := c.prog
  match n with
  | 0 => c.arrayWords
  | 1 => [c.arr.drainWait, c.arr.boundExt]
  | 2 => s.spadWords k
  | 3 => [c.sp.tregErr, c.sp.parityCount, c.sp.portWait]
  | 4 => [p.progCount, p.hwCount, p.waitCount, p.lastHw, p.stopCount]
  | 5 => [p.macros, p.zeroLen, p.penWait, p.coalesced]
  | 6 => [p.vecMacros, p.issueCycles, p.interlock]
  | _ => s.mapWords k

/-- Word `i` of a block: 0 beyond its registers (R531). -/
def State.readBlock (s : State) (b : Block) (i : Nat) : Word :=
  match b with
  | .package 0 => at' s.idWords i 0
  | .package 1 => at' s.trustWords i 0
  | .package 2 => at' s.faultWords i 0
  | .package 3 => at' s.pairWords i 0
  | .package 4 => at' s.yokeWords i 0
  | .package 5 => s.grazerWord i
  | .package 6 => at' s.installWords i 0
  | .package _ => at' s.mgmtWords i 0
  | .fold h => at' (s.foldWords h) i 0
  | .dsm d => at' (s.dsmWords d) i 0
  | .repair d => at' (s.repairWords d) i 0
  | .core k n => at' (s.coreWords k n) i 0

/-! ### Reading (R8, R398, R539, R540) -/

/-- What the read of a word changes: the two RC registers are cleared, and `YOKE.TIME_LO` latches `YOKE.TIME_HI`. -/
def State.readEffect (s : State) (b : Block) (i : Nat) : State :=
  match b, i with
  | .fold h, 24 => s.modFold h (fun r => { r with admitMax := 0 })
  | .package 2, 12 => s.modFlt (fun r => { r with substMax := 0 })
  | .package 4, 18 => { s with pkg := { s.pkg with timeHi := word (s.pkg.aon / 2 ^ 32) } }
  | _, _ => s

/-- Words read one after another. -/
def State.readWords (s : State) : List (Block × Nat) → State × List Nat
  | [] => (s, [])
  | x :: r =>
    let w := (s.readBlock x.1 x.2).toNat
    let t := (s.readEffect x.1 x.2).readWords r
    (t.1, w :: t.2)

/-! ### Clearing (R545) -/

/-- The W1C register at an address: its block, its word and the bits that it has. -/
def w1cMask (b : Block) (i : Nat) : Option Nat :=
  match b, i with
  | .package 0, 14 => some 0x1F
  | .package 1, 0 => some 0xF
  | .package 2, 0 => some 0x7F
  | .package 3, 0 => some 0x3F
  | .package 4, 0 => some 0x3F
  | .package 5, 0 => some 0x7
  | .package 6, 10 => some 0x1
  | .package 7, 0 => some 0x3
  | .fold _, 0 => some 0x7
  | .dsm _, 0 => some 0x7
  | .repair _, 0 => some 0x1F
  | .core _ 0, 0 => some 0x1
  | .core _ 0, 5 => some 0x1
  | .core _ 2, 0 => some 0x7
  | .core _ 3, 0 => some 0x1
  | _, _ => none

/-- The bits of a mask cleared. -/
def clearBits (w : Word) (mask : Nat) : Word := w &&& ~~~(word mask)

/-- A W1C register with the bits of a mask cleared; no counter changes. -/
def State.clearAt (s : State) (b : Block) (i m : Nat) : State :=
  match b, i with
  | .package 0, _ => { s with idr := { s.idr with event := clearBits s.idr.event m } }
  | .package 1, _ => { s with trust := { s.trust with event := clearBits s.trust.event m } }
  | .package 2, _ => s.modFlt (fun r => { r with event := clearBits r.event m })
  | .package 3, _ => { s with pair := { s.pair with regs := { s.pair.regs with event := clearBits s.pair.regs.event m } } }
  | .package 4, _ => { s with yoke := { s.yoke with regs := { s.yoke.regs with event := clearBits s.yoke.regs.event m } } }
  | .package 5, _ =>
    { s with grazer := { s.grazer with regs := { s.grazer.regs with event := clearBits s.grazer.regs.event m } } }
  | .package 6, _ => { s with inst := { s.inst with lostEvent := clearBits s.inst.lostEvent m } }
  | .package _, _ => { s with mgmt := { s.mgmt with event := clearBits s.mgmt.event m } }
  | .fold h, _ => s.modFold h (fun r => { r with event := clearBits r.event m })
  | .dsm d, _ => s.modDsm d (fun x => { x with err := clearBits x.err m })
  | .repair d, _ => s.modRep d (fun x => { x with event := clearBits x.event m })
  | .core k 0, 0 => s.modArr k (fun r => { r with bwEvent := clearBits r.bwEvent m })
  | .core k 0, _ => s.modArr k (fun r => { r with defectEvent := clearBits r.defectEvent m })
  | .core k 2, _ => s.modCore k (fun c => { c with sp := { c.sp with err := clearBits c.sp.err m } })
  | .core k _, _ => s.modCore k (fun c => { c with sp := { c.sp with tregErr := clearBits c.sp.tregErr m } })

end Sys2Proof.Machine
end

