-- ==== Sys2Proof/Machine/Mgmt.lean ====
section
/-! DEFINITION. Management frames (17 R535 to R548): reads, the owner's commands, NVM transfers, and the trust
operations (15 R476 to R486, R492 to R500). -/
namespace Sys2Proof.Machine
open Sys2Proof

/-! ### Requests (R535, R536) -/

/-- `s` with the MGMT registers changed. -/
def State.modMgmt (s : State) (f : MgmtRegs → MgmtRegs) : State := { s with mgmt := f s.mgmt }

/-- A MGMT frame discarded. -/
def State.dropMgmt (s : State) : State := s.modMgmt (fun r => { r with event := setBit r.event 1, drops := inc r.drops })

/-- READ, COMMAND and NVM-DATA go under the management session or a live one. -/
def State.mgmtSession (s : State) (tsid : Nat) : Bool := tsid == 0xFFFD || (s.session? tsid).isSome

/-- The trust operations go under the open session or a live one. -/
def State.trustSession (s : State) (tsid : Nat) : Bool := tsid == 0xFFFE || (s.session? tsid).isSome

/-- The operations of R537. -/
def mopDefined (mop : Nat) : Bool := [0x01, 0x10, 0x11, 0x40, 0x41, 0x42, 0x43].contains mop

/-- The answer to a request: a status and the reply fields. -/
def State.answerMgmt (s : State) (m : MgmtIn) (status : Nat) (fields : List Byte) : State :=
  s.mgmtReply m.port m.addr m.tsid m.mop m.mtag status fields

/-- The reply field of a status that is not OK: the codes of R538 have one, those of R477 none (DEDUCED, log 125). -/
def errField (status v : Nat) : List Byte := if 9 ≤ status then beBytes 4 v else []

/-- BUSY or INVALID for a request that goes no further; a reply to NVM-DATA carries the cursor (R477, R537, R546). -/
def State.turnAway (s : State) (m : MgmtIn) (status : Nat) : State :=
  s.answerMgmt m status (if m.mop = 0x11 then beBytes 4 s.nvm.xfer.cursor else [])

/-- A request of operation `mop`. It is discarded where no segment of the transport arrives, when its tag fails, when it is
a reply, or under a session that may not carry it; a reserved operation goes under a live session only. It is answered BUSY
beyond the limits of R477 and R537, and INVALID with a reserved operation, a field that breaks R342, a body of another length
or a reserved field set (R6, R7, R476, R535; DESIGN CHOICE, log 105). A request of a defined operation is that operation's row,
with the fields of its body as operands: `own`. -/
def State.request (s : State) (m : MgmtIn) (mop : Nat) (allowed own : Bool) (f : State → State) : State :=
  if !(s.takes m.port m.wire) then s.discard m.port m.wire
  else if m.hdr.kind ≠ 6 ∨ (mopDefined m.mop ∧ m.mop ≠ mop) then s
  else if !m.auth || m.mdir == 1 || !(if mopDefined m.mop then allowed else (s.session? m.tsid).isSome) then s.dropMgmt
  else if m.busy ∧ m.mop ≠ 0x43 then s.turnAway m 1
  else if !(mopDefined m.mop) || !m.valid then s.turnAway m 6
  else if own then f s else s

/-! ### READ (R539, R540) -/

/-- The addresses of `n` words from `a`. -/
def wordAddrs (a n : Nat) : List Nat := tabulate n (fun i => a + 4 * i)

/-- The fields of a READ's reply: address, count, the words (R539). -/
def readFields (a n : Nat) (words : List Nat) : List Byte := fieldBytes [(4, a), (2, n), (2, 0)] ++ words.flatMap (beBytes 4)

/-- A READ answered (R540). -/
def State.readReply (s : State) (m : MgmtIn) (a n : Nat) : State :=
  let l := wordAddrs a n
  if a % 4 ≠ 0 ∨ n < 1 ∨ 2048 < n then s.answerMgmt m 6 []
  else match l.find? (fun x => (blockAt x).isNone) with
    | some x => s.answerMgmt m 9 (beBytes 4 x)
    | none =>
      match l.find? (fun x => !((blockAt x).any (fun b => s.blockUp b.1))) with
      | some x => s.answerMgmt m 0x0A (beBytes 4 x)
      | none =>
        let r := s.readWords (l.filterMap blockAt)
        (r.1.modMgmt (fun x => { x with reads := inc x.reads })).answerMgmt m 0 (readFields a n r.2)

/-- A READ request. -/
def State.readFrame (s : State) (m : MgmtIn) (a n : Nat) : State :=
  s.request m 1 (s.mgmtSession m.tsid) (m.reads a n) (fun s => s.readReply m a n)

/-- MGMT_READ (R539). -/
def execMgmtRead (m : MgmtIn) (addr count : Nat) (s : State) : Host.Outcome State Fault Refusal :=
  answer (portOk m.port) (s.readFrame m addr count)

/-- ADMIT_MAX_READ: FOLD.ADMIT_MAX of a hub is returned and cleared (R375). -/
def execAdmitMaxRead (m : MgmtIn) (hub : Nat) (s : State) : Host.Outcome State Fault Refusal :=
  answer (portOk m.port && hubOk hub) (s.readFrame m (0x100000 + 0x1000 * hub + 0x60) 1)

/-- SUBST_MAX_READ: FAULT.SUBST_MAX is returned and cleared (R443). -/
def execSubstMaxRead (m : MgmtIn) (s : State) : Host.Outcome State Fault Refusal :=
  answer (portOk m.port) (s.readFrame m 0x2030 1)

/-- TIME_LO_READ: YOKE.TIME_LO is returned, and YOKE.TIME_HI latched (R398). -/
def execTimeLoRead (m : MgmtIn) (s : State) : Host.Outcome State Fault Refusal :=
  answer (portOk m.port) (s.readFrame m 0x4048 1)

/-! ### Commands (R541 to R544) -/

/-- Where a command is allowed besides normal service (R544): during QUIET, a warm restart, a held start. -/
structure QCol where
  quiet : Bool
  warm  : Bool
  held  : Bool

/-- The present circumstances allow the command (R541 check 1). -/
def State.qAllows (s : State) (q : QCol) : Bool :=
  match s.pkg.phase with
  | .running => s.pkg.quiet == 0 || q.quiet
  | .warm | .dozing => q.warm
  | .held => q.held
  | _ => true

/-- The outcome of a command's checks 6 and 7 and its effect: a state, the status, the reply's fields, and whether the
reply waits. -/
structure CmdOut where
  st     : State
  status : Nat
  fields : List Byte
  later  : Bool

/-- A command refused with its state unchanged. -/
def refused (s : State) (status field : Nat) : CmdOut := ⟨s, status, errField status field, false⟩

/-- A command done. -/
def done (s : State) (fields : List Byte) : CmdOut := ⟨s, 0, fields, false⟩

/-- A command that passed check 5: the challenge is replaced, and its code and status are recorded (R542, R543). -/
def State.recordCmd (s : State) (code status : Nat) : State :=
  let s1 := s.modMgmt (fun r => { r with
    challenge := Config.drbg s.pkg.free % 2 ^ 128, commands := inc r.commands
    lastCmd := word (code * 65536 + status * 256)
    event := if status = 0 then r.event else setBit r.event 0
    refused := if status = 0 then r.refused else inc r.refused })
  { s1 with pkg := { s1.pkg with free := s.pkg.free + 1 } }

/-- A trust operation or command refused AUTH_FAIL (R503, R541). -/
def State.countAuthFail (s : State) : State :=
  { s with trust := { s.trust with event := setBit s.trust.event 1, authFail := inc s.trust.authFail } }

/-- The command codes of R544. -/
def cmdDefined (cmd : Nat) : Bool :=
  [0x01, 0x10, 0x11, 0x12, 0x13, 0x20, 0x30, 0x31, 0x40, 0x41, 0x42, 0x43].contains cmd

/-- A COMMAND of code `code`, whose life-cycle states, Q column and signer R544 gives; `f` makes checks 6 and 7 and has the
effect (R541). A command code that R544 does not define is answered INVALID (R7), and a defined one is its own row, with the
arguments of its envelope as operands: `own`. The reply leaves before a restart or a transition begins (R544). -/
def State.command (s : State) (e : Envelope) (code : Nat) (states : List Nat) (q : QCol) (signer : Option Nat) (own : Bool)
    (f : State → CmdOut) (after : State → State) : State :=
  s.request e.req 0x10 (s.mgmtSession e.req.tsid) true (fun s =>
    let no (s : State) (n : Nat) : State := s.answerMgmt e.req n (errField n 0)
    if !(cmdDefined e.cmd) then no s 6
    else if e.cmd ≠ code then s
    else if !(states.contains s.fuses.lcs) then no s 3
    else if !(s.qAllows q) then no s 8
    else if e.serial ≠ s.fuses.serial then no s 6
    else if e.chal ≠ s.mgmt.challenge then no s 0x0B
    else if some e.signer ≠ signer then no s 2
    else if !e.sigOk then (no s 2).countAuthFail
    else if e.lenOk && !own then s
    else
      let o := if e.lenOk then f s else refused s 6 0
      let s1 := o.st.recordCmd code o.status
      let s2 := if o.later then s1 else s1.answerMgmt e.req o.status o.fields
      if o.status = 0 then after s2 else s2)

/-- Allowed nowhere but in normal service. -/
def qNo : QCol := ⟨false, false, false⟩
/-- Allowed everywhere. -/
def qYes : QCol := ⟨true, true, true⟩
/-- Allowed in a held start only. -/
def qHeld : QCol := ⟨false, false, true⟩
/-- Allowed in QUIET only. -/
def qQuiet : QCol := ⟨true, false, false⟩

/-- An owner's command. -/
def State.ownerCmd (s : State) (e : Envelope) (code : Nat) (q : QCol) (own : Bool) (f : State → CmdOut) (after : State → State) :
    State :=
  s.command e code [3] q s.fuses.owner own f after

/-! ### CLEAR (R545) -/

/-- The entries of a CLEAR with a mask on a reserved bit of its register. -/
def maskBad (p : Nat × Nat) : Bool :=
  match (blockAt p.1).bind (fun b => w1cMask b.1 b.2) with
  | some m => (p.1 % 4 == 0) && decide (p.2 &&& m ≠ p.2)
  | none => false

/-- A CLEAR names a W1C register. -/
def isW1C (a : Nat) : Bool := (a % 4 == 0) && ((blockAt a).bind (fun b => w1cMask b.1 b.2)).isSome

/-- CLEAR: checks 6 and 7, then every entry in order. -/
def State.clearAll (s : State) (pairs : List (Nat × Nat)) : CmdOut :=
  if pairs.length < 1 ∨ 64 < pairs.length ∨ pairs.any maskBad then refused s 6 0
  else match pairs.find? (fun p => !(isW1C p.1)) with
    | some p => refused s 9 p.1
    | none =>
      match pairs.find? (fun p => !((blockAt p.1).any (fun b => s.blockUp b.1))) with
      | some p => refused s 0x0A p.1
      | none => done (pairs.foldl (fun s p => match blockAt p.1 with
          | some b => s.clearAt b.1 b.2 p.2
          | none => s) s) []

/-- CLEAR (R545). -/
def execClear (e : Envelope) (pairs : List (Nat × Nat)) (s : State) : Host.Outcome State Fault Refusal :=
  answer (portOk e.req.port) (s.ownerCmd e 1 qYes (pairs == e.pairs) (fun s => s.clearAll pairs) id)

/-! ### Restarts, profiles and firmware -/

/-- The warm restart that the owner commands; it leaves QUIET of cause 3 or 5 (R423). -/
def State.ownerRestart (s : State) : State :=
  if s.pkg.phase = .running then
    { s with pkg := { s.pkg with leaving := s.pkg.quiet == 3 || s.pkg.quiet == 5 } }.beginWarm
  else s

/-- WARM_RESTART (R527). -/
def execWarmRestart (e : Envelope) (s : State) : Host.Outcome State Fault Refusal :=
  answer (portOk e.req.port) (s.ownerCmd e 0x10 qQuiet true (fun s => done s []) State.ownerRestart)

/-- An activity of code 7 or 8 queued, or running at once when nothing forbids it (R439, R441). -/
def State.queueActivity (s : State) (e : Envelope) (code slot : Nat) : State :=
  { s with
    maint := s.maint ++ [⟨s.nextAct, code, 0, 0, 0, s.mayRun ⟨code, packageTarget⟩ && !s.reprogramming,
      e.req.port, e.req.addr, e.req.tsid, e.req.mtag, slot⟩]
    nextAct := s.nextAct + 1 }

/-- USE-PROFILE: a held start resumes with a profile that passes; otherwise the activity is queued, in place of an earlier
one (R524, R525). -/
def State.useProfile (s : State) (e : Envelope) (slot : Nat) : CmdOut :=
  if 4 ≤ slot then refused s 6 0
  else if s.pkg.phase = .held then
    match s.profOk slot with
    | none => refused s 0x11 0
    | some p =>
      let s1 := (s.inForce slot p).settle'
      done { s1 with pkg := { s1.pkg with phase := .starting } } []
  else
    let s1 := (s.maint.filter (fun a => a.code == 7)).foldl (fun s a => s.abandon a) s
    ⟨s1.queueActivity e 7 slot, 0, [], true⟩

/-- USE_PROFILE (R524). -/
def execUseProfile (e : Envelope) (slot : Nat) (s : State) : Host.Outcome State Fault Refusal :=
  answer (portOk e.req.port) (s.ownerCmd e 0x11 qHeld (slot == beAt e.args 0 1) (fun s => s.useProfile e slot) id)

/-- ACTIVATE_FIRMWARE (R544). -/
def execActivateFirmware (e : Envelope) (slot : Nat) (s : State) : Host.Outcome State Fault Refusal :=
  answer (portOk e.req.port) (s.ownerCmd e 0x12 qNo (slot == beAt e.args 0 1)
    (fun s => if 2 ≤ slot then refused s 6 0 else ⟨s.queueActivity e 8 slot, 0, [], true⟩) id)

/-- RAISE_SVN: the new floor is at most the running image's `SVN` (R501). -/
def execRaiseSvn (e : Envelope) (floor : Nat) (s : State) : Host.Outcome State Fault Refusal :=
  answer (portOk e.req.port) (s.ownerCmd e 0x13 qNo (floor == beAt e.args 0 1)
    (fun s => if s.pkg.fwSvn < floor then refused s 0x0C 1
      else done { s with fuses := { s.fuses with svnFloor := max s.fuses.svnFloor floor } } []) id)

/-! ### The NVM (R546) -/

/-- The target is in force: a slot that runs, or that a USE-PROFILE not yet in effect names. -/
def State.slotInForce (s : State) (target : Nat) : Bool :=
  ((target == 1 || target == 2) && s.pkg.fwSlot == target - 1) ||
    (decide (3 ≤ target) && ((!s.pkg.profNone && s.pkg.profSlot == target - 3) || s.pkg.usePending == some (target - 3) ||
      s.maint.any (fun a => a.code == 7 && a.arg == target - 3)))

/-- NVM-BEGIN. -/
def State.nvmBegin (s : State) (target len digest : Nat) : CmdOut :=
  if 7 ≤ target ∨ (target = 0 ∧ len ≠ 68) ∨ (target ≠ 0 ∧ regionSize target < len) then refused s 6 0
  else if s.slotInForce target then refused s 0x10 target
  else if s.nvm.xfer.st = .programming then refused s 1 0
  else done { s with nvm := { s.nvm with xfer := ⟨.receiving, target, len, digest, 0, []⟩ } } []

/-- NVM_BEGIN (R546). -/
def execNvmBegin (e : Envelope) (target len digest : Nat) (s : State) : Host.Outcome State Fault Refusal :=
  answer (portOk e.req.port) (s.ownerCmd e 0x20 qHeld (target == beAt e.args 0 1 && len == beAt e.args 4 4 && digest == beAt e.args 8 64) (fun s => s.nvmBegin target len digest) id)

/-- The bytes of a transfer: a slot's are followed by its signature block. -/
def Xfer.total (x : Xfer) : Nat := if x.target = 0 then x.len else x.len + 4096

/-- Data staged at the cursor; with the last byte the digest is compared, and the region is erased for programming. -/
def State.stageNvm (s : State) (x : Xfer) (data : List Byte) : State × Nat × Nat :=
  let y := { x with data := x.data ++ data, cursor := x.cursor + data.length }
  let put (y : Xfer) : State := { s with nvm := { s.nvm with xfer := y } }
  if y.cursor < y.total then (put y, 0, y.cursor)
  else if shaOf y.data = y.digest then
    ({ s with nvm := { s.nvm.erase y.target with xfer := { y with st := .programming } } }, 0, y.cursor)
  else (put { y with st := .failed }, 0x0F, 0)

/-- NVM-DATA against the cursor, as R326 handles a BURST; `some` status, and the reply's field. -/
def State.nvmData (s : State) (offset : Nat) (data : List Byte) : State × Nat × Nat :=
  let x := s.nvm.xfer
  if data.length < 1 ∨ 8192 < data.length then (s, 6, x.cursor)
  else if x.st ≠ .receiving then (s, 0x0C, x.cursor)
  else if x.total < offset + data.length then (s, 6, x.cursor)
  else if offset = x.cursor then s.stageNvm x data
  else if offset + data.length ≤ x.cursor then (s, 0, x.cursor)
  else (s, 0x0E, x.cursor)

/-- NVM_DATA (R546). -/
def execNvmData (m : MgmtIn) (offset : Nat) (data : List Byte) (s : State) : Host.Outcome State Fault Refusal :=
  answer (portOk m.port) (s.request m 0x11 (s.mgmtSession m.tsid) (offset == beAt m.fields 0 4 && data == m.fields.drop 16) (fun s =>
    let r := s.nvmData offset data
    r.1.answerMgmt m r.2.1 (beBytes 4 r.2.2)))

/-- NVM_PROGRAM_DONE: the region holds the image, or the transfer has failed (R546 step 4). -/
def execNvmProgramDone (ok sigOk cakOk : Bool) (s : State) : Host.Outcome State Fault Refusal :=
  answer true (
    let x := s.nvm.xfer
    if x.st ≠ .programming then s
    else if ok then
      let n := s.nvm.program s.fuses.part s.fuses.serial ⟨x.target, x.data, sigOk, cakOk⟩
      { s with nvm := { n with xfer := { x with st := .done } } }
    else { s with nvm := { s.nvm with xfer := { x with st := .failed } } })

/-! ### The pair (R425, R436, R547) -/

/-- A stream is OPEN or CLOSING. -/
def State.streamsLive (s : State) : Bool := s.streams.any (fun p => p.2.st != .closed)

/-- The index of the first condition of R425 that a binding fails. -/
def State.bindFails (s : State) (partner : List Nat) : Option Nat :=
  if s.pair.st ≠ .unpaired then some 1
  else if !s.placements.isEmpty ∨ s.streamsLive then some 2
  else if at' partner 3 0 ≠ s.fuses.part ∨ at' partner 4 0 ≠ s.pkg.fwDigest ∨ at' partner 5 0 ≠ s.pkg.profDigest then some 3
  else none

/-- The package is bound: the seed is burned, and it is JOINING; the PRIMARY leads (R426, R547). -/
def State.bindTo (s : State) (seed : Nat) (partner : List Nat) : State :=
  { s with
    fuses := { s.fuses with pairSeed := some seed, bindings := s.fuses.bindings + 1 }
    secure := { s.secure with pwrap := true }
    pair := { s.pair with
      st := .joining, bound := true, fresh := true, leader := s.pkg.pairRole == 0, partner := partner, peerBoot := none, peerHigh := 0, peerSeen := []
      retired := [], heardSinceCold := false, misses := 0, syncTo := none } }

/-- PAIR-BIND; `partner` lists `SERIAL`, certificate digest, `DWRAP`, `ID_PART`, `FWDIG` and `PROFDIG` of the partner. The
PRIMARY draws the seed and returns it wrapped; the SECONDARY unwraps it (R547). -/
def State.pairBind (s : State) (partner : List Nat) (wseed : Nat) (unwrapOk : Bool) : CmdOut :=
  let primary := s.pkg.pairRole == 0
  if primary != (wseed == 0) then refused s 0x0C 1
  else if !primary && !unwrapOk then refused s 2 0
  else match s.bindFails partner with
    | some n => refused s 0x0C n
    | none =>
      if 16 ≤ s.fuses.bindings then refused s 0x0D 0
      else if primary then
        let o : State := { s with pkg := { s.pkg with free := s.pkg.free + 2 } }
        done (o.bindTo (Config.drbg s.pkg.free % 2 ^ 256) partner) (beBytes 512 (Config.openValue 25 (s.pkg.free + 1) (at' partner 2 0)))
      else done (s.bindTo (Config.openValue 26 0 wseed % 2 ^ 256) partner) []

/-- PAIR_BIND (R547). -/
def execPairBind (e : Envelope) (partner : List Nat) (wseed : Nat) (unwrapOk : Bool) (s : State) :
    Host.Outcome State Fault Refusal :=
  answer (portOk e.req.port) (s.ownerCmd e 0x30 qNo (partner == e.partner && wseed == beAt e.args 724 512) (fun s => s.pairBind partner wseed unwrapOk) id)

/-- The fields of the reply to a SESSION-OPEN (R477). -/
def sessionFields (tsid tenant : Nat) : List Byte := fieldBytes [(2, tsid), (16, tenant)]

/-- Nothing waits for the partner any more: sessions and commits of objects are answered (R331, R485). -/
def State.partnerGone (s : State) : State :=
  let s1 := (s.secure.sessions.filter (·.waits.isSome)).foldl (fun s x => match x.waits with
    | some w => s.mgmtReply w.1 w.2.1 x.tsid 0x42 w.2.2 0 (sessionFields x.tsid x.tenant)
    | none => s) s
  let s2 := s.pair.replies.foldl (fun s r => s.replyLater (r.drop 2) (at' r 1 0) 0 0) s1
  { s2 with
    secure := { s2.secure with sessions := s2.secure.sessions.map (fun x => { x with waits := none }) }
    commits := s2.commits.map (fun c => { c with needPeer := false })
    pair := { s2.pair with unconf := [], replies := [], releases := [], syncTo := none, failedObj := false, segs := [],
                           parcels := [], own := [], peer := [] } }

/-- The package is UNPAIRED: it keeps its Fold, runs every stream itself, waits for no partner, and leaves QUIET of cause 7
(R436). -/
def State.unbind (s : State) : State :=
  let s1 := s.partnerGone
  { s1 with
    pair := { s1.pair with st := .unpaired, bound := false, leader := false, partnerLost := false }
    pkg := { s1.pkg with quiet := if s1.pkg.quiet = 7 then 0 else s1.pkg.quiet }
    streams := s1.streams.map (fun p => (p.1, { p.2 with homeHere := true }))
    entries := s1.entries.map (fun x => { x with homeHere := true, away := false }) }

/-- PAIR_UNBIND (R436). -/
def execPairUnbind (e : Envelope) (s : State) : Host.Outcome State Fault Refusal :=
  answer (portOk e.req.port) (s.ownerCmd e 0x31 qYes true
    (fun s => if s.pair.st = .solo ∨ s.pair.st = .diverged ∨ (s.pair.st = .paired ∧ !s.streamsLive) then done s.unbind []
      else refused s 0x0C 1) id)

/-! ### Ownership and life cycle (R492 to R495, R500) -/

/-- Steps 2 to 4 of R495: planes zeroised, the fuses burned, the secure part wiped. -/
def State.burnCycle (s : State) (f : Fuses → Fuses) : State :=
  let s1 := (s.wakeDozing).zeroisePlanes
  { s1 with
    fuses := f s1.fuses
    trust := { s1.trust with event := setBit s1.trust.event 3, lcCount := inc s1.trust.lcCount } }.wipe

/-- Step 5 of R495: the package makes a cold start, from the point where its clocks stop. -/
def State.toColdStart (s : State) : State := { s.stopClocks with pkg := { s.stopClocks.pkg with phase := .down, stopped := 0 } }

/-- TAKE_OWNERSHIP: the voucher verifies under the vendor intermediate key (R493). -/
def execTakeOwnership (e : Envelope) (voucherOk : Bool) (s : State) : Host.Outcome State Fault Refusal :=
  answer (portOk e.req.port) (s.command e 0x40 [1] qNo (some e.signer) true
    (fun s => if !voucherOk then refused s.countAuthFail 2 0
      else done (s.burnCycle (fun x => { x with lcs := 3, owner := some e.signer })) []) State.toColdStart)

/-- ROTATE_OWNER: at most 32 rotations (R499, R500). -/
def execRotateOwner (e : Envelope) (newDigest : Nat) (s : State) : Host.Outcome State Fault Refusal :=
  answer (portOk e.req.port) (s.ownerCmd e 0x41 qNo (newDigest == beAt e.args 0 64)
    (fun s => if 32 ≤ s.fuses.rotations then refused s 0x0D 0
      else done { s with fuses := { s.fuses with
        owner := some newDigest, prevOwner := s.fuses.owner, rotations := s.fuses.rotations + 1 } } []) id)

/-- The index of the first condition of R494 that fails: UNPAIRED, and an empty Fold. -/
def State.leaveFails (s : State) : Option Nat :=
  if s.pair.st ≠ .unpaired then some 1 else if !s.entries.isEmpty ∨ s.streamsLive then some 2 else none

/-- A transition out of OWNED (R494). -/
def State.leaveOwned (s : State) (lcs : Nat) : CmdOut :=
  match s.leaveFails with
  | some n => refused s 0x0C n
  | none => done (s.burnCycle (fun x => { x with lcs := lcs })) []

/-- RETURN (R493, R494). -/
def execReturnPkg (e : Envelope) (s : State) : Host.Outcome State Fault Refusal :=
  answer (portOk e.req.port) (s.ownerCmd e 0x42 qNo true (fun s => s.leaveOwned 7) State.toColdStart)

/-- RETIRE: by the owner in OWNED, by the vendor in RETURNED without a condition (R493). -/
def execRetire (e : Envelope) (s : State) : Host.Outcome State Fault Refusal :=
  answer (portOk e.req.port) (
    if s.fuses.lcs = 7 then
      s.command e 0x43 [3, 7] qNo (some s.fuses.vendor) true (fun s => done (s.burnCycle (fun x => { x with lcs := 15 })) []) State.toColdStart
    else s.command e 0x43 [3, 7] qNo s.fuses.owner true (fun s => s.leaveOwned 15) State.toColdStart)

/-! ### Attestation (R479 to R482) -/

/-- Placements in ascending handle order. -/
def State.byHandle (s : State) : List Placement :=
  (sortedSet (s.placements.map (·.handle))).flatMap (fun h => s.placements.filter (fun p => p.handle == h))

/-- The placement set digest (R481). -/
def State.setDigest (s : State) : Nat := shaOf (s.byHandle.flatMap (fun p => beBytes 2 p.handle ++ beBytes 64 p.digest))

/-- Every plane of the placement is LIVE (R480). -/
def State.allLive (s : State) (p : Placement) : Bool := p.planeKeys.all (fun x => (s.planeAt x).st == .live)

/-- The moduli of the wrapping keys: derived from their seeds, the same each time, and zero while they are not held (R473,
R480; DESIGN CHOICE, log 61). -/
def State.dwrapModulus (s : State) : Nat := if s.secure.dwrap ∧ s.fuses.lcs = 3 then Config.openValue 27 0 s.fuses.serial else 0
def State.pwrapModulus (s : State) : Nat :=
  match s.fuses.pairSeed with
  | some x => if s.secure.pwrap then Config.openValue 28 0 x else 0
  | none => 0

/-- The tallies: rotations, bindings, the `SVN` floor, the hard-repair slots used of each die (R502). -/
def State.tallies (s : State) : List (Nat × Nat) :=
  [(1, s.fuses.rotations), (1, s.fuses.bindings), (1, s.fuses.svnFloor), (1, 0)]
    ++ tabulate 6 (fun d => (2, (s.rep d).records.length)) ++ [(16, 0)]

/-- The report of R480 from its first field to its last entry. -/
def State.reportBody (s : State) (nonce first nlist : Nat) : List Byte :=
  let l := (s.byHandle.filter (fun p => decide (first ≤ p.handle))).take nlist
  fieldBytes ([(4, 0xA7E5), (2, 1), (2, s.fuses.part), (2, 0xB0), (1, s.fuses.lcs),
      (1, s.pair.st.code * 16 + s.pkg.pairRole % 2 * 8), (1, s.pkg.quiet), (1, s.pkg.profSlot), (1, s.pkg.fwSvn), (1, 0),
      (16, s.fuses.serial), (64, nonce), (64, s.pkg.fwDigest), (64, s.pkg.profDigest), (64, s.setDigest)] ++ s.tallies
    ++ [(8, s.pkg.aon), (4, s.placements.length), (2, first), (2, l.length), (48, 0), (512, s.dwrapModulus),
      (512, s.pwrapModulus), (64, s.fuses.owner.getD 0), (64, 0)]
    ++ l.flatMap (fun p => [(2, p.handle), (1, flag (s.allLive p)), (13, 0), (64, p.digest)]))

/-- The report of R480, with its signature (DESIGN CHOICE, log 61). -/
def State.report (s : State) (nonce first nlist : Nat) : List Byte :=
  let b := s.reportBody nonce first nlist
  b ++ beBytes 512 (Config.openValue 29 s.pkg.free (shaOf b))

/-- A request that needs a key waits while a wipe is in progress (R198). -/
def State.withKeys (s : State) (x : HeldReq) (f : State → State) : State :=
  if s.secure.wiping then { s with secure := { s.secure with held := s.secure.held ++ [x] } } else f s

/-- ATTEST answered with a report. -/
def State.attest (s : State) (m : MgmtIn) (nonce first nlist : Nat) : State :=
  let s1 : State := { s with
    trust := { s.trust with attests := inc s.trust.attests }, pkg := { s.pkg with free := s.pkg.free + 1 } }
  s1.answerMgmt m 0 (s.report nonce first nlist)

/-- ATTEST: in every state but BLANK (R479). -/
def execAttest (m : MgmtIn) (nonce first nlist : Nat) (busy : Bool) (s : State) : Host.Outcome State Fault Refusal :=
  answer (portOk m.port) (s.request { m with busy := busy } 0x40 (s.trustSession m.tsid)
      (nonce == beAt m.fields 0 64 && first == beAt m.fields 64 2 && nlist == beAt m.fields 66 2) (fun s =>
    if s.fuses.lcs = 0 then s.answerMgmt m 3 []
    else if 64 < nlist then s.answerMgmt m 6 []
    else s.withKeys (.attest m nonce first nlist) (fun s => s.attest m nonce first nlist)))

/-- The three certificates of the fused chain, each after its length, which leaves room for all in one reply (R475, R477;
DESIGN CHOICE, log 61). -/
def State.certBytes (s : State) : List Byte :=
  (List.range 3).flatMap (fun i =>
    let n := Config.openValue 36 i s.fuses.serial % 2742
    beBytes 4 n ++ beBytes n (Config.openValue 30 i s.fuses.serial))

/-- CERTS (R475, R477). -/
def execCerts (m : MgmtIn) (busy : Bool) (s : State) : Host.Outcome State Fault Refusal :=
  answer (portOk m.port) (s.request { m with busy := busy } 0x41 (s.trustSession m.tsid) true (fun s =>
    if s.fuses.lcs = 0 then s.answerMgmt m 3 []
    else s.answerMgmt m 0 s.certBytes))

/-! ### Sessions (R483 to R486) -/

/-- `TSID` is not in use: no session has it, and no ledger entry names it (R486). -/
def State.tsidFree (s : State) (t : Nat) : Bool :=
  !(s.secure.sessions.any (fun x => x.tsid == t)) && !(s.entries.any (fun e => e.tsid == t))

/-- `WSK` names this package, or, under the pair wrapping key, its partner (R484). -/
def State.namesUs (s : State) (serial : Nat) : Bool :=
  serial == s.fuses.serial || (s.secure.pwrap && s.pair.bound && some serial == s.pair.partner.head?)

/-- A session opened or closed here goes to the partner, with its key and tenant when it opens (R485). -/
def State.keysync (s : State) (x : Session) (opened : Bool) : State :=
  s.sendPair 11 (keysyncFields x.tsid opened) (if opened then beBytes 32 x.key ++ beBytes 16 x.tenant else [])

/-- SESSION-OPEN succeeds: the lowest free `TSID`; in paired mode the reply waits for the partner (R484, R485). -/
def State.openTsid (s : State) (m : MgmtIn) (tenant : Nat) : State :=
  match (tabulate 4096 (· + 1)).find? s.tsidFree with
  | none => s.answerMgmt m 5 []
  | some t =>
    let x : Session := ⟨t, tenant, if s.paired then some (m.port, m.addr, m.mtag) else none, m.sessionKey⟩
    let s1 : State := { s with secure := { s.secure with sessions := s.secure.sessions ++ [x] } }
    if s.paired then (s1.keysync x true).await 0 2 t 0 0
    else (if s.mirrors then s1.keysync x true else s1).mgmtReply m.port m.addr t 0x42 m.mtag 0 (sessionFields t tenant)

/-- No session is opened or closed now (R477, R484). -/
def State.sessionsQuiet (s : State) : Bool := s.pkg.quiet != 0 || s.pkg.phase == .held

/-- The tests of SESSION-OPEN that need keys, and its effect (R484). -/
def State.sessionOpen (s : State) (m : MgmtIn) (tenant wskSerial : Nat) (sigOk unwrapOk : Bool) : State :=
  let no (s : State) (n : Nat) : State := s.answerMgmt m n []
  if s.fuses.lcs ≠ 3 then no s 3
  else if s.sessionsQuiet then no s 8
  else if !sigOk || !unwrapOk || !(s.namesUs wskSerial) then (no s 2).countAuthFail
  else if !s.profile.work.tenantList.isEmpty && !(s.profile.work.tenantList.contains tenant) then no s 4
  else if 4096 ≤ s.secure.sessions.length then no s 5
  else s.openTsid m tenant

/-- SESSION_OPEN (R484). -/
def execSessionOpen (m : MgmtIn) (tenant wskSerial : Nat) (sigOk unwrapOk busy : Bool) (s : State) :
    Host.Outcome State Fault Refusal :=
  answer (portOk m.port) (s.request { m with busy := busy } 0x42 (m.tsid == 0xFFFE) true (fun s =>
    s.withKeys (.sessionOpen m tenant wskSerial sigOk unwrapOk) (fun s => s.sessionOpen m tenant wskSerial sigOk unwrapOk)))

/-- A request that waited for the end of a wipe is answered (R198). -/
def State.answerHeld (s : State) (x : HeldReq) : State :=
  match x with
  | .attest m nonce first nlist => s.attest m nonce first nlist
  | .sessionOpen m tenant wskSerial sigOk unwrapOk => s.sessionOpen m tenant wskSerial sigOk unwrapOk

/-- SECURE_WIPE_DONE: every line of SC is zero, and waiting accesses and requests proceed (R197, R198). -/
def execSecureWipeDone (s : State) : Host.Outcome State Fault Refusal :=
  answer true (s.secure.held.foldl (fun s x => s.answerHeld x)
    { s with secure := { s.secure with wiping := false, held := [] } })

/-- A stream that is OPEN or CLOSING is bound to the session (R477). -/
def State.tsidBound (s : State) (t : Nat) : Bool := s.streams.any (fun p => p.2.st != .closed && p.2.tsid == t)

/-- SESSION_CLOSE: the reply goes under the session before it ends (R486, R544). -/
def execSessionClose (m : MgmtIn) (s : State) : Host.Outcome State Fault Refusal :=
  answer (portOk m.port) (s.request m 0x43 (s.session? m.tsid).isSome true (fun s =>
    let no (n : Nat) : State := s.answerMgmt m n []
    if s.sessionsQuiet then no 8
    else if s.tsidBound m.tsid then no 7
    else
      let s1 := s.answerMgmt m 0 []
      let s2 : State := { s1 with secure := { s1.secure with sessions := s1.secure.sessions.filter (fun x => x.tsid != m.tsid) } }
      if s.mirrors then s2.keysync ⟨m.tsid, 0, none, 0⟩ false else s2))

end Sys2Proof.Machine
end

