-- ==== Sys2Proof/Machine/Pair.lean ====
section
/-! DEFINITION. The redundant pair (13 R425 to R438, 15 R485): PAIR frames received, heartbeats, mirrored commits,
the loss of the partner, the snapshot of a rejoin, and DUAL_RUN. -/
namespace Sys2Proof.Machine
open Sys2Proof

/-! ### Receiving a PAIR frame (R429, R430) -/

/-- The package takes and sends PAIR frames: it is bound, holds the pair link key, and its ports run. -/
def State.pairLive (s : State) : Bool := s.pair.bound && s.secure.pwrap && s.portsLive

/-- The partner counts as lost for R430: it has been declared lost, or not heard since this package's cold start. -/
def State.peerOpen (s : State) : Bool := s.pair.st == .solo || s.pair.st == .diverged || !s.pair.heardSinceCold

/-- `PSEQ` `n` is new under the current `PBOOT` (R430). -/
def Pair.isNew (p : Pair) (n : Nat) : Bool := decide (p.peerHigh ≤ n + 4096) && !(p.peerSeen.contains n)

/-- `PSEQ` `n` is accepted: the record keeps the 4,096 values below the highest. -/
def Pair.take (p : Pair) (n : Nat) : Pair :=
  let high := max p.peerHigh n
  { p with peerHigh := high, peerSeen := (n :: p.peerSeen).filter (fun x => decide (high ≤ x + 4096)) }

/-- A new `PBOOT` replaces the record, and the old one is retired; the last 16 are kept. -/
def Pair.reboot (p : Pair) (boot n : Nat) : Pair :=
  { p with
    peerBoot := some boot, peerHigh := n, peerSeen := [n], syncTo := none, failedObj := false
    retired := (p.retired ++ p.peerBoot.toList).drop ((p.retired ++ p.peerBoot.toList).length - 16) }

/-- The partner is heard: the interval is no miss, and SUSPECT ends with the queued releases sent (R431, R432). -/
def State.hear (s : State) (netB : Bool) : State :=
  let p := { s.pair with
    nowA := s.pair.nowA || !netB, nowB := s.pair.nowB || netB, misses := 0, heardSinceCold := true }
  if s.pair.st = .suspect then
    s.pair.releases.foldl (fun s r => s.sendRecord r) { s with pair := { p with st := .paired, releases := [] } }
  else { s with pair := p }

/-- A PAIR frame of operation `pop`; `ok`: its further fields are defined, and are the row's operands. A repeat is only heard, a new one
has the effect `f`; another `PBOOT` than the recorded one is taken only from a HEARTBEAT, while R430 allows it. -/
def State.pairFrame (s : State) (p : PairIn) (pop : Nat) (ok : Bool) (f : State → State) : State :=
  if !(s.takes p.port p.wire) then s.discard p.port p.wire
  else if !s.pairLive || !(p.is pop) || !ok || s.pair.retired.contains p.pboot then s
  else if s.pair.peerBoot = some p.pboot then
    if s.pair.isNew p.pseq then f ({ s with pair := s.pair.take p.pseq }.hear p.netB) else s.hear p.netB
  else if pop = 1 ∧ s.peerOpen then f ({ s with pair := s.pair.reboot p.pboot p.pseq }.hear p.netB)
  else s

/-- The pair is whole, or this package is joining it: the partner's commits are taken. -/
def State.follows (s : State) : Bool := s.paired || s.pair.st == .joining

/-! ### Bodies (R344, R350) -/

/-- The body of a RUN frame from its parts. -/
def RunBody.bytes (b : RunBody) : List Byte :=
  [0, BitVec.ofNat 8 b.placements.length, BitVec.ofNat 8 b.regions.length, 0] ++ beBytes 4 b.image.length
    ++ beBytes 4 b.input.length ++ beBytes 4 b.rlen ++ beBytes 4 b.dlines ++ beBytes 4 0 ++ beBytes 8 b.wlen
    ++ beBytes 4 b.stopCtx ++ beBytes 4 b.stopIndex ++ beBytes 4 b.stopCount ++ beBytes 4 0
    ++ b.placements.flatMap (beBytes 2)
    ++ List.replicate (16 * ceilDiv (2 * b.placements.length) 16 - 2 * b.placements.length) 0
    ++ b.regions.flatMap (fun r => beBytes 2 r.rank ++ [BitVec.ofNat 8 (flag r.treg), 0] ++ beBytes 4 r.start
      ++ beBytes 4 r.len ++ beBytes 4 0)
    ++ b.image ++ b.input

/-- The segments copied from the partner that belong to a frame. -/
def State.mirrored (s : State) (stream incarn seq : Nat) : List Seg :=
  s.pair.segs.filter (fun x => x.hdr.stream == stream && x.hdr.incarn == incarn && x.hdr.seq == seq)

/-- The operation of a frame whose every segment has been copied here. -/
def State.mirroredOp (s : State) (stream incarn seq : Nat) : Option WorkOp :=
  let l := s.mirrored stream incarn seq
  match l.head? with
  | none => none
  | some x =>
    let body := (List.range x.hdr.segcnt).flatMap (fun i => ((l.find? (fun y => y.hdr.segidx == i)).map (·.body)).getD [])
    if l.length = x.hdr.segcnt then (match parseBody body with
      | .ok op => some op
      | .error _ => none)
    else none

/-- The copied segments of a frame are not needed any more. -/
def State.dropMirrored (s : State) (stream incarn seq : Nat) : State :=
  { s with pair := { s.pair with segs := s.pair.segs.filter (fun x =>
      !(x.hdr.stream == stream && x.hdr.incarn == incarn && x.hdr.seq == seq)) } }

/-- Space for the parcels of a mirrored entry; none of them is kept when the pool cannot hold both (DEDUCED, log 63). -/
def State.mirrorParcels (s : State) (die : Option Nat) (pages : Nat × Nat) : State × Parcel × Parcel :=
  match s.reserve die pages.1 with
  | none => (s, ⟨0, 0, 0, 0, 0⟩, ⟨0, 0, 0, 0, 0⟩)
  | some (s1, a) =>
    match s1.reserve die pages.2 with
    | none => (s, ⟨0, 0, 0, 0, 0⟩, ⟨0, 0, 0, 0, 0⟩)
    | some (s2, b) => (s2, a, b)

/-- The frame runs again from its mirrored input parcel at the commit number at which it was bound (R416, R432). -/
def State.rerunMirrored (s : State) (e : Entry) (b : RunBody) (ep : Nat) : State :=
  let s1 := s.takeRefs e
  match translate false b.image with
  | .error (i, r, d) => s1.failBind e.cseq (bindRecord i r d)
  | .ok (h, prog) =>
    (s1.requeue e.cseq (readyOrder e.cseq) (fun x => { x with
      inputOk := true, status := .done, wreason := 0, payload := []
      frame := { x.frame with
        prog := prog, footprint := hdrFootprint h, rdwOld := hdrRdwOld h, places := b.placements
        cores := frameCores (s.placesAt b.placements ep) } })).moveProgram e.cseq

/-- A frame that runs here, of a home that is elsewhere or lost, starts from its mirrored parcel (R22, R418; DESIGN CHOICE, log 101). -/
def State.runTaken (s : State) (cseq : Nat) : State :=
  match s.entry? cseq with
  | some e =>
    (match e.op, e.epoch with
      | .run b, some ep =>
        if e.away && e.here && e.inputOk && e.frame.prog.isEmpty && !e.ended then s.rerunMirrored e b ep else s
      | _, _ => s)
  | none => s

/-- The body of a mirrored entry arrives: its input is here as a mirrored parcel (R428, R434). -/
def State.fillEntry (s : State) (e : Entry) (op : WorkOp) : State :=
  let s1 := (s.freeParcel e.ipar).freeParcel e.rpar
  let r := s1.mirrorParcels (s.entryDie op) (parcelPages op)
  let s2 := r.1.modEntry e.cseq (fun x => { x with op := op, ipar := r.2.1, rpar := r.2.2, inputOk := true })
  { s2.dropMirrored e.stream e.incarn e.seq with pair := { (s2.dropMirrored e.stream e.incarn e.seq).pair with
      hollow := s2.pair.hollow.filter (· != e.cseq), parcels := s2.pair.parcels.filter (fun p => p.1 != e.cseq) }
    }.runTaken e.cseq

/-! ### PAIR_COMMIT (R428, R429, R434) -/

/-- The entry that a record names. -/
def State.recordEntry (s : State) (r : PairRecord) : Option Entry := s.target? r.stream r.incarn r.seq

/-- A stream as a record gives it. A stream that is new here is the partner's (R427), and the source address of its frames is
not known here (DESIGN CHOICE, log 101). -/
def State.recordStream (s : State) (r : PairRecord) : State :=
  s.modStream r.stream (fun x =>
    let known := x.st != .closed && x.incarn == some r.incarn
    { st := if r.sstate = 0 then .closed else if r.sstate = 1 then .open else .closing
      incarn := some r.incarn, tsid := r.tsid, nextSeq := r.nextSeq, credit := r.credit, outst := r.outst
      homeHere := known && x.homeHere, port := if known then x.port else 0
      addr := if known then x.addr else Config.openValue 34 r.stream r.incarn })

/-- `STATE` by its code; FREE has none. -/
def entrySt (n : Nat) : Option EntrySt :=
  match n with
  | 1 => some .admitted
  | 2 => some .ready
  | 3 => some .running
  | 4 => some .complete
  | 5 => some .sent
  | _ => none

/-- `STATUS` by its code. -/
def resStatus (n : Nat) : ResStatus :=
  match n % 4 with
  | 0 => .done
  | 1 => .failed
  | 2 => .withheld
  | _ => .cancelled

/-- A RUN whose body has not arrived. -/
def RunBody.hollow (r : PairRecord) : RunBody := ⟨[], [], [], r.rlen, 0, 0, 0, 0, 0, []⟩

/-- The operation of a record whose segments are not here. -/
def recordOp (r : PairRecord) : WorkOp :=
  match r.opc with
  | 0 => .run (RunBody.hollow r)
  | 1 => .open r.credit
  | 2 => .cancel 0
  | _ => .close

/-- The result of a CANCEL that is not known here: its body has not been seen (DEDUCED, log 63). -/
def unknownCancel (n : Nat) : List Byte := cancelPayload (Config.openValue 31 n 0 % 3)

/-- A CANCEL of the partner's whose body has been copied acts on its target here, when that runs here (R364). -/
def State.cancelHere (s0 s : State) (e : Entry) (tseq : Nat) : State :=
  match s.target? e.stream e.incarn tseq with
  | some x => if s.cancelCode e.stream e.incarn tseq = 0 ∧ x.here then s0.completeAs x.cseq .cancelled 0 [] else s0
  | none => s0

/-- A record of an entry that is new here; its ACCEPT is the partner's to send. -/
def State.newRecord (s : State) (r : PairRecord) (n : Nat) (st : EntrySt) : State :=
  let known := s.mirroredOp r.stream r.incarn r.seq
  let op := known.getD (recordOp r)
  let hollow := r.opc == 0 && known.isNone
  let p := s.mirrorParcels (s.entryDie op)
    (if hollow then (ceilDiv r.ilen 4096, ceilDiv (r.rlen + 64) 4096) else parcelPages op)
  let tenant := ((s.session? r.tsid).map (·.tenant)).getD 0
  let e : Entry := {
    cseq := n, stream := r.stream, incarn := r.incarn, seq := r.seq, tsid := r.tsid, tenant := tenant, op := op, st := st
    epoch := if r.epoch = 0 then none else some r.epoch, status := resStatus r.status, wreason := r.wreason
    replays := r.replays, reruns := 0, tadmit := r.tadmit, inputOk := !hollow, ipar := p.2.1, rpar := p.2.2
    homeHere := (s.stream r.stream).homeHere, away := r.away, payload := [], port := (s.stream r.stream).port
    addr := (s.stream r.stream).addr, acked := true, ended := false
    parcelOk := false, powered := false, frame := { FrameRun.fresh with rtag := r.tag }, order := readyOrder n }
  let e1 := match op with
    | .cancel t => { e with payload := if known.isSome then cancelPayload (s.cancelCode r.stream r.incarn t) else unknownCancel n }
    | _ => e
  let s1 : State := { p.1 with
    entries := p.1.entries ++ [e1]
    pair := { p.1.pair with hollow := p.1.pair.hollow ++ (if hollow then [n] else []) } }
  let s2 := s1.dropMirrored r.stream r.incarn r.seq
  let s3 := if e1.holdsRefs then s2.modRefs tenant r.epoch (· + 1) else s2
  (match op with
    | .cancel t => if known.isSome then s3.cancelHere s e1 t else s3
    | _ => s3).runTaken n

/-- A record of an entry of the partner's: its state and outcome. Under DUAL_RUN the run of a frame here is its own, and
only its transmission and a CANCEL come from the home (R437). -/
def State.followRecord (s : State) (e : Entry) (r : PairRecord) (st : EntrySt) : State :=
  let own := s.runsHere e && e.op.opc == 0
  let f (x : Entry) : Entry := { x with
    st := st, status := resStatus r.status, wreason := r.wreason, replays := r.replays, tadmit := r.tadmit, away := r.away
    epoch := if r.epoch = 0 then x.epoch else some (x.epoch.getD r.epoch), frame := { x.frame with rtag := r.tag } }
  if own && st != .sent && !(r.status == 3 && st == .complete) then s
  else
    let s1 := if own then s.clearFrame e.cseq else s
    let s2 := if !e.holdsRefs && (f e).holdsRefs && e.op.opc == 0 then s1.modRefs e.tenant ((f e).epoch.getD 0) (· + 1)
      else if e.holdsRefs && !(f e).holdsRefs then s1.dropRefs e else s1
    (s2.modEntry e.cseq f).runTaken e.cseq

/-- A record of an entry that runs here alone: a frame admitted at the partner, cancelled there. -/
def State.homeRecord (s : State) (e : Entry) (r : PairRecord) (st : EntrySt) : State :=
  if st = .complete ∧ r.status = 3 ∧ e.st ≠ .complete ∧ e.st ≠ .sent ∧ !e.ended then s.completeAs e.cseq .cancelled 0 [] else s

/-- A record written to both hubs: new, changed or FREE. -/
def State.writeRecord (s : State) (r : PairRecord) (n : Nat) : State :=
  match s.recordEntry r, entrySt r.state with
  | none, none => (s.recordStream r).closeStream r.stream
  | none, some st => (s.recordStream r).newRecord r n st
  | some e, none => ((((s.clearFrame e.cseq).dropEntry e).recordStream r).closeStream r.stream)
  | some e, some st => if e.here then (s.recordStream r).homeRecord e r st else (s.recordStream r).followRecord e r st

/-- The commit number of a record: its own, or, sent with 0, the one that the leader assigns (R428). -/
def State.recordNumber (s : State) (r : PairRecord) : Nat :=
  if r.cseq = 0 ∧ s.pair.leader ∧ s.paired then s.pkg.cseqNext else r.cseq

/-- One record of a COMMIT; the leader confirms each number that it assigns. -/
def State.takeRecord (s : State) (r : PairRecord) : State :=
  let n := s.recordNumber r
  let s1 := if n = 0 then s else { s.applied n with pkg := { (s.applied n).pkg with cseqNext := max s.pkg.cseqNext (n + 1) } }
  let s2 := s1.writeRecord r n
  if r.cseq = 0 ∧ n ≠ 0 then s2.sendPair 3 (confirmFields s2.pkg.cseq n) [] else s2

/-! ### Mirrored frames that run here -/

/-- Under DUAL_RUN a joiner runs every frame of the snapshot that has been bound and not been transmitted (R437). -/
def State.runMirrored (s : State) : State :=
  if s.dualRun then
    s.entries.foldl (fun s e => match e.op, e.epoch with
      | .run b, some ep => if e.here ∨ e.st = .sent ∨ e.status = .cancelled then s else s.rerunMirrored e b ep
      | _, _ => s) s
  else s

/-! ### Becoming PAIRED (R434) -/

/-- The pair is whole again. -/
def State.becomePaired (s : State) (rejoin : Bool) : State :=
  { s with pair := { s.pair with
      st := .paired, misses := 0, partnerLost := false, syncTo := none, fresh := false, failedObj := false
      regs := if rejoin then
          { s.pair.regs with event := setBit s.pair.regs.event 2, rejoin := inc s.pair.regs.rejoin }
        else s.pair.regs } }

/-- An object of the partner's is still being committed here. -/
def State.mirrorBusy (s : State) : Bool :=
  s.installs.any (fun i => i.port == 8) || s.routines.any (fun r => r.queue.any (fun q => at' q.reply 0 9 == 8)) ||
    s.placements.any (fun p => !p.patch.isEmpty && at' p.reply 0 9 == 8)

/-- A joiner that holds everything up to the `CSEQ` of SYNCDONE and every record after it is PAIRED. -/
def State.tryJoin (s : State) : State :=
  match s.pair.syncTo with
  | some n =>
    if s.pair.st = .joining ∧ n ≤ s.pkg.cseq ∧ s.pair.hollow.isEmpty ∧ !s.pair.failedObj ∧ !s.mirrorBusy then
      (s.becomePaired true).runMirrored
    else s
  | none => s

/-- A warm restart is in progress (R527). -/
def State.restarting (s : State) : Bool := s.pkg.phase == .warm || s.pkg.phase == .dozing

/-- A new entry of the partner's to which this package, the leader in a warm restart, gives no number: it is refused there
at its deadline (R354, R527; DEDUCED, log 120). -/
def State.unnumbered (s : State) (r : PairRecord) : Bool := s.restarting && r.cseq == 0 && (s.recordEntry r).isNone

/-- The records of a COMMIT are written, and confirmed unless a warm restart is in progress (R428, R527). -/
def State.takeRecords (s : State) (recs : List PairRecord) : State :=
  let s1 := (recs.filter (fun r => !(s.unnumbered r))).foldl State.takeRecord s
  (if recs.all (fun r => r.cseq != 0) && !s.restarting then s1.sendPair 3 (confirmFields s1.pkg.cseq 0) [] else s1).tryJoin

/-- PAIR_COMMIT (R428). -/
def execPairCommit (p : PairIn) (recs : List PairRecord) (s : State) : Host.Outcome State Fault Refusal :=
  answer (portOk p.port) (s.pairFrame p 2 (p.commits recs) (fun s =>
    if s.follows then s.takeRecords recs else s))

/-! ### PAIR_CONFIRM (R428) -/

/-- The new entry of this identity gets its commit number, and the partner holds it. -/
def State.numberCommit (s : State) (id : List Nat) (n time : Nat) : State :=
  let is (c : Commit) : Bool := c.cseq == 0 && [c.entry.stream, c.entry.incarn, c.entry.seq] == id
  let f (c : Commit) : Commit := { c with cseq := n, needPeer := false, entry := { c.entry with cseq := n, order := readyOrder n } }
  let s1 : State := { s with
    pkg := { s.pkg with cseqNext := max s.pkg.cseqNext (n + 1) }
    commits := s.commits.map (fun c => if is c then f c else c) }
  match s.commits.find? is with
  | some c => s1.progress (f c) time
  | none => s1

/-- The partner has a session: the reply to SESSION-OPEN leaves (R485). -/
def State.ackSession (s : State) (t : Nat) : State :=
  match s.secure.sessions.find? (fun x => x.tsid == t) with
  | none => s
  | some x =>
    match x.waits with
    | none => s
    | some w =>
      let s1 : State := { s with secure := { s.secure with sessions := s.secure.sessions.map (fun y =>
        if y.tsid == t then { y with waits := none } else y) } }
      s1.mgmtReply w.1 w.2.1 t 0x42 w.2.2 0 (sessionFields t x.tenant)

/-- A CONFIRM: every commit up to `highest` is held by the partner; `assigned` numbers the first that waits for a number;
one that does neither acknowledges the session at the head (R485; DEDUCED, log 64). -/
def State.takeConfirm (s : State) (highest assigned time : Nat) : State :=
  let held (n : Nat) : Bool := n != 0 && decide (n ≤ highest)
  let l := s.pair.unconf.filter (fun x => !(held (at' x 0 0)))
  let s1 := (s.commits.filter (fun c => held c.cseq && c.needPeer)).foldl
    (fun s c => s.progress { c with needPeer := false } time) { s with pair := { s.pair with unconf := l } }
  if assigned ≠ 0 then
    match l.find? (fun x => at' x 0 0 == 0 && at' x 1 0 != 2) with
    | none => s1
    | some x =>
      let s2 : State := { s1 with pair := { s1.pair with unconf := l.erase x } }
      if at' x 1 0 = 1 then s2.numberCommit (x.drop 2) assigned time else if at' x 1 0 = 0 then s2.applied assigned else s2
  else match l.head? with
    | some x =>
      if at' x 1 0 = 2 ∧ l.length = s.pair.unconf.length then
        { s1 with pair := { s1.pair with unconf := l.drop 1 } }.ackSession (at' x 2 0)
      else s1
    | none => s1

/-- PAIR_CONFIRM (R428). -/
def execPairConfirm (p : PairIn) (c : ConfirmIn) (time : Nat) (s : State) : Host.Outcome State Fault Refusal :=
  answer (portOk p.port) (s.pairFrame p 3 (p.holds (confirmFields c.highest c.assigned) []) (fun s => if s.mirrors then s.takeConfirm c.highest c.assigned time else s))

/-! ### PAIR_SEGMENT and PAIR_PARCEL (R428, R434) -/

/-- A copied segment is stored; it may be the last one that an entry lacks. -/
def State.takeSegment (s : State) (h : Hdr) (body : List Byte) : State :=
  let s1 : State := { s with pair := { s.pair with segs := s.pair.segs.filter (fun x =>
    !(sameFrame x.hdr h && x.hdr.segidx == h.segidx)) ++ [⟨0, 8, 0, h, body⟩] } }
  match (s1.target? h.stream h.incarn h.seq).filter (fun e => s1.pair.hollow.contains e.cseq),
      s1.mirroredOp h.stream h.incarn h.seq with
  | some e, some op => s1.fillEntry e op
  | _, _ => s1

/-- PAIR_SEGMENT (R428). -/
def execPairSegment (p : PairIn) (h : Hdr) (body : List Byte) (s : State) : Host.Outcome State Fault Refusal :=
  answer (portOk p.port) (s.pairFrame p 4 (p.copies h body) (fun s => if s.follows then (s.takeSegment h body).tryJoin else s))

/-- Bytes written at `off` of a list that grows as needed. -/
def putBytes (l : List Byte) (off : Nat) (data : List Byte) : List Byte :=
  (l ++ List.replicate (off - l.length) 0).take off ++ data ++ l.drop (off + data.length)

/-- Bytes of an input parcel; the whole body completes its entry. -/
def State.takeParcel (s : State) (cseq off : Nat) (data : List Byte) : State :=
  let b := putBytes ((Tbl.get s.pair.parcels cseq).getD []) off data
  let s1 : State := { s with pair := { s.pair with parcels := Tbl.set s.pair.parcels cseq b } }
  match (s1.entry? cseq).filter (fun e => s1.pair.hollow.contains e.cseq), parseBody b with
  | some e, .ok op => s1.fillEntry e op
  | _, _ => s1

/-- PAIR_PARCEL (R434). -/
def execPairParcel (p : PairIn) (cseq offset : Nat) (data : List Byte) (s : State) : Host.Outcome State Fault Refusal :=
  answer (portOk p.port) (s.pairFrame p 8 (decide (data.length ≤ 8192) && p.holds (parcelFields cseq offset) data) (fun s =>
    if s.pair.st == .joining then (s.takeParcel cseq offset data).tryJoin else s))

/-! ### PAIR_OBJECT and PAIR_OBJCOMMIT (R427, R434) -/

/-- Bytes of a mirrored object are staged; its length is as far as its bytes reach (DESIGN CHOICE, log 65). -/
def State.takeObject (s : State) (tenant target name off : Nat) (data : List Byte) : State :=
  let s1 : State := match s.obj? tenant target name with
    | some _ => s
    | none => { s with objects := s.objects ++ [⟨tenant, target, name, 0, [], [], false⟩] }
  { s1 with objects := s1.objects.map (fun o => if o.is tenant target name then
      { o with len := max o.len (off + data.length), data := Mem.writeBytes o.data off data
               staged := o.staged ++ [(off, off + data.length)] } else o) }

/-- PAIR_OBJECT (R427, R434). -/
def execPairObject (p : PairIn) (tenant target name offset : Nat) (data : List Byte) (s : State) :
    Host.Outcome State Fault Refusal :=
  answer (portOk p.port) (s.pairFrame p 5
    (decide (target ≤ 4) && decide (data.length ≤ 8192) && p.holds (objFields target name offset) data) (fun s =>
    if s.follows then s.takeObject tenant target name offset data else s))

/-- The COMMIT of a mirrored object, as a frame of the partner's: port 8, its target in place of a session. -/
def mirroredBulk (target name : Nat) : BulkIn :=
  ⟨8, ⟨.untagged, 0, false, none, 0, Hdr.bytes (headOf 5 target 0 0 0), true⟩, true,
    [6, BitVec.ofNat 8 target, 0, 0] ++ beBytes 4 name ++ List.replicate 24 0⟩

/-- An OBJCOMMIT: the answer to one sent from here, and so to the REPLY that waits for it, or the commit of a mirrored
object. A failure during a snapshot holds the rejoin (R331, R434). -/
def State.takeObjcommit (s : State) (tenant target name status : Nat) (o : CommitIn) : State :=
  match s.pair.replies.find? (fun r => at' r 0 9 == target && at' r 1 0 == name) with
  | some r =>
    let s1 : State := { s with pair := { s.pair with
      replies := s.pair.replies.erase r, failedObj := s.pair.failedObj || (s.pair.st == .solo && status != 0) } }
    s1.replyLater (r.drop 2) name status 0
  | none =>
    if !s.follows ∨ status ≠ 0 then s
    else
      let b := mirroredBulk target name
      let s1 := s.bulkCommit b tenant (bulkHead b.body) o
      s1.tryJoin

/-- PAIR_OBJCOMMIT (R331, R434). -/
def execPairObjcommit (p : PairIn) (tenant target name status : Nat) (o : CommitIn) (s : State) :
    Host.Outcome State Fault Refusal :=
  answer (portOk p.port) (s.pairFrame p 6
    (decide (target ≤ 4) && decide (status ≤ 0x17) && p.holds (objcommitFields target status name) []) (fun s =>
    s.takeObjcommit tenant target name status o))

/-! ### PAIR_DIGEST (R437, R438) -/

/-- The partner's digest of a run. -/
def State.takeDigest (s : State) (cseq run digest : Nat) : State :=
  let s1 : State := { s with pair := { s.pair with
    peer := s.pair.peer.filter (fun x => !(x.1 == cseq && x.2.1 == run)) ++ [(cseq, run, digest)] } }
  s1.dualCheck cseq

/-- PAIR_DIGEST (R437). -/
def execPairDigest (p : PairIn) (cseq run digest : Nat) (s : State) : Host.Outcome State Fault Refusal :=
  answer (portOk p.port) (s.pairFrame p 7 (p.holds (digestFields cseq run digest) []) (fun s =>
    if s.paired && s.dualRun && (s.entry? cseq).isSome then s.takeDigest cseq run digest else s))

/-! ### PAIR_SYNCDONE (R434) -/

/-- PAIR_SYNCDONE (R434). -/
def execPairSyncdone (p : PairIn) (cseq : Nat) (s : State) : Host.Outcome State Fault Refusal :=
  answer (portOk p.port) (s.pairFrame p 9 (p.holds (syncFields cseq) []) (fun s =>
    if s.pair.st = .joining then { s with pair := { s.pair with syncTo := some cseq } }.tryJoin else s))

/-! ### PAIR_STRIKE (R354, R428) -/

/-- The stream before the commit of an entry that is struck (R345 to R348). -/
def Stream.uncommit (x : Stream) (e : Entry) : Stream :=
  match e.op with
  | .open _ => { x with st := .closed, nextSeq := 0, credit := 64, outst := 0 }
  | .close => { x with st := .open, nextSeq := e.seq, outst := x.outst - 1 }
  | _ => { x with nextSeq := e.seq, outst := x.outst - 1 }

/-- A struck entry leaves the Fold, and never runs. -/
def State.takeStrike (s : State) (e : Entry) : State :=
  let s1 := ((s.clearFrame e.cseq).dropEntry e).modStream e.stream (fun x => x.uncommit e)
  let s2 := (s1.dropMirrored e.stream e.incarn e.seq).countStrike
  { s2 with pair := { s2.pair with hollow := s2.pair.hollow.filter (· != e.cseq) } }

/-- PAIR_STRIKE (R428). -/
def execPairStrike (p : PairIn) (cseq stream incarn seq : Nat) (s : State) : Host.Outcome State Fault Refusal :=
  answer (portOk p.port) (s.pairFrame p 10 (p.holds (strikeFields cseq stream incarn seq) []) (fun s =>
    match if cseq = 0 then s.target? stream incarn seq else s.entry? cseq with
    | some e => if s.follows then s.takeStrike e else s
    | none => s.dropMirrored stream incarn seq))

/-! ### PAIR_KEYSYNC (R485) -/

/-- A session opened or closed at the partner lives or ends here too; an opening is acknowledged. -/
def State.takeKeysync (s : State) (tsid tenant key : Nat) (opened : Bool) : State :=
  let rest := s.secure.sessions.filter (fun x => x.tsid != tsid)
  if opened then
    let s1 : State := { s with secure := { s.secure with sessions := rest ++ [⟨tsid, tenant, none, key⟩] } }
    s1.sendPair 3 (confirmFields s1.pkg.cseq 0) []
  else { s with secure := { s.secure with sessions := rest } }

/-- PAIR_KEYSYNC (R485). -/
def execPairKeysync (p : PairIn) (tsid tenant : Nat) (opened : Bool) (s : State) : Host.Outcome State Fault Refusal :=
  answer (portOk p.port) (s.pairFrame p 11 (p.keysyncs tsid tenant opened) (fun s =>
    if s.follows then s.takeKeysync tsid tenant (beAt p.body 32 32) opened else s))

/-! ### The loss of the partner (R432) -/

/-- An entry of the partner's home streams, not released, at the survivor (R432 steps 3 and 5; DEDUCED, log 66). -/
def State.takeOver (s : State) (e : Entry) : State :=
  let again (x : Entry) : Entry := { x with st := .admitted, ended := false, parcelOk := false }
  match e.op with
  | .run b =>
    if (e.st = .complete ∨ e.st = .sent) ∧ e.status = .cancelled then s.completeAs e.cseq .cancelled 0 []
    else if s.pair.hollow.contains e.cseq then (s.completeAs e.cseq .withheld 0x12 []).countLost
    else (match e.epoch with
      | none => s.commitEntry e.cseq again
      | some ep => s.rerunMirrored e b ep)
  | _ => s.commitEntry e.cseq again

/-- Entries in `CSEQ` order. -/
def inOrder (l : List Entry) : List Entry := (sortedSet (l.map (·.cseq))).flatMap (fun n => l.filter (fun e => e.cseq == n))

/-- The entry of the partner's runs again here. -/
def Entry.runsAgain (e : Entry) : Bool :=
  e.op.opc == 0 && !((e.st == .complete || e.st == .sent) && e.status == .cancelled)

/-- The partner is declared lost (R432). -/
def State.declareLost (s : State) : State :=
  let theirs := inOrder (s.entries.filter (fun e => !e.here))
  let s1 : State := { s with
    pair := { s.pair with
      st := .solo, leader := true, partnerLost := true, fresh := false, misses := 0, lostAt := s.pkg.aon, syncTo := none
      replaysLeft := (theirs.filter Entry.runsAgain).map (·.cseq)
      regs := { s.pair.regs with event := setBit s.pair.regs.event 1, lost := inc s.pair.regs.lost } }
    pkg := { s.pkg with cseqNext := max s.pkg.cseqNext (s.pkg.cseq + 1) }
    streams := s.streams.map (fun p => (p.1, { p.2 with homeHere := true }))
    entries := s.entries.map (fun e => { e with homeHere := true, away := false }) }
  let s2 := (s1.commits.filter (·.needPeer)).foldl (fun s c => s.strike c 0) s1
  theirs.foldl State.takeOver s2.partnerGone

/-- The partner is one that can be lost. -/
def State.canLose (s : State) : Bool := s.paired || s.pair.st == .joining

/-! ### Heartbeats (R432 to R435) -/

/-- PAIR_HEARTBEAT_TIMER: a HEARTBEAT is sent, and a new interval begins (R432). -/
def execPairHeartbeatTimer (s : State) : Host.Outcome State Fault Refusal :=
  answer true (
    if s.pairLive then
      let s1 := s.sendPair 1 (beatFields s.pair.st.code (flag s.pair.leader) s.pkg.quiet s.pkg.cseq) []
      { s1 with pair := { s1.pair with heardA := s1.pair.nowA, heardB := s1.pair.nowB, nowA := false, nowB := false } }
    else s)

/-- An interval in which no frame came on either network: a miss; the 20th in a row declares the partner lost (R432). -/
def State.miss (s : State) : State :=
  let n := s.pair.misses + 1
  let s1 : State := { s with pair := { s.pair with
    misses := n, st := if s.pair.st = .paired then .suspect else s.pair.st
    regs := { s.pair.regs with event := setBit s.pair.regs.event 0, miss := inc s.pair.regs.miss } } }
  if 20 ≤ n ∧ s1.canLose then s1.declareLost else s1

/-- PAIR_HEARTBEAT_MISS (R432). -/
def execPairHeartbeatMiss (s : State) : Host.Outcome State Fault Refusal :=
  answer true (
    if s.pairLive && !(s.pair.heardA || s.pair.heardB || s.pair.nowA || s.pair.nowB) then s.miss else s)

/-- Two survivors meet: both are DIVERGED, in QUIET under cause 7 (R435). -/
def State.diverged (s : State) : State :=
  { s with pair := { s.pair with
      st := .diverged
      regs := { s.pair.regs with event := setBit s.pair.regs.event 5, diverge := inc s.pair.regs.diverge } } }.enterQuiet 7

/-- The package discards its own Fold and joins the survivor (R434 step 1). -/
def State.discardFold (s : State) : State :=
  let s1 := (s.entries.map (·.cseq)).foldl (fun s n => s.clearFrame n) s
  let s2 := s1.entries.foldl (fun s e => s.dropEntry e) s1
  let s3 := s2.commits.foldl (fun s c => (s.freeParcel c.entry.ipar).freeParcel c.entry.rpar) s2
  { s3 with
    entries := [], commits := [], streams := []
    hubs := s3.hubs.map (fun h => { h with segs := [], copies := [] })
    pkg := { s3.pkg with cseq := 0 }
    pair := { s3.pair with
      st := .joining, fresh := false, leader := false, unconf := [], own := [], peer := [], syncTo := none, failedObj := false
      releases := [], replaysLeft := [], segs := [], parcels := [], hollow := [], replies := [] } }

/-- The record of a stream without an entry: `STATE` FREE. -/
def streamRecord (n : Nat) (x : Stream) : PairRecord :=
  { cseq := 0, stream := n, incarn := x.incarn.getD 0, seq := 0, tsid := x.tsid, opc := 0, state := 0, status := 0, wreason := 0
    tag := 0, replays := 0, tadmit := 0, epoch := 0, ipar := 0, rpar := 0, ilen := 0, rlen := 0, away := false
    sstate := x.st.code, nextSeq := x.nextSeq, credit := x.credit, outst := x.outst }

/-- The records of a snapshot: every entry, then every stream that has none. -/
def State.snapRecords (s : State) : List PairRecord :=
  (inOrder s.entries).map (fun e => recordOf e.cseq e e.st.code (s.stream e.stream))
    ++ (s.streams.filter (fun p => !(s.entries.any (fun e => e.stream == p.1)))).map (fun p => streamRecord p.1 p.2)

/-- The input parcel of an entry in PARCEL frames (DEDUCED, log 67). -/
def State.sendParcel (s : State) (e : Entry) : State :=
  match e.op with
  | .run b => ((pieces 8192 b.bytes).mapIdx (fun i d => (i, d))).foldl (fun s x => s.sendPair 8 (parcelFields e.cseq (8192 * x.1)) x.2) s
  | _ => s

/-- An object of a snapshot: target, name, tenant and the staged bytes that are kept of it. -/
structure SnapObj where
  target : Nat
  name   : Nat
  tenant : Nat
  data   : List Byte

/-- The objects of a placement: its tables and its region, when it has them, then its STAGING object (R319). -/
def Placement.objects (p : Placement) : List SnapObj :=
  (if p.copies.tlen = 0 then [] else [⟨3, p.handle, p.tenant, Mem.readBytes p.copies.tables 0 p.copies.tlen⟩])
    ++ (if p.copies.rlen = 0 then [] else [⟨2, p.handle, p.tenant, Mem.readBytes p.copies.region 0 p.copies.rlen⟩])
    ++ [⟨0, p.handle, p.tenant, Mem.readBytes p.copies.staging 0 p.copies.slen⟩]

/-- The objects of a snapshot: every table and region that waits for its placement, every routine's current version, every
placement. -/
def State.snapObjects (s : State) : List SnapObj :=
  (s.objects.filter (·.waiting)).map (fun o => ⟨o.target, o.name, o.tenant, Mem.readBytes o.data 0 o.len⟩)
    ++ s.routines.flatMap (fun r => (r.versions.filter (fun v => v.until_.isNone)).map (fun v =>
      ⟨1, r.name, r.tenant, Mem.readBytes v.src 0 v.srcLen⟩))
    ++ (s.placements.filter (·.removed.isNone)).flatMap Placement.objects

/-- An object of the snapshot in OBJECT frames, then its OBJCOMMIT (R429, R434; DESIGN CHOICE, log 65). -/
def State.sendObject (s : State) (x : SnapObj) : State :=
  (((pieces 8192 x.data).mapIdx (fun i d => (i, d))).foldl
    (fun s y => s.sendPair 5 (objFields x.target x.name (8192 * y.1)) y.2) s).mirrorCommit x.target x.name [9]

/-- The survivor sends the snapshot (R434 step 2, R485). -/
def State.snapshot (s : State) : State :=
  let s1 := (pieces 96 s.snapRecords).foldl (fun s l => s.sendPair 2 (commitFields l.length) (l.flatMap PairRecord.bytes)) s
  let s2 := s.entries.foldl State.sendParcel s1
  let s3 := s.snapObjects.foldl State.sendObject s2
  let s4 := s.secure.sessions.foldl (fun s x => s.keysync x true) s3
  let last := (s.entries.map (·.cseq)).foldl max 0
  let s5 := s4.sendPair 9 (syncFields last) []
  { s5 with pair := { s5.pair with syncTo := some last } }

/-- A HEARTBEAT of the partner in state `pst`, with its leader flag, its QUIET cause and its last commit (R432 to R435). -/
def State.pairBeat (s : State) (pst lead quiet last : Nat) : State :=
  let both := decide (pst = 2) || decide (pst = 3)
  match s.pair.st with
  | .unpaired | .diverged => s
  | .solo =>
    if pst = 4 ∨ pst = 5 then s.diverged
    else if quiet ≠ 0 then s
    else if pst = 1 ∧ s.pair.syncTo.isNone then s.snapshot
    else if both ∧ s.pair.syncTo.isSome then s.becomePaired true
    else s
  | .joining =>
    if quiet ≠ 0 then s.declareLost
    else
      let s1 : State := { s with pkg := { s.pkg with cseqNext := max s.pkg.cseqNext (last + 1) } }
      if pst = 1 ∨ (both ∧ (s.pair.fresh ∨ last = 0)) then s1.becomePaired false
      else { s1 with pair := { s1.pair with leader := s1.pair.leader && lead == 0 } }.tryJoin
  | .paired | .suspect =>
    if quiet ≠ 0 then s.declareLost
    else if pst = 4 ∧ s.pkg.quiet = 0 then s.discardFold
    else { s with pkg := { s.pkg with cseqNext := if s.pair.leader then s.pkg.cseqNext else max s.pkg.cseqNext (last + 1) } }

/-- PAIR_HEARTBEAT (R432). -/
def execPairHeartbeat (p : PairIn) (pstate leader quiet lastCseq : Nat) (s : State) : Host.Outcome State Fault Refusal :=
  answer (portOk p.port) (s.pairFrame p 1
    (decide (pstate ≤ 5) && decide (leader ≤ 1) && decide (quiet ≤ 7) && p.holds (beatFields pstate leader quiet lastCseq) []) (fun s =>
    { s with pair := { s.pair with peerProf := p.prof } }.pairBeat pstate leader quiet lastCseq))

end Sys2Proof.Machine
end

