-- ==== Sys2Proof/Machine/Verify.lean ====
section
/-! DEFINITION. The end of an installation: rows written, verified and repaired, and the commit (10 R317, R331, R332). -/
namespace Sys2Proof.Machine
open Sys2Proof

/-! ### INSTALL_DONE (R331, R332) -/

/-- Every span of a placement written into its plane; cells that patches have accepted stay accepted (R77). -/
def State.writeSpans (s : State) (p : Placement) : State :=
  let s1 := (p.spans.mapIdx (fun i x => (i, x))).foldl (fun s y =>
    s.modPlane y.2.k y.2.engine y.2.plane (fun q => q.addSpan p.wfmt p.tenant p.handle y.2 (p.rowsOf y.1))) s
  p.planeKeys.foldl (fun s x => s.setRows x (s.withPatches x (s.planeAt x).rows)) s1

/-- The mismatched cells of a plane against what is written. -/
def State.planeBad (s : State) (x : Nat × Nat × Nat) : List (Nat × Nat × Bool) := s.badCells x (s.planeAt x).rows

/-- A placement on the plane is being emptied (R335). -/
def State.beingEmptied (s : State) (x : Nat × Nat × Nat) : Bool := (s.planeAt x).spans.any (fun y => s.retiring y.handle)

/-- The claimed planes are LIVE, with their thresholds set again (R65, R331 step 5); one from which a removed placement
is being taken stays FENCED (R335). -/
def State.planesLive (s : State) (keys : List (Nat × Nat × Nat)) : State :=
  keys.foldl (fun s x => s.modPlane x.1 x.2.1 x.2.2 (fun p => { p with
    st := if s.beingEmptied x then .fenced else .live, doubt := false, thr := s.planeThr p.spans p.dyn })) s

/-- A shared plane of a failed installation: rewritten from the golden copies of its other placements and LIVE again, or,
where it does not read them, to be diagnosed (R331, R333). -/
def State.unshare (s : State) (x : Nat × Nat × Nat) : State :=
  let p := s.planeAt x
  if p.spans.isEmpty then s.modPlane x.1 x.2.1 x.2.2 (fun _ => Plane.fresh)
  else if !(s.goldWhole x) then s.goldGone x
  else
    let s1 := s.setRows x (s.goldenRows x)
    if p.doubt || s.beingEmptied x then s1
    else if (s1.planeBad x).isEmpty then s1.liveAgain x
    else s1.modPlane x.1 x.2.1 x.2.2 (fun p => { p with doubt := true })

/-- A failed installation: claimed planes are EMPTY, shared ones as they were (R331). -/
def State.undoInstall (s : State) (i : Install) : State :=
  let s1 := i.claimed.foldl (fun s x => s.modPlane x.1 x.2.1 x.2.2 (fun _ => Plane.fresh)) s
  i.fenced.foldl (fun s x => s.unshare x) s1

/-- The span that a plane belongs to. -/
def Placement.spanIndex (p : Placement) (x : Nat × Nat × Nat) : Nat :=
  (p.spans.findIdx? (fun y => (y.k, y.engine, y.plane) == x)).getD 0

/-- The commit of an installation whose planes verify: epoch, record, LIVE planes and the REPLY, which in paired mode
waits for the partner (R317, R331). -/
def State.commitInstall (s : State) (i : Install) : State :=
  let s1 : State := s.nextEpoch
  let pl := { i.pl with commit := s1.pkg.epoch, reply := [] }
  let s2 := { s1 with
    placements := s1.placements ++ [pl]
    installs := s1.installs.filter (fun x => x.pl.handle != i.pl.handle)
    inst := { s1.inst with commits := inc s1.inst.commits } }
  let s3 : State := s2.planesLive (i.claimed ++ i.fenced)
  if s3.paired && i.port != 8 then s3.mirrorCommit 0 pl.handle i.pl.reply
  else (s3.mirrorDone i.port 0 pl.handle).replyLater i.pl.reply pl.handle 0 0

/-- A failed installation ends with its status and detail (R328, R331). -/
def State.failInstall (s : State) (i : Install) (status detail : Nat) : State :=
  let s1 := { s.undoInstall i with installs := s.installs.filter (fun x => x.pl.handle != i.pl.handle) }
  s1.replyLater i.pl.reply i.pl.handle status detail

/-- A plane that fails its verify is repaired under R70 with the policy REPROGRAM: its mismatched columns `slots`, or
its engine where the sweep failed or the spare columns do not suffice (R332). -/
def State.repairPlane (s : State) (h : Nat) (x : Nat × Nat × Nat) (slots : List Nat) (sweep : Bool) : State :=
  let s1 := if sweep then ((s.countSweepFail x.1).fenceEngine x.1 x.2.1).beginSubst 3 2 x.1 x.2.1 else s.beginColumns x.1 x.2.1 slots
  let whole := s1.maps.subst.any (fun u => match u.level with
    | 1 => false
    | 2 => u.k == x.1 && u.e == x.2.1
    | 3 => u.k == x.1
    | _ => u.k / 16 == x.1 / 16)
  { s1 with installs := s1.installs.map (fun i => if i.pl.handle == h && whole then
      { i with replaced := (x.1, x.2.1) :: i.replaced } else i) }

/-- INSTALL_DONE: rows written and verified, then the commit. Planes that fail are repaired and verified anew by the
next INSTALL_DONE; one that fails after its engine was substituted, or whose core has no hardware left, fails the
installation (R331, R332). A core whose clock or fabric is out of service for now makes it wait. `sweepFail` names a span
whose bellwether sweep fails. -/
def State.installDone (s : State) (handle : Nat) (sweepFail : Option Nat) : State :=
  match s.installs.find? (fun x => x.pl.handle == handle) with
  | none => s
  | some i =>
    let keys := i.pl.planeKeys
    let gone (x : Nat × Nat × Nat) : Bool := !(s.hasHardware x.1)
    if keys.any (fun x => s.substBlocks x.1 [x.2.1] || (s.hasHardware x.1 && !(s.coreUp x.1))) then s
    else
      let s1 := s.writeSpans i.pl
      let bad := keys.filter (fun x => !(s1.planeBad x).isEmpty || sweepFail == some (i.pl.spanIndex x) || gone x)
      match bad.find? (fun x => i.replaced.contains (x.1, x.2.1) || gone x) with
      | some x => s.failInstall i 0x0D (i.pl.spanIndex x)
      | none =>
        if bad.isEmpty then
          match i.late with
          | some x => s.failInstall i x.1 x.2
          | none => s1.commitInstall i
        else bad.foldl (fun t x => t.repairPlane handle x
          (sortedSet ((s1.planeBad x).map (·.2.1)))
          (sweepFail == some (i.pl.spanIndex x))) s

/-- INSTALL_DONE (R331). -/
def execInstallDone (handle : Nat) (sweepFail : Option Nat) (s : State) : Host.Outcome State Fault Refusal :=
  answer true (s.installDone handle sweepFail)

end Sys2Proof.Machine
end

