-- ==== Sys2Proof/Machine/Dispatch.lean ====
section
/-! DEFINITION. The dispatch of a command to its meaning: one arm per row of spec/opcode_table.json. -/
namespace Sys2Proof.Machine
open Sys2Proof

/-- The effect of a command on everything but the queue. -/
def exec (i : Instr) (s : State) : Host.Outcome State Fault Refusal :=
  match i with
  | .nop k => Sys2Proof.Machine.execNop k s
  | .ldi k => Sys2Proof.Machine.execLdi k s
  | .add k => Sys2Proof.Machine.execAdd k s
  | .sub k => Sys2Proof.Machine.execSub k s
  | .shl k => Sys2Proof.Machine.execShl k s
  | .shr k => Sys2Proof.Machine.execShr k s
  | .sra k => Sys2Proof.Machine.execSra k s
  | .madd k => Sys2Proof.Machine.execMadd k s
  | .min k => Sys2Proof.Machine.execMin k s
  | .max k => Sys2Proof.Machine.execMax k s
  | .and k => Sys2Proof.Machine.execAnd k s
  | .smov k => Sys2Proof.Machine.execSmov k s
  | .qdepth k => Sys2Proof.Machine.execQdepth k s
  | .setinc k => Sys2Proof.Machine.execSetinc k s
  | .cset k => Sys2Proof.Machine.execCset k s
  | .loop k => Sys2Proof.Machine.execLoop k s
  | .lbrk k => Sys2Proof.Machine.execLbrk k s
  | .br k => Sys2Proof.Machine.execBr k s
  | .call k => Sys2Proof.Machine.execCall k s
  | .ret k => Sys2Proof.Machine.execRet k s
  | .halt k => Sys2Proof.Machine.execHalt k s
  | .sheets k => Sys2Proof.Machine.execSheets k s
  | .windowDeclare k => Sys2Proof.Machine.execWindowDeclare k s
  | .windowUndeclare k => Sys2Proof.Machine.execWindowUndeclare k s
  | .grant k => Sys2Proof.Machine.execGrant k s
  | .accbase k ph => Sys2Proof.Machine.execAccbase k ph s
  | .accstride k ph => Sys2Proof.Machine.execAccstride k ph s
  | .accslots k ph => Sys2Proof.Machine.execAccslots k ph s
  | .txfer k ph => Sys2Proof.Machine.execTxfer k ph s
  | .matmul k ph => Sys2Proof.Machine.execMatmul k ph s
  | .dmatmul k ph => Sys2Proof.Machine.execDmatmul k ph s
  | .wplane k ph => Sys2Proof.Machine.execWplane k ph s
  | .combine k ph => Sys2Proof.Machine.execCombine k ph s
  | .vxfer k ph => Sys2Proof.Machine.execVxfer k ph s
  | .ccount k ph => Sys2Proof.Machine.execCcount k ph s
  | .vecAdd k ph => Sys2Proof.Machine.execVecAdd k ph s
  | .vecMul k ph => Sys2Proof.Machine.execVecMul k ph s
  | .vecFma k ph => Sys2Proof.Machine.execVecFma k ph s
  | .vecMin k ph => Sys2Proof.Machine.execVecMin k ph s
  | .vecMax k ph => Sys2Proof.Machine.execVecMax k ph s
  | .cmpeq k ph => Sys2Proof.Machine.execCmpeq k ph s
  | .cmpne k ph => Sys2Proof.Machine.execCmpne k ph s
  | .cmplt k ph => Sys2Proof.Machine.execCmplt k ph s
  | .cmple k ph => Sys2Proof.Machine.execCmple k ph s
  | .cmpgt k ph => Sys2Proof.Machine.execCmpgt k ph s
  | .cmpge k ph => Sys2Proof.Machine.execCmpge k ph s
  | .select k ph => Sys2Proof.Machine.execSelect k ph s
  | .convert k ph => Sys2Proof.Machine.execConvert k ph s
  | .exp2 k ph => Sys2Proof.Machine.execExp2 k ph s
  | .recip k ph => Sys2Proof.Machine.execRecip k ph s
  | .rsqrt k ph => Sys2Proof.Machine.execRsqrt k ph s
  | .emask k ph => Sys2Proof.Machine.execEmask k ph s
  | .rmask k ph => Sys2Proof.Machine.execRmask k ph s
  | .maskall k ph => Sys2Proof.Machine.execMaskall k ph s
  | .reduceSum k ph => Sys2Proof.Machine.execReduceSum k ph s
  | .reduceMax k ph => Sys2Proof.Machine.execReduceMax k ph s
  | .reduceMin k ph => Sys2Proof.Machine.execReduceMin k ph s
  | .reduceCount k ph => Sys2Proof.Machine.execReduceCount k ph s
  | .reduceTop1 k ph => Sys2Proof.Machine.execReduceTop1 k ph s
  | .send k ph => Sys2Proof.Machine.execSend k ph s
  | .emit k ph => Sys2Proof.Machine.execEmit k ph s
  | .move k ph => Sys2Proof.Machine.execMove k ph s
  | .cfg k ph => Sys2Proof.Machine.execCfg k ph s
  | .queueHeadStart k q => Sys2Proof.Machine.execQueueHeadStart k q s
  | .waitSatisfied k => Sys2Proof.Machine.execWaitSatisfied k s
  | .instructionComplete k id => Sys2Proof.Machine.execInstructionComplete k id s
  | .waitTimeout k q => Sys2Proof.Machine.execWaitTimeout k q s
  | .runLimit k => Sys2Proof.Machine.execRunLimit k s
  | .stopTimeout cseq => Sys2Proof.Machine.execStopTimeout cseq s
  | .haltRecord r => Sys2Proof.Machine.execHaltRecord r s
  | .passIssue k tm => Sys2Proof.Machine.execPassIssue k tm s
  | .dynamicRowWrite k tm => Sys2Proof.Machine.execDynamicRowWrite k tm s
  | .passResultComplete k r => Sys2Proof.Machine.execPassResultComplete k r s
  | .resultSetSwap k e waited => Sys2Proof.Machine.execResultSetSwap k e waited s
  | .drain k d => Sys2Proof.Machine.execDrain k d s
  | .penTileLoad k tm => Sys2Proof.Machine.execPenTileLoad k tm s
  | .fieldTile k t => Sys2Proof.Machine.execFieldTile k t s
  | .depositLand d => Sys2Proof.Machine.execDepositLand d s
  | .creditTimeout id => Sys2Proof.Machine.execCreditTimeout id s
  | .hubInputDelivery cseq => Sys2Proof.Machine.execHubInputDelivery cseq s
  | .sheetWakeDone k sheet => Sys2Proof.Machine.execSheetWakeDone k sheet s
  | .frameStart cseq k => Sys2Proof.Machine.execFrameStart cseq k s
  | .frameBind cseq => Sys2Proof.Machine.execFrameBind cseq s
  | .workRun g => Sys2Proof.Machine.execWorkRun g s
  | .workOpen g => Sys2Proof.Machine.execWorkOpen g s
  | .workCancel g => Sys2Proof.Machine.execWorkCancel g s
  | .workClose g => Sys2Proof.Machine.execWorkClose g s
  | .segmentTimeout hub h => Sys2Proof.Machine.execSegmentTimeout hub h s
  | .ledgerConfirm c hub => Sys2Proof.Machine.execLedgerConfirm c hub s
  | .commitDeadline c => Sys2Proof.Machine.execCommitDeadline c s
  | .dispatch cseq => Sys2Proof.Machine.execDispatch cseq s
  | .frameEnd cseq => Sys2Proof.Machine.execFrameEnd cseq s
  | .resultParcelWritten cseq => Sys2Proof.Machine.execResultParcelWritten cseq s
  | .resultTransmit stream => Sys2Proof.Machine.execResultTransmit stream s
  | .release g => Sys2Proof.Machine.execRelease g s
  | .resend g => Sys2Proof.Machine.execResend g s
  | .parcelReadError cseq p both => Sys2Proof.Machine.execParcelReadError cseq p both s
  | .bulkOpen b => Sys2Proof.Machine.execBulkOpen b s
  | .burst b => Sys2Proof.Machine.execBurst b s
  | .bulkClose b => Sys2Proof.Machine.execBulkClose b s
  | .abort b => Sys2Proof.Machine.execAbort b s
  | .query b => Sys2Proof.Machine.execQuery b s
  | .bulkCommit b o => Sys2Proof.Machine.execBulkCommit b o s
  | .remove b => Sys2Proof.Machine.execRemove b s
  | .notes b => Sys2Proof.Machine.execNotes b s
  | .installDone handle sweepFail => Sys2Proof.Machine.execInstallDone handle sweepFail s
  | .routineCommit tenant name => Sys2Proof.Machine.execRoutineCommit tenant name s
  | .patchApply handle => Sys2Proof.Machine.execPatchApply handle s
  | .placementRetire handle => Sys2Proof.Machine.execPlacementRetire handle s
  | .planeEmpty k e p => Sys2Proof.Machine.execPlaneEmpty k e p s
  | .bulkIdle session tenant target name => Sys2Proof.Machine.execBulkIdle session tenant target name s
  | .absorbWait k e p => Sys2Proof.Machine.execAbsorbWait k e p s
  | .fenceWait k => Sys2Proof.Machine.execFenceWait k s
  | .planeDiagnosis k e p o => Sys2Proof.Machine.execPlaneDiagnosis k e p o s
  | .dynamicPlaneTest k e => Sys2Proof.Machine.execDynamicPlaneTest k e s
  | .columnSubstitution k e slot r => Sys2Proof.Machine.execColumnSubstitution k e slot r s
  | .substitutionDone u r verifyOk => Sys2Proof.Machine.execSubstitutionDone u r verifyOk s
  | .coreDiagnosisDone k faulty => Sys2Proof.Machine.execCoreDiagnosisDone k faulty s
  | .fabricTimeout path unit cores => Sys2Proof.Machine.execFabricTimeout path unit cores s
  | .dsmEccError die bank line dbl mirrorBad core => Sys2Proof.Machine.execDsmEccError die bank line dbl mirrorBad core s
  | .dsmAccessDenied die master l write core => Sys2Proof.Machine.execDsmAccessDenied die master l write core s
  | .dsmPriorityEscalate die bank master waited => Sys2Proof.Machine.execDsmPriorityEscalate die bank master waited s
  | .stackLost st => Sys2Proof.Machine.execStackLost st s
  | .dieLost d => Sys2Proof.Machine.execDieLost d s
  | .hubHeartbeat h bridge relay => Sys2Proof.Machine.execHubHeartbeat h bridge relay s
  | .hubHeartbeatLoss h => Sys2Proof.Machine.execHubHeartbeatLoss h s
  | .digestExchange => Sys2Proof.Machine.execDigestExchange s
  | .bridgeRestored b logsEqual => Sys2Proof.Machine.execBridgeRestored b logsEqual s
  | .faultPulseEnd => Sys2Proof.Machine.execFaultPulseEnd s
  | .yokeTick p c => Sys2Proof.Machine.execYokeTick p c s
  | .avsSample group volts amps => Sys2Proof.Machine.execAvsSample group volts amps s
  | .pmbusSample rail milliwatts => Sys2Proof.Machine.execPmbusSample rail milliwatts s
  | .envHold => Sys2Proof.Machine.execEnvHold s
  | .combWindow d amps => Sys2Proof.Machine.execCombWindow d amps s
  | .tempReport die temp => Sys2Proof.Machine.execTempReport die temp s
  | .thermtrip die => Sys2Proof.Machine.execThermtrip die s
  | .voltageAlarm d => Sys2Proof.Machine.execVoltageAlarm d s
  | .voltageAlarmPersist d => Sys2Proof.Machine.execVoltageAlarmPersist d s
  | .clockLoss die cluster => Sys2Proof.Machine.execClockLoss die cluster s
  | .relockTimeout die cluster => Sys2Proof.Machine.execRelockTimeout die cluster s
  | .dozeEntry die cluster => Sys2Proof.Machine.execDozeEntry die cluster s
  | .clusterOff die cluster => Sys2Proof.Machine.execClusterOff die cluster s
  | .clusterWakeDone die cluster => Sys2Proof.Machine.execClusterWakeDone die cluster s
  | .stackSelfRefresh st => Sys2Proof.Machine.execStackSelfRefresh st s
  | .grazerSliceStart t => Sys2Proof.Machine.execGrazerSliceStart t s
  | .sliceUnitDone t ok row => Sys2Proof.Machine.execSliceUnitDone t ok row s
  | .sliceEnd t => Sys2Proof.Machine.execSliceEnd t s
  | .sliceStop t => Sys2Proof.Machine.execSliceStop t s
  | .roundOverrun => Sys2Proof.Machine.execRoundOverrun s
  | .marchStart t transparent => Sys2Proof.Machine.execMarchStart t transparent s
  | .marchDone t badRows => Sys2Proof.Machine.execMarchDone t badRows s
  | .bellwetherSweep k e vectorsOk => Sys2Proof.Machine.execBellwetherSweep k e vectorsOk s
  | .fuseBurn die record readBackOk => Sys2Proof.Machine.execFuseBurn die record readBackOk s
  | .secureWipeDone => Sys2Proof.Machine.execSecureWipeDone s
  | .profileSwitch => Sys2Proof.Machine.execProfileSwitch s
  | .firmwareActivation => Sys2Proof.Machine.execFirmwareActivation s
  | .maintDefer id => Sys2Proof.Machine.execMaintDefer id s
  | .tamper source => Sys2Proof.Machine.execTamper source s
  | .coldStart x => Sys2Proof.Machine.execColdStart x s
  | .bootReportTimeout => Sys2Proof.Machine.execBootReportTimeout s
  | .readyAssert => Sys2Proof.Machine.execReadyAssert s
  | .porstAssert => Sys2Proof.Machine.execPorstAssert s
  | .wrstPin => Sys2Proof.Machine.execWrstPin s
  | .warmRestartDoze => Sys2Proof.Machine.execWarmRestartDoze s
  | .moduleInsert n power => Sys2Proof.Machine.execModuleInsert n power s
  | .portLinkDown n => Sys2Proof.Machine.execPortLinkDown n s
  | .mgmtRead m addr count => Sys2Proof.Machine.execMgmtRead m addr count s
  | .admitMaxRead m hub => Sys2Proof.Machine.execAdmitMaxRead m hub s
  | .substMaxRead m => Sys2Proof.Machine.execSubstMaxRead m s
  | .timeLoRead m => Sys2Proof.Machine.execTimeLoRead m s
  | .clear e pairs => Sys2Proof.Machine.execClear e pairs s
  | .warmRestart e => Sys2Proof.Machine.execWarmRestart e s
  | .useProfile e slot => Sys2Proof.Machine.execUseProfile e slot s
  | .activateFirmware e slot => Sys2Proof.Machine.execActivateFirmware e slot s
  | .raiseSvn e floor => Sys2Proof.Machine.execRaiseSvn e floor s
  | .nvmBegin e target len digest => Sys2Proof.Machine.execNvmBegin e target len digest s
  | .nvmData m offset data => Sys2Proof.Machine.execNvmData m offset data s
  | .nvmProgramDone ok sigOk cakOk => Sys2Proof.Machine.execNvmProgramDone ok sigOk cakOk s
  | .pairBind e partner wseed unwrapOk => Sys2Proof.Machine.execPairBind e partner wseed unwrapOk s
  | .pairUnbind e => Sys2Proof.Machine.execPairUnbind e s
  | .takeOwnership e voucherOk => Sys2Proof.Machine.execTakeOwnership e voucherOk s
  | .rotateOwner e newDigest => Sys2Proof.Machine.execRotateOwner e newDigest s
  | .returnPkg e => Sys2Proof.Machine.execReturnPkg e s
  | .retire e => Sys2Proof.Machine.execRetire e s
  | .attest m nonce first nlist busy => Sys2Proof.Machine.execAttest m nonce first nlist busy s
  | .certs m busy => Sys2Proof.Machine.execCerts m busy s
  | .sessionOpen m tenant wskSerial sigOk unwrapOk busy => Sys2Proof.Machine.execSessionOpen m tenant wskSerial sigOk unwrapOk busy s
  | .sessionClose m => Sys2Proof.Machine.execSessionClose m s
  | .pairHeartbeatTimer => Sys2Proof.Machine.execPairHeartbeatTimer s
  | .pairHeartbeatMiss => Sys2Proof.Machine.execPairHeartbeatMiss s
  | .pairHeartbeat p pstate leader quiet lastCseq => Sys2Proof.Machine.execPairHeartbeat p pstate leader quiet lastCseq s
  | .pairCommit p recs => Sys2Proof.Machine.execPairCommit p recs s
  | .pairConfirm p c time => Sys2Proof.Machine.execPairConfirm p c time s
  | .pairSegment p h body => Sys2Proof.Machine.execPairSegment p h body s
  | .pairObject p tenant target name offset data => Sys2Proof.Machine.execPairObject p tenant target name offset data s
  | .pairObjcommit p tenant target name status o => Sys2Proof.Machine.execPairObjcommit p tenant target name status o s
  | .pairDigest p cseq run digest => Sys2Proof.Machine.execPairDigest p cseq run digest s
  | .pairParcel p cseq offset data => Sys2Proof.Machine.execPairParcel p cseq offset data s
  | .pairSyncdone p cseq => Sys2Proof.Machine.execPairSyncdone p cseq s
  | .pairStrike p cseq stream incarn seq => Sys2Proof.Machine.execPairStrike p cseq stream incarn seq s
  | .pairKeysync p tsid tenant opened => Sys2Proof.Machine.execPairKeysync p tsid tenant opened s
  | .workSegment g => Sys2Proof.Machine.execWorkSegment g s
  | .inputParcelWritten cseq => Sys2Proof.Machine.execInputParcelWritten cseq s
  | .portLinkUp n mka => Sys2Proof.Machine.execPortLinkUp n mka s
  | .hubSelfCheckFail h => Sys2Proof.Machine.execHubSelfCheckFail h s
  | .clusterRelocked die cluster => Sys2Proof.Machine.execClusterRelocked die cluster s
  | .boundaryScan tap ir drIn => Sys2Proof.Machine.execBoundaryScan tap ir drIn s
  | .dsmBankWakeDone die bank => Sys2Proof.Machine.execDsmBankWakeDone die bank s

end Sys2Proof.Machine
end

