-- ==== Sys2Proof/Safety.lean ====
section
/-! DEFINITION. The terms in which claims are stated: when the control core issues the instruction that is due, when a
started instruction has its effect, and what never changes. -/
namespace Sys2Proof.Machine
open Sys2Proof

/-- The core as the instruction `i` that is due finds it when its control core issues it now: its stop is not met
(R251), and its wait, if the control core makes it, is satisfied and consumed (R214). None when it does not issue. -/
def State.begins (s : State) (k : Nat) (i : MInstr) : Option Core :=
  let c := s.core k
  match c.ctl.stall with
  | some (.wait _ _) => none
  | some (.window _) | some .ready => some (s.countStop { c with ctl := { c.ctl with stall := none } })
  | none =>
    if s.atStop c = some (c.ctl.stopSeen + 1) then none
    else if i.we && queueOf i.op == 0 then
      if c.waitOk i.wctr i.wval then some (s.countStop (c.consume i.wctr i.wval)) else none
    else some (s.countStop c)

/-- Core `k` issues `i` now, with its effect on the core `c` (R213, R214). -/
def State.issuing (s : State) (k : Nat) (i : MInstr) (c : Core) : Prop :=
  coreOk k = true ∧ s.due (s.core k) = some i ∧ s.begins k i = some c

/-- Nothing follows an instruction that leaves the core `c`: the program goes on, no loop body ends here, and the image
has a next instruction (R235, R238). -/
def State.plain (s : State) (c : Core) : Prop :=
  c.st = .run ∧ (∀ lv, c.ownLoop = some lv → c.ctl.pc ≠ lv.last + 1) ∧ c.ctl.pc < (s.code c c.ctl.ctx).length

/-- The rows of the control core, but for CALL, WINDOW and GRANT, with their opcodes (R229). -/
def controlRows : List (Nat × (Nat → Instr)) :=
  [(0x00, .nop), (0x01, .ldi), (0x02, .add), (0x03, .sub), (0x04, .shl), (0x05, .shr), (0x06, .sra), (0x07, .madd),
   (0x08, .min), (0x09, .max), (0x0A, .and), (0x0B, .smov), (0x0C, .qdepth), (0x0D, .setinc), (0x0E, .cset), (0x10, .loop),
   (0x11, .lbrk), (0x12, .br), (0x14, .ret), (0x15, .halt), (0x16, .sheets)]

/-! ### Queued instructions -/

/-- The rows that go through an engine queue, with the instructions that each row stands for (R242). -/
def queuedRows : List ((Nat → Sys2Proof.Phase → Instr) × (MInstr → Bool)) :=
  [(.accbase, hasOp 0x20), (.accstride, hasOp 0x21), (.accslots, hasOp 0x22), (.txfer, hasOp 0x24),
   (.matmul, hasOp 0x28), (.dmatmul, hasOp 0x29), (.wplane, hasOp 0x2A), (.combine, hasOp 0x2B),
   (.vxfer, hasOp 0x40), (.ccount, hasOp 0x41), (.send, hasOp 0x60), (.emit, hasOp 0x61), (.move, hasOp 0x68),
   (.cfg, hasOp 0x80), (.emask, isVec 0x18), (.rmask, isVec 0x19), (.maskall, isVec 0x1A)]

/-- The rows of `VEC` that compute in lanes, with their operation (R300). -/
def vecRows : List ((Nat → Sys2Proof.Phase → Instr) × Nat) :=
  [(.vecAdd, 0x01), (.vecMul, 0x02), (.vecFma, 0x03), (.vecMin, 0x04), (.vecMax, 0x05), (.cmpeq, 0x08), (.cmpne, 0x09),
   (.cmplt, 0x0A), (.cmple, 0x0B), (.cmpgt, 0x0C), (.cmpge, 0x0D), (.select, 0x0E), (.convert, 0x10), (.exp2, 0x11),
   (.recip, 0x12), (.rsqrt, 0x13)]

/-- The rows of `REDUCE`, with their operation (R305). -/
def reduceRows : List ((Nat → Sys2Proof.Phase → Instr) × Nat) :=
  [(.reduceSum, 0), (.reduceMax, 1), (.reduceMin, 2), (.reduceCount, 3), (.reduceTop1, 4)]

/-- `f` is the started instruction of core `k` that has its effect now: it is the first one that `isOp` accepts and whose
effect is not done, and no bank conflict halts the core (R153, R243). -/
def State.effective (s : State) (k : Nat) (tm : Timing) (isOp : MInstr → Bool) (f : Flight) : Prop :=
  coreOk k = true ∧ (s.core k).live = true ∧ (s.core k).pendingRun isOp = some f ∧
    s.conflictStop (accessClass f.ent.ins.op) tm = none

/-- `s` once the effect of `f` is done, leaving the Drover the commands `todo`, with what the timing of its accesses
leaves in registers (R152, R176, R243, R299). -/
def State.afterEffect (s : State) (k : Nat) (f : Flight) (todo : List DCmd) (tm : Timing) : State :=
  (s.modCore k (fun c => c.markRan f.id todo)).timed k (accessClass f.ent.ins.op) tm

/-- `s` once core `k`, which its accesses leave as `c`, halts for the instruction of `f` (R152, R176, R247). -/
def State.haltsFor (s : State) (k : Nat) (f : Flight) (c : Core) (reason detail : Nat) (tm : Timing) : State :=
  ((s.setCore k c).timed k (accessClass f.ent.ins.op) tm).haltEntry k f.ent reason detail

/-- What an access reads is as it was last written: no bit flips before it and no line of it is read in the cycle of its
last write (R150, R173, R178). -/
def Timing.calm (tm : Timing) : Prop := tm.same = [] ∧ tm.upset.spad = [] ∧ tm.upset.treg = [] ∧ tm.upset.tags = []

/-- The bytes from `a` to `a + n − 1` of the scratchpad can be read: they exist, their sheets are ON, and none of them
lies in a 64-bit word whose code is wrong (R147, R155, R173). -/
def Core.clean (c : Core) (a n : Nat) : Prop :=
  a + n ≤ 2097152 ∧ (∀ m ∈ sheetsOf a n, c.sheet m = .on) ∧ ∀ w ∈ c.mem.spadBad, w.1 * 8 + 8 ≤ a ∨ a + n ≤ w.1 * 8

/-! ### Frames of WORK -/

/-- The segment `g` arrives as one of the transport at a working port, and completes an authentic frame of operation `op`
whose header and segments are valid (R340 to R344, R352 tests 1 and 2). -/
def State.wholeFrame (s : State) (op : Nat) (g : SegIn) : Prop :=
  portOk g.port = true ∧ s.takes g.port g.wire = true ∧ g.hdr.kind = 1 ∧ hdrValid g.hdr g.body.length = true ∧
    s.completes g = true ∧ s.authentic g = true ∧ takesBody op (s.frameBody g) = true ∧ s.fullSegs g = true

/-- `s` as the tests of R352 find it: the stored segments are gone, the segment is copied (R354), and the port of the
stream's results follows the frame (R368). -/
def State.examined (s : State) (g : SegIn) : State := ((s.dropParts (g.port / 4) g.hdr).copySeg g).notePort g

/-- The segment that leaves `s` by port `p` for `addr`, with the header `h` but for its length and IV (R341 to R343). -/
def State.segOut (s : State) (p addr : Nat) (h : Hdr) (body : List Byte) : Out :=
  .seg p addr (Hdr.bytes { h with ver := 1, bodylen := body.length, iv := (s.nextIv p h.tsid).2, rsvd := 0 }) body

/-- A REFUSE that leaves `s` (R357). -/
def State.refusal (s : State) (p addr tsid stream incarn seq reason detail : Nat) : Out :=
  s.segOut p addr (headOf 2 tsid stream incarn seq)
    (ackBody false reason 0 (s.stream stream).creditLeft (s.stream stream).nextSeq detail 0)

/-- An ACCEPT that leaves `s` with the flags `AFLAGS` and the number `cseq` (R357). -/
def State.acceptance (s : State) (p addr tsid stream incarn seq flags cseq : Nat) : Out :=
  s.segOut p addr (headOf 2 tsid stream incarn seq)
    (ackBody true 0 flags (s.stream stream).creditLeft (s.stream stream).nextSeq 0 cseq)

/-- `a` are the segments of the result of `e`, descriptor and payload cut at 8,192 bytes, from port `p` to `addr` (R341,
R366). -/
def carries (p addr : Nat) (e : Entry) (a : List Out) : Prop :=
  let l := pieces 8192 (e.descriptor ++ e.payload)
  a.length = l.length ∧ ∀ i b, l[i]? = some b → ∃ iv, a[i]? = some (Out.seg p addr
    (Hdr.bytes { headOf 3 e.tsid e.stream e.incarn e.seq with segidx := i, segcnt := l.length, bodylen := b.length, iv := iv }) b)

/-- The rows of WORK with the code of their operation (R349). -/
def workRows : List (Nat × (SegIn → Instr)) := [(0, .workRun), (1, .workOpen), (2, .workCancel), (3, .workClose)]

/-! ### Frames of BULK -/

/-- The frame `b` arrives as one of the transport at a working port, authenticates under a live session of `tenant`, and has
a valid header and a valid body of operation `op` while the package accepts work (R324, R327, R340 to R343). -/
def State.bulkReady (s : State) (op : Nat) (b : BulkIn) (tenant : Nat) : Prop :=
  portOk b.port = true ∧ s.takes b.port b.wire = true ∧ b.auth = true ∧ b.hdr.kind = 5 ∧
    (s.session? b.tsid).map (·.tenant) = some tenant ∧ b.hdr.single b.body.length = true ∧
    (bulkHead b.body).bop = op ∧ bulkBad b.body = none ∧ s.refusing = none

/-- A session operation finds its session `x`, not aborted, at its serving hub or while that hub is out of service
(R327). -/
def State.served (s : State) (b : BulkIn) (tenant : Nat) (x : Bulk) : Prop :=
  s.bulk? tenant (bulkHead b.body).session = some x ∧ x.aborted = false ∧ (x.hub = b.port / 4 ∨ (s.hub x.hub).up = false)

/-! ### Management frames -/

/-- The request `m` of operation `mop` arrives as a segment of the transport at a working port and authenticates, with a
valid header and its reserved fields 0, and no limit of requests is reached (R6, R342, R476, R477, R535, R537). -/
def State.requested (s : State) (m : MgmtIn) (mop : Nat) : Prop :=
  portOk m.port = true ∧ s.takes m.port m.wire = true ∧ m.hdr.kind = 6 ∧ m.mop = mop ∧ m.auth = true ∧
    m.busy = false ∧ m.valid = true

/-- The command `e` of code `code` passes the checks 1 to 5 of R541, with the column `q` and the signer that R544 gives, and
has its length. -/
def State.commanded (s : State) (e : Envelope) (code : Nat) (states : List Nat) (q : QCol) (signer : Option Nat) : Prop :=
  s.requested e.req 0x10 ∧ s.mgmtSession e.req.tsid = true ∧ e.cmd = code ∧ states.contains s.fuses.lcs = true ∧
    s.qAllows q = true ∧ e.serial = s.fuses.serial ∧ e.chal = s.mgmt.challenge ∧ some e.signer = signer ∧ e.sigOk = true ∧
    e.lenOk = true

/-- `s` once the command `e` of code `code` is recorded and answered (R542, R543). -/
def State.answered (s : State) (e : Envelope) (code status : Nat) (fields : List Byte) : State :=
  (s.recordCmd code status).answerMgmt e.req status fields

/-! ### PAIR frames -/

/-- The PAIR frame `p` of operation `pop` is authentic and new: it comes as a segment of the transport at a working port of a
live pair, under the partner's recorded `PBOOT`, with a `PSEQ` not seen before (R340, R429, R430). -/
def State.takesPair (s : State) (p : PairIn) (pop : Nat) : Prop :=
  portOk p.port = true ∧ s.takes p.port p.wire = true ∧ s.pairLive = true ∧ p.is pop = true ∧ p.pboot ∉ s.pair.retired ∧
    s.pair.peerBoot = some p.pboot ∧ s.pair.isNew p.pseq = true

/-- `s` once the partner is heard by `p` (R430, R431, R432). -/
def State.heard (s : State) (p : PairIn) : State := { s with pair := s.pair.take p.pseq }.hear p.netB

/-! ### What fuses allow -/

/-- The life-cycle transitions of R492 and R493: UNOWNED to OWNED, OWNED to RETURNED or RETIRED, RETURNED to RETIRED. -/
def lifeCycle : List (Nat × Nat) := [(1, 3), (3, 7), (3, 15), (7, 15)]

/-- The code of the life cycle is one of the five states of R492. -/
def Fuses.legal (a : Fuses) : Bool := [0, 1, 3, 7, 15].contains a.lcs

/-- `b` follows from `a` by burning fuses: the life cycle moves along R492, tallies and the SVN floor only grow, and what is
burned at manufacture stays (R472, R492, R499, R501). -/
def Fuses.burned (a b : Fuses) : Prop :=
  (a.lcs = b.lcs ∨ (a.lcs, b.lcs) ∈ lifeCycle) ∧ a.rotations ≤ b.rotations ∧ a.bindings ≤ b.bindings ∧ a.svnFloor ≤ b.svnFloor ∧
    a.vendor = b.vendor ∧ a.part = b.part ∧ a.serial = b.serial ∧
    (a.owner = b.owner ∨ a.rotations < b.rotations ∨ (a.lcs = 1 ∧ b.lcs = 3)) ∧
    (a.pairSeed = b.pairSeed ∨ a.bindings < b.bindings)

end Sys2Proof.Machine
end

