-- ==== Sys2Proof/Certificates/Slice0/Obligations.lean ====
section
/-! DEFINITION. What is claimed of the model: the statements for the provers. Each docstring names the rules that the
statement follows. -/
section
open Sys2Proof Sys2Proof.Machine

/-- R229: what each scalar instruction of the control core writes. `b` is its second source (R222). NOP writes
nothing. What may follow the issue (its signal, the end of a loop body, PC_RANGE) is what `State.issued` adds, which
`IssueAndWait` states. Completes: nop, ldi, add, sub, shl, shr, sra, madd, min, max, and, smov, qdepth, setinc, cset. -/
def Obligations.ScalarResults : Prop :=
  ∀ (s : State) (k : Nat) (i : MInstr) (c : Core), s.issuing k i c →
    let b : Word := if i.sBI then word i.sIMM else c.a i.sRB
    let put (v : Word) : State := s.issued k i (s.core k) (c.setA i.sRD v).nextPc
    (i.op = 0x00 → exec (.nop k) s = .next (s.issued k i (s.core k) c.nextPc)) ∧
    (i.op = 0x01 → exec (.ldi k) s = .next (put (word i.sIMM))) ∧
    (i.op = 0x02 → exec (.add k) s = .next (put (c.a i.sRA + b))) ∧
    (i.op = 0x03 → exec (.sub k) s = .next (put (c.a i.sRA - b))) ∧
    (i.op = 0x04 → exec (.shl k) s = .next (put (c.a i.sRA <<< (b.toNat % 32)))) ∧
    (i.op = 0x05 → exec (.shr k) s = .next (put (c.a i.sRA >>> (b.toNat % 32)))) ∧
    (i.op = 0x06 → exec (.sra k) s = .next (put ((c.a i.sRA).sshiftRight (b.toNat % 32)))) ∧
    (i.op = 0x07 → exec (.madd k) s =
      .next (put (c.a i.sRA + c.a i.sRB * (BitVec.ofNat 16 i.sIMM).signExtend 32))) ∧
    (i.op = 0x08 → exec (.min k) s = .next (put (if b.slt (c.a i.sRA) then b else c.a i.sRA))) ∧
    (i.op = 0x09 → exec (.max k) s = .next (put (if (c.a i.sRA).slt b then b else c.a i.sRA))) ∧
    (i.op = 0x0A → exec (.and k) s = .next (put (c.a i.sRA &&& b))) ∧
    (i.op = 0x0B → exec (.smov k) s = .next (put (c.sr (i.sRA % 8)))) ∧
    (i.op = 0x0C → exec (.qdepth k) s = .next (put (word (queueDepth i.sSUB - (c.queue i.sSUB).length)))) ∧
    (i.op = 0x0D → exec (.setinc k) s = .next (s.issued k i (s.core k)
      { c with ctl := { c.ctl with ainc := c.ctl.ainc.set (i.sRD * 4 + i.sSUB % 4) (word i.sIMM) } }.nextPc)) ∧
    (i.op = 0x0E → exec (.cset k) s = .next (s.issued k i (s.core k) (c.setCtr i.sRD (i.sIMM % 65536)).nextPc))

/-- R229, R236: a level opens with the A registers saved; a count of 0 skips the body; LBRK restores the registers
whose stride is not 0 and goes on after the body. R235: at the end of a loop body the strides of its level are added
and the body runs again while its count is above 1; after the last time the registers whose stride is not 0 are
restored, the level closes and control goes on. Completes: loop, lbrk. -/
def Obligations.Loops : Prop :=
  (∀ (s : State) (k : Nat) (i : MInstr) (c : Core), s.issuing k i c →
      let n := if i.sBI then i.sIMM % 2 ^ 24 else (c.a i.sRA).toNat
      let last := c.ctl.pc + i.sOFF
      let inside := ∀ lv, c.ownLoop = some lv → last ≤ lv.last
      (i.op = 0x10 → 0 < n → n < 2 ^ 24 → inside → c.ctl.loops.length < 4 →
        exec (.loop k) s = .next (s.issued k i (s.core k) { c with ctl := { c.ctl with
          loops := { first := c.ctl.pc + 1, last := last, count := n, saved := c.ctl.a } :: c.ctl.loops
          pc := c.ctl.pc + 1 } })) ∧
      (i.op = 0x10 → n = 0 → inside → exec (.loop k) s = .next (s.issued k i (s.core k) (c.jump (last + 1)))) ∧
      (i.op = 0x10 → 0 < n → n < 2 ^ 24 → inside → 4 ≤ c.ctl.loops.length →
        exec (.loop k) s = .next (s.issued k i (s.core k) (c.haltHere 0x0B 0x10000000))) ∧
      (i.op = 0x11 → ∀ lv, c.ownLoop = some lv →
        exec (.lbrk k) s = .next (s.issued k i (s.core k) { c with ctl := { c.ctl with
          a := c.ctl.a.mapIdx (fun r v => if c.stride r (c.ctl.loops.length - 1) = 0 then v else at' lv.saved r v)
          loops := c.ctl.loops.tail
          pc := lv.last + 1 } })) ∧
      (i.op = 0x11 → c.ownLoop = none →
        exec (.lbrk k) s = .next (s.issued k i (s.core k) (c.haltHere 0x0B 0x30000000)))) ∧
  ((∀ (c : Core) (lv : LoopLv) (n : Nat), c.ownLoop = some lv → c.ctl.pc = lv.last + 1 →
      let l := c.ctl.loops.length - 1
      let a := c.ctl.a.mapIdx (fun r v => v + c.stride r l)
      (1 < lv.count → Core.loopEnds (n + 1) c = { c with ctl := { c.ctl with
        a := a, loops := { lv with count := lv.count - 1 } :: c.ctl.loops.tail, pc := lv.first } }) ∧
      (lv.count ≤ 1 → Core.loopEnds (n + 1) c = Core.loopEnds n { c with ctl := { c.ctl with
        a := a.mapIdx (fun r v => if c.stride r l = 0 then v else at' lv.saved r v)
        loops := c.ctl.loops.tail
        pc := lv.last + 1 } })) ∧
    (∀ (s : State) (k : Nat) (i : MInstr) (c : Core) (lv : LoopLv), s.issuing k i c → i.op = 0x00 → i.se = false → c.st = .run →
      c.ownLoop = some lv → c.ctl.pc = lv.last → 1 < lv.count → lv.first < (s.code c c.ctl.ctx).length →
      exec (.nop k) s = .next (s.setCore k { c with ctl := { c.ctl with
        a := c.ctl.a.mapIdx (fun r v => v + c.stride r (c.ctl.loops.length - 1))
        loops := { lv with count := lv.count - 1 } :: c.ctl.loops.tail
        pc := lv.first } })))

/-- R237, R238: the comparison that `SUB` names decides a branch; the target of a branch that is taken lies in the
innermost loop body of the routine, or at its end, or, with no loop open, in the image. R239, R240: CALL enters a
routine that the frame's bound commit number has, at most eight deep, and waits while the directory of its die is rebuilt
(R194); RET returns after the CALL once the routine's loops are closed; after HALT the core issues nothing more. Each form
that may not go on halts with the cause of its rule. Completes: br, call, ret, halt. -/
def Obligations.BranchesAndCalls : Prop :=
  (∀ (s : State) (k : Nat) (i : MInstr) (c : Core), s.issuing k i c → i.op = 0x12 →
      let x : Word := if i.sAS then c.sr (i.sRA % 8) else c.a i.sRA
      let y : Word := if i.sBI then word i.sIMM else c.a i.sRB
      let taken : Prop := match i.sSUB with
        | 0 => True
        | 1 => x = y
        | 2 => x ≠ y
        | 3 => x.toInt < y.toInt
        | 4 => y.toInt ≤ x.toInt
        | 5 => x.toNat < y.toNat
        | 6 => y.toNat ≤ x.toNat
        | 7 => fp32Shape.lt x.toNat y.toNat = true
        | 8 => fp32Shape.lt y.toNat x.toNat = true ∨ fp32Shape.eq x.toNat y.toNat = true
        | _ => False
      let t : Int := (c.ctl.pc : Int) + (BitVec.ofNat 32 i.sOFF).toInt
      (¬ taken → exec (.br k) s = .next (s.issued k i (s.core k) c.nextPc)) ∧
      (taken → ∀ lv, c.ownLoop = some lv → (lv.first : Int) ≤ t → t ≤ (lv.last : Int) + 1 →
        exec (.br k) s = .next (s.issued k i (s.core k) (c.jump t.toNat))) ∧
      (taken → ∀ lv, c.ownLoop = some lv → (t < (lv.first : Int) ∨ (lv.last : Int) + 1 < t) →
        exec (.br k) s = .next (s.issued k i (s.core k) (c.haltHere 0x0B 0x40000000))) ∧
      (taken → c.ownLoop = none → 0 ≤ t → t < ((s.code (s.core k) (s.core k).ctl.ctx).length : Int) →
        exec (.br k) s = .next (s.issued k i (s.core k) (c.jump t.toNat))) ∧
      (taken → c.ownLoop = none → (t < 0 ∨ ((s.code (s.core k) (s.core k).ctl.ctx).length : Int) ≤ t) →
        exec (.br k) s = .next (s.issued k i (s.core k) (c.haltHere 0x08 (pattern 32 t))))) ∧
  (∀ (s : State) (k : Nat) (i : MInstr) (c : Core), s.issuing k i c →
      let rebuilt : Bool := (at' s.dsm (k / 128) (Dsm.fresh false)).rebuild
      (i.op = 0x13 → rebuilt = true → exec (.call k) s = .next s) ∧
      (i.op = 0x13 → rebuilt = false → c.ctl.calls.length < 8 →
        ∀ e, s.frameOf (s.core k) = some e → s.routineFor e i.sIMM = none →
        exec (.call k) s = .next (s.issued k i (s.core k) (c.haltHere 0x0F i.sIMM))) ∧
      (i.op = 0x13 → rebuilt = false → c.ctl.calls.length < 8 →
        ∀ e v, s.frameOf (s.core k) = some e → s.routineFor e i.sIMM = some v →
        exec (.call k) s = .next (s.issued k i (s.core k) { c with ctl := { c.ctl with
          calls := ⟨c.ctl.ctx, c.ctl.pc, c.ctl.loops.length⟩ :: c.ctl.calls
          ctx := i.sIMM
          pc := 0 } })) ∧
      (i.op = 0x13 → rebuilt = false → 8 ≤ c.ctl.calls.length →
        exec (.call k) s = .next (s.issued k i (s.core k) (c.haltHere 0x0C 0x10000000))) ∧
      (i.op = 0x14 → ∀ r rest, c.ctl.calls = r :: rest → c.ctl.loops.length ≤ r.loops →
        exec (.ret k) s = .next (s.issued k i (s.core k) { c with ctl := { c.ctl with
          calls := rest, ctx := r.ctx, pc := r.pc + 1 } })) ∧
      (i.op = 0x14 → ∀ r rest, c.ctl.calls = r :: rest → r.loops < c.ctl.loops.length →
        exec (.ret k) s = .next (s.issued k i (s.core k) (c.haltHere 0x0B 0x50000000))) ∧
      (i.op = 0x14 → c.ctl.calls = [] →
        exec (.ret k) s = .next (s.issued k i (s.core k) (c.haltHere 0x0C 0x20000000))) ∧
      (i.op = 0x15 → exec (.halt k) s =
        .next ((s.issued k i (s.core k) { c with st := .draining }).settle k))) ∧
  (∀ (s : State) (c : Core), c.st ≠ .run → s.due c = none)

/-- R155, R157: SHEETS makes its operand the footprint: a sheet of the mask that is not ON is WAKING, any other one is OFF,
and a sheet that was ON or RETENTION keeps its bytes; what a sheet that was OFF holds is free. R165, R166, R170: a window that fits, meets no other one and lies on no sheet
that is OFF is declared with no credit, or is undeclared, when none of its deposits is on its way; GRANT adds credit
up to the window's size, and halts with FIELD_INVALID beyond it and on a window that is not declared. Completes: sheets,
windowDeclare, windowUndeclare, grant. -/
def Obligations.SheetsAndWindows : Prop :=
  (∀ (c : Core) (mask free m : Nat), m < 32 → c.mem.sheets.length = 32 → Mem.wf c.mem.spad = true →
    (c.footprint mask free).sheet m =
      (if mask.testBit m then (if c.sheet m = .on then .on else .waking) else .off) ∧
    (mask.testBit m = true → c.sheet m ≠ .off →
      ∀ a, a / 65536 = m → Mem.read (c.footprint mask free).mem.spad a = Mem.read c.mem.spad a) ∧
    (mask.testBit m = true → c.sheet m = .off → ∀ i, i < 65536 →
      Mem.read (c.footprint mask free).mem.spad (m * 65536 + i) = BitVec.ofNat 8 (Config.openValue 32 free (m * 65536 + i)))) ∧
  ∀ (s : State) (k : Nat) (i : MInstr) (c : Core), s.issuing k i c →
    let w := i.sSUB % 8
    let base := i.sIMM % 32768
    let lines := i.sIMM / 65536 + 1
    let n : Word := if i.sBI then word i.sIMM else c.a i.sRA
    (i.op = 0x16 → exec (.sheets k) s =
      .next ((s.issued k i (s.core k) (c.footprint n.toNat s.pkg.free).nextPc).drewWakes s k)) ∧
    (i.op = 0x17 → i.sSUB < 8 → base + lines ≤ 32768 →
      (∀ (j : Nat) (v : Window), j ≠ w → c.wins[j]? = some (some v) → meets base lines v.base v.lines = false) →
      (∀ m ∈ sheetsOf (base * 64) (lines * 64), c.sheet m ≠ .off) → s.inFlight k w = false →
      let t := s.issued k i (s.core k) (c.setWindow w (some ⟨base, lines, i.sRD, 0⟩)).nextPc
      exec (.windowDeclare k) s = .next (recheck k t.deposits t)) ∧
    (i.op = 0x17 → 8 ≤ i.sSUB → s.inFlight k w = false →
      exec (.windowUndeclare k) s = .next (s.issued k i (s.core k) (c.setWindow w none).nextPc)) ∧
    (i.op = 0x18 → ∀ v, c.window w = some v → 0 < n.toNat → n.toNat ≤ 32768 → v.credit + n.toNat ≤ v.lines →
      exec (.grant k) s =
        .next (s.issued k i (s.core k) (c.setWindow w (some { v with credit := v.credit + n.toNat })).nextPc).tryCredit) ∧
    (i.op = 0x18 → ∀ v, c.window w = some v → (n.toNat = 0 ∨ 32768 < n.toNat ∨ v.lines < v.credit + n.toNat) →
      let h := c.haltHere 0x02 (fieldDetail 0 (if i.sBI then 32 else 76))
      exec (.grant k) s = .next (s.issued k i (s.core k) h).tryCredit ∧ h.window w = some v) ∧
    (i.op = 0x18 → c.window w = none →
      exec (.grant k) s = .next (s.issued k i (s.core k) (c.haltHere 0x02 (fieldDetail 0 68))).tryCredit)

/-- R215, R216, R235, R238: the control core's own instruction signals as it issues: the counter grows by `SINC` + 1,
or, where that would take it above 65,535, the core halts with SYNC_OVERFLOW and the counter keeps its value. Nothing
else follows an instruction that ends no loop body and has another one behind it. R214: a wait that is not satisfied
stalls the instruction stream, and nothing else happens: so for every instruction of the control core but WINDOW and
GRANT. -/
def Obligations.IssueAndWait : Prop :=
  (∀ (s : State) (k : Nat) (i : MInstr) (c0 c1 : Core), c1.st = .run →
      let signals : Bool := i.se && queueOf i.op == 0
      let v := c1.ctr i.sctr + (i.sinc + 1)
      let c2 := if signals then c1.setCtr i.sctr v else c1
      (signals = true → 65535 < v → s.issued k i c0 c1 =
        (s.setCore k c1).haltCore k c0.ctl.ctx c0.ctl.pc c0.ctl.calls.length 0x17 (i.sctr * 2 ^ 26)) ∧
      ((signals = true → v ≤ 65535) → s.plain c2 → s.issued k i c0 c1 = s.setCore k c2)) ∧
  (∀ (s : State) (k : Nat) (i : MInstr), coreOk k = true → s.due (s.core k) = some i → (s.core k).ctl.stall = none →
      s.atStop (s.core k) ≠ some ((s.core k).ctl.stopSeen + 1) → i.we = true → (s.core k).ctr i.wctr < i.wval →
      let t := s.setCore k { s.core k with ctl := { (s.core k).ctl with stall := some (.wait i.wctr i.wval) } }
      (∀ p ∈ controlRows, i.op = p.1 → exec (p.2 k) s = .next t) ∧
      (i.op = 0x13 → (at' s.dsm (k / 128) (Dsm.fresh false)).rebuild = false → exec (.call k) s = .next t))

/-- R229 (frame): a scalar instruction, a loop, a branch, CALL or RET of core `k` leaves every other core, and everything of
its own core but its control registers, its state, its halt record, its queues and its counters of R254 unchanged; beside
cores only the ledger entries (a stop that is met, R251) and the deposits (those of a core that halts, R171) may change. -/
def Obligations.ControlCoreFrame : Prop :=
  ∀ (s t : State) (k : Nat) (c : Instr),
    (c = .nop k ∨ c = .ldi k ∨ c = .add k ∨ c = .sub k ∨ c = .shl k ∨ c = .shr k ∨ c = .sra k ∨ c = .madd k ∨ c = .min k ∨
      c = .max k ∨ c = .and k ∨ c = .smov k ∨ c = .qdepth k ∨ c = .setinc k ∨ c = .cset k ∨ c = .loop k ∨ c = .lbrk k ∨
      c = .br k ∨ c = .call k ∨ c = .ret k) →
    exec c s = .next t →
    t = { s with cores := t.cores, entries := t.entries, deposits := t.deposits } ∧
    (∀ j, j ≠ k → t.core j = s.core j) ∧
    t.core k = { s.core k with
      st := (t.core k).st, haltRec := (t.core k).haltRec, ctl := (t.core k).ctl, prog := (t.core k).prog, q := (t.core k).q } ∧
    t.entries = s.entries.map (fun e =>
      if (s.core k).st = .run ∧ (s.core k).entry = some e.cseq ∧ ((t.core k).st = .stopping ∨ (t.core k).st = .stopped) then
        { e with frame := { e.frame with stopped := (s.core k).rank :: e.frame.stopped } } else e)

/-- R214, R220, R244: issuing a queued instruction pushes it with its A registers captured, and execution goes on;
when its queue has no free entry, the core halts with ENGQ_OVERRUN. -/
def Obligations.QueuedPush : Prop :=
  (queueDepth 1 = 64 ∧ queueDepth 2 = 64 ∧ queueDepth 3 = 64 ∧ queueDepth 4 = 16) ∧
  ∀ p ∈ queuedRows ++ vecRows.map (fun r => (r.1, isVec r.2)) ++ reduceRows.map (fun r => (r.1, isRed r.2)),
  ∀ (s : State) (k : Nat) (i : MInstr) (c : Core), s.issuing k i c → p.2 i = true →
    let q := queueOf i.op
    let e : QEntry := ⟨i, c.ctl.a, c.ctl.ctx, c.ctl.pc, c.ctl.calls.length, c.q.prevOut⟩
    ((c.queue q).length < queueDepth q →
      let c1 := c.setQueue q (c.queue q ++ [e])
      exec (p.1 k .issue) s = .next (s.issued k i (s.core k)
        (if q = 1 ∧ isMacro i.op then { c1 with q := { c1.q with prevOut := coutOf i } } else c1).nextPc)) ∧
    (queueDepth q ≤ (c.queue q).length →
      exec (p.1 k .issue) s = .next (s.issued k i (s.core k) (c.haltHere 0x0A (q * 2 ^ 28))))

/-- R116, R119, R229: ACCBASE, ACCSTRIDE and ACCSLOTS write their registers; a base above 31 or a count of slots above
1,024 halts with FIELD_INVALID. R98, R99, R101, R227: CFG loads an item of the near units of its engines: ACT and
OUTCTL from its word, a table of the placement otherwise; the other engines and all else of the core are unchanged; a table
that cannot be loaded on them halts, an active bank on any engine of the mask before its thresholds are examined.
Completes: accbase, accstride, accslots, cfg. -/
def Obligations.RegionAndConfiguration : Prop :=
  (∀ (s : State) (k : Nat) (tm : Timing) (f : Flight),
      let s0 := s.enter k tm
      let c := s0.core k
      let v := if f.ent.ins.sBI then f.ent.ins.sIMM else (at' f.ent.regs f.ent.ins.sRA 0).toNat
      let done (a : CoreAcc) : State := (s0.setCore k { c with acc := a }).afterEffect k f [] tm
      let bad : State := s0.haltsFor k f c 0x02 (fieldDetail 0 (if f.ent.ins.sBI then 32 else 76)) tm
      (s.effective k tm (hasOp 0x20) f → v ≤ 31 →
        exec (.accbase k (.run tm)) s = .next (done { c.acc with accBase := v })) ∧
      (s.effective k tm (hasOp 0x20) f → 31 < v → exec (.accbase k (.run tm)) s = .next bad) ∧
      (s.effective k tm (hasOp 0x21) f →
        exec (.accstride k (.run tm)) s = .next (done { c.acc with accStride := v })) ∧
      (s.effective k tm (hasOp 0x22) f → v ≤ 1024 →
        exec (.accslots k (.run tm)) s = .next (done { c.acc with accSlots := v })) ∧
      (s.effective k tm (hasOp 0x22) f → 1024 < v → exec (.accslots k (.run tm)) s = .next bad)) ∧
  (∀ (s : State) (k : Nat) (tm : Timing) (f : Flight), s.effective k tm (hasOp 0x80) f →
      let s0 := s.enter k tm
      let c := s0.core k
      let i := f.ent.ins
      let on (e : Nat) : Bool := decide (e < 32) && bitAt i.gEMASK e
      let units := (enginesOf i.gEMASK).map (fun e => (c.engine e).nu)
      (i.gITEM = 2 ∨ i.gITEM = 8 → ∃ c1, exec (.cfg k (.run tm)) s = .next ((s0.setCore k c1).afterEffect k f [] tm) ∧
        c1 = { c with engines := c1.engines } ∧
        ∀ e, c1.engine e = if on e then { c.engine e with nu := if i.gITEM = 2 then
          { (c.engine e).nu with act := word i.gWORD } else { (c.engine e).nu with outctl := word i.gWORD } } else c.engine e) ∧
      (i.gITEM ≠ 2 → i.gITEM ≠ 8 → ∀ pl t, s0.namedPlacement c i.gHANDLE = .ok pl →
        pl.tables.find? (fun t => t.tidx == i.gTIDX) = some t → t.kind = i.gITEM →
        (loadFault units i.gITEM t.entries = none →
          ∃ c1, exec (.cfg k (.run tm)) s = .next ((s0.setCore k c1).afterEffect k f [] tm) ∧
            c1 = { c with engines := c1.engines } ∧
            ∀ e, c1.engine e = if on e then { c.engine e with nu := loadTable (c.engine e).nu i.gITEM t.entries } else c.engine e) ∧
        (∀ r x, loadFault units i.gITEM t.entries = some (r, x) →
          exec (.cfg k (.run tm)) s = .next (s0.haltsFor k f c r x tm)) ∧
        (i.gITEM = 5 ∨ i.gITEM = 6 → (∃ u ∈ units, u.bankB = decide (i.gITEM = 6)) →
          exec (.cfg k (.run tm)) s = .next (s0.haltsFor k f c 0x16 (i.gITEM - 5) tm))))

/-- R136, R150, R172, R177, R223, R232: TXFER and VXFER with `DIR` 0 move rows of 512 bytes, as reads of the scratchpad return
them, into a tile register; each row takes the tags of its lines and, under `SLT`, the tag of its slot; nothing else of the
tile registers and nothing of the scratchpad changes. With `DIR` 1 they move rows from a tile register to the scratchpad;
where rows overlap the later one stays; a byte that no row covers and every tile register are unchanged. A base that is no
line address, and `SLT` with `DIR` 1, halt with FIELD_INVALID. Completes: txfer, vxfer. -/
def Obligations.Transfers : Prop :=
  ∀ (s : State) (k : Nat) (tm : Timing) (f : Flight),
    let s0 := s.enter k tm
    let c := s0.core k
    let i := f.ent.ins
    let a := f.ent.reg i.xRA
    let at_ (j : Nat) : Nat := a + 64 * j * i.xSTRIDE
    ∀ p ∈ [(0x24, Instr.txfer k (.run tm)), (0x40, Instr.vxfer k (.run tm))], s.effective k tm (hasOp p.1) f →
      (a % 64 ≠ 0 → exec p.2 s = .next (s0.haltsFor k f c 0x02 (fieldDetail 0 81) tm)) ∧
      (a % 64 = 0 → i.xSLT = true → i.xDIR = true →
        exec p.2 s = .next (s0.haltsFor k f c 0x02 (fieldDetail 0 49) tm)) ∧
      (i.xDIR = false → a % 64 = 0 → i.xROW + i.xNROWS ≤ 64 → (∀ j, j < i.xNROWS → c.clean (at_ j) 512) →
        ∃ c1, exec p.2 s = .next ((s0.setCore k c1).afterEffect k f [] tm) ∧ c1.mem.spad = c.mem.spad ∧
          c1.ctl = c.ctl ∧ c1.acc = c.acc ∧ c1.wins = c.wins ∧ c1.engines = c.engines ∧
          (∀ j b, j < i.xNROWS → b < 512 →
            Mem.read c1.mem.treg (tregAddr i.xTREG (i.xROW + j) + b) = c.spByte (at_ j + b)) ∧
          (∀ x, x < tregAddr i.xTREG i.xROW ∨ tregAddr i.xTREG (i.xROW + i.xNROWS) ≤ x →
            Mem.read c1.mem.treg x = Mem.read c.mem.treg x) ∧
          (∀ j, j < i.xNROWS → c1.rowTag i.xTREG (i.xROW + j) =
            c.lineTags (at_ j) 512 ||| (if i.xSLT then c.slotTagOf i.xSLOT else 0))) ∧
      (i.xDIR = true → i.xSLT = false → a % 64 = 0 → i.xROW + i.xNROWS ≤ 64 →
        (∀ j, j < i.xNROWS → c.clean (at_ j) 512) →
        (∀ w ∈ c.mem.tregBad, w * 4 + 4 ≤ tregAddr i.xTREG i.xROW ∨ tregAddr i.xTREG (i.xROW + i.xNROWS) ≤ w * 4) →
        (∀ r ∈ c.mem.tagBad, r < i.xTREG * 64 + i.xROW ∨ i.xTREG * 64 + i.xROW + i.xNROWS ≤ r) →
        ∃ c1, exec p.2 s = .next ((s0.setCore k c1).afterEffect k f [] tm) ∧ c1.mem.treg = c.mem.treg ∧
          c1.ctl = c.ctl ∧ c1.acc = c.acc ∧ c1.wins = c.wins ∧ c1.engines = c.engines ∧
          (∀ j b, j < i.xNROWS → b < 512 →
            (∀ j', j < j' → j' < i.xNROWS → at_ j + b < at_ j' ∨ at_ j' + 512 ≤ at_ j + b) →
            Mem.read c1.mem.spad (at_ j + b) = Mem.read c.mem.treg (tregAddr i.xTREG (i.xROW + j) + b)) ∧
          (∀ x, (∀ j, j < i.xNROWS → x < at_ j ∨ at_ j + 512 ≤ x) → Mem.read c1.mem.spad x = Mem.read c.mem.spad x))

/-- R161, R162, R163: CCOUNT writes to S[`SD`] how many of the region's elements stand in the relation to `VALUE`, and
0 for a region of no element; a format it does not take and a base that is no line address halt with FIELD_INVALID.
Completes: ccount. -/
def Obligations.CompareAndCount : Prop :=
  ∀ (s : State) (k : Nat) (tm : Timing) (f : Flight), s.effective k tm (hasOp 0x41) f →
    let s0 := s.enter k tm
    let c := s0.core k
    let i := f.ent.ins
    let a := f.ent.reg i.cRA
    let done (n : Nat) : State := (s0.setCore k (c.setS i.cSD (word n))).afterEffect k f [] tm
    let bad (bit : Nat) : State := s0.haltsFor k f c 0x02 (fieldDetail 0 bit) tm
    (a % 64 ≠ 0 → exec (.ccount k (.run tm)) s = .next (bad 82)) ∧
    (a % 64 = 0 → Fmt.ofCode i.cFMT = none → exec (.ccount k (.run tm)) s = .next (bad 54)) ∧
    (∀ fm, Fmt.ofCode i.cFMT = some fm → a % 64 = 0 →
      (fm ≠ .bfp12 → i.cE = 0 → exec (.ccount k (.run tm)) s = .next (done 0)) ∧
      (fm ≠ .bfp12 → 0 < i.cE → c.clean a (rowLines i.cE fm.width * 64) →
        exec (.ccount k (.run tm)) s = .next (done ((elems (c.spBytes a (rowBytes i.cE fm.width)) fm.width
          i.cE).filter (fun w => compareCodes fm i.cREL w (i.cVALUE % 2 ^ fm.width))).length)) ∧
      (fm = .bfp12 → exec (.ccount k (.run tm)) s = .next (bad 54)))

/-- R292, R300, R310, R312, R313: VEC computes row by row; with no parity error in the tile registers it completes. A
row step computes every column that neither mask clears from the sources' elements of that row, writes those elements
and no other, tags the row by what it wrote and read, and raises the lanes' flags. The scratchpad and the control registers
are unchanged; a macro of no element changes nothing. Completes: vecAdd, vecMul, vecFma, vecMin, vecMax, cmpeq, cmpne, cmplt,
cmple, cmpgt, cmpge, select, convert, exp2, recip, rsqrt. -/
def Obligations.VectorRowsComplete : Prop :=
  ∀ p ∈ vecRows, ∀ (s : State) (k : Nat) (tm : Timing) (f : Flight), s.effective k tm (isVec p.2) f →
    let s0 := s.enter k tm
    let c := s0.core k
    let ts := f.ent.tens
    let dst := f.ent.ten f.ent.ins.mNDESC
    (f.zero = true → exec (p.1 k (.run tm)) s = .next (s0.afterEffect k f [] tm)) ∧
    (f.zero = false → c.mem.tregBad = [] → c.mem.tagBad = [] →
      ∃ c1 fl, vecLoop p.2 ts.dropLast dst (colsOf ts) (rowsOf ts) 0 c 0 = .ok (c1, fl) ∧
      exec (p.1 k (.run tm)) s =
        .next (((s0.setCore k (c1.countIssue (issueCycles ts))).joinFlags c fl 0).afterEffect k f [] tm) ∧
      c1.mem.spad = c.mem.spad ∧ c1.ctl = c.ctl ∧ c1.acc = c.acc ∧ c1.engines = c.engines ∧ c1.q = c.q) ∧
    (∀ (c0 : Core) (dst a : Ten) (ob : Option Ten) (i n : Nat), c0.mem.tregBad = [] → c0.mem.tagBad = [] →
      (p.2 = 0x03 ∨ p.2 = 0x0E → ob.isSome = true) →
      let row (t : Ten) : Nat := if t.maxr = 1 then 0 else i
      let get (t : Ten) (x : Nat) : Nat := Mem.elem c0.mem.treg (t.view.row (row t)) t.view.w (t.col x)
      let old : Bool := p.2 == 0x03 || p.2 == 0x0E
      let d (x : Nat) : Nat := if old then Mem.elem c0.mem.treg (dst.view.row i) dst.view.w x else 0
      let lane (x : Nat) : Lane := laneOp p.2 a.fmt dst.fmt (get a x) (match ob with
        | some b => get b x
        | none => 0) (d x)
      let read (x : Nat) : Nat := (a :: ob.toList).foldl (fun t v => t ||| c0.laneTag v.view (row v) (v.col x)) 0 |||
        (if old then c0.laneTag dst.view i x else 0)
      let on := if c0.mem.rowOn i then (List.range n).filter c0.mem.elemOn else []
      c0.vecStep p.2 (a :: ob.toList) dst i n =
        .ok (if on = [] then c0 else c0.writeLanes dst.view i n (on.map (fun x => (x, (lane x).code)))
            (on.foldl (fun t x => t ||| (lane x).tag ||| codeTag dst.fmt (lane x).code ||| read x) 0),
          (on.map (fun x => (lane x).flags)).foldl (· ||| ·) 0))

/-- R310: EMASK and RMASK set the bits of their mask where the source's element is not zero and clear the others;
MASKALL sets both masks to all ones. R305, R306, R309: REDUCE completes with no parity error in the tile registers;
along both axes (`RAX` 2) it writes its result to S[`SD`], TOP1 also its index to S[`SD` + 1], where the registers
exist; the scratchpad, the A registers and the accumulation state are unchanged. A macro of no element changes nothing.
Completes: emask, rmask, maskall, reduceSum, reduceMax, reduceMin, reduceCount, reduceTop1. -/
def Obligations.MasksAndReductions : Prop :=
  (∀ p ∈ [(0x18, Instr.emask), (0x19, .rmask), (0x1A, .maskall)], ∀ (s : State) (k : Nat) (tm : Timing) (f : Flight),
      s.effective k tm (isVec p.1) f → f.zero = true →
      exec (p.2 k (.run tm)) s = .next (((s.enter k tm).setCore k ((s.enter k tm).core k)).afterEffect k f [] tm)) ∧
  (∀ (s : State) (k : Nat) (tm : Timing) (f : Flight), f.zero = false →
      let s0 := s.enter k tm
      let c := s0.core k
      c.mem.tregBad = [] → c.mem.tagBad = [] →
      let t := f.ent.ten 1
      let done (m : CoreMem) : State :=
        (s0.setCore k ({ c with mem := m }.countIssue (issueCycles f.ent.tens))).afterEffect k f [] tm
      (s.effective k tm (isVec 0x18) f → ∃ e : BitVec 512,
        exec (.emask k (.run tm)) s = .next (done { c.mem with elemMask := e }) ∧
        ∀ n, n < 512 → e.getLsbD n =
          (decide (n < colsOf f.ent.tens) && Mem.elem c.mem.treg (t.view.row 0) t.view.w n != 0)) ∧
      (s.effective k tm (isVec 0x19) f → ∃ e : BitVec 64,
        exec (.rmask k (.run tm)) s = .next (done { c.mem with rowMask := e }) ∧
        ∀ n, n < 64 → e.getLsbD n =
          (decide (n < rowsOf f.ent.tens) && Mem.elem c.mem.treg (t.view.row n) t.view.w 0 != 0)) ∧
      (s.effective k tm (isVec 0x1A) f → exec (.maskall k (.run tm)) s =
        .next (done { c.mem with rowMask := BitVec.allOnes 64, elemMask := BitVec.allOnes 512 }))) ∧
  (∀ p ∈ reduceRows, ∀ (s : State) (k : Nat) (tm : Timing) (f : Flight), s.effective k tm (isRed p.2) f →
      let s0 := s.enter k tm
      let c := s0.core k
      (f.zero = true → exec (p.1 k (.run tm)) s = .next (s0.afterEffect k f [] tm)) ∧
      (f.zero = false → c.mem.tregBad = [] → c.mem.tagBad = [] →
      let vop := f.ent.ins.mVOP
      let n := colsOf f.ent.tens
      ∃ (s1 : State) (rows : List (List (Nat × Nat × Nat))), exec (p.1 k (.run tm)) s = .next (s1.afterEffect k f [] tm) ∧
        c.partRows (f.ent.ten 1) n (rowsOf f.ent.tens) 0 = .ok rows ∧
        (s1.core k).mem.spad = c.mem.spad ∧ (s1.core k).ctl.a = c.ctl.a ∧ (s1.core k).acc = c.acc ∧
        (∀ j, j ≠ k → s1.core j = s.core j) ∧
        let out := reduceGroups p.2 (f.ent.ten 1).fmt (f.ent.ten 2).fmt
          (rows.mapIdx (fun r l => l.map (fun x => (r * n + x.1, x.2.1))))
        (vop / 64 = 2 → vop % 8 < c.ctl.sreg.length → (s1.core k).sr (vop % 8) = word out.sval) ∧
        (vop / 64 = 2 → p.2 = 4 → vop % 8 + 1 < c.ctl.sreg.length → (s1.core k).sr (vop % 8 + 1) = word out.index)))

/-- R164, R245: SEND makes a deposit of its lines, which waits for credit, into the window of the core of rank
`DRANK`; a destination in a spare substitution, one that runs another frame, and a window that cannot take the lines halt
the sender (R167, R415). R246: EMIT copies its lines into the frame's result, where they lie in the result and were not
emitted before; the OR of their tags joins the result's tags. A line outside it or emitted twice halts with EMIT_RANGE.
Completes: send, emit. -/
def Obligations.SendsAndEmits : Prop :=
  (∀ (s : State) (k d : Nat) (tm : Timing) (f : Flight), s.effective k tm (hasOp 0x60) f →
      let s0 := s.enter k tm
      let c := s0.core k
      let i := f.ent.ins
      let a := f.ent.reg i.dRA
      a % 64 = 0 → s0.coreOfRank c i.dDRANK = some d → a + i.dLEN * 64 ≤ 2097152 →
      (s0.substOn d none = none → s0.depositFault k d i.dWIN i.dWOFF i.dLEN = none →
        let dep : Deposit := ⟨s.nextDep, .core k f.id, [d], i.dWIN, i.dWOFF, i.dLEN, some a, [], false, true⟩
        let s1 : State := { s0 with deposits := s.deposits ++ [dep], nextDep := s.nextDep + 1 }
        exec (.send k (.run tm)) s = .next (s1.tryCredit.afterEffect k f [] tm)) ∧
      (∀ lv, s0.substOn d none = some lv → exec (.send k (.run tm)) s = .next (s0.haltsFor k f c 0x41 (lv * 2 ^ 28) tm)) ∧
      (s0.substOn d none = none → ∀ r x, s0.depositFault k d i.dWIN i.dWOFF i.dLEN = some (r, x) →
        exec (.send k (.run tm)) s = .next (s0.haltsFor k f c r x tm)) ∧
      (s0.substOn d none = none → (s.core d).entry ≠ c.entry →
        exec (.send k (.run tm)) s = .next (s0.haltsFor k f c 0x07 (deniedDetail 0xFFFF 0 0 5) tm))) ∧
  (∀ (s : State) (k : Nat) (tm : Timing) (f : Flight) (e : Entry) (b : RunBody), s.effective k tm (hasOp 0x61) f →
      let s0 := s.enter k tm
      let c := s0.core k
      let i := f.ent.ins
      let a := f.ent.reg i.eRA
      let o := f.ent.reg i.eRB
      let lines := tabulate i.eLEN (fun j => o / 64 + j)
      s.frameOf c = some e → e.op = .run b → a % 64 = 0 → o % 64 = 0 →
      ((∀ l ∈ lines, l * 64 + 64 ≤ b.rlen ∧ l ∉ e.frame.emitted) → c.clean a (i.eLEN * 64) →
        exec (.emit k (.run tm)) s = .next (((s0.setCore k c).modEntry e.cseq (fun e => { e with frame := { e.frame with
          result := Mem.writeBytes e.frame.result o (c.spBytes a (i.eLEN * 64))
          emitted := lines ++ e.frame.emitted
          rtag := e.frame.rtag ||| c.lineTags a (i.eLEN * 64) } })).afterEffect k f [] tm)) ∧
      (∀ l, lines.find? (fun l => decide (b.rlen < l * 64 + 64) || e.frame.emitted.contains l) = some l →
        exec (.emit k (.run tm)) s = .next (s0.haltsFor k f c 0x18
          ((if b.rlen < l * 64 + 64 then 1 else 2) * 2 ^ 28 + l % 2 ^ 28) tm)))

/-- R243, R255, R277, R281, R282, R289: a matrix or move macro that starts leaves its tiles, in walk order, for the
Drover and issues them afterwards; with a length of 0 it has no effect but the step of a counter that its completion
owes (R284, R290), which a split MATMUL without a partial owes too. R283, R285: COMBINE adds the partials of each unit and
vector that lie in its window and passes each sum through the FINAL route; without a declared window it halts with SP_RANGE.
Completes: matmul, dmatmul, wplane, combine, move. -/
def Obligations.MatrixMacros : Prop :=
  (∀ (s : State) (k : Nat) (tm : Timing) (f : Flight) (pl : Placement),
      let s0 := s.enter k tm
      let c := s0.core k
      let part (d : DCmd) : Bool := match d with
        | .part _ _ _ _ _ => true
        | _ => false
      (s.effective k tm (hasOp 0x28) f → f.zero = false → s0.namedPlacement c f.ent.handle = .ok pl →
        let todo := walkMatmul f.ent pl k
        ((f.ent.red 3).split = false ∨ todo.any part = true →
          exec (.matmul k (.run tm)) s = .next (s0.afterEffect k f todo tm)) ∧
        (todo.any part = false →
          exec (.matmul k (.run tm)) s = .next ((s0.ownerStep c (f.ent.red 3)).afterEffect k f todo tm))) ∧
      (s.effective k tm (hasOp 0x29) f → f.zero = false → s0.namedPlacement c f.ent.handle = .ok pl →
        exec (.dmatmul k (.run tm)) s = .next (s0.afterEffect k f (walkDmatmul f.ent pl k) tm)) ∧
      (s.effective k tm (hasOp 0x2A) f → f.zero = false → s0.namedPlacement c f.ent.handle = .ok pl →
        exec (.wplane k (.run tm)) s = .next (s0.afterEffect k f (walkWplane f.ent pl k) tm)) ∧
      (s.effective k tm (hasOp 0x68) f → f.zero = false →
        exec (.move k (.run tm)) s = .next (s0.afterEffect k f (walkMove f.ent) tm)) ∧
      (s.effective k tm (hasOp 0x28) f → f.zero = true →
        exec (.matmul k (.run tm)) s = .next ((s0.ownerStep c (f.ent.red 3)).afterEffect k f [] tm)) ∧
      (s.effective k tm (hasOp 0x29) f → f.zero = true →
        exec (.dmatmul k (.run tm)) s = .next (s0.afterEffect k f [] tm)) ∧
      (s.effective k tm (hasOp 0x2A) f → f.zero = true →
        exec (.wplane k (.run tm)) s = .next (s0.afterEffect k f [] tm)) ∧
      (s.effective k tm (hasOp 0x2B) f → f.zero = true →
        exec (.combine k (.run tm)) s = .next ((s0.setCore k c).afterEffect k f [] tm)) ∧
      (s.effective k tm (hasOp 0x68) f → f.zero = true →
        exec (.move k (.run tm)) s = .next (((mcastCores k (f.ent.mov 2).mcast).foldl
          (fun s d => s.bareStep d (f.ent.mov 2).dwin) s0).afterEffect k f [] tm))) ∧
  (∀ (s : State) (k : Nat) (tm : Timing) (f : Flight) (pl : Placement), s.effective k tm (hasOp 0x2B) f → f.zero = false →
      let s0 := s.enter k tm
      let c := s0.core k
      let p := f.plan
      s0.namedPlacement c f.ent.handle = .ok pl → outAllowed (f.ent.red 2).pfp p.yfmt = true →
      (∀ v c1, c.window (f.ent.red 2).win = some v →
        combineAll f pl k v ((combineUnits f.ent pl k).flatMap (fun q =>
          (List.range (actualLen p.rowLen none p.pm)).map (fun m => (q.1, q.2, m)))) c = .ok c1 →
        exec (.combine k (.run tm)) s = .next ((s0.setCore k c1).afterEffect k f [] tm)) ∧
      (c.window (f.ent.red 2).win = none → exec (.combine k (.run tm)) s =
        .next (s0.haltsFor k f c 0x04 (4 * 2 ^ 28) tm)))

/-- R214, R216, R243, R264: the head of queue `q` starts once its wait is satisfied, whose threshold it consumes, and no
waiter that comes before it in the order of R216 takes it; an instruction leaves the queue, a macro makes its checks and
holds the head. An unsatisfied wait leaves everything as it is; a macro that fails a check halts the core. R126, R215, R293: a
started instruction of which nothing is on its way completes: its runs are written to their slots, a macro is counted, and it
signals. Completes: queueHeadStart, instructionComplete. -/
def Obligations.QueueHeadsAndCompletions : Prop :=
  (∀ (s : State) (k q : Nat) (e : QEntry), coreOk k = true → 1 ≤ q → q ≤ 4 → (s.core k).live = true →
      (s.core k).headEntry q = some e →
      let c := s.core k
      let c1 := if e.ins.we then c.setCtr e.ins.wctr (c.ctr e.ins.wctr - e.ins.wval) else c
      let s1 := s.setCore k c1
      let start (x : Core) (zero : Bool) : State := s1.setCore k { x with q := { x.q with
        flights := x.q.flights ++ [⟨x.q.nextId, q, e, false, [], isMacro e.ins.op, zero, none, none⟩]
        nextId := x.q.nextId + 1 } }
      (e.ins.we = true → (c.ctr e.ins.wctr < e.ins.wval ∨ (e.ins.wval ≠ 0 ∧ c.waiterBefore q e.ins.wctr = true)) →
        exec (.queueHeadStart k q) s = .next s) ∧
      ((e.ins.we = true → e.ins.wval ≤ c.ctr e.ins.wctr ∧ (e.ins.wval = 0 ∨ c.waiterBefore q e.ins.wctr = false)) →
        (isMacro e.ins.op = false →
          exec (.queueHeadStart k q) s = .next (start (c1.setQueue q (c1.queue q).tail) false)) ∧
        (isMacro e.ins.op = true → ∀ zero, s1.macroChecks c1 k e = (none, zero) →
          exec (.queueHeadStart k q) s = .next (start c1 zero)) ∧
        (isMacro e.ins.op = true → ∀ r x z, s1.macroChecks c1 k e = (some (r, x), z) →
          exec (.queueHeadStart k q) s = .next (s1.haltEntry k e r x)))) ∧
  (∀ (s : State) (k : Nat) (f : Flight) (c1 : Core), coreOk k = true → (s.core k).live = true →
      (s.core k).q.flights.find? (fun g => g.id == f.id) = some f → s.flightDone k (s.core k) f = true →
      closeRuns ((s.core k).acc.runs.filter (fun r => r.flight == f.id)) (s.core k) = .ok c1 →
      let s1 := s.setCore k { c1 with
        q := { c1.q with flights := c1.q.flights.filter (fun g => g.id != f.id) }
        acc := { c1.acc with opens := c1.acc.opens.filter (fun x => x.flight != f.id) }
        prog := countMacro f c1.prog }
      (f.ent.ins.se = false → exec (.instructionComplete k f.id) s = .next (s1.settle k)) ∧
      (f.ent.ins.se = true → exec (.instructionComplete k f.id) s =
        .next ((s1.signal k f.ent.ins.sctr (f.ent.ins.sinc + 1) f.ent.ctx f.ent.pc f.ent.depth).settle k)))

/-- R214, R217, R241: a wait that became satisfied consumes its threshold and lets the control core go on; a wait that
does not become satisfied in time halts the core with WAIT_TIMEOUT, and RUN_LIMIT halts a frame that runs too long; neither
does in a cycle that does not count for it, as while the envelope, a fence or a spare substitution holds the core.
R247: a halt ends the frame on the core with a record that names context, index, depth, reason and detail; its queues
and started instructions are discarded, and no other core changes. Completes: waitSatisfied, waitTimeout, runLimit. -/
def Obligations.WaitsAndHalts : Prop :=
  (∀ (s : State) (k i v : Nat), coreOk k = true →
      let c := s.core k
      let c1 := c.setCtr i (c.ctr i - v)
      let detail := i * 2 ^ 26 + v * 2 ^ 10
      (c.ctl.stall = some (.wait i v) → v ≤ c.ctr i →
        exec (.waitSatisfied k) s = .next (s.setCore k { c1 with ctl := { c1.ctl with stall := some .ready } })) ∧
      (c.ctl.stall = some (.wait i v) → c.ctr i < v → s.counts k = true →
        exec (.waitTimeout k 0) s = .next (s.haltCore k c.ctl.ctx c.ctl.pc c.ctl.calls.length 0x0D detail)) ∧
      (∀ q e, 1 ≤ q → q ≤ 4 → c.headEntry q = some e → e.ins.we = true → e.ins.wctr = i → e.ins.wval = v → c.ctr i < v →
        s.counts k = true → exec (.waitTimeout k q) s = .next (s.haltCore k e.ctx e.pc e.depth 0x0D detail)) ∧
      (s.counts k = true → exec (.runLimit k) s =
        .next (s.haltCore k c.ctl.ctx c.ctl.pc c.ctl.calls.length 0x19 s.profile.work.runLimit)) ∧
      (s.counts k = false → exec (.runLimit k) s = .next s ∧ ∀ q, q ≤ 4 → exec (.waitTimeout k q) s = .next s) ∧
      (s.counts k = true ↔ (c.st = .run ∨ c.st = .draining ∨ c.st = .stopping) ∧ (∀ x ∈ s.yoke.held, x / 32 ≠ k) ∧
        (∀ f ∈ c.q.flights, f.fence = none) ∧
        ∀ u ∈ s.maps.subst, if u.level = 4 then u.k / 16 ≠ k / 16 else u.k ≠ k)) ∧
  (∀ (s : State) (k ctx idx depth reason detail : Nat), (s.core k).live = true →
      let t := s.haltCore k ctx idx depth reason detail
      (t.core k).st = .halted ∧ (t.core k).haltRec = some ⟨ctx, idx, reason, depth, (s.core k).rank, detail⟩ ∧
      (∀ q, (t.core k).queue q = []) ∧ (t.core k).q.flights = [] ∧ (∀ j, j ≠ k → t.core j = s.core j) ∧
      t.entries = s.entries ∧ t.streams = s.streams ∧ t.placements = s.placements ∧
      (∀ d ∈ t.deposits, k ∉ d.dests))

/-- R44, R89, R120, R122, R377: a pass whose conditions hold starts: it is in flight with its members, slot and mode
and the region in force, and the Drover goes on to its next command; its engines run no ballast (R387). R45, R336, R392, R393:
a pass that may not start yet leaves its core as it is; one that reaches a FENCED plane waits at it, and is counted once; a
start that the die's part of the envelope does not allow, with no ballast left, is counted once. Completes: passIssue. -/
def Obligations.Passes : Prop :=
  ∀ (s : State) (k : Nat) (tm : PassTiming) (f : Flight) (pl : Placement) (ms : List Member)
      (mt m u j slot mode half : Nat) (kbs : List Nat) (rest : List DCmd), coreOk k = true → (s.core k).live = true →
      let c := s.core k
      let lead := ((ms.head?).map (·.e)).getD 0
      (c.drover fun d => match d with
        | .pass _ _ _ _ _ _ _ _ _ => true
        | _ => false) = some (f, .pass ms mt m u j slot mode half kbs, rest) →
      s.namedPlacement c f.ent.handle = .ok pl →
      let g := f.geo pl k
      let pj := passEnergy pl g.x.fmt g.wfmt ms.length
      let gate := s.passGate c k f g pl.handle ms mt m slot mode
      (∀ s2, gate = .go → (s.powerGate k ms pj tm).2 = true →
        (s.powerGate k ms pj tm).1.startPass k f g ms mt m u j slot mode half kbs rest tm = .ok s2 →
        exec (.passIssue k tm) s = .next ((s2.endBallast k (ms.map (·.e))).addEnergy k pj) ∧
        ∃ p : PassRun, (s2.core k).acc.passes = c.acc.passes ++ [p] ∧ p.lead = lead ∧
          p.members.map (·.1) = ms ∧ p.res.slot = slot ∧ p.res.mode = mode ∧ p.res.base = c.acc.accBase ∧
          p.res.stride = c.acc.accStride ∧ p.res.flight = f.id ∧ (s2.core k).mem.treg = c.mem.treg) ∧
      (gate = .wait → exec (.passIssue k tm) s = .next s) ∧
      (∀ e p, gate = .fence e p → f.fence.isSome = true → exec (.passIssue k tm) s = .next s) ∧
      (∀ e p, gate = .fence e p → f.fence = none → ∃ t, exec (.passIssue k tm) s = .next t ∧
        t.inst.fenceWaits = s.inst.fenceWaits + 1 ∧ t.core k = c.modFlight f.id (fun x => { x with fence := some (e, p) })) ∧
      (∀ r x, gate = .stop r x → exec (.passIssue k tm) s = .next (s.haltEntry k f.ent r x)) ∧
      (gate = .go → s.overPart (k / 128) pj = true →
        exec (.passIssue k tm) s = .next (if s.yoke.held.contains (32 * k + lead) then s else { s with yoke := { s.yoke with
          held := (32 * k + lead) :: s.yoke.held
          regs := { s.yoke.regs with powerHold := s.yoke.regs.powerHold + 1 } } }))

/-- R48, R55, R64, R68, R69, R83: a pass whose every plane checks good leaves its result in the active set of its lead
engine; a plane that does not, for a cell that reads wrong or an error of the array's logic (R67), is FENCED and counted, and
the core halts with BELLWETHER. Completes: passResultComplete. -/
def Obligations.PassResults : Prop :=
  ∀ (s : State) (k e : Nat) (errs : List ArrayErr) (x : PassRun), coreOk k = true → engineOk e = true →
    let c := s.core k
    (c.engine e).active = none → c.acc.passes.find? (fun p => p.lead == e) = some x →
    let rs := x.members.map (fun v => (v.1, c.memberResult x.bfp x.res.nlim errs v))
    let outs := (treeSum (addWords x.bfp) rs.length (rs.map (fun r => r.2.1))).getD []
    (c.live = true → (∀ r ∈ rs, r.2.2.1 = true) → ∃ t, exec (.passResultComplete k ⟨e, errs⟩) s = .next t ∧
      t.core k = { c with acc := { c.acc with passes := c.acc.passes.erase x } }.setEngine e
        { c.engine e with active := some { x.res with outs := outs } } ∧
      (∀ j, j ≠ k → t.core j = s.core j)) ∧
    (c.live = true → ∀ f, c.q.flights.find? (fun g => g.id == x.res.flight) = some f →
      ∀ b l, (rs.filter (fun r => !r.2.2.1)).map (·.1) = b :: l → ∃ t, exec (.passResultComplete k ⟨e, errs⟩) s = .next t ∧
        (t.core k).haltRec = some ⟨f.ent.ctx, f.ent.pc, 0x20, f.ent.depth, c.rank, b.e * 2 ^ 11 + b.p * 2 ^ 8⟩ ∧
        (((t.core k).engine b.e).plane b.p).st ≠ .live ∧ (t.core k).arr.bwEvent.getLsbD 0 = true)

/-- R58, R60, R61, R63, R281: a dynamic row write puts the packed weights with their residue into the plane row, marks
the row as written and joins the tag; with `clear` every other mark and the tag are gone. No other plane changes.
R274, R275: a pen-tile load copies the vectors' parts of a row quad of its chunk, as reads of the scratchpad return them, into
the tile registers and the Drover goes on; the scratchpad is unchanged. R289, R291: a field tile of MOVE whose lines can be
read and written moves, and the Drover goes on; a multicast one lands in every destination or waits (R290); the copies that
were coalesced are counted. Completes: dynamicRowWrite, penTileLoad, fieldTile. -/
def Obligations.TilesAndRows : Prop :=
  (∀ (s : State) (k : Nat) (tm : Timing) (f : Flight) (e p kb j row : Nat) (clear : Bool) (rest : List DCmd) (en : Entry)
      (h : Nat) (c1 : Core) (codes : List Nat) (tag : Nat), coreOk k = true → (s.core k).live = true →
      let s0 := s.enter k tm
      let c := s0.core k
      let pl := (c.engine e).plane p
      let w := f.ent.ten (if f.ent.ins.op = 0x2A then 1 else 2)
      (c.drover fun d => match d with
        | .rowWrite _ _ _ _ _ _ => true
        | _ => false) = some (f, .rowWrite e p kb j row clear, rest) →
      s.conflictStop (some 1) tm = none → pl.dyn = some h → s.frameOf c = some en → h ∈ en.frame.places →
      pl.wfmt = some w.fmt → pl.st = .live → c.diag = false →
      (∀ x ∈ c.acc.passes, ∀ v ∈ x.members, ¬ (v.1.e = e ∧ v.1.p = p)) →
      c.dynSource w w.fmt.outputs (match f.ent.ins.op with
        | 0x2A => actualLen w.colLen none w.maxc
        | _ => actualLen w.colLen f.plan.colLen (max w.maxc f.plan.ymaxc)) kb j row = .ok (c1, codes, tag) →
      (w.fmt = .tern → ∀ x ∈ codes, x % 4 ≠ 2) →
      ∃ t, exec (.dynamicRowWrite k tm) s = .next t ∧
        ((t.core k).engine e).plane p = pl.writeRow w.fmt row (packRow w.fmt.width codes) tag clear ∧
        (∀ e' p', e' ≠ e ∨ p' ≠ p → ((t.core k).engine e').plane p' = (c.engine e').plane p') ∧
        (∀ i, i ≠ k → t.core i = s.core i) ∧ (t.core k).mem.spad = c.mem.spad) ∧
  (∀ (s : State) (k : Nat) (tm : Timing) (f : Flight) (mt half quad : Nat) (kbs : List Nat) (rest : List DCmd),
      coreOk k = true → (s.core k).live = true →
      let s0 := s.enter k tm
      let c := s0.core k
      let x := f.ent.ten 1
      let w := x.fmt.width
      let q := f.quadOf mt quad
      let src (kb m : Nat) : Nat := x.view.row (mt * f.plan.pm + m) + (penPart x kb).1
      (c.drover fun d => match d with
        | .pen _ _ _ _ => true
        | _ => false) = some (f, .pen mt half quad kbs, rest) → s.conflictStop (some 1) tm = none →
      (∀ kb ∈ kbs, ∀ m, m < q.2 → c.clean (src kb (q.1 + m)) (penPart x kb).2) →
      ∃ c1, loadTiles x f.plan mt half q.1 q.2 0 kbs c = .ok c1 ∧ c1.mem.spad = c.mem.spad ∧ c1.acc = c.acc ∧
        c1.engines = c.engines ∧ c1.ctl = c.ctl ∧
        (∀ kb, kbs = [kb] → q.2 = 1 → ∀ b, b < (penPart x kb).2 →
          Mem.read c1.mem.treg ((⟨true, f.plan.penBase w 0 half, penStride w, w⟩ : View).row q.1 + b) =
            c.spByte (src kb q.1 + b)) ∧
        exec (.penTileLoad k tm) s = .next ((s0.setCore k (c1.popTodo f.id rest)).timed k (some 1) tm)) ∧
  (∀ (s : State) (k coalesced r0 r1 c0 c1 : Nat) (tm : Timing) (f : Flight) (last : Bool) (rest : List DCmd), coreOk k = true →
      (s.core k).live = true →
      let s0 := s.enter k tm
      let t := f.ent.ten 1
      let v := f.ent.mov 2
      let pop (c : Core) : Core :=
        { c.popTodo f.id rest with prog := { c.prog with coalesced := c.prog.coalesced + BitVec.ofNat 32 coalesced } }
      ((s0.core k).drover fun d => match d with
        | .field _ _ _ _ _ => true
        | _ => false) = some (f, .field r0 r1 c0 c1 last, rest) →
      ∀ q ls, s0.moveRows f t (actualLen t.rowLen none t.maxr) (actualLen t.colLen none t.maxc) c0 c1 (r1 - r0) r0 (s0.core k) =
        .ok (q, ls) →
      (v.mcast = 0 → s.castWaits k f.id = false → v.dwork = false → ∀ cw, putLines v ls q = .ok cw →
        exec (.fieldTile k ⟨coalesced, tm⟩) s = .next (((s0.setCore k cw).modCore k pop).timed k none tm)) ∧
      (v.mcast = 0 → s.castWaits k f.id = false → v.dwork = true → ∀ id, q.entry = some id →
        exec (.fieldTile k ⟨coalesced, tm⟩) s = .next ((((s0.setCore k q).modEntry id (fun e =>
          { e with frame := workLines v ls e.frame })).modCore k pop).timed k none tm)) ∧
      (v.mcast ≠ 0 → ∀ s2, (s0.setCore k q).castTile k f v ls last = .ok s2 →
        exec (.fieldTile k ⟨coalesced, tm⟩) s =
          .next ((if s2.castWaits k f.id then s2 else s2.modCore k pop).timed k none tm)))

/-- R124, R142: the active result moves to the shadow set when that is free, and the cycles of the wait are counted;
otherwise nothing happens. R121, R125, R135: the drain of an INIT gives its run, while it is open, the sums to carry, with
the pass's tag in the slot's entry; an ADD to a run adds to the carried sums and joins the tag. The scratchpad is not
written. A run that has ended with the result is written to its slot (`Core.drain`), and a FINAL goes its route. Completes:
resultSetSwap, drain. -/
def Obligations.ResultSetsAndDrains : Prop :=
  (∀ (s : State) (k e waited : Nat), coreOk k = true → engineOk e = true →
      let c := s.core k
      let g := c.engine e
      (∀ r, g.active = some r → g.shadow = none → exec (.resultSetSwap k e waited) s = .next (s.setCore k
        { c.setEngine e { g with active := none, shadow := some r } with
          arr := { c.arr with drainWait := c.arr.drainWait + BitVec.ofNat 32 waited } })) ∧
      (∀ r, g.shadow = some r → exec (.resultSetSwap k e waited) s = .next (s.setCore k c))) ∧
  (∀ (s : State) (k e : Nat) (tm : Timing) (r : Result) (f : Flight), coreOk k = true → engineOk e = true →
      (s.core k).live = true →
      let s0 := s.enter k tm
      let c := s0.core k
      let ent := c.slotEntry r.slot
      let carry (ws : List Word) : Run := ⟨r.run, r.group, r.slot, r.base, r.stride, ws, r.isFp, r.flight⟩
      let freed (c1 : Core) : State := (s0.setCore k (c1.setEngine e { c1.engine e with shadow := none })).timed k none tm
      (c.engine e).shadow = some r → c.q.flights.find? (fun g => g.id == r.flight) = some f →
      ((∃ x ∈ c.acc.opens, x.id = r.run) → r.mode = 0 → exec (.drain k ⟨e, tm⟩) s = .next (freed
        ((c.setRun r.run (some (carry r.outs))).setSlotEntry r.slot { ent with tag := r.tag }))) ∧
      ((∃ x ∈ c.acc.opens, x.id = r.run) → r.mode = 1 → ∀ x, c.runOf r.run = some x → exec (.drain k ⟨e, tm⟩) s = .next (freed
        ((c.setRun r.run (some (carry (List.zipWith (slotAdd r.isFp) x.sums r.outs)))).setSlotEntry r.slot
          { ent with tag := ent.tag ||| r.tag }))) ∧
      (∀ c1, c.drain f e r = .ok c1 → exec (.drain k ⟨e, tm⟩) s = .next ((s0.setCore k c1).timed k none tm)))

/-- R167, R172, R245: a credited deposit of SEND, before which none of its sender's into the same window is still to land,
lands: the lines of the sender's scratchpad are in the window, its counter has stepped once, and the deposit is gone. R155,
R169: a deposit that finds no credit in time, in cycles that count for its sender and its owner, halts its sender with
CREDIT_TIMEOUT, or the owner when a hub sent it, and is gone; a sheet whose wake is done is ON. Completes: depositLand,
creditTimeout, sheetWakeDone. -/
def Obligations.DepositsAndSheets : Prop :=
  (∀ (s : State) (j k fl a : Nat) (tm : Timing) (d : Deposit) (v : Window),
      s.deposits.find? (fun x => x.id == d.id && x.credited) = some d → s.depositPath d = true → s.depositBefore d = false →
      d.src = .core j fl → d.spAddr = some a → d.dests = [k] → d.stepCtr = true → (s.core k).window d.win = some v →
      a % 64 = 0 → ((s.enter j tm).core j).clean a (d.lines * 64) → (v.base + d.off + d.lines) * 64 ≤ 2097152 →
      (∀ m ∈ sheetsOf ((v.base + d.off) * 64) (d.lines * 64), (s.core k).sheet m = .on) →
      (s.core k).live = true → v.ctr < (s.core k).ctl.ctr.length → (s.core k).ctr v.ctr < 65535 →
      ∃ t, exec (.depositLand ⟨d.id, tm⟩) s = .next t ∧
        (∀ b, b < d.lines * 64 →
          Mem.read (t.core k).mem.spad ((v.base + d.off) * 64 + b) = ((s.enter j tm).core j).spByte (a + b)) ∧
        (∀ x, x < (v.base + d.off) * 64 ∨ (v.base + d.off + d.lines) * 64 ≤ x →
          Mem.read (t.core k).mem.spad x = Mem.read (s.core k).mem.spad x) ∧
        (t.core k).ctr v.ctr = (s.core k).ctr v.ctr + 1 ∧
        (∀ x ∈ t.deposits, x.id ≠ d.id) ∧ (∀ i, i ≠ k → i ≠ j → t.core i = s.core i)) ∧
  ((∀ (s : State) (d : Deposit) (k fl : Nat) (f : Flight), s.deposits.find? (fun x => x.id == d.id && !x.credited) = some d →
      let x := d.win * 2 ^ 25
      (s.depositCounts d = false → exec (.creditTimeout d.id) s = .next s) ∧
      (s.depositCounts d = true → d.src = .core k fl → (s.core k).q.flights.find? (fun f => f.id == fl) = some f →
        exec (.creditTimeout d.id) s = .next ((s.haltEntry k f.ent 0x09 (1 * 2 ^ 28 + x)).dropDeposit d.id)) ∧
      (s.depositCounts d = true → d.src = .multicast k fl → (s.core k).q.flights.find? (fun f => f.id == fl) = some f →
        exec (.creditTimeout d.id) s = .next ((s.haltEntry k f.ent 0x09 (2 * 2 ^ 28 + x)).dropDeposit d.id)) ∧
      (s.depositCounts d = true → d.src = .hub fl → d.dests = [k] →
        exec (.creditTimeout d.id) s = .next ((s.haltDue k 0x09 (3 * 2 ^ 28 + x)).dropDeposit d.id))) ∧
    (∀ (s : State) (k n : Nat), coreOk k = true → n < 32 → n < (s.core k).mem.sheets.length → ∃ t,
      exec (.sheetWakeDone k n) s = .next t ∧ (∀ j, j ≠ k → t.core j = s.core j) ∧
      (t.core k).mem.spad = (s.core k).mem.spad ∧
      (∀ m, (t.core k).sheet m = if m = n ∧ (s.core k).sheet m = .waking then .on else (s.core k).sheet m)))

/-- R179, R219: the start steps of a core: A0 to A3 hold the frame rank, the placement's index, the rank in its group
and the input's length, every other register is 0, no window is declared, the tile registers are 0, every mask bit is
1; the frame's cores run once all have made them. R202, R204, R211, R317: binding translates the image and fixes the
commit number that the frame sees, counts the references of the versions it may call, and takes lines for the program; it
waits while a die has no room; a frame whose image does not translate, or whose placements it may not use, is FAILED_PROGRAM
with a record of `RANK` 0x3FF. R359: a frame whose input parcel is written is READY once it is bound. R361: the hub deposits
the first lines of the input into W0 of the entry core when every core of the frame has started; the deposit consumes
credit or waits for it. R247, R248: the first record of a frame to arrive, of one hub cycle that of the lowest rank, decides
its end, and every core of the frame stops. R251: 100 ms after the first stop the other cores stop where they stand.
Completes: frameStart, frameBind, inputParcelWritten, hubInputDelivery, haltRecord, stopTimeout. -/
def Obligations.FramesBeginAndStop : Prop :=
  (∀ (s : State) (cseq k r pi gr rank : Nat) (e : Entry) (b : RunBody), coreOk k = true → s.entry? cseq = some e →
      e.op = .run b → e.frame.cores.findIdx? (fun x => x.1 == k) = some rank → e.frame.cores[rank]? = some (r, pi, gr) →
      (s.core k).st = .starting → (s.core k).entry = some cseq →
      ∃ t, exec (.frameStart cseq k) s = .next t ∧
        t = { s with cores := t.cores, pkg := { s.pkg with free := t.pkg.free } } ∧
        (t.core k).ctl = { CtlRegs.fresh with
          a := [word rank, word pi, word gr, word b.input.length] ++ List.replicate 12 0 } ∧
        (t.core k).wins = List.replicate 8 none ∧ (t.core k).mem.treg = [] ∧ (t.core k).mem.rowTag = [] ∧
        (t.core k).acc = CoreAcc.fresh ∧ (t.core k).q = CoreQ.fresh ∧ (t.core k).entry = some cseq ∧
        (t.core k).mem.rowMask = BitVec.allOnes 64 ∧ (t.core k).mem.elemMask = BitVec.allOnes 512 ∧
        (∀ j, j ≠ k → t.core j = { s.core j with st := (t.core j).st }) ∧
        ((∀ j ∈ s.coresOf cseq, j ≠ k → (s.core j).st = .armed) → ∀ j, (s.core j).entry = some cseq → (t.core j).st = .run) ∧
        (∀ j ∈ s.coresOf cseq, j ≠ k → (s.core j).st ≠ .armed →
          (t.core k).st = .armed ∧ ∀ i, i ≠ k → t.core i = s.core i)) ∧
  (∀ (s : State) (cseq : Nat) (e : Entry) (b : RunBody), s.entry? cseq = some e → e.op = .run b → e.st = .admitted →
      e.epoch = none → e.acked = true → e.ended = false → s.runsHere e = true → s.cancelDue e = false →
      (∀ h prog, translate false b.image = .ok (h, prog) → s.bindFault b.placements e.tenant s.pkg.epoch = none →
        let cores := frameCores (s.placesAt b.placements s.pkg.epoch)
        (∀ rs, s.programRuns (ceilDiv b.image.length 64) (coreDies cores) = some rs →
          ∃ t e1, exec (.frameBind cseq) s = .next t ∧ t.entry? cseq = some e1 ∧ e1.epoch = some s.pkg.epoch ∧
            e1.frame.prog = prog ∧ e1.frame.footprint = hdrFootprint h ∧ e1.frame.places = b.placements ∧
            e1.frame.cores = cores ∧ e1.frame.rs = rs ∧ e1.st = (if e.inputOk then .ready else .admitted) ∧
            t.routines = (s.modRefs e.tenant s.pkg.epoch (fun n => n + 1)).routines ∧ t.cores = s.cores) ∧
        (s.programRuns (ceilDiv b.image.length 64) (coreDies cores) = none → exec (.frameBind cseq) s = .next s)) ∧
      (∀ i r d, translate false b.image = .error (i, r, d) →
        ∃ t e1, exec (.frameBind cseq) s = .next t ∧ t.entry? cseq = some e1 ∧ e1.st = .admitted ∧ e1.ended = true ∧
          e1.status = .failed ∧ e1.payload = [] ∧ e1.frame.halt = some ⟨0, i, r, 0, 0x3FF, d⟩) ∧
      (∀ h prog r d, translate false b.image = .ok (h, prog) → s.bindFault b.placements e.tenant s.pkg.epoch = some (r, d) →
        ∃ t e1, exec (.frameBind cseq) s = .next t ∧ t.entry? cseq = some e1 ∧ e1.st = .admitted ∧ e1.ended = true ∧
          e1.status = .failed ∧ e1.payload = [] ∧ e1.frame.halt = some ⟨0, 0, r, 0, 0x3FF, d⟩)) ∧
  (∀ (s : State) (cseq : Nat) (e : Entry) (b : RunBody), s.entry? cseq = some e → e.op = .run b →
      (e.st = .admitted → e.acked = true →
        ∃ t e1, exec (.inputParcelWritten cseq) s = .next t ∧ t.entry? cseq = some e1 ∧ e1.inputOk = true ∧
          e1.st = (if e.epoch.isSome ∧ s.runsHere e = true ∧ e.ended = false then .ready else .admitted) ∧
          t.cores = s.cores ∧ t.deposits = s.deposits) ∧
      (e.st = .admitted → e.acked = false → exec (.inputParcelWritten cseq) s = .next s) ∧
      (e.st = .running → e.frame.delivered = false → b.dlines ≠ 0 →
        (∀ k ∈ s.coresOf cseq, (s.core k).st ≠ .starting ∧ (s.core k).st ≠ .armed) → ∀ k, e.entryCore = some k →
        s.deposits = [] → (∀ v, (s.core k).window 0 = some v → b.dlines ≤ v.lines) →
        ∃ t e1, exec (.hubInputDelivery cseq) s = .next t ∧ t.entry? cseq = some e1 ∧ e1.frame.delivered = true ∧
          t.deposits = [⟨s.nextDep, .hub cseq, [k], 0, 0, b.dlines, none,
            tabulate b.dlines (fun j => (j, tabulate 64 (fun i => at' b.input (64 * j + i) 0), 0)),
            s.hasCredit k 0 b.dlines, true⟩] ∧
          t.nextDep = s.nextDep + 1 ∧
          (∀ v, (s.core k).window 0 = some v → b.dlines ≤ v.credit →
            (t.core k).window 0 = some { v with credit := v.credit - b.dlines }) ∧
          (∀ j, j ≠ k → t.core j = s.core j))) ∧
  ((∀ (s : State) (k cseq : Nat) (same : List Nat) (r : HaltRec) (e : Entry), coreOk k = true → same.all coreOk = true →
      (s.core k).haltRec = some r → (s.core k).entry = some cseq → s.entry? cseq = some e →
      let rs := r :: (same.filter (fun j => j != k && (s.core j).entry == some cseq)).filterMap (fun j => (s.core j).haltRec)
      ∃ t e1, exec (.haltRecord ⟨k, same⟩) s = .next t ∧ t.entry? cseq = some e1 ∧
        (∀ x, e.frame.halt = some x → e1.frame.halt = some x) ∧
        (e.frame.halt = none → ∃ x ∈ rs, e1.frame.halt = some x ∧ ∀ y ∈ rs, x.rank ≤ y.rank) ∧
        (∀ j, (j = k ∨ j ∈ same) → (s.core j).entry = some cseq → (t.core j).haltRec = none) ∧
        (∀ j, (s.core j).entry = some cseq → (t.core j).live = false) ∧
        (∀ j, (s.core j).entry ≠ some cseq → t.core j = s.core j) ∧
        (∀ n, n ≠ cseq → t.entry? n = s.entry? n) ∧
        t = { s with cores := t.cores, entries := t.entries, deposits := t.deposits, flt := t.flt, pkg := t.pkg }) ∧
    (∀ (s : State) (cseq : Nat) (e : Entry), s.entry? cseq = some e → e.st = .running → e.frame.stopped ≠ [] →
      ∃ t, exec (.stopTimeout cseq) s = .next t ∧ t = { s with cores := t.cores, deposits := t.deposits } ∧
        (∀ k ∈ s.coresOf cseq, (s.core k).live = true → (t.core k).st = .stopped ∧ (t.core k).q.flights = [] ∧
          (t.core k).queue 1 = [] ∧ (t.core k).queue 2 = [] ∧ (t.core k).queue 3 = [] ∧ (t.core k).queue 4 = []) ∧
        (∀ k, k ∉ s.coresOf cseq ∨ (s.core k).live = false → t.core k = s.core k)))

/-- R352: the tests, the first that fails deciding: QUIET; the stream's state and incarnation and the session; a duplicate,
one that is still being committed among them; the order of sequence numbers; the body; credit; free entries, parcels and
staging; a partner that is joining. A frame that passes them all is taken with its two parcels. The detail of the refusal of
an OPEN on a stream that is OPEN is left open (log 34). -/
def Obligations.TestsInOrder : Prop :=
  ∀ (s : State) (h : Hdr) (b : List Byte) (backlog : Nat),
    let x := s.stream h.stream
    let opc := if b = [] then 16 else beAt b 0 1
    let opens : Prop := x.st = .closed ∧ h.seq = 0 ∧ opc = 1 ∧ x.incarn ≠ some h.incarn
    let goesOn : Prop := x.st = .open ∧ h.tsid = x.tsid ∧ x.incarn = some h.incarn ∧ (h.seq ≠ 0xFFFFFFFF ∨ opc = 3) ∧
      (opc ≠ 1 ∨ h.seq < x.nextSeq)
    let pending := s.commits.find? (fun c => c.entry.stream == h.stream && c.entry.seq == h.seq)
    (∀ d, s.refusing = some d → s.tests h b backlog = .refuse 7 d) ∧
    (s.refusing = none →
      (x.st = .closed → h.seq ≠ 0 ∨ opc ≠ 1 → s.tests h b backlog = .refuse 5 1) ∧
      (x.st = .closed → h.seq = 0 → opc = 1 → x.incarn = some h.incarn → s.tests h b backlog = .refuse 5 3) ∧
      (x.st ≠ .closed → h.tsid ≠ x.tsid → s.tests h b backlog = .refuse 4 0) ∧
      (x.st ≠ .closed → h.tsid = x.tsid → x.incarn ≠ some h.incarn → s.tests h b backlog = .refuse 5 3) ∧
      (x.st = .closing → h.tsid = x.tsid → x.incarn = some h.incarn → s.tests h b backlog = .refuse 5 2) ∧
      (x.st = .open → h.tsid = x.tsid → x.incarn = some h.incarn → h.seq = 0xFFFFFFFF → opc ≠ 3 →
        s.tests h b backlog = .refuse 5 4) ∧
      (x.st = .open → h.tsid = x.tsid → x.incarn = some h.incarn → h.seq ≠ 0xFFFFFFFF → opc = 1 → x.nextSeq ≤ h.seq →
        s.tests h b backlog = .refuseOpen 5) ∧
      (opens ∨ goesOn → ∀ c, pending = some c →
        (c.entry.incarn ≠ h.incarn → s.tests h b backlog = .refuse 5 3) ∧
        (c.entry.incarn = h.incarn → c.entry.tsid ≠ h.tsid → s.tests h b backlog = .refuse 4 0) ∧
        (c.entry.incarn = h.incarn → c.entry.tsid = h.tsid → s.tests h b backlog = .dupPending c.cseq)) ∧
      (goesOn → pending = none → h.seq < x.nextSeq → s.tests h b backlog = .dup) ∧
      (goesOn → pending = none → x.nextSeq < h.seq → s.tests h b backlog = .refuse 1 0) ∧
      (opens ∨ (goesOn ∧ h.seq = x.nextSeq) → pending = none →
        (∀ d, parseBody b = .error d → s.tests h b backlog = .refuse 6 d) ∧
        (∀ o, parseBody b = .ok o →
          let credit := match o with
            | .open c => c
            | _ => x.credit
          (credit < x.outst + 1 → s.tests h b backlog = .refuse 2 x.outst) ∧
          (x.outst + 1 ≤ credit → s.ledgerCap ≤ s.entries.length + s.commits.length → s.tests h b backlog = .refuse 3 1) ∧
          (x.outst + 1 ≤ credit → s.entries.length + s.commits.length < s.ledgerCap →
            (s.reserve (s.entryDie o) (parcelPages o).1 = none → s.tests h b backlog = .refuse 3 2) ∧
            (∀ s1 ip, s.reserve (s.entryDie o) (parcelPages o).1 = some (s1, ip) →
              (s1.reserve (s.entryDie o) (parcelPages o).2 = none → s.tests h b backlog = .refuse 3 2) ∧
              (∀ s2 rp, s1.reserve (s.entryDie o) (parcelPages o).2 = some (s2, rp) →
                (262144 < backlog → s.tests h b backlog = .refuse 3 3) ∧
                (backlog ≤ 262144 → s.pair.st = .joining → s.tests h b backlog = .refuse 8 0) ∧
                (backlog ≤ 262144 → s.pair.st ≠ .joining → s.tests h b backlog = .take s2 o ip rp)))))))

/-- R353, R359, R360: a frame that passes the tests is being committed: an ADMITTED entry of the next commit number
goes to both hubs that are in service and, in paired mode, to the partner, and no answer is given yet. R352, R357: a frame
that a test fails is refused on its port with the test's reason and detail and the stream's credit and next sequence number,
and is counted; nothing is admitted. R355: a duplicate is accepted again, with the commit number of its entry, or as RELEASED
with the number 0 when there is none; one whose original is still being committed waits for its answer.
Completes: workRun, workOpen, workCancel, workClose. -/
def Obligations.WorkFrames : Prop :=
  (∀ p ∈ workRows, ∀ (s s3 : State) (g : SegIn) (o : WorkOp) (ip rp : Parcel), s.wholeFrame p.1 g →
      (s.examined g).tests g.hdr (s.frameBody g) g.backlog = .take s3 o ip rp →
      ∃ t c, exec (p.2 g) s = .next t ∧ t.commits = s3.commits ++ [c] ∧
        c.cseq = (if s3.leads then s3.pkg.cseqNext else 0) ∧ c.needPeer = s3.paired ∧ c.hub = g.port / 4 ∧ c.port = g.port ∧
        c.addr = g.addr ∧ c.needHubs = [0, 1].filter (fun h => (s3.hub h).up) ∧ c.dupPorts = [] ∧
        c.entry.cseq = c.cseq ∧ c.entry.stream = g.hdr.stream ∧ c.entry.incarn = g.hdr.incarn ∧ c.entry.seq = g.hdr.seq ∧
        c.entry.tsid = g.hdr.tsid ∧ c.entry.op = o ∧ c.entry.st = .admitted ∧ c.entry.ipar = ip ∧ c.entry.rpar = rp ∧
        c.entry.acked = false ∧ c.entry.ended = false ∧ c.entry.epoch = none ∧
        t = { s3 with commits := t.commits, pkg := t.pkg, pair := t.pair, out := t.out } ∧
        (s3.mirrors = false → t.out = s3.out) ∧
        t.pkg = { s3.pkg with cseqNext := if s3.leads ∧ s3.pkg.cseqNext ≠ 0 then s3.pkg.cseqNext + 1 else s3.pkg.cseqNext }) ∧
  (∀ p ∈ workRows, ∀ (s : State) (g : SegIn), s.wholeFrame p.1 g →
      let s1 := s.examined g
      (∀ r d, s1.tests g.hdr (s.frameBody g) g.backlog = .refuse r d →
        ∃ t, exec (p.2 g) s = .next t ∧
          t.out = s1.out ++ [s1.refusal g.port g.addr g.hdr.tsid g.hdr.stream g.hdr.incarn g.hdr.seq r d] ∧
          (g.port / 4 < s.hubs.length →
            (t.hub (g.port / 4)).fold.refuse = modAt (s.hub (g.port / 4)).fold.refuse (r - 1) (fun w => w + 1)) ∧
          t.entries = s.entries ∧ t.commits = s.commits ∧ t.streams = s1.streams ∧ t.cores = s.cores) ∧
      (s1.tests g.hdr (s.frameBody g) g.backlog = .dup →
        let found := s.entries.find? (fun e => e.stream == g.hdr.stream && e.incarn == g.hdr.incarn && e.seq == g.hdr.seq)
        ∃ t, exec (p.2 g) s = .next t ∧ t.commits = s.commits ∧ t.streams = s1.streams ∧ t.cores = s.cores ∧
          t.entries = s.entries.map (fun e => if (found.map (·.cseq)) = some e.cseq then { e with acked := true } else e) ∧
          t.out = s1.out ++ [match found with
            | some e => s1.acceptance g.port g.addr g.hdr.tsid g.hdr.stream g.hdr.incarn g.hdr.seq 1 e.cseq
            | none => s1.acceptance g.port g.addr g.hdr.tsid g.hdr.stream g.hdr.incarn g.hdr.seq 3 0]) ∧
      (∀ n, s1.tests g.hdr (s.frameBody g) g.backlog = .dupPending n →
        exec (p.2 g) s = .next { s1 with commits := s1.commits.map (fun c =>
          if c.cseq == n && c.entry.stream == g.hdr.stream && c.entry.seq == g.hdr.seq then
            { c with dupPorts := c.dupPorts ++ [(g.port, g.addr)] } else c) }))

/-- R344, R354: a segment that does not complete its frame is stored, and copied to the other hub over a bridge; the
segments of a frame that stays incomplete are discarded, and the frame is refused as MALFORMED with detail 0xFFFFFFFF. R345
to R348, R353: a commit waits until every copy is confirmed; then its entry is in the Fold, ACCEPT goes out with its number,
and its stream moves: a RUN, CANCEL or CLOSE takes the next sequence number and one credit, an OPEN opens the stream, a CLOSE
makes it CLOSING. R364: a CANCEL whose target is a RUN that has not completed ends it: its outcome is CANCELLED with no
payload, its cores are free, and the CANCEL's own result has the code 0. R354, R355: a commit that is not confirmed in time is
struck, and its frame and every waiting duplicate are refused: with NO_RESOURCE and detail 4, or PAIR_UNREACHABLE where the
partner has not confirmed. Completes: workSegment, segmentTimeout, ledgerConfirm, commitDeadline. -/
def Obligations.SegmentsAndCommits : Prop :=
  ((∀ (s : State) (g : SegIn), portOk g.port = true → s.takes g.port g.wire = true → g.hdr.kind = 1 →
      hdrValid g.hdr g.body.length = true → s.authentic g = true → s.haveSeg g = false → s.completes g = false →
      s.hubs.length = 2 →
      let h := g.port / 4
      let x : Seg := ⟨h, g.port, g.addr, g.hdr, g.body⟩
      ∃ t, exec (.workSegment g) s = .next t ∧ (t.hub h).segs = (s.hub h).segs ++ [x] ∧ (t.hub h).backlog = g.backlog ∧
        (t.hub (1 - h)).copies =
          (if s.bridgeUp = true ∧ (s.hub (1 - h)).up = true then (s.hub (1 - h)).copies ++ [x] else (s.hub (1 - h)).copies) ∧
        t = { s with hubs := t.hubs, out := t.out, pair := t.pair } ∧ (s.mirrors = false → t.out = s.out)) ∧
    (∀ (s : State) (hub : Nat) (h : Hdr) (x : Seg), hubOk hub = true → (s.parts hub h).getLast? = some x →
      s.portUp x.port = true →
      ∃ t, exec (.segmentTimeout hub h) s = .next t ∧ t.parts hub h = [] ∧ t.entries = s.entries ∧ t.commits = s.commits ∧
        t.out = s.out ++ [s.refusal x.port x.addr h.tsid h.stream h.incarn h.seq 6 0xFFFFFFFF])) ∧
  (∀ (s : State) (c : Commit) (hub time : Nat), hubOk hub = true → s.commits.find? (fun x => x.cseq == c.cseq) = some c →
      c.cseq ≠ 0 → (s.hub hub).up = true → (hub = c.hub ∨ s.bridgeUp = true ∨ (s.hub c.hub).up = false) →
      let e := c.entry
      let x := s.stream e.stream
      ((c.needPeer = true ∨ ∃ h ∈ c.needHubs, h ≠ hub) → exec (.ledgerConfirm ⟨c.cseq, time⟩ hub) s =
        .next { s with commits := s.commits.map (fun y =>
          if y.cseq = c.cseq then { c with needHubs := c.needHubs.filter (· != hub) } else y) }) ∧
      (c.needPeer = false → (∀ h ∈ c.needHubs, h = hub) →
        ∃ t, exec (.ledgerConfirm ⟨c.cseq, time⟩ hub) s = .next t ∧ t.commits = s.commits.filter (fun y => y.cseq != c.cseq) ∧
          (∀ n, n ≠ e.stream → t.stream n = s.stream n) ∧
          (∀ b, e.op = .run b → t.stream e.stream = { x with nextSeq := e.seq + 1, outst := x.outst + 1 }) ∧
          (∀ n, e.op = .open n →
            t.stream e.stream = ⟨.open, some e.incarn, e.tsid, e.seq + 1, n, 1, e.homeHere, e.port, e.addr⟩) ∧
          (e.op = .close → t.stream e.stream = { x with st := .closing, nextSeq := e.seq + 1, outst := x.outst + 1 }) ∧
          (∀ n, e.op = .cancel n → t.stream e.stream = { x with nextSeq := e.seq + 1, outst := x.outst + 1 }) ∧
          ((∀ n, e.op ≠ .cancel n) → c.dupPorts = [] → s.portUp c.port = true →
            t.entries = (s.entries ++ [e]).map (fun y => if y.cseq = e.cseq then { y with acked := true } else y) ∧
            t.out = s.out ++
              [{ s with streams := t.streams }.acceptance c.port c.addr e.tsid e.stream e.incarn e.seq 0 e.cseq] ∧
            t.cores = s.cores))) ∧
  (∀ (s : State) (c : Commit) (hub time n : Nat) (x : Entry) (b : RunBody), hubOk hub = true →
      s.commits.find? (fun y => y.cseq == c.cseq) = some c → c.cseq ≠ 0 → (s.hub hub).up = true →
      (hub = c.hub ∨ s.bridgeUp = true ∨ (s.hub c.hub).up = false) → c.needPeer = false → (∀ h ∈ c.needHubs, h = hub) →
      c.entry.op = .cancel n → c.entry.payload = [] → c.entry.cseq = c.cseq → s.entry? c.cseq = none →
      s.target? c.entry.stream c.entry.incarn n = some x → s.entry? x.cseq = some x → x.op = .run b → x.st ≠ .complete →
      x.st ≠ .sent →
      ∃ t y z, exec (.ledgerConfirm ⟨c.cseq, time⟩ hub) s = .next t ∧ t.entry? x.cseq = some y ∧ y.st = x.st ∧ y.ended = true ∧
        y.status = .cancelled ∧ y.payload = [] ∧ t.entry? c.cseq = some z ∧ z.op = .cancel n ∧
        z.payload = 0 :: List.replicate 63 0 ∧
        (∀ k, (s.core k).entry = some x.cseq → (t.core k).st = .idle ∧ (t.core k).entry = none) ∧
        (∀ k, (s.core k).entry ≠ some x.cseq → t.core k = s.core k)) ∧
  (∀ (s : State) (c : Commit) (time : Nat), s.commits.find? (fun y => y.cseq == c.cseq) = some c →
      (∀ p ∈ (c.port, c.addr) :: c.dupPorts, s.portUp p.1 = true) →
      ∃ t l ivs, exec (.commitDeadline ⟨c.cseq, time⟩) s = .next t ∧ t.commits = s.commits.erase c ∧ t.entries = s.entries ∧
        t.streams = s.streams ∧ t.cores = s.cores ∧ (s.mirrors = false → l = []) ∧ ivs.length = c.dupPorts.length + 1 ∧
        t.out = s.out ++ l ++ ((c.port, c.addr) :: c.dupPorts).zipWith (fun p iv => Out.seg p.1 p.2
          (Hdr.bytes { headOf 2 c.entry.tsid c.entry.stream c.entry.incarn c.entry.seq with bodylen := 32, iv := iv })
          (ackBody false (if c.needPeer then 8 else 3) 0 (s.stream c.entry.stream).creditLeft
            (s.stream c.entry.stream).nextSeq (if c.needPeer then 0 else 4) 0)) ivs)

/-- R362, R389, R400: the oldest READY frame of its cores starts on all of them when they are free and awake, the Yoke
allows it and its WORK area has room; a frame that the Yoke does not allow waits and is counted once, one whose clusters sleep
has them woken, and one that lacks hardware here goes to the partner (R22, R418). R248, R363, R367: a frame that has ended on
every core frees them. One that ran to its end has the status that the tag policy gives; one that a program fault halted is
FAILED_PROGRAM; one that a hardware fault halted runs again, or is WITHHELD beyond `REPLAY_MAX`; one that a wait halted is READY
again behind the others. Completes: dispatch, frameEnd. -/
def Obligations.FramesRun : Prop :=
  (∀ (s : State) (cseq : Nat) (e : Entry) (b : RunBody), s.entry? cseq = some e → e.op = .run b → e.st = .ready →
      e.ended = false → s.refusing = none → s.runsHere e = true →
      (s.handsOver e = true → ∃ t e1, exec (.dispatch cseq) s = .next t ∧ t.entry? cseq = some e1 ∧ e1.away = true ∧
        e1.st = .ready ∧ t.cores = s.cores) ∧
      (s.handsOver e = false → s.oldest e = true → s.coresFree e = true →
        (∀ ws, s.powerOk e = true → e.ks.all s.coreAwake = true → s.workPages e b.wlen = some ws →
          ∃ t e1, exec (.dispatch cseq) s = .next t ∧ t.entry? cseq = some e1 ∧ e1.st = .running ∧ e1.frame.pages = ws ∧
            e1.frame.halt = none ∧ e1.frame.emitted = [] ∧ e1.frame.delivered = false ∧
            (∀ k ∈ e.ks, (t.core k).st = .starting ∧ (t.core k).entry = some cseq ∧ (t.core k).haltRec = none) ∧
            (∀ k, k ∉ e.ks → t.core k = s.core k)) ∧
        (s.powerOk e = true → e.ks.all s.coreAwake = false → exec (.dispatch cseq) s = .next (s.wakeFor e)) ∧
        (s.powerOk e = true → e.ks.all s.coreAwake = true → s.workPages e b.wlen = none →
          exec (.dispatch cseq) s = .next s) ∧
        (s.powerOk e = false → e.powered = false →
          ∃ t e1, exec (.dispatch cseq) s = .next t ∧ t.entry? cseq = some e1 ∧ e1.powered = true ∧ e1.st = .ready ∧
            t.yoke.regs.powerWait = s.yoke.regs.powerWait + 1 ∧ t.cores = s.cores) ∧
        (s.powerOk e = false → e.powered = true → exec (.dispatch cseq) s = .next s)) ∧
      (s.handsOver e = false → s.oldest e = false ∨ s.coresFree e = false → exec (.dispatch cseq) s = .next s)) ∧
  (∀ (s : State) (cseq : Nat) (e : Entry) (b : RunBody), s.entry? cseq = some e → e.op = .run b → e.st = .running →
      e.ended = false → (∀ k ∈ s.coresOf cseq, (s.core k).live = false ∧ (s.core k).haltRec = none) → s.cancelDue e = false →
      ∃ t e1, exec (.frameEnd cseq) s = .next t ∧ t.entry? cseq = some e1 ∧ e1.frame.pages = [] ∧
        (∀ k, (s.core k).entry = some cseq → (t.core k).entry = none ∧ (t.core k).st = .idle) ∧
        (∀ k, (s.core k).entry ≠ some cseq → t.core k = s.core k) ∧
        (e.frame.halt = none → e1.st = .running ∧ e1.ended = true ∧
          (e1.status, e1.wreason) = tagStatus s.profile.work.tagPolicy e.frame.rtag (!e.frame.stopped.isEmpty) ∧
          e1.payload = (if e1.status = .done then s.payloadOf e b else [])) ∧
        (∀ r, e.frame.halt = some r → r.reason < 0x20 →
          e1.st = .running ∧ e1.ended = true ∧ e1.status = .failed ∧ e1.payload = [] ∧ e1.frame.halt = some r) ∧
        (∀ r, e.frame.halt = some r → 0x20 ≤ r.reason → r.reason < 0x40 → e.replays + 1 ≤ s.profile.work.replayMax →
          e1.st = .ready ∧ e1.ended = false ∧ e1.replays = e.replays + 1 ∧ e1.order = 0) ∧
        (∀ r, e.frame.halt = some r → 0x20 ≤ r.reason → r.reason < 0x40 → s.profile.work.replayMax < e.replays + 1 →
          e1.st = .running ∧ e1.ended = true ∧ e1.status = .withheld ∧ e1.wreason = 0x10 ∧ e1.payload = []) ∧
        (∀ r, e.frame.halt = some r → 0x40 ≤ r.reason →
          e1.st = .ready ∧ e1.ended = false ∧ e1.replays = e.replays ∧ e1.order = s.backOrder))

/-- R359, R366, R368: a result parcel that is written makes the entry COMPLETE; the result due next on a stream is
transmitted, descriptor and payload in segments of 8,192 bytes, and its entry is SENT. R347, R369, R370: a RELEASE frees the
SENT entries up to its sequence number, and gives their credit back, and a CLOSING stream that has none left is CLOSED; a
RESEND transmits the kept results from its sequence number on again, in order, to the port and address from which it came.
Completes: resultParcelWritten, resultTransmit, release, resend. -/
def Obligations.Results : Prop :=
  ((∀ (s : State) (cseq : Nat) (e : Entry), s.entry? cseq = some e → s.profile.work.dualRun = false → e.st ≠ .complete →
      e.st ≠ .sent →
      (∀ b, e.op = .run b → e.ended = true → (e.status = .cancelled ∨ s.cancelDue e = false) →
        ∃ t e1, exec (.resultParcelWritten cseq) s = .next t ∧ t.entry? cseq = some e1 ∧ e1.st = .complete ∧
          e1.parcelOk = true ∧ e1.status = e.status ∧ e1.wreason = e.wreason ∧ e1.payload = e.payload ∧ t.cores = s.cores) ∧
      ((∀ b, e.op ≠ .run b) → e.st = .admitted → e.homeHere = true →
        ∃ t e1, exec (.resultParcelWritten cseq) s = .next t ∧ t.entry? cseq = some e1 ∧ e1.st = .complete ∧
          e1.parcelOk = true ∧ e1.payload = e.payload ∧ t.cores = s.cores)) ∧
    (∀ (s : State) (n p : Nat) (e : Entry), s.dueResult n = some e → s.entry? e.cseq = some e → s.resultPort e = some p →
      s.refusing = none → s.dualOk e = true →
      ∃ t e1 l a, exec (.resultTransmit n) s = .next t ∧ t.entry? e.cseq = some e1 ∧ e1.st = .sent ∧
        t.out = s.out ++ l ++ a ∧ (s.mirrors = false → l = []) ∧ carries p (s.stream e.stream).addr e a ∧
        t.streams = s.streams ∧ t.cores = s.cores)) ∧
  (∀ (s : State) (g : SegIn), portOk g.port = true → s.takes g.port g.wire = true → g.hdr.kind = 4 → s.rackOk g = true →
      let n := g.hdr.stream
      let q := beAt g.body 4 4
      let freed := s.entries.filter (fun e => e.stream == n && decide (e.seq ≤ q) && e.st == .sent)
      (beAt g.body 0 1 = 0 → ∃ t, exec (.release g) s = .next t ∧
        (∀ e ∈ t.entries, e ∈ s.entries ∧ ¬ (e.stream = n ∧ e.seq ≤ q ∧ e.st = .sent)) ∧
        (∀ e ∈ s.entries, (∀ x ∈ freed, x.cseq ≠ e.cseq) → e ∈ t.entries) ∧
        ((t.stream n).st ≠ .closed → (t.stream n).outst = (s.stream n).outst - freed.length) ∧
        ((s.stream n).st = .closing → (∀ e ∈ t.entries, e.stream ≠ n) → (t.stream n).st = .closed) ∧
        t.cores = s.cores ∧ t.commits = s.commits) ∧
      (beAt g.body 0 1 = 1 →
        let l := s.entries.filter (fun e => e.stream == n && decide (q ≤ e.seq) && e.st == .sent && e.parcelOk && e.here)
        (∀ e ∈ l, (s.session? e.tsid).isSome = true) → ∃ (t : State) (outs : List (List Out)), exec (.resend g) s = .next t ∧ t.entries = s.entries ∧
          t.cores = s.cores ∧ outs.length = l.length ∧ t.out = s.out ++ outs.flatten ∧
          ∀ (i : Nat) (e : Entry), l[i]? = some e → ∃ a : List Out, outs[i]? = some a ∧ carries g.port g.addr e a))

/-- R365: a parcel of which one copy cannot be read is served by the other, which stays where it is, and mirrored again; an
entry that lost both copies of its input before it completed is WITHHELD with reason 0x12, and a frame that lost both copies of
its result runs again. R411, R412: a path in doubt halts the cores that wait on it with FABRIC_TIMEOUT, or is a fault of the
package when none does; a ring link is used no more, a cluster's fabric is diagnosed, a die whose both links to the hubs are
doubted is lost. R404, R418, R419: a stack or die that is out of service is not lost again; a lost stack leaves service with
its pages, and the golden copies on it are copied again; a lost die leaves service with its four stacks, its rail without a
load and its part of the envelope 0; a frame that ran on either runs again. Completes: parcelReadError, fabricTimeout,
stackLost, dieLost. -/
def Obligations.LossesAndRepairs : Prop :=
  (∀ (s : State) (cseq : Nat) (e : Entry), s.entry? cseq = some e →
      (∀ input mirror,
        let p := if input then e.ipar else e.rpar
        let keep := if mirror then (p.stack, p.first) else (p.mirror, p.mfirst)
        ∃ t e1 p1, exec (.parcelReadError cseq ⟨input, mirror⟩ false) s = .next t ∧ t.entry? cseq = some e1 ∧
          e1 = (if input then { e with ipar := p1 } else { e with rpar := p1 }) ∧ p1.pages = p.pages ∧
          (p.pages ≠ 0 → (p.stack, p.first) ≠ (p.mirror, p.mfirst) → (p1.stack, p1.first) = keep ∧
            ∀ m q, s.mirrorOf keep.1 = some m → s.mirrorRun m p.pages = some q → (p1.mirror, p1.mfirst) = (m, q)) ∧
          t.cores = s.cores ∧ t.out = s.out) ∧
      (∀ mirror, s.runsHere e = true → e.completed = false →
        ∃ t e1, exec (.parcelReadError cseq ⟨true, mirror⟩ true) s = .next t ∧ t.entry? cseq = some e1 ∧ e1.st = e.st ∧
          e1.ended = true ∧ e1.status = .withheld ∧ e1.wreason = 0x12 ∧ e1.payload = [] ∧
          (∀ k, (s.core k).entry = some cseq → (t.core k).entry = none ∧ (t.core k).st = .idle)) ∧
      (∀ mirror, s.runsHere e = true → (e.st = .complete ∨ e.st = .sent) → e.frame.cores ≠ [] →
        ∃ t e1, exec (.parcelReadError cseq ⟨false, mirror⟩ true) s = .next t ∧ t.entry? cseq = some e1 ∧ e1.st = .ready ∧
          e1.order = 0 ∧ e1.payload = [])) ∧
  (∀ (s : State) (unit k : Nat) (cores : List Nat), coreOk k = true → cores.all coreOk = true →
      (unit < 4 → exec (.fabricTimeout 3 unit []) s =
        .next { s.localFault with pkg := { s.localFault.pkg with rings := s.pkg.rings.set unit false } }) ∧
      (unit < 4 → (s.core k).live = true → exec (.fabricTimeout 3 unit [k]) s =
        (let t := s.haltCore k (s.core k).ctl.ctx (s.core k).ctl.pc (s.core k).ctl.calls.length 0x23 (3 * 2 ^ 28)
         .next { t with pkg := { t.pkg with rings := t.pkg.rings.set unit false } })) ∧
      (unit < 36 → exec (.fabricTimeout 1 unit []) s =
        .next (s.localFault.modCl (unit / 9) (unit % 9) (fun c => { c with doubt := true }))) ∧
      (unit < 36 → ∃ t, exec (.fabricTimeout 1 unit cores) s = .next t ∧ (t.cl (unit / 9) (unit % 9)).doubt = true ∧
        (∀ j ∈ cores, (s.core j).live = true → (t.core j).haltRec = some ⟨(s.core j).ctl.ctx, (s.core j).ctl.pc, 0x23,
          (s.core j).ctl.calls.length, (s.core j).rank, 2 ^ 28⟩ ∧ (t.core j).st = .halted) ∧
        (∀ j, j ∉ cores → t.core j = s.core j)) ∧
      (unit < 4 → exec (.fabricTimeout 2 unit []) s = .next (s.localFault.loseDie unit)) ∧
      (unit < 8 → (s.die (unit / 2)).hubLinks = [true, true] → exec (.fabricTimeout 4 unit []) s =
        .next (s.localFault.modDie (unit / 2) (fun d => { d with hubLinks := d.hubLinks.set (unit % 2) false }))) ∧
      (unit < 8 → unit / 2 < s.dies.length → (s.die (unit / 2)).hubLinks = [true, true].set (1 - unit % 2) false →
        exec (.fabricTimeout 4 unit []) s =
          .next ((s.localFault.modDie (unit / 2) (fun d => { d with hubLinks := [false, false] })).loseDie (unit / 2))) ∧
      (unit < 16 → exec (.fabricTimeout 5 unit []) s = .next (s.localFault.loseStack unit))) ∧
  (∀ (s : State),
      (∀ st, st < 16 → s.stackUp st = false → exec (.stackLost st) s = .next s) ∧
      (∀ st, st < 16 → s.stackUp st = true →
        (∀ e ∈ s.entries, (∀ p ∈ e.frame.pages, p.1 ≠ st) ∧ e.ipar.on st = false ∧ e.rpar.on st = false) →
        let t := { s with
          hbmStacks := s.hbmStacks.set st (false, false), pages := s.pages.set st 0, used := s.used.set st [] }.countLostUnit
        t.poolUsed ≤ t.poolSize → exec (.stackLost st) s = .next { t with placements := s.placements.map (fun p =>
          { p with copies := if p.goldOk < 2 then p.copies.gone st else p.copies.rehome st t.mirrorOf }) }) ∧
      (∀ st e, st < 16 → s.stackUp st = true → s.entries = [e] → e.st = .running → e.ended = false →
        (∃ p ∈ e.frame.pages, p.1 = st) → e.ipar.on st = false → e.rpar.on st = false →
        e.replays + 1 ≤ s.profile.work.replayMax →
        ∃ t e1, exec (.stackLost st) s = .next t ∧ t.stackUp st = false ∧ t.entry? e.cseq = some e1 ∧ e1.st = .ready ∧
          e1.replays = e.replays + 1 ∧ e1.frame.pages = []) ∧
      (∀ d, d < 4 → (s.die d).up = false → exec (.dieLost d) s = .next s) ∧
      (∀ d, d < 4 → d < s.dies.length → (s.die d).up = true → s.entries = [] → ∃ t, exec (.dieLost d) s = .next t ∧
        (t.die d).up = false ∧ (t.die d).part = 0 ∧ (t.die d).ballast = 0 ∧ (t.die d).bal = [] ∧
        (∀ i, i < 4 → t.stackUp (4 * d + i) = false) ∧ (∀ n, n / 4 ≠ d → t.stackUp n = s.stackUp n) ∧
        (∀ x, t.yoke.doms[d]? = some x → x.draw = 0) ∧ (∀ j, j ≠ d → t.yoke.doms[j]? = s.yoke.doms[j]?) ∧
        (∀ j, j ≠ d → t.die j = s.die j) ∧ t.yoke.regs.step = s.yoke.regs.step + 1 ∧
        t.yoke.envelope = t.drawTotal * 1000 ∧ t.cores = s.cores ∧ t.entries = [] ∧ t.streams = s.streams) ∧
      (∀ d e, d < 4 → (s.die d).up = true → s.entries = [e] → e.st = .running → e.ended = false →
        (∃ k ∈ s.coresOf e.cseq, dieOf k = d) → e.ipar.pages = 0 → e.rpar.pages = 0 →
        e.replays + 1 ≤ s.profile.work.replayMax →
        ∃ t e1, exec (.dieLost d) s = .next t ∧ t.entry? e.cseq = some e1 ∧ e1.st = .ready ∧ e1.replays = e.replays + 1 ∧
          (∀ k, (s.core k).entry = some e.cseq → (t.core k).entry = none ∧ (t.core k).st = .idle)))

/-- R324, R327, R328, R339: a REPLY leaves from the request's port, or another working one, for its source, with session, name,
cursor, status and detail; a status other than OK, BULK_GAP and WRONG_HUB is counted, and a REPLY for which no session gives a
cursor carries a free one (log 41). R325: OPEN makes a session over a range of an object that no open session of the object
meets, while fewer than 64 are open, 16 of them on the object, and the pool has room for a new object; the same session opened
again answers with its cursor, another one of the number with BULK_BUSY. R486, R492: a frame under a session that has ended is
answered AUTH_FAIL and has no other effect; what the REPLY says of its body is open, `TSID` is 0, and a frame under an
identifier that no tenant has is discarded (DESIGN CHOICE, log 121). Completes: bulkOpen. -/
def Obligations.BulkOpens : Prop :=
  (∀ (s : State) (b : BulkIn) (c : Instr), b.port < 8 → s.takes b.port b.wire = true → b.hdr.kind = 5 → s.session? b.tsid = none →
      (c ∈ [Instr.bulkOpen b, .burst b, .bulkClose b, .abort b, .query b, .remove b, .notes b] ∨ ∃ o, c = .bulkCommit b o) →
      (0xFFFD ≤ b.tsid → exec c s = .next s) ∧
      (b.tsid < 0xFFFD → ∀ p, s.outPort b.port = some p → ∃ (t : State) (bop session name pos : Nat), exec c s = .next t ∧
        t.out = s.out ++ [s.segOut p b.addr (headOf 5 0 0 0 0) (replyBody bop session name pos 7 0 [])] ∧
        t = { s with inst := { s.inst with refused := s.inst.refused + 1 }, out := t.out, pkg := { s.pkg with free := t.pkg.free } })) ∧
  (∀ (s : State) (b : BulkIn) (pos : Option Nat) (p status d : Nat), b.port < 8 → s.outPort b.port = some p →
      let h := bulkHead b.body
      let t := s.replyTo b pos status d
      t.out = s.out ++ [s.segOut p b.addr (headOf 5 b.tsid 0 0 0) (replyBody h.bop h.session h.name
        (pos.getD (Config.openValue 4 s.pkg.free 0 % 2 ^ 64)) status d [])] ∧
      t.inst.refused = (if status = 0 ∨ status = 1 ∨ status = 6 then s.inst.refused else s.inst.refused + 1) ∧
      t = { s with inst := { s.inst with refused := t.inst.refused }, out := t.out, secure := t.secure,
                   pkg := { s.pkg with free := t.pkg.free } }) ∧
  (∀ (s : State) (b : BulkIn) (tenant : Nat), s.bulkReady 1 b tenant →
      let h := bulkHead b.body
      let x : Bulk := ⟨h.session, tenant, h.target, h.name, h.pos, h.len, h.objlen, h.pos, b.port / 4, false⟩
      let known := s.obj? tenant h.target h.name
      let taken : Prop := (∃ o, known = some o ∧ (o.waiting = true ∨ o.len ≠ h.objlen)) ∨
        ∃ y ∈ s.sessionsOn tenant h.target h.name, meets y.base y.len h.pos h.len = true
      (∀ y, s.bulk? tenant h.session = some y → y.aborted = false → exec (.bulkOpen b) s = .next (s.replyTo b (some y.cursor)
        (if y.target = h.target ∧ y.name = h.name ∧ y.base = h.pos ∧ y.len = h.len ∧ y.objlen = h.objlen then 0 else 4) 0)) ∧
      ((∀ y, s.bulk? tenant h.session = some y → y.aborted = true) →
        (taken → exec (.bulkOpen b) s = .next (s.replyTo b none 4 0)) ∧
        (¬ taken → 64 ≤ s.openBulk.length ∨ 16 ≤ (s.sessionsOn tenant h.target h.name).length →
          exec (.bulkOpen b) s = .next (s.replyTo b none 5 0)) ∧
        (¬ taken → s.openBulk.length < 64 → (s.sessionsOn tenant h.target h.name).length < 16 →
          (known = none → s.poolSize < s.poolUsed + 2 * h.objlen → exec (.bulkOpen b) s =
            .next (s.replyTo b none 0x0B (ceilDiv (s.poolUsed + 2 * h.objlen - s.poolSize) 1048576))) ∧
          (known ≠ none ∨ s.poolUsed + 2 * h.objlen ≤ s.poolSize → exec (.bulkOpen b) s = .next (State.replyTo
            { s with
              bulk := s.bulk.filter (fun y => !(y.tenant == tenant && y.id == h.session)) ++ [x]
              objects := if known = none then s.objects ++ [⟨tenant, h.target, h.name, h.objlen, [], [], false⟩] else s.objects }
            b (some h.pos) 0 0)))))

/-- R326: a BURST at the cursor stages its bytes and moves the cursor; one wholly below it is acknowledged again, one above or
across it is BULK_GAP, one that ends outside the session BULK_OVERRUN. R327, R328: CLOSE ends a session whose bytes are all
staged, ABORT any; QUERY answers with the cursor at either hub; an unknown and an aborted session are refused, and so, but by
QUERY, is one of the other hub. R329: NOTES answers with the notes of a placement of the tenant from the index given on. R325,
R327: a session without an accepted BURST for too long is aborted, and an object with no session that does not wait is
discarded. Completes: burst, bulkClose, abort, query, notes, bulkIdle. -/
def Obligations.BulkSessions : Prop :=
  (∀ (s : State) (b : BulkIn) (tenant : Nat) (x : Bulk), s.bulkReady 2 b tenant → s.served b tenant x →
      let h := bulkHead b.body
      let data := b.body.drop 32
      (x.base + x.len < h.pos + h.len → exec (.burst b) s = .next (s.replyTo b (some x.cursor) 2 0)) ∧
      (h.pos + h.len ≤ x.base + x.len → h.pos = x.cursor →
        ∃ t : State, exec (.burst b) s = .next (t.replyTo b (some (h.pos + h.len)) 0 0) ∧
          t.bulk = s.bulk.map (fun y =>
            if y.tenant == x.tenant && y.id == x.id then { y with cursor := h.pos + data.length } else y) ∧
          t.objects = s.objects.map (fun o => if o.is x.tenant x.target x.name then
            { o with data := Mem.writeBytes o.data h.pos data, staged := o.staged ++ [(h.pos, h.pos + data.length)] } else o) ∧
          t = { s with bulk := t.bulk, objects := t.objects, hubs := t.hubs, hbmStacks := t.hbmStacks, out := t.out,
                       pair := t.pair } ∧
          (s.mirrors = false → t.out = s.out ∧ t.pair = s.pair)) ∧
      (h.pos + h.len ≤ x.base + x.len → h.pos ≠ x.cursor → h.pos + h.len ≤ x.cursor →
        exec (.burst b) s = .next (s.replyTo b (some x.cursor) 0 0)) ∧
      (h.pos + h.len ≤ x.base + x.len → h.pos ≠ x.cursor → x.cursor < h.pos + h.len →
        exec (.burst b) s = .next (s.replyTo b (some x.cursor) 1 0))) ∧
  ((∀ (s : State) (b : BulkIn) (tenant : Nat) (x : Bulk), s.served b tenant x →
      let t : State := { s with bulk := s.bulk.filter (fun y => !(y.tenant == x.tenant && y.id == x.id)) }
      (s.bulkReady 3 b tenant → x.cursor < x.base + x.len →
        exec (.bulkClose b) s = .next (s.replyTo b (some x.cursor) 0x0C x.cursor)) ∧
      (s.bulkReady 3 b tenant → x.base + x.len ≤ x.cursor → exec (.bulkClose b) s = .next (t.replyTo b (some x.cursor) 0 0)) ∧
      (s.bulkReady 4 b tenant → exec (.abort b) s = .next (t.replyTo b (some x.cursor) 0 0))) ∧
    (∀ (s : State) (b : BulkIn) (tenant : Nat) (x : Bulk), s.bulk? tenant (bulkHead b.body).session = some x →
      (s.bulkReady 5 b tenant →
        exec (.query b) s = .next (s.replyTo b (some x.cursor) (if x.aborted then 0x15 else 0) 0)) ∧
      ((x.aborted = true ∨ (x.hub ≠ b.port / 4 ∧ (s.hub x.hub).up = true)) →
        let t := s.replyTo b (some x.cursor) (if x.aborted then 0x15 else 6) 0
        (s.bulkReady 2 b tenant → exec (.burst b) s = .next t) ∧ (s.bulkReady 3 b tenant → exec (.bulkClose b) s = .next t) ∧
        (s.bulkReady 4 b tenant → exec (.abort b) s = .next t))) ∧
    (∀ (s : State) (b : BulkIn) (tenant : Nat), s.bulk? tenant (bulkHead b.body).session = none →
      (s.bulkReady 2 b tenant → exec (.burst b) s = .next (s.replyTo b none 3 0)) ∧
      (s.bulkReady 3 b tenant → exec (.bulkClose b) s = .next (s.replyTo b none 3 0)) ∧
      (s.bulkReady 4 b tenant → exec (.abort b) s = .next (s.replyTo b none 3 0)) ∧
      (s.bulkReady 5 b tenant → exec (.query b) s = .next (s.replyTo b none 3 0))) ∧
    (∀ (s : State) (b : BulkIn) (tenant : Nat), s.bulkReady 8 b tenant →
      let h := bulkHead b.body
      let found := s.placements.find? (fun p => p.handle == h.name)
      (found = none → exec (.notes b) s = .next (s.replyTo b none 0x16 h.name)) ∧
      (∀ p, found = some p → p.tenant ≠ tenant → exec (.notes b) s = .next (s.replyTo b none 7 0)) ∧
      (∀ p, found = some p → p.tenant = tenant → exec (.notes b) s = .next (s.reply ⟨b.port, b.addr, b.tsid⟩ 8 0 h.name
        (some h.pos) 0 p.notes.length (((p.notes.drop h.pos).take 1024).flatMap (beBytes 8))))) ∧
    (∀ (s : State) (id tenant target name : Nat),
      exec (.bulkIdle (some id) tenant target name) s = .next { s with
        bulk := s.bulk.map (fun x => if x.tenant == tenant && x.id == id then { x with aborted := true } else x) } ∧
      (∀ o, s.obj? tenant target name = some o → o.waiting = false → s.sessionsOn tenant target name = [] →
        exec (.bulkIdle none tenant target name) s = .next { s with
          objects := s.objects.filter (fun o => !(o.is tenant target name)) })))

/-- R325, R330, R331: COMMIT is refused while bytes are missing or sessions are open; a complete TABLES or REGION
object waits for its placement; STAGING, ROUTINE and PATCH objects are examined. R323, R330: a STAGING object whose key does not
unwrap, or whose first record fails, is refused as not authentic, one of a handle in use with its handle, one with a header
field that breaks R321 at that field, one whose handle is not its name at the handle; one that passes every check claims its
planes. R331: a claim makes EMPTY planes PROGRAMMING and fences shared ones, and the staged objects are gone. R203: a ROUTINE
object that translates waits with its version for its commit. Completes: bulkCommit. -/
def Obligations.BulkCommits : Prop :=
  (∀ (s : State) (b : BulkIn) (i : CommitIn) (tenant : Nat), s.bulkReady 6 b tenant →
      let h := bulkHead b.body
      (s.obj? tenant h.target h.name = none → exec (.bulkCommit b i) s = .next (s.replyTo b none 0x0C 0)) ∧
      (∀ o, s.obj? tenant h.target h.name = some o →
        (o.missing < o.len → exec (.bulkCommit b i) s = .next (s.replyTo b none 0x0C o.missing)) ∧
        (o.len ≤ o.missing → s.sessionsOn tenant h.target h.name ≠ [] →
          exec (.bulkCommit b i) s = .next (s.replyTo b none 0x0C o.len)) ∧
        (o.len ≤ o.missing → s.sessionsOn tenant h.target h.name = [] →
          (h.target = 2 ∨ h.target = 3 → ∃ t : State, exec (.bulkCommit b i) s = .next (t.replyTo b none 0 0) ∧
            t.objects = s.objects.map (fun x => if x.is tenant h.target h.name then { x with waiting := true } else x) ∧
            t = { s with objects := t.objects, out := t.out, pair := t.pair } ∧
            (s.mirrors = false → t.out = s.out ∧ t.pair = s.pair)) ∧
          (h.target = 0 → exec (.bulkCommit b i) s = .next (s.commitStaging b tenant o i)) ∧
          (h.target = 1 → exec (.bulkCommit b i) s = .next (s.commitRoutine b tenant o i)) ∧
          (h.target = 4 → exec (.bulkCommit b i) s = .next (s.commitPatch b tenant o i))))) ∧
  (∀ (s : State) (b : BulkIn) (tenant : Nat) (o : Obj) (i : CommitIn),
      (∀ x ∈ s.objects, ¬ (x.name = o.name ∧ x.tenant ≠ tenant)) → s.waitingObj tenant 2 o.name = none →
      s.waitingObj tenant 3 o.name = none →
      let g := imgOf o.data
      let sp := imgSpans o.data g
      let recs := o.records g.recOff
      let s1 := s.keepKey g.wkey
      (s.unwraps g.wkey i.wkeyOk = false → s.commitStaging b tenant o i = s.replyTo b none 7 0) ∧
      (s.unwraps g.wkey i.wkeyOk = true →
        (i.badRecord = some 0 → s.commitStaging b tenant o i = s1.replyTo b none 7 0) ∧
        (i.badRecord ≠ some 0 →
          (s.placements.any (fun p => p.handle == o.name) = true ∨ s.installs.any (fun x => x.pl.handle == o.name) = true →
            s.commitStaging b tenant o i = s1.replyTo b none 9 o.name) ∧
          (s.placements.any (fun p => p.handle == o.name) = false → s.installs.any (fun x => x.pl.handle == o.name) = false →
            (∀ d, hdrBad o.data g = some d → s.commitStaging b tenant o i = s1.replyTo b none 8 d) ∧
            (hdrBad o.data g = none → g.handle ≠ o.name → s.commitStaging b tenant o i = s1.replyTo b none 8 6) ∧
            (∀ f, hdrBad o.data g = none → g.handle = o.name → g.recOff ≤ o.len → listBad o.data g = none →
              Fmt.ofCode g.wcode = some f → g.tables = 0 → g.region = 0 → recs.2 = none → psigBad i.plain g = none →
              i.plain.length = plainLen f g sp → g.bwth ≤ s.profile.work.bwThreshMax → s.noFit tenant f g sp = none →
              g.flags.testBit 0 = false → decryptStop i f g recs.1 = none →
              let pl := placementOf tenant o g f i [] none none recs.1
              s1.poolLack pl (2 * o.len) = none →
              s.commitStaging b tenant o i = s1.claim b tenant pl (i.badPart.map (fun n => (7, n)))))))) ∧
  (∀ (s : State) (b : BulkIn) (tenant : Nat) (pl : Placement) (late : Option (Nat × Nat)),
      let t := s.claim b tenant pl late
      (∀ x ∈ pl.planeKeys, ((s.planeAt x).st = .empty → (t.planeAt x).st = .programming) ∧
        ((s.planeAt x).st = .live → (t.planeAt x).st = .fenced)) ∧
      (∀ x, x ∉ pl.planeKeys → t.planeAt x = s.planeAt x) ∧
      (∃ y, t.installs = s.installs ++ [y] ∧ y.pl = { pl with reply := y.pl.reply } ∧ y.late = late ∧
        y.claimed = pl.planeKeys.filter (fun x => (s.planeAt x).st == .empty) ∧
        y.fenced = pl.planeKeys.filter (fun x => (s.planeAt x).st == .live)) ∧
      (∀ x ∈ t.objects, ¬ (x.tenant = tenant ∧ x.name = pl.handle ∧ (x.target = 0 ∨ x.target = 2 ∨ x.target = 3))) ∧
      t.placements = s.placements ∧ t.out = s.out) ∧
  (∀ (s : State) (b : BulkIn) (tenant : Nat) (o : Obj) (i : CommitIn) (h : Word128) (prog : List MInstr),
      i.wkeyOk = true → i.badRecord = none → 64 ≤ i.plain.length → leAt i.plain 0 1 < 16 →
      (∀ n, 1 ≤ n → n < 64 → leAt i.plain n 1 = 0) → translate true (i.plain.drop 64) = .ok (h, prog) →
      s.routines.find? (fun r => r.name == o.name) = none →
      (∃ d, d < 4 ∧ (leAt i.plain 0 1).testBit d = true ∧
        (s.rsSpace d (ceilDiv (i.plain.drop 64).length 64)).isSome = true ∧ s.rdRoom d o.name = true) →
      ∃ t q, s.commitRoutine b tenant o i = t ∧
        t.routines = s.routines ++ [⟨o.name, tenant, leAt i.plain 0 1, none, [], [q]⟩] ∧ q.v.code = prog ∧ q.v.until_ = none ∧
        q.mask = leAt i.plain 0 1 ∧ t.objects = s.objects.filter (fun x => !(x.is tenant 1 o.name)) ∧
        t = { s with routines := t.routines, objects := t.objects })

/-- R65, R317, R331, R332: an installation whose planes all read what is written commits: it takes the next epoch, its
planes are LIVE, with the smallest threshold of their placements, but for one that a removal still empties, and frames bound
from then on see it. A plane that fails after its engine was substituted fails the installation with VERIFY_FAIL; while a unit
of it is being substituted it waits. R202, R203: a version of a routine that waits becomes current with the next epoch, and the
one before it ends there. R204, R335: REMOVE takes the next epoch, from which no frame sees the placement or routine; once no
frame that sees a placement is left its planes are RETIRED, or FENCED where others share them; a RETIRED plane that is emptied
is EMPTY, a shared one keeps the other placements' spans. Completes: installDone, routineCommit, remove, placementRetire,
planeEmpty. -/
def Obligations.InstalledObjects : Prop :=
  (∀ (s : State) (i : Install), s.installs.find? (fun x => x.pl.handle == i.pl.handle) = some i →
      let h := i.pl.handle
      let keys := i.pl.planeKeys
      let w := s.writeSpans i.pl
      ((∃ x ∈ keys, s.substBlocks x.1 [x.2.1] = true) → exec (.installDone h none) s = .next s) ∧
      ((∀ x ∈ keys, s.substBlocks x.1 [x.2.1] = false ∧ s.hasHardware x.1 = true ∧ s.coreUp x.1 = true) →
        ((∀ x ∈ keys, w.planeBad x = []) → i.late = none →
          ∃ t : State, exec (.installDone h none) s = .next t ∧ t.pkg.epoch = (s.pkg.epoch + 1) % 2 ^ 32 ∧
            t.placements = s.placements ++ [{ i.pl with commit := (s.pkg.epoch + 1) % 2 ^ 32, reply := [] }] ∧
            t.installs = s.installs.filter (fun x => x.pl.handle != h) ∧ t.inst.commits = s.inst.commits + 1 ∧
            (∀ x ∈ i.claimed ++ i.fenced, (t.planeAt x).st = (if t.beingEmptied x then .fenced else .live) ∧
              (t.planeAt x).thr = t.planeThr (t.planeAt x).spans (t.planeAt x).dyn)) ∧
        ((∀ x ∈ keys, w.planeBad x = []) → ∀ st d, i.late = some (st, d) →
          exec (.installDone h none) s = .next (s.failInstall i st d)) ∧
        (∀ x, (keys.filter (fun x => !(w.planeBad x).isEmpty)).find? (fun x => i.replaced.contains (x.1, x.2.1)) = some x →
          exec (.installDone h none) s = .next (s.failInstall i 0x0D (i.pl.spanIndex x))))) ∧
  (∀ (s : State) (tenant name : Nat) (r : Routine), s.routines.find? (fun x => x.name == name && x.tenant == tenant) = some r →
      let ep := (s.pkg.epoch + 1) % 2 ^ 32
      (r.queue = [] → exec (.routineCommit tenant name) s = .next s) ∧
      (∀ q rest, r.queue = q :: rest → q.v.until_ = none →
        ∃ t : State, exec (.routineCommit tenant name) s = .next t ∧ t.pkg.epoch = ep ∧
          (∃ x ∈ t.routines, x.name = name ∧ x.tenant = tenant ∧ x.current = some q.v.num ∧ x.queue = rest ∧
            x.dieMask = q.mask ∧ { q.v with from_ := ep } ∈ x.versions ∧
            (∀ v ∈ x.versions, v.until_ = none → v = { q.v with from_ := ep })) ∧
          t.placements = s.placements ∧ t.cores = s.cores)) ∧
  ((∀ (s : State) (b : BulkIn) (tenant : Nat), s.bulkReady 7 b tenant →
      let h := bulkHead b.body
      let ep := (s.pkg.epoch + 1) % 2 ^ 32
      (∀ p, h.target ≠ 1 → s.placements.find? (fun p => p.handle == h.name && p.removed.isNone) = some p →
        (p.tenant ≠ tenant → exec (.remove b) s = .next (s.replyTo b none 7 0)) ∧
        (p.tenant = tenant → ∃ t : State, exec (.remove b) s = .next (t.replyTo b none 0 0) ∧ t.pkg.epoch = ep ∧
          t.placements = s.placements.map (fun q => if q.handle == h.name && q.removed.isNone then
            { q with removed := some ep } else q) ∧
          (∀ x, t.planeAt x = { s.planeAt x with thr := (t.planeAt x).thr }) ∧
          (∀ x ∈ p.planeKeys, (t.planeAt x).thr = t.planeThr (t.planeAt x).spans (t.planeAt x).dyn))) ∧
      (h.target ≠ 1 → s.placements.find? (fun p => p.handle == h.name && p.removed.isNone) = none →
        exec (.remove b) s = .next (s.replyTo b none 0x16 h.name)) ∧
      (∀ r, h.target = 1 → s.routines.find? (fun r => r.name == h.name && r.current.isSome) = some r →
        (r.tenant ≠ tenant → exec (.remove b) s = .next (s.replyTo b none 7 0)) ∧
        (r.tenant = tenant → ∃ t : State, exec (.remove b) s = .next (t.replyTo b none 0 0) ∧ t.pkg.epoch = ep ∧
          (∀ x ∈ t.routines, x.name = h.name → x.current = none ∧ ∀ v ∈ x.versions, v.until_ ≠ none) ∧
          t.placements = s.placements ∧ t.cores = s.cores))) ∧
    (∀ (s : State) (h ep : Nat) (p : Placement), s.placements.find? (fun p => p.handle == h) = some p → p.removed = some ep →
      p.retiring = false → s.stillUsed h ep = false →
      ∃ t : State, exec (.placementRetire h) s = .next t ∧ (∀ x ∈ p.planeKeys, (t.planeAt x).st =
        (if (s.planeAt x).spans.any (fun y => y.handle != h) then .fenced else .retired)) ∧
        (∀ x, x ∉ p.planeKeys → t.planeAt x = s.planeAt x) ∧
        t.placements = s.placements.map (fun q => if q.handle == h then { q with retiring := true } else q)) ∧
    (∀ (s : State) (k e p : Nat), coreOk k = true → engineOk e = true → p < 8 →
      let x := (k, e, p)
      let q := s.planeAt x
      let kept := q.spans.filter (fun y => !(s.retiring y.handle))
      (q.st = .retired → ∃ t : State, exec (.planeEmpty k e p) s = .next t ∧ t.planeAt x = Plane.fresh ∧
        (∀ y, y ≠ x → t.planeAt y = s.planeAt y)) ∧
      (q.st = .fenced → kept ≠ q.spans → (∀ i ∈ s.installs, x ∉ i.fenced) →
        ∃ t : State, exec (.planeEmpty k e p) s = .next t ∧ (∀ y, y ≠ x → t.planeAt y = s.planeAt y) ∧
          (kept = [] → q.dyn = none → t.planeAt x = Plane.fresh) ∧
          (kept ≠ [] → (t.planeAt x).spans = kept ∧
            (t.planeAt x).st = (if q.doubt || q.absorb || q.lost then .fenced else .live)))))

/-- R70, R78, R79, R333: a fenced plane whose cells read what the golden copy gives is LIVE again and counted as a
transient, or as reprogrammed where it had to be written; with persistent cells under the policy ABSORB it waits for a patch
with a note of each, and under REPROGRAM their columns are substituted; one whose golden copies are lost stays FENCED; a plane
that waited for a patch too long has its columns substituted. R76, R77: a patch is applied to the golden copy and to the planes
of the placement, which are LIVE once they verify; one whose plane no longer waits for it is superseded. R337: a pass that waits
too long at a fence makes its frame run again on a replica, or halts it with FENCED. Completes: planeDiagnosis, absorbWait,
patchApply, fenceWait. -/
def Obligations.PlanesInDoubt : Prop :=
  (∀ (s : State) (k e p : Nat) (sweepOk : Bool) (lost : List GoldLoss), coreOk k = true → engineOk e = true → p < 8 →
      let x := (k, e, p)
      let s1 := (s.yieldSlices k e).loseGold lost
      let pl := s1.planeAt x
      let gold := s1.goldenRows x
      let cells := s1.badCells x gold
      s.toDiagnose x = true → (s.core k).passOn e = false → s.substBlocks k [e] = false → s.mayProgram k e = true →
      pl.bare = false →
      (s1.goldWhole x = true → cells = [] → (pl.rows = gold → sweepOk = true) →
        ∃ t : State, exec (.planeDiagnosis k e p ⟨sweepOk, lost⟩) s = .next t ∧
          t.planeAt x = { pl with rows := gold, st := .live, doubt := false, absorb := false } ∧
          (∀ y, y ≠ x → t.planeAt y = s1.planeAt y) ∧
          (t.core k).arr.transient = (s1.core k).arr.transient + (if pl.rows = gold then 1 else 0) ∧
          (t.core k).arr.reprogram = (s1.core k).arr.reprogram + (if pl.rows = gold then 0 else 1)) ∧
      (s1.goldWhole x = true → cells ≠ [] → (∀ c ∈ cells, ∃ h, pl.coveredBy c.2.1 = some h ∧ s1.absorbs h = true) →
        s1.notesFit pl cells = true →
        ∃ t : State, exec (.planeDiagnosis k e p ⟨sweepOk, lost⟩) s = .next t ∧
          t.planeAt x = { pl with rows := gold, doubt := false, absorb := true } ∧
          (∀ c ∈ cells, ∀ h, pl.coveredBy c.2.1 = some h → (∃ q ∈ s1.placements, q.handle = h ∧ q.removed = none) →
            ∃ q ∈ t.placements, q.handle = h ∧ q.removed = none ∧ noteOf h x c.1 c.2.1 c.2.2 ∈ q.notes) ∧
          (∀ y, y ≠ x → t.planeAt y = s1.planeAt y) ∧ t.maps = s1.maps) ∧
      (let hard := cells.filter (fun c => (pl.coveredBy c.2.1).any (fun h => !(s1.absorbs h)))
       let slots := sortedSet (hard.map (·.2.1))
       s1.goldWhole x = true → hard ≠ [] → (∀ c ∈ cells, (pl.coveredBy c.2.1).isSome = true) → s1.maps.subst = [] →
        slots.length ≤ ((s1.core k).engine e).spareCols →
        ∃ t : State, exec (.planeDiagnosis k e p ⟨sweepOk, lost⟩) s = .next t ∧ (t.planeAt x).rows = gold ∧
          t.maps.subst = slots.map (fun n => ⟨1, k, e, n⟩)) ∧
      (s1.goldWhole x = false → pl.lost = false →
        ∃ t : State, exec (.planeDiagnosis k e p ⟨sweepOk, lost⟩) s = .next t ∧
          t.planeAt x = { pl with st := .fenced, lost := true } ∧ t.inst.lostCount = s1.inst.lostCount + 1)) ∧
  (∀ (s : State) (k e p : Nat), coreOk k = true → engineOk e = true → p < 8 →
      let x := (k, e, p)
      let pl := s.planeAt x
      let slots := sortedSet ((s.badCells x (s.goldenRows x)).map (·.2.1))
      (pl.st = .fenced → pl.absorb = true → (∀ q ∈ s.placements, q.patch = []) → s.maps.subst = [] →
        slots.length ≤ ((s.core k).engine e).spareCols →
        ∃ t : State, exec (.absorbWait k e p) s = .next t ∧ (t.planeAt x).absorb = false ∧ (t.planeAt x).st = .fenced ∧
          t.maps.subst = slots.map (fun n => ⟨1, k, e, n⟩)) ∧
      (pl.st ≠ .fenced ∨ pl.absorb = false → exec (.absorbWait k e p) s = .next s)) ∧
  ((∀ (s : State) (h : Nat) (p : Placement), s.placements.find? (fun p => p.handle == h && p.removed.isNone) = some p →
      p.patch ≠ [] → (∀ x ∈ p.spans, s.mayProgram x.k x.engine = true) →
      (∀ x ∈ p.patchKeys, (s.planeAt x).st = .fenced ∧ (s.planeAt x).absorb = true) → s.grazer.slices = [] →
        let q := { p with
          gold := patchGold p
          patched := (p.patched ++ p.notes.filter (fun n => p.patchKeys.contains (notePlane n))).eraseDups
          patch := [], reply := [] }
        let s1 := { s with placements := s.placements.map (fun (y : Placement) => if y.handle == h && y.removed.isNone then q else y) }
        ∃ t : State, exec (.patchApply h) s = .next t ∧ t.placements = s1.placements ∧
          (∀ x ∈ p.patchKeys, s1.goldWhole x = true → s1.badCells x (s1.goldenRows x) = [] →
            (t.planeAt x).st = .live ∧ (t.planeAt x).rows = s1.goldenRows x) ∧
          (∀ x, x ∉ p.patchKeys → t.planeAt x = s.planeAt x)) ∧
    (∀ (s : State) (h : Nat) (p : Placement), s.placements.find? (fun p => p.handle == h && p.removed.isNone) = some p →
      p.patch ≠ [] → (∀ x ∈ p.spans, s.mayProgram x.k x.engine = true) →
      (∃ x ∈ p.patchKeys, (s.planeAt x).st ≠ .fenced ∨ (s.planeAt x).absorb = false) →
      ∃ t : State, exec (.patchApply h) s = .next t ∧ t.cores = s.cores ∧
        (∀ q ∈ t.placements, q.handle = h → q.removed = none → q.patch = [])) ∧
    (∀ (s : State) (k : Nat) (f : Flight) (e : Entry) (fe : Nat × Nat), coreOk k = true → (s.core k).live = true →
      (s.core k).q.flights.find? (fun f => f.fence.isSome) = some f → f.fence = some fe → s.frameOf (s.core k) = some e →
      (((s.core k).engine fe.1).plane fe.2).st = .fenced →
      let h := (e.handleFor f.ent.handle).getD f.ent.handle
      (s.replicaFor e h = none → ∃ t : State, exec (.fenceWait k) s = .next t ∧ (t.core k).st = .halted ∧ (t.core k).haltRec =
        some ⟨f.ent.ctx, f.ent.pc, 0x40, f.ent.depth, (s.core k).rank, h * 2 ^ 16 + fe.1 * 2 ^ 11 + fe.2 * 2 ^ 8⟩ ∧
        t.inst.requeues = s.inst.requeues + 1 ∧ (∀ j, j ≠ k → t.core j = s.core j)) ∧
      (∀ q, s.replicaFor e h = some q → ∃ t e1, exec (.fenceWait k) s = .next t ∧
        t.entry? e.cseq = some e1 ∧ e1.st = .ready ∧ e1.frame.places = e.frame.places.map (fun x => if x = h then q.handle else x) ∧
        t.inst.redirects = s.inst.redirects + 1 ∧
        (∀ j, (s.core j).entry = some e.cseq → (t.core j).entry = none ∧ (t.core j).st = .idle))))

/-- R36, R72: a column substitution gives the slot the lowest-numbered spare column that is left, counts it and ends. R73: a
dynamic plane in doubt whose cells are good is cleared and LIVE, which counts as a transient. R17, R20, R413, R414: a spare
engine, core or cluster that verifies takes the logical number, and the unit that it replaces is out of service; a spare that
fails its verify is out of service too; a diagnosis that finds nothing returns the core to service, and is a transient unless a row was
repaired; one that finds a fault begins the substitution of the core, which is tested again out of service (R465), and ends the
frames on it. Completes: columnSubstitution, dynamicPlaneTest, substitutionDone,
coreDiagnosisDone. -/
def Obligations.Substitutions : Prop :=
  ((∀ (s : State) (k e slot us : Nat) (lost : List GoldLoss), coreOk k = true → engineOk e = true → slot < 264 →
      (⟨1, k, e, slot⟩ : FaultUnit) ∈ s.maps.subst → (s.core k).passOn e = false → s.mayProgram k e = true →
      s.grazer.slices = [] →
      let g := (s.core k).engine e
      ∃ t : State, exec (.columnSubstitution k e slot ⟨us, lost⟩) s = .next t ∧
        ((t.core k).engine e).moved = Tbl.set g.moved slot (at' g.columns (264 + g.substs) 268) ∧
        ((t.core k).engine e).substs = g.substs + 1 ∧
        t.maps.subst = s.maps.subst.filter (fun u => u != (⟨1, k, e, slot⟩ : FaultUnit)) ∧
        (t.core k).arr.colSubst = (s.core k).arr.colSubst + 1 ∧ t.flt.subst = s.flt.subst + 1 ∧
        (∀ j, j ≠ k → t.core j = s.core j)) ∧
    (∀ (s : State) (k e : Nat) (h : Nat), coreOk k = true → engineOk e = true →
      let g := (s.core k).engine e
      (g.plane 7).st = .fenced → (g.plane 7).doubt = true → (g.plane 7).dyn = some h → (s.core k).passOn e = false →
      (∀ p, p < 7 → s.inDoubt (k, e, p) = false) → s.substBlocks k [e] = false → s.mayProgram k e = true →
      s.grazer.slices = [] → (∀ c ∈ g.stuck, c.plane ≠ 7) →
      ∃ t : State, exec (.dynamicPlaneTest k e) s = .next t ∧ t.planeAt (k, e, 7) =
        { g.plane 7 with rows := [], written := 0, tag := 0, st := .live, doubt := false } ∧
        (∀ x, x ≠ (k, e, 7) → t.planeAt x = s.planeAt x) ∧
        (t.core k).arr.transient = (s.core k).arr.transient + 1)) ∧
  ((∀ (s : State) (u : FaultUnit) (us n : Nat) (lost : List GoldLoss), coreOk u.k = true → engineOk u.e = true →
      u ∈ s.maps.subst →
      let was := s.physEngine u.k u.e
      (u.level = 2 → s.spareEngine u.k = some n →
        (∃ t : State, exec (.substitutionDone u ⟨us, lost⟩ true) s = .next t ∧ t.physEngine u.k u.e = n ∧ u ∉ t.maps.subst ∧
          (2, dieOf u.k, s.pcOf u.k, s.physCore u.k, was) ∈ t.maps.bad ∧ t.flt.sEngine = s.flt.sEngine + 1 ∧
          t.flt.subst = s.flt.subst + 1) ∧
        (∃ t : State, exec (.substitutionDone u ⟨us, lost⟩ false) s = .next t ∧ u ∉ t.maps.subst ∧
          (2, dieOf u.k, s.pcOf u.k, s.physCore u.k, n) ∈ t.maps.bad)) ∧
      (u.level = 3 → s.spareCore u.k = some n →
        ∃ t : State, exec (.substitutionDone u ⟨us, lost⟩ true) s = .next t ∧ t.physCore u.k = n ∧ u ∉ t.maps.subst ∧
          (3, dieOf u.k, s.pcOf u.k, s.physCore u.k, 0) ∈ t.maps.bad ∧ t.flt.sCore = s.flt.sCore + 1 ∧
          t.flt.subst = s.flt.subst + 1 ∧ (t.core u.k).diag = false ∧ (t.core u.k).mem = CoreMem.fresh) ∧
      (u.level = 4 → s.spareCluster u.k = some n →
        ∃ t : State, exec (.substitutionDone u ⟨us, lost⟩ true) s = .next t ∧
          t.physCluster (dieOf u.k) (clusterOf u.k) = some n ∧ u ∉ t.maps.subst ∧
          (4, dieOf u.k, s.pcOf u.k, 0, 0) ∈ t.maps.bad ∧ t.flt.sCluster = s.flt.sCluster + 1 ∧
          t.flt.subst = s.flt.subst + 1)) ∧
    (∀ (s : State) (u : FaultUnit) (us : Nat) (ok : Bool) (lost : List GoldLoss), coreOk u.k = true → engineOk u.e = true →
      u ∉ s.maps.subst → exec (.substitutionDone u ⟨us, lost⟩ ok) s = .next s) ∧
    (∀ (s : State) (k : Nat), coreOk k = true → (s.core k).diag = true → s.clusterDoubt k = false →
      let back : State := s.setCore k { s.core k with diag := false, mended := false }
      ((s.core k).mended = false → exec (.coreDiagnosisDone k false) s = .next { back with
        flt := { s.flt with transient := s.flt.transient + 1 } }) ∧
      ((s.core k).mended = true → exec (.coreDiagnosisDone k false) s = .next back) ∧
      (s.spareLeft 3 k = true → (∀ u ∈ s.maps.subst, coversUnit u 3 k 0 = false) →
        exec (.coreDiagnosisDone k true) s = .next (({ s with maps := { s.maps with
          retest := (unitKey 3 (s.coreTarget k) :: s.maps.retest).eraseDups
          subst := s.maps.subst ++ [(⟨3, k, 0, 0⟩ : FaultUnit)] } } : State).hwEndOn (fun j => j == k)))))

/-- R192, R194: an ECC error in a bank that is not OFF is counted as corrected or not; an uncorrectable word of the routine
store marks its line, moves the code that it held and halts its reader, one of the shared tables halts its reader, one of the
directory has it rebuilt from a hub's copy, one of the ledger whose mirror is bad loses entries and enters QUIET, and so for each
region. R185, R186: an access that is not allowed is counted as denied and is a fault, and the unit that made it is treated as
faulty: the control core is diagnosed, a hub master fails its hub. R187 to R189: the cycles that an access waited are counted.
R191: a waking bank becomes ON. Completes: dsmEccError, dsmAccessDenied, dsmPriorityEscalate, dsmBankWakeDone. -/
def Obligations.DieSharedMemory : Prop :=
  ∀ (s : State) (die bank line k : Nat), die < 6 → bankOk die bank = true → line < 16384 → coreOk k = true →
    let one := s.modDsm die (fun d => { d with err := setBit d.err 0, eccCorr := d.eccCorr + 1 })
    let two := s.modDsm die (fun d => { d with err := setBit d.err 1, eccUncorr := d.eccUncorr + 1 })
    let halted (t : State) : State := t.haltCore k (t.core k).ctl.ctx (t.core k).ctl.pc (t.core k).ctl.calls.length 0x21
      ((if die < 4 then 1 else 2) * 2 ^ 30 + bank * 2 ^ 24 + line * 2 ^ 10)
    (∀ dbl m c, (∀ j, c = some j → coreOk j = true) → s.bankState die bank = .off →
      exec (.dsmEccError die bank line dbl m c) s = .next s) ∧
    (s.bankState die bank ≠ .off →
      (∀ m c, (∀ j, c = some j → coreOk j = true) → exec (.dsmEccError die bank line false m c) s = .next one) ∧
      (die < 4 → 44 ≤ bank → bank < 62 → ∀ m, exec (.dsmEccError die bank line true m (some k)) s = .next (halted two)) ∧
      (die < 4 → bank < 44 → ∀ m,
        let t := (two.modDsm die (fun d => if d.badLines.contains (bank, line) then d else
          { d with badLines := d.badLines ++ [(bank, line)] })).moveCode die (bank * 16384 + line)
        exec (.dsmEccError die bank line true m none) s = .next t ∧
        exec (.dsmEccError die bank line true m (some k)) s = .next (halted t)) ∧
      (die < 4 → 62 ≤ bank → (s.hub 0).up = true ∨ (s.hub 1).up = true →
        exec (.dsmEccError die bank line true false none) s = .next (two.modDsm die (fun d => { d with rebuild := true }))) ∧
      (die < 4 → 62 ≤ bank → exec (.dsmEccError die bank line true true none) s = .next (two.enterQuiet 3)) ∧
      (4 ≤ die → bank < 39 ∨ 47 ≤ bank → exec (.dsmEccError die bank line true false none) s = .next two) ∧
      (4 ≤ die → bank < 16 → exec (.dsmEccError die bank line true true none) s =
        .next ({ two with ledgerLost := two.ledgerLost + 1 }.enterQuiet 3)) ∧
      (4 ≤ die → 16 ≤ bank → bank < 39 → exec (.dsmEccError die bank line true true none) s = .next two) ∧
      (4 ≤ die → 39 ≤ bank → bank < 47 → exec (.dsmEccError die bank line true true none) s = .next (two.enterQuiet 3)) ∧
      (4 ≤ die → 47 ≤ bank → exec (.dsmEccError die bank line true true none) s = .next (two.enterQuiet 4))) ∧
    (∀ m w c, m < 8 → (∀ j, c = some j → coreOk j = true) →
      let t := (s.modDsm die (fun d => { d with err := setBit d.err 2, denied := d.denied + 1 })).localFault
      (s.mayAccess die m bank line w c = true → exec (.dsmAccessDenied die m ⟨bank, line⟩ w c) s = .next s) ∧
      (s.mayAccess die m bank line w c = false →
        (m = 3 ∨ m = 4 ∨ (m = 2 ∧ c = none) → exec (.dsmAccessDenied die m ⟨bank, line⟩ w c) s = .next t) ∧
        (∀ j, m = 2 → c = some j → (s.core j).entry = none → exec (.dsmAccessDenied die m ⟨bank, line⟩ w c) s =
          .next (t.setCore j { t.core j with diag := true })) ∧
        (m = 0 ∨ m = 1 ∨ 5 ≤ m → exec (.dsmAccessDenied die m ⟨bank, line⟩ w c) s =
          .next (t.selfCheckFail (if die < 4 then s.pkg.leader else die - 4))))) ∧
    (∀ m w, m < 8 → exec (.dsmPriorityEscalate die bank m w) s = .next
      (if hasAccess die m = true ∧ s.bankState die bank ≠ .off then
        s.modDsm die (fun d => { d with conflicts := modAt d.conflicts m (fun v => v + BitVec.ofNat 32 w) }) else s)) ∧
    exec (.dsmBankWakeDone die bank) s = .next (s.modDsm die (fun x =>
      { x with banks := modAt x.banks bank (fun b => if b = .waking then .on else b) }))

/-- R29, R411, R420, R423, R424: heartbeats are noted by their path; a hub whose heartbeats came over no path is taken
over by the other, one whose heartbeats came through dies alone has lost its bridges, and the package is QUIET; a hub that fails
its self check is taken over, or, being the last, makes the package QUIET, in an uncontrolled step (R404); digests that differ make it QUIET; restored bridges end
the QUIET they caused when the copies of the ledger agree. R25, R327, R406, R421: the survivor of a failed hub leads, serves its
bulk sessions and runs the Yoke. R422, R423: QUIET is counted once as it begins; a cause takes the place of another only when it
is left in a stricter way; a cause that ends running frames makes them READY again. R411: FAULT_N is deasserted when its time is
over. Completes: hubHeartbeat, hubHeartbeatLoss, hubSelfCheckFail, digestExchange, bridgeRestored, faultPulseEnd. -/
def Obligations.HubsAndQuiet : Prop :=
  (∀ (s : State) (h : Nat), h < 2 →
      (∀ b r, exec (.hubHeartbeat h b r) s = .next (if (s.hub h).up then s.modHub h (fun x => { x with
        beatBridge := x.beatBridge || (b && s.bridgeUp)
        beatDie := x.beatDie || (r && s.dies.any (fun d => d.up && d.hubLinks.all id)) }) else s)) ∧
      (let t := s.modHub h (fun x => { x with beatBridge := false, beatDie := false })
       (s.hub h).up = true → (s.hub (1 - h)).up = true →
        ((s.hub h).beatBridge = true → exec (.hubHeartbeatLoss h) s = .next t) ∧
        ((s.hub h).beatBridge = false → (s.hub h).beatDie = true → exec (.hubHeartbeatLoss h) s =
          .next ({ t with pkg := { t.pkg with bridges := [false, false] } }.enterQuiet 2)) ∧
        ((s.hub h).beatBridge = false → (s.hub h).beatDie = false → exec (.hubHeartbeatLoss h) s = .next (t.hubFail h)) ∧
        exec (.hubSelfCheckFail h) s = .next (s.hubFail h)) ∧
      ((s.hub h).up = true → (s.hub (1 - h)).up = false → exec (.hubSelfCheckFail h) s =
        .next (((s.modHub h (fun x => { x with up := false })).countLostUnit.enterQuiet 6).uncontrolled)) ∧
      ((s.hub h).up = false → exec (.hubSelfCheckFail h) s = .next s ∧ exec (.hubHeartbeatLoss h) s = .next s) ∧
      (h < s.hubs.length → let t := s.hubFail h
        (t.hub h).up = false ∧ (t.hub h).segs = [] ∧ t.pkg.leader = (if s.pkg.leader = h then 1 - h else s.pkg.leader) ∧
        (∀ b ∈ t.bulk, b.hub ≠ h) ∧ t.yoke.active = (if s.yoke.active = h then 1 - h else s.yoke.active) ∧
        t.placements = s.placements) ∧
      ((s.hub 0).up = true → (s.hub 1).up = true → s.bridgeUp = true → (s.hub 0).digest ≠ (s.hub 1).digest →
        exec .digestExchange s = .next (s.enterQuiet 5)) ∧
      ((s.hub 0).up = false ∨ (s.hub 1).up = false ∨ s.bridgeUp = false ∨ (s.hub 0).digest = (s.hub 1).digest →
        exec .digestExchange s = .next s) ∧
      (let t : State := { s with pkg := { s.pkg with bridges := s.pkg.bridges.set h true } }
       (s.pkg.quiet ≠ 2 → ∀ eq, exec (.bridgeRestored h eq) s = .next t) ∧
       (s.pkg.quiet = 2 → exec (.bridgeRestored h true) s = .next { t with pkg := { t.pkg with quiet := 0 } }) ∧
       (s.pkg.quiet = 2 → exec (.bridgeRestored h false) s = .next (t.enterQuiet 5))) ∧
      exec .faultPulseEnd s = .next { s with pkg := { s.pkg with faultPulse := false } }) ∧
  (∀ (s : State) (cause : Nat), cause ≤ 7 → cause ≠ 0 →
      let ends : Prop := cause = 1 ∨ cause = 4 ∨ cause = 6
      (¬ ends ∨ (∀ e ∈ s.entries, e.st ≠ .running) → s.pkg.quiet = 0 → s.enterQuiet cause = { s with
        pkg := { s.pkg with quiet := cause }
        flt := { s.flt with event := setBit s.flt.event 3, quiet := s.flt.quiet + 1 } }) ∧
      (s.pkg.quiet = 3 ∨ s.pkg.quiet = 5 ∨ s.pkg.quiet = 7 → ¬ ends → s.enterQuiet cause = s) ∧
      (s.pkg.quiet = 2 → cause = 3 ∨ cause = 5 ∨ cause = 7 → s.enterQuiet cause = { s with pkg := { s.pkg with quiet := cause } }) ∧
      (ends → ∀ e, s.entries = [e] → e.st = .running → e.ended = false → s.runsHere e = true →
        ∃ e1, (s.enterQuiet cause).entry? e.cseq = some e1 ∧ e1.st = .ready ∧ e1.replays = e.replays))

/-- R377, R380, R381, R382, R398: a tick advances the always-on clock by 100 cycles; the envelope moves at most CEILING times
SLEW per millisecond towards the target, up at once and down only once it may fall, and never below the target or the standing
draw; a tick gives every domain its estimate and every die its part; ENV_HOLD lets the envelope fall while the target is below it.
R376, R378, R383: a sample gives a domain its measured draw and the kappa that makes the estimate the measured energy, held
between 0.5 and 2.0, which is counted (with nothing measured and nothing estimated kappa is free, log 4); with the last group the
Cocoon domain takes its kappa and the draw is compared with the envelope; a rail whose regulator is missing is not read (R518).
R393: a window of the comb allows at most COMB starts of engines, begins with no stop, and keeps every delayed start that it does not grant. Completes: yokeTick, envHold, avsSample, pmbusSample, combWindow. -/
def Obligations.EnvelopeAndSamples : Prop :=
  ((∀ (s : State) (i : TickPower) (j : TickCounts), s.clocked = false →
      exec (.yokeTick i j) s = .next { s with pkg := { s.pkg with aon := (s.pkg.aon + 100) % 2 ^ 64 } }) ∧
    (∀ (s : State) (i : TickPower) (j : TickCounts), s.clocked = true →
      let standing := (i.standing.take 7).foldl (· + ·) 0
      let y := if s.pkg.phase = .warm then stepEnvelope s.profile.power { s.yoke with falling := true } standing standing
        else stepEnvelope s.profile.power s.yoke (s.newTarget i) standing
      ∃ t : State, exec (.yokeTick i j) s = .next t ∧
        t.yoke = { y with doms := s.yoke.doms.mapIdx (fun n d => d.tick (at' i.standing n 0) (s.tickEnergy i j n)) } ∧
        (∀ d, d < s.dies.length → (t.die d).act = 0 ∧ (t.die d).standing = at' i.standing d 0 ∧
          (t.die d).part = if (s.die d).up then at' (s.dieParts (y.envelope / 1000) (s.demands i)) d 0 else 0) ∧
        t = { s with pkg := { s.pkg with aon := (s.pkg.aon + 100) % 2 ^ 64 }, yoke := t.yoke, dies := t.dies, cores := t.cores,
                     clusters := t.clusters, dsm := t.dsm, hubs := t.hubs, standby := t.standby }) ∧
    (∀ (p : ProfPower) (y : Yoke) (target standing : Nat),
      let x := stepEnvelope p y target standing
      let d := p.ceiling * p.slew
      x.target = target ∧ x.standing = standing ∧
      (y.envelope ≤ target * 1000 → x.envelope = min (target * 1000) (y.envelope + d)) ∧
      (target * 1000 ≤ y.envelope → y.falling = false ∨ y.target < target → x.envelope = y.envelope) ∧
      (target * 1000 ≤ y.envelope → y.falling = true → target ≤ y.target →
        x.envelope = min y.envelope (max (max (target * 1000) (standing * 1000)) (y.envelope - d))) ∧
      (target * 1000 ≤ y.envelope → target * 1000 ≤ x.envelope ∧ x.envelope ≤ y.envelope ∧ y.envelope ≤ x.envelope + d) ∧
      (x.below = true ↔ target * 1000 < x.envelope) ∧
      (x.falling = true ↔ y.falling = true ∧ target ≤ y.target ∧ target * 1000 < x.envelope)) ∧
    (∀ s : State, exec .envHold s =
      .next (if s.yoke.below then { s with yoke := { s.yoke with falling := true } } else s))) ∧
  ((∀ kappa m e free : Nat,
      32768 ≤ (newKappa kappa m e free).1 ∧ (newKappa kappa m e free).1 ≤ 131072 ∧
      (0 < e → 32768 ≤ kappa * m / e → kappa * m / e ≤ 131072 → newKappa kappa m e free = (kappa * m / e, false)) ∧
      (0 < e → kappa * m / e < 32768 → newKappa kappa m e free = (32768, true)) ∧
      (0 < e → 131072 < kappa * m / e → newKappa kappa m e free = (131072, true)) ∧
      (0 < m → newKappa kappa m 0 free = (131072, true))) ∧
    (∀ (s : State) (g volts amps : Nat) (d : Domain), s.clocked = true → g < 6 → s.yoke.doms[g]? = some d →
      let rails := s.yoke.rails.set g (volts * amps / 1000)
      let mw := if g = 4 then ({ s.yoke with rails := rails } : Yoke).hubDraw else volts * amps / 1000
      let k := newKappa d.kappa (mw * 100) d.estE (Config.openValue 20 s.pkg.free 0 % 2 ^ 32)
      let s1 : State := ({ s with yoke := { s.yoke with rails := rails } } : State).calibrate g mw
      s1.yoke.rails = rails ∧
      s1.yoke.doms[g]? = some { kappa := k.1, est := d.est, estS := d.est, estE := 0, limited := k.2, draw := mw } ∧
      (∀ j, j ≠ g → s1.yoke.doms[j]? = s.yoke.doms[j]?) ∧
      s1.yoke.regs = (if k.2 then { s.yoke.regs with event := setBit s.yoke.regs.event 0, cal := s.yoke.regs.cal + 1 }
        else s.yoke.regs) ∧
      s1 = { s with yoke := { s.yoke with rails := rails, doms := s1.yoke.doms, regs := s1.yoke.regs },
                    pkg := { s.pkg with free := s.pkg.free + 1 } } ∧
      exec (.avsSample g volts amps) s = .next (
        if g < 4 then s1.railRead g volts
        else if g = 4 then s1
        else (s1.calibrate 6 (at' s.yoke.pmb 2 0)).checkDraw)) ∧
    (∀ (s : State) (g volts amps : Nat), g < 6 → s.clocked = false → exec (.avsSample g volts amps) s = .next s) ∧
    (∀ s : State,
      let r := s.yoke.regs
      let above : Bool := decide (s.yoke.envelope * 102 < s.drawTotal * 1000 * 100)
      let short : Bool := decide (s.drawTotal * 1000 * 100 < s.yoke.envelope * 98)
      s.checkDraw = { s with yoke := { s.yoke with regs := { r with
        event := if above then setBit r.event 1 else r.event
        overs := if above then r.overs + 1 else r.overs
        shortfall := if short then r.shortfall + 1 else r.shortfall } } }) ∧
    (∀ (s : State) (rail mw : Nat), rail < 3 → bitAt s.idr.regs.toNat (6 + rail) = false →
      exec (.pmbusSample rail mw) s = .next s) ∧
    (∀ (s : State) (rail mw : Nat), rail < 3 → bitAt s.idr.regs.toNat (6 + rail) = true →
      let pmb := s.yoke.pmb.set rail mw
      let hub := ({ s.yoke with pmb := pmb } : Yoke).hubDraw
      ∃ t : State, exec (.pmbusSample rail mw) s = .next t ∧ t.yoke.pmb = pmb ∧
        (∀ j d, s.yoke.doms[j]? = some d → t.yoke.doms[j]? = some (
          if j = 4 then { d with draw := hub } else if j = 6 then { d with draw := at' pmb 2 0 } else d)) ∧
        t = { s with yoke := { s.yoke with pmb := pmb, doms := t.yoke.doms } })) ∧
  (∀ (s : State) (d amps : Nat), d < 4 → d < s.dies.length →
      let x := s.die d
      ∃ t : State, exec (.combWindow d amps) s = .next t ∧
        (t.die d).limit = (if amps = 0 then s.profile.power.comb else min s.profile.power.comb (40000 / amps)) ∧
        (t.die d).starts ≤ (t.die d).limit ∧ (t.die d).stops = 0 ∧
        (x.waiting = [] → t.die d = { x with
          limit := (t.die d).limit, starts := 0, stops := 0, ordered := 0, granted := x.granted.filter (fun w => (s.core w.1).live) }) ∧
        (∀ w ∈ x.waiting, (s.core w.1).live = true →
          (w.1, w.2.1) ∈ (t.die d).granted ∨ ∃ n, (w.1, w.2.1, n) ∈ (t.die d).waiting) ∧
        (∀ j, j ≠ d → t.die j = s.die j) ∧ t = { s with dies := t.dies })

/-- R381, R404, R405: the target is held between FLOOR and CEILING, and is FLOOR while the package is QUIET or a die is too hot;
TEMP_REPORT counts the rise to TJ_WARN and to 105 degrees, and a package is too hot from 105 degrees until every die is below
TJ_WARN. R405, R563: THERMTRIP latches its pin, and where clocks run it stops all but the Cocoon's: frames, deposits and
placements are gone, fuses, NVM and the cells' defects are kept. R403: an alarm of the voltage of a die halts its cores with
VOLTAGE_ALARM and takes its ballast away, and no cluster of it is in RUN; a readback more than 25 mV off is such an alarm, two in
a row within 25 mV end it; R412: an alarm that persists loses the die. Completes: tempReport, thermtrip, voltageAlarm,
voltageAlarmPersist. -/
def Obligations.HeatAndVoltage : Prop :=
  (∀ (s : State),
      (∀ i, s.pkg.quiet ≠ 0 ∨ s.yoke.hot = true → s.newTarget i = s.profile.power.floor * 1000) ∧
      (∀ i, s.profile.power.floor ≤ s.profile.power.ceiling →
        s.profile.power.floor * 1000 ≤ s.newTarget i ∧ s.newTarget i ≤ s.profile.power.ceiling * 1000) ∧
      (∀ die temp, die < 6 → ∃ t : State, exec (.tempReport die temp) s = .next t ∧
        t.yoke.temps = s.yoke.temps.set die temp ∧
        (∀ old, s.yoke.temps[die]? = some old →
          let limit : Prop := old < 105 ∧ 105 ≤ temp
          let warn : Prop := old < s.profile.power.tjWarn ∧ s.profile.power.tjWarn ≤ temp
          (limit → t.yoke.regs.tlimit = s.yoke.regs.tlimit + 1) ∧ (¬ limit → t.yoke.regs.tlimit = s.yoke.regs.tlimit) ∧
          (warn → t.yoke.regs.twarn = s.yoke.regs.twarn + 1) ∧ (¬ warn → t.yoke.regs.twarn = s.yoke.regs.twarn)) ∧
        (t.yoke.hot = true ↔ (s.yoke.hot = true ∨ 105 ≤ temp) ∧
          ∃ x ∈ s.yoke.temps.set die temp, s.profile.power.tjWarn ≤ x) ∧
        t = { s with yoke := { s.yoke with temps := t.yoke.temps, hot := t.yoke.hot, regs := { s.yoke.regs with
          event := t.yoke.regs.event, twarn := t.yoke.regs.twarn, tlimit := t.yoke.regs.tlimit } } }) ∧
      (∀ die, die < 6 → ∃ t : State, exec (.thermtrip die) s = .next t ∧ t.pkg.therm = true ∧
        (s.clocked = false → t = { s with pkg := { s.pkg with therm := true } }) ∧
        (s.clocked = true → t.pkg = { s.pkg with therm := true, phase := .clocksOff } ∧ t.clocked = false ∧ t.entries = [] ∧
          t.deposits = [] ∧ t.placements = [] ∧ (∀ k, (t.core k).live = false) ∧ t.fuses = s.fuses ∧ t.nvm = s.nvm ∧
          ∀ k e, ((t.core k).engine e).stuck = ((s.core k).engine e).stuck))) ∧
  (∀ (s : State) (d : Nat), d < 4 → d < s.dies.length → (s.die d).up = true →
      ((s.die d).alarm = false → ∃ t : State, exec (.voltageAlarm d) s = .next t ∧ (t.die d).alarm = true ∧
        (t.die d).ballast = 0 ∧ (t.die d).bal = [] ∧ (∀ c, c < 9 → (t.cl d c).st ≠ .run) ∧
        (∀ k, k / 128 = d → (s.core k).live = true → (t.core k).st = .halted ∧
          ((t.core k).haltRec.map (fun r => (r.reason, r.detail))) = some (0x25, d * 2 ^ 28)) ∧
        (∀ k, k / 128 ≠ d → t.core k = s.core k) ∧
        t = { s with dies := t.dies, clusters := t.clusters, cores := t.cores, deposits := t.deposits, flt := t.flt,
                     pkg := { s.pkg with faultPulse := t.pkg.faultPulse } }) ∧
      ((s.die d).alarm = true → exec (.voltageAlarm d) s = .next (s.modDie d (fun x => { x with okReads := 0 }))) ∧
      (∀ v, v ≤ (s.die d).vset + 25 → (s.die d).vset ≤ v + 25 →
        (s.railRead d v).die d = (if (s.die d).alarm then
          { s.die d with alarm := (s.die d).okReads == 0, okReads := ((s.die d).okReads + 1) % 2 }
          else { s.die d with okReads := 0 })) ∧
      (∀ v, (s.die d).vset + 25 < v ∨ v + 25 < (s.die d).vset → .next (s.railRead d v) = exec (.voltageAlarm d) s) ∧
      ((s.die d).alarm = true → exec (.voltageAlarmPersist d) s = .next (s.loseDie d)) ∧
      ((s.die d).alarm = false → exec (.voltageAlarmPersist d) s = .next s))

/-- R397, R412: a cluster in RUN or IDLE whose clock loses lock halts its cores with CLOCK_LOSS and holds no ballast; it returns
when it has lock again, unless it is being replaced; one that does not regain lock in time is replaced, or leaves the spare pool.
R155, R191, R399, R400, R401: an idle cluster with no work and no ballast enters DOZE, where its sheets keep their contents, and
with the last one its die's stacks enter self-refresh; DOZE without a placement turns OFF, which loses sheets and planes. R158,
R192, R400: the end of a wake brings the cluster to RUN and its sheets, banks and stacks back. Completes: clockLoss,
relockTimeout, clusterRelocked, dozeEntry, clusterOff, clusterWakeDone, stackSelfRefresh. -/
def Obligations.Clusters : Prop :=
  (∀ (s : State) (d c : Nat), d < 4 → c < 9 →
      let lost := (s.modCl d c (fun x => { x with unlocked := true })).modDie d (fun x => { x with
        bal := x.bal.filter (fun y => s.logCluster d c != some (clusterOf y.1)) })
      ((s.cl d c).unlocked = false → (s.cl d c).st = .run ∨ (s.cl d c).st = .idle →
        (∀ l, s.logCluster d c = some l → ∃ t : State, exec (.clockLoss d c) s = .next t ∧ (t.cl d c).unlocked = true ∧
          t.dies = lost.dies ∧
          (∀ k, k / 16 = 8 * d + l → (s.core k).live = true → (t.core k).st = .halted ∧
            (t.core k).haltRec.map (fun r => (r.reason, r.detail)) = some (0x24, d * 2 ^ 30 + l * 2 ^ 27)) ∧
          (∀ k, k / 16 ≠ 8 * d + l → t.core k = s.core k) ∧
          t = { s with dies := t.dies, clusters := t.clusters, cores := t.cores, deposits := t.deposits, flt := t.flt,
                       pkg := { s.pkg with faultPulse := t.pkg.faultPulse } }) ∧
        (s.logCluster d c = none → exec (.clockLoss d c) s = .next lost.localFault)) ∧
      ((s.cl d c).unlocked = true → exec (.relockTimeout d c) s = .next (s.replaceCluster d c)) ∧
      ((s.cl d c).unlocked = false → exec (.relockTimeout d c) s = .next s) ∧
      (s.logCluster d c = none →
        s.replaceCluster d c = { s with maps := { s.maps with bad := (4, d, c, 0, 0) :: s.maps.bad } }) ∧
      (∀ l, s.logCluster d c = some l → s.spareLeft 4 (128 * d + 16 * l) = true →
        (∀ u ∈ s.maps.subst, coversUnit u 4 (128 * d + 16 * l) 0 = false) →
        s.replaceCluster d c = ({ s with maps := { s.maps with
          subst := s.maps.subst ++ [(⟨4, 128 * d + 16 * l, 0, 0⟩ : FaultUnit)] } } : State).hwEndOn
            (fun j => j / 16 == (128 * d + 16 * l) / 16)) ∧
      (exec (.clusterRelocked d c) s = .next (if s.replacing d c then s else
        s.modCl d c (fun x => { x with unlocked := false })))) ∧
  (∀ (s : State) (d c l : Nat), d < 4 → c < 9 → s.logCluster d c = some l →
      ((s.cl d c).st = .idle → s.holdsBallast d c = false → (s.cl d c).waking = false → s.clusterNeeded d l = false →
        s.clusterWorks d c = false → ∃ t : State, exec (.dozeEntry d c) s = .next t ∧ (t.cl d c).st = .doze ∧
        (∀ k, k / 16 = 8 * d + l → t.core k = moveSheets .on .retention (s.core k)) ∧
        (∀ k, k / 16 ≠ 8 * d + l → t.core k = s.core k) ∧
        (t.dieAsleep d = true → ∀ (n : Nat) (x : Bool × Bool), s.hbmStacks[n]? = some x →
          t.hbmStacks[n]? = some (if n / 4 = d then (x.1, x.1) else x)) ∧
        (t.dieAsleep d = false → t.hbmStacks = s.hbmStacks ∧ t.dsm = s.dsm) ∧
        t = { s with clusters := t.clusters, cores := t.cores, hbmStacks := t.hbmStacks, dsm := t.dsm,
                     yoke := { s.yoke with regs := { s.yoke.regs with dozes := s.yoke.regs.dozes + 1 } } }) ∧
      ((s.cl d c).st = .doze → (s.cl d c).waking = false → s.holdsPlacement d l = false → s.clusterNeeded d l = false →
        ∃ t : State, exec (.clusterOff d c) s = .next t ∧ (t.cl d c).st = .off ∧
        (∀ k, k / 16 = 8 * d + l → (t.core k).mem.spad = [] ∧ (∀ m, (t.core k).sheet m = .off) ∧
          (∀ e p, ((t.core k).engine e).plane p = Plane.fresh) ∧ (t.core k).ctl = (s.core k).ctl) ∧
        (∀ k, k / 16 ≠ 8 * d + l → t.core k = s.core k) ∧ t = { s with clusters := t.clusters, cores := t.cores }) ∧
      ((s.cl d c).waking = true → ∃ t : State, exec (.clusterWakeDone d c) s = .next t ∧ (t.cl d c).st = .run ∧
        (t.cl d c).waking = false ∧
        (∀ k, k / 16 = 8 * d + l → t.core k = moveSheets .retention .on (moveSheets .waking .on (s.core k))) ∧
        (∀ k, k / 16 ≠ 8 * d + l → t.core k = s.core k) ∧
        t.dsm = modAt s.dsm d (fun x => { x with
          banks := x.banks.map (fun b => if b = .retention ∨ b = .waking then .on else b) }) ∧
        (∀ (n : Nat) (x : Bool × Bool), s.hbmStacks[n]? = some x →
          t.hbmStacks[n]? = some (if n / 4 = d then (x.1, false) else x)) ∧
        t = { s with clusters := t.clusters, cores := t.cores, hbmStacks := t.hbmStacks, dsm := t.dsm,
                     yoke := { s.yoke with regs := { s.yoke.regs with wakes := s.yoke.regs.wakes + 1 } } })) ∧
  (∀ (s : State) (n : Nat), n < 16 → exec (.stackSelfRefresh n) s = .next (
      if s.stackUp n = true ∧ s.dieAsleep (n / 4) = true then { s with hbmStacks := s.hbmStacks.set n (true, true) } else s))

/-- R388, R451, R455: a slice that may start does, its power withdrawn from the ballast of its die and the core of a LOGIC slice
zeroised first; one that may not, does nothing, and a sleeping cluster is woken first. R447: each unit that is done is recorded in
the round and checked, a SWEEP slice taking its planes in order. R448, R452, R469: a slice that ends puts its report in the ring and
leaves; a slice whose units are done ends with PASS, a failed one with FAIL, a stopped one with STOPPED and a count. R453: a round
that has run for its time sets its overrun once; one whose units are all done is counted, and the next starts at once with no unit
done. Completes: grazerSliceStart, sliceUnitDone, sliceEnd, sliceStop, roundOverrun. -/
def Obligations.SlicesAndRounds : Prop :=
  (∀ (s : State) (t : Target), targetOk t = true →
      let g := s.grazer
      (s.sliceMay t = false → exec (.grazerSliceStart t) s = .next s) ∧
      (s.sliceMay t = true → s.targetAwake t = false → exec (.grazerSliceStart t) s = .next (s.startWake t.die t.cluster)) ∧
      (s.sliceMay t = true → s.targetAwake t = true → ∃ u : State, exec (.grazerSliceStart t) s = .next u ∧
        (∀ k, u.core k = if t.kind = 1 ∧ k ∈ s.targetCores t then zeroiseCore (s.core k) else s.core k) ∧
        u = { s with
          grazer := { g with slices := g.slices ++ [⟨t, 0, s.sliceLimit t, s.pkg.aon % 2 ^ 32, 0, false, 0⟩] }
          dies := modAt s.dies t.die (fun d => { d with ballast := d.ballast - at' d.slicemW t.kind 0 })
          cores := u.cores }) ∧
      ((∀ x ∈ g.slices, x.t ≠ t) → (∀ ok row, exec (.sliceUnitDone t ok row) s = .next s) ∧
        exec (.sliceEnd t) s = .next s ∧ exec (.sliceStop t) s = .next s) ∧
      (∀ x, g.slices.find? (fun x => x.t == t) = some x →
        (x.failed = false → x.units < x.limit → ∀ ok row,
          let unit (n tried p : Nat) (good : Bool) (u : State) : Prop :=
            exec (.sliceUnitDone t ok row) s = .next u ∧ u.grazer.mark t = g.mark t + n ∧
            u.grazer.slices = g.slices.map (fun y => if y.t == t then
              { x with units := x.units + 1, tried := tried, failed := !good, bad := if good then x.bad else p } else y) ∧
            u = { s with grazer := { g with slices := u.grazer.slices, progress := u.grazer.progress }, cores := u.cores }
          (t.kind ≠ 3 → ∃ u : State, unit 1 x.tried row ok u) ∧
          (t.kind = 3 → s.nextPlane x = none → exec (.sliceUnitDone t ok row) s = .next s) ∧
          (t.kind = 3 → ∀ p, s.nextPlane x = some p → ∃ u : State, unit (2 ^ p) (x.tried + 2 ^ p) p (s.planeGood t p ok) u)) ∧
        (x.failed = true → exec (.sliceEnd t) s = .next (s.failSlice x) ∧ exec (.sliceStop t) s = .next (s.failSlice x)) ∧
        (x.failed = false → (x.limit ≤ x.units ∨ (t.kind = 3 ∧ s.nextPlane x = none)) →
          exec (.sliceEnd t) s = .next (s.closeSlice x 0).endRound) ∧
        (x.failed = false → x.units < x.limit → (t.kind ≠ 3 ∨ s.nextPlane x ≠ none) → exec (.sliceEnd t) s = .next s) ∧
        (x.failed = false → let c := s.closeSlice x 2
          exec (.sliceStop t) s = .next ({ c with grazer := { c.grazer with regs := { c.grazer.regs with
            event := setBit c.grazer.regs.event 2, stop := c.grazer.regs.stop + 1 } } } : State).endRound)) ∧
      (∀ (x : Slice) (r : Nat), let u := s.closeSlice x r
        u.grazer.slices = g.slices.filter (fun y => y.t != x.t) ∧ u.grazer.regs.slices = g.regs.slices + 1 ∧
        u.grazer.regs.head = (g.regs.head + 1) % 64 ∧
        (g.regs.head ≤ g.regs.ring.length → u.grazer.regs.ring[g.regs.head]? = some (s.sliceReport x r)) ∧
        ((s.logCluster x.t.die x.t.cluster).isSome = true ∨ 6 ≤ x.t.kind → u.clusters = s.clusters) ∧
        u = { s with grazer := u.grazer, cores := u.cores, clusters := u.clusters, pkg := { s.pkg with free := u.pkg.free } })) ∧
  (∀ (s : State), let g := s.grazer
      (g.started = true → g.overran = false → exec .roundOverrun s = .next { s with grazer := { g with overran := true, regs :=
        { g.regs with event := setBit g.regs.event 1, overrun := g.regs.overrun + 1 } } }) ∧
      (g.started = false ∨ g.overran = true → exec .roundOverrun s = .next s) ∧
      (s.roundDone = true → s.endRound.grazer.regs.rounds = g.regs.rounds + 1 ∧ s.endRound.grazer.progress = [] ∧
        s.endRound.grazer.overran = false ∧ s.endRound.grazer.roundStart = s.pkg.aon ∧
        s.endRound.grazer.regs.last = g.regs.cov ∧ s.endRound.grazer.regs.cov = [0, 0, 0, 0] ∧
        s.endRound = { s with grazer := s.endRound.grazer }) ∧
      (s.roundDone = false → s.endRound = s))

/-- R70, R441, R450: a sweep of an engine that may start takes each plane that is not skipped: one that compares good stays as it
is, one that does not is FENCED in doubt, an EMPTY one has its columns substituted; a tested dynamic plane is left cleared; the
planes that are skipped, and those of other engines, are unchanged. R459, R460, R463, R464: a march that may run on its target is
started; a destructive one of tile registers leaves them zero; a failing row of a memory takes the next of the four spare rows of
its segment, and where none is left a line of die shared memory is retired and a core substituted; another unit whose march fails
is defective. R465, R467, R468: a fuse burn takes the next slot, is counted as burned or failed, and a failed one is burned once
more. R197, R198: the end of a wipe answers the requests that waited for it, in order. Completes: bellwetherSweep, marchStart,
marchDone, fuseBurn, secureWipeDone. -/
def Obligations.SweepsAndMarches : Prop :=
  (∀ (s0 : State) (k e : Nat) (v : Bool), coreOk k = true → engineOk e = true →
      let s : State := { s0 with maint := s0.maint.filter (fun a => !(a.code == 4 && a.unit == 32 * k + e)) }
      let good (p : Nat) : Bool := s.compares k e p && (v || (s.planeAt (k, e, p)).st == .empty)
      (s.mayStart ⟨4, s.engineTarget k e⟩ = false ∨ (s.core k).passOn e = true ∨ s.substBlocks k [e] = true →
        exec (.bellwetherSweep k e v) s0 = .next s) ∧
      (s.mayStart ⟨4, s.engineTarget k e⟩ = true → (s.core k).passOn e = false → s.substBlocks k [e] = false →
        (∀ p, (s.planeAt (k, e, p)).st = .empty → p < 8 → s.compares k e p = true) →
        ∃ t : State, exec (.bellwetherSweep k e v) s0 = .next t ∧
        (∀ p, 8 ≤ p ∨ s.sweepSkips k e p = true → t.planeAt (k, e, p) = s.planeAt (k, e, p)) ∧
        (∀ p, p < 8 → s.sweepSkips k e p = false → good p = true →
          t.planeAt (k, e, p) = clearDyn (s.planeAt (k, e, p))) ∧
        (∀ p, p < 8 → s.sweepSkips k e p = false → good p = false →
          t.planeAt (k, e, p) = clearDyn { s.planeAt (k, e, p) with st := .fenced, doubt := true }) ∧
        (∀ x, x.1 ≠ k ∨ x.2.1 ≠ e → t.planeAt x = s.planeAt x) ∧
        t = { s with cores := t.cores, flt := t.flt, pkg := { s.pkg with faultPulse := t.pkg.faultPulse } }) ∧
      (∀ p, (s.planeAt (k, e, p)).st = .empty → s.compares k e p = false → s.sweepFails k e p =
        s.localFault.beginColumns k e (sortedSet ((((s.core k).engine e).mismatches p).map (·.2.1))))) ∧
  ((∀ (s : State) (t : Target) (b : Bool), targetOk t = true → exec (.marchStart t b) s = .next (
      if s.marchTarget t b = true ∧ s.mayStart ⟨if b then 2 else 1, t⟩ = true ∧ (∀ m ∈ s.grazer.marches, m.1 ≠ t) then
        { s with grazer := { s.grazer with marches := s.grazer.marches ++ [(t, b)] } } else s)) ∧
    (∀ (s : State) (t : Target) (b : Bool), targetOk t = true → s.grazer.marches.find? (fun m => m.1 == t) = some (t, b) →
      let gone : State :=
        ({ s with grazer := { s.grazer with marches := s.grazer.marches.filter (fun x => x.1 != t) } } : State).spareRests t
      let out (lv c e : Nat) : State :=
        let key := (lv, t.die, t.cluster, c, e)
        if key ∈ gone.maps.bad ∧ key ∉ gone.maps.retest then gone
        else (if key ∈ gone.maps.bad then gone else { gone with maps := { gone.maps with bad := key :: gone.maps.bad } }).addDue t.die
          (repairRecord lv t.cluster c e 0 0 0)
      (b = true ∨ t.kind ≠ 5 → exec (.marchDone t []) s = .next gone) ∧
      (b = false → t.kind = 5 → ∃ u : State, exec (.marchDone t []) s = .next u ∧
        (∀ k, u.core k = if k ∈ s.targetCores t then { s.core k with mem := { (s.core k).mem with
          treg := [], rowTag := [], tregBad := [], tagBad := [] } } else s.core k) ∧ u = { gone with cores := u.cores }) ∧
      (∀ row rows, (t.kind = 1 → exec (.marchDone t (row :: rows)) s = .next (out 3 t.core 0)) ∧
        (t.kind = 2 → exec (.marchDone t (row :: rows)) s = .next (out 4 0 0)) ∧
        (t.kind = 3 → exec (.marchDone t (row :: rows)) s = .next (out 2 t.core t.engine)))) ∧
    (∀ (s : State) (t : Target) (row : Nat), targetOk t = true → s.grazer.marches.find? (fun m => m.1 == t) = some (t, true) →
      4 ≤ t.kind → t.die < s.repair.length →
      let seg := segmentOf t row
      let gone : State :=
        ({ s with grazer := { s.grazer with marches := s.grazer.marches.filter (fun x => x.1 != t) } } : State).spareRests t
      (Tbl.num (s.rep t.die).spares seg < 4 → ∃ u : State, exec (.marchDone t [row]) s = .next u ∧
        (∀ j, Tbl.num (u.rep t.die).spares j = if j = seg then Tbl.num (s.rep t.die).spares seg + 1 else
          Tbl.num (s.rep t.die).spares j) ∧
        (u.rep t.die).soft = (s.rep t.die).soft + 1 ∧ (∀ d, d ≠ t.die → u.rep d = s.rep d) ∧
        (∀ k, u.core k = if t.kind = 4 ∧ k ∈ s.targetCores t ∧ (s.core k).diag = true then { s.core k with mended := true }
          else s.core k) ∧
        (t.kind = 6 ∨ s.targetCores t ≠ [] → u.maps = s.maps) ∧
        (t.kind ≠ 6 → s.targetCores t = [] → (3, t.die, t.cluster, t.core, 0) ∈ u.maps.bad) ∧
        u = { gone with repair := u.repair, cores := u.cores, maps := { s.maps with bad := u.maps.bad } }) ∧
      (4 ≤ Tbl.num (s.rep t.die).spares seg →
        let none' : State := gone.modRep t.die (fun r => { r with event := setBit r.event 2, rowsOut := r.rowsOut + 1 })
        (t.kind = 6 → regionOf t.die t.bank = .rs → exec (.marchDone t [row]) s = .next (
          (none'.modRep t.die (fun r => { r with retired := r.retired + 1 })).badRs t.die t.bank (row % 16384))) ∧
        (t.kind = 6 → regionOf t.die t.bank ≠ .rs → t.die < s.dsm.length → ∃ u : State, exec (.marchDone t [row]) s = .next u ∧
          (u.rep t.die).retired = (s.rep t.die).retired + 1 ∧ (u.rep t.die).rowsOut = (s.rep t.die).rowsOut + 1 ∧
          (t.bank, row % 16384) ∈ (u.dsmOf t.die).badLines ∧ u = { gone with repair := u.repair, dsm := u.dsm }) ∧
        (t.kind ≠ 6 → s.targetCores t = [] → exec (.marchDone t [row]) s = .next (none'.spareFails 3 t)) ∧
        (t.kind ≠ 6 → ∀ k, (s.targetCores t).head? = some k → exec (.marchDone t [row]) s = .next (none'.beginSubst 3 3 k 0)))) ∧
    (∀ (s : State) (d r : Nat), d < 6 → r < 2 ^ 64 → d < s.repair.length →
      (s.mayBurn d r = false → ∀ ok, exec (.fuseBurn d r ok) s = .next s) ∧
      (s.mayBurn d r = true → ∀ ok, ∃ u : State, exec (.fuseBurn d r ok) s = .next u ∧
        (u.rep d).records = (s.rep d).records ++ [(r, ok)] ∧
        (u.rep d).hard = (if ok then (s.rep d).hard + 1 else (s.rep d).hard) ∧
        (u.rep d).burnFail = (if ok then (s.rep d).burnFail else (s.rep d).burnFail + 1) ∧
        (u.rep d).low = (if (s.rep d).records.length = 3840 then (s.rep d).low + 1 else (s.rep d).low) ∧
        (r ∈ (u.rep d).due ↔ ok = false ∧ (r, false) ∉ (s.rep d).records) ∧
        (∀ j, j ≠ d → u.rep j = s.rep j) ∧ u = { s with repair := u.repair })) ∧
    (∀ s : State, exec .secureWipeDone s = .next (s.secure.held.foldl (fun t x => t.answerHeld x)
      { s with secure := { s.secure with wiping := false, held := [] } })))

/-- R472, R497, R498: tamper in any life-cycle state but BLANK, while the clocks run, is counted and leaves nothing: no session and
no key copy, no placement, every plane EMPTY, every scratchpad and tile register zero, and the package QUIET. R505, R560: while
`PORST_N` is low nothing runs outside the Cocoon, and the NVM and every module are held in reset (R515); fuses, NVM, burned records, tamper counters, the always-on counter and cells'
defects stay. Completes: tamper, porstAssert. -/
def Obligations.TamperAndPowerOnReset : Prop :=
  (∀ (s : State) (n : Nat),
      (s.fuses.lcs = 0 ∨ s.pkg.phase = .down → exec (.tamper n) s = .next s) ∧
      (s.fuses.lcs ≠ 0 → s.pkg.phase ≠ .down → ∃ t : State, exec (.tamper n) s = .next t ∧
        t.trust.tamperCnt = s.trust.tamperCnt + 1 ∧ t.trust.tamperSrc = word (n % 8) ∧
        t.pkg.quiet = (if quietRank s.pkg.quiet < 3 then 1 else s.pkg.quiet) ∧
        t.secure = { wiping := true, dwrap := false, pwrap := false, content := [], sessions := [], ivs := [],
                     held := s.secure.held } ∧
        t.placements = [] ∧ t.installs = [] ∧ t.fuses = s.fuses ∧ t.nvm = s.nvm ∧
        (∀ k e p, ((t.core k).engine e).plane p = Plane.fresh) ∧
        (∀ k, (t.core k).mem.spad = [] ∧ (t.core k).mem.treg = [] ∧ (t.core k).acc.slotTag = []))) ∧
  (∀ (s : State), ∃ t : State, exec .porstAssert s = .next t ∧ t.pkg.phase = .down ∧ t.clocked = false ∧ t.readyPin = false ∧
      t.faultPin = true ∧ t.entries = [] ∧ t.streams = [] ∧ t.placements = [] ∧ t.deposits = [] ∧ t.fuses = s.fuses ∧ t.nvm = s.nvm ∧
      t.repair = s.repair ∧ t.trust = s.trust ∧ t.pkg.aon = s.pkg.aon ∧ (∀ k, (t.core k).live = false) ∧
      (∀ n, t.portUp n = false ∧ t.modRstPin n = false ∧ t.modLpmPin n = true) ∧ t.nvmRstPin = false ∧ (∀ k e, ((t.core k).engine e).stuck = ((s.core k).engine e).stuck))

/-- R511, R513, R523 to R526, R528: a cold start begins only from power-on reset; it stops for heat, a bad NVM, a bad scan chain,
firmware, hub regulators or a BLANK package; with a valid profile it comes to its last step with that profile in force and the
register blocks of faults and installation clear, without one an OWNED package is held. What fuses hold is kept. R407, R453, R501,
R527: READY ends a cold start with the first round begun, the envelope at the measured draw and the SVN floor not below the
firmware's; it ends a warm restart, which leaves QUIET of cause 3 or 5 when it was to; it changes nothing in a package that runs.
R512: HB boots alone when HA does not report. Completes: coldStart, readyAssert, bootReportTimeout. -/
def Obligations.Starts : Prop :=
  (∀ (s : State) (i : StartIn), let b := s.coldBase i
      (s.pkg.phase ≠ .down → exec (.coldStart i) s = .next s) ∧
      (s.pkg.phase = .down →
        b.fuses = s.fuses ∧ b.entries = [] ∧ b.placements = [] ∧ b.streams = [] ∧ b.pkg.quiet = 0 ∧ b.pkg.epoch = 0 ∧
        b.flt = State.reset.flt ∧ b.inst = State.reset.inst ∧ b.pending = s.pending ∧
        (s.pkg.therm = true → i.hot = true → exec (.coldStart i) s = .next (b.stop 1)) ∧
        ((s.pkg.therm && i.hot) = false → (i.sfdpOk = false ∨ i.nvmMbit < 512) → exec (.coldStart i) s = .next (b.stop 2)) ∧
        ((s.pkg.therm && i.hot) = false → i.sfdpOk = true → 512 ≤ i.nvmMbit →
          (s.fuses.lcs ≠ 0 → i.chainOk = false → exec (.coldStart i) s = .next (b.stop 3)) ∧
          (s.fuses.lcs = 0 ∨ i.chainOk = true → b.bootSlot = none → exec (.coldStart i) s = .next (b.stop 4)) ∧
          (s.fuses.lcs = 0 ∨ i.chainOk = true → ∀ n, b.bootSlot = some n →
            let c := (b.boot n).identity i
            let hubs : Bool := bitAt i.regs 4 && bitAt i.regs 5
            (hubs = false → exec (.coldStart i) s = .next (c.stop 5)) ∧
            (hubs = true → s.fuses.lcs = 0 → exec (.coldStart i) s = .next (c.stop 6)) ∧
            (hubs = true → s.fuses.lcs = 1 → exec (.coldStart i) s = .next (c.units i).settle') ∧
            (hubs = true → s.fuses.lcs ≠ 0 → s.fuses.lcs ≠ 1 →
              (∀ p, c.profOk i.psel = some p →
                exec (.coldStart i) s = .next (((c.inForce i.psel p).units i).settle') ∧
                (((c.inForce i.psel p).units i).settle').profile = p.prof) ∧
              (c.profOk i.psel = none → s.fuses.lcs ≠ 3 → exec (.coldStart i) s = .next (c.units i).settle') ∧
              (c.profOk i.psel = none → s.fuses.lcs = 3 → ∃ t : State, exec (.coldStart i) s = .next t ∧ t.pkg.phase = .held ∧
                t.idr.hold = ((c.units i).settle').idr.hold + 1 ∧ t.readyPin = false)))))) ∧
  (∀ (s : State),
      let floor : Fuses := { s.fuses with
        svnFloor := if s.profile.work.svnAuto then max s.fuses.svnFloor s.pkg.fwSvn else s.fuses.svnFloor }
      (s.pkg.phase = .starting → s.pkg.quiet = 0 → exec .readyAssert s = .next { s with
        pkg := { s.pkg with phase := .running }
        yoke := { s.yoke with envelope := s.drawTotal * 1000 }
        grazer := { s.grazer with started := true, roundStart := s.pkg.aon, progress := [] }
        fuses := floor }) ∧
      (s.pkg.phase = .starting → s.pkg.quiet ≠ 0 → exec .readyAssert s = .next { s with
        pkg := { s.pkg with phase := .running }, yoke := { s.yoke with envelope := s.drawTotal * 1000 } }) ∧
      (s.pkg.phase = .dozing → (s.pkg.leaving = false ∨ (s.pkg.quiet ≠ 3 ∧ s.pkg.quiet ≠ 5)) →
        ∃ t : State, exec .readyAssert s = .next t ∧
        (∀ d x, d = 4 ∨ d = 5 → t.dsm[d]? = some x → BankSt.retention ∉ x.banks) ∧
        t = { s with pkg := { s.pkg with phase := .running, leaving := false }, dsm := t.dsm,
                     fuses := if s.pkg.quiet = 0 then floor else s.fuses }) ∧
      (s.pkg.phase = .dozing → s.pkg.leaving = true → s.pkg.quiet = 3 ∨ s.pkg.quiet = 5 →
        ∃ t : State, exec .readyAssert s = .next t ∧ t.pkg.quiet = 0 ∧ t.ledgerLost = 0 ∧ t.fuses = floor ∧
        (∀ x ∈ t.hubs, ∀ y ∈ t.hubs, x.digest = y.digest)) ∧
      (s.pkg.phase ≠ .starting → s.pkg.phase ≠ .dozing → exec .readyAssert s = .next s) ∧
      (s.pkg.phase = .starting → s.pkg.bootHub = 0 → exec .bootReportTimeout s = .next { s with
        pkg := { s.pkg with bootHub := 1, leader := 1 }
        hubs := modAt s.hubs 0 (fun h => { h with up := false })
        yoke := { s.yoke with active := 1 } }) ∧
      (s.pkg.phase ≠ .starting ∨ s.pkg.bootHub ≠ 0 → exec .bootReportTimeout s = .next s))

/-- R327, R442, R505, R527, R546: a warm restart, which begins only in a package that runs, aborts bulk sessions, discards what is
staged and not committed and the transfer to the NVM, and ends marches; R407, R524: at the standing draw every cluster dozes with its
sheets in RETENTION, ballast ends, the chosen profile is read again and takes effect when it is valid, and the firmware that
verifies is chosen. R439 to R441, R524: a switch or an activation that is due begins one, or is abandoned when its slot is not valid;
an activity that has waited its timeout is counted. R371, R489, R515, R517: a port comes up when its hub works and its module is
present and within the budget, and has an address; a module newly beyond the budget is counted and stays down. R458, R562: boundary
scan shifts the TAP that is addressed (which bits leave it in SAMPLE is free, log 60). Completes: wrstPin, warmRestartDoze,
profileSwitch, firmwareActivation, maintDefer, moduleInsert, portLinkDown, portLinkUp, boundaryScan. -/
def Obligations.WarmRestartsAndPorts : Prop :=
  ((∀ s : State, (s.pkg.phase = .running → exec .wrstPin s = .next s.beginWarm) ∧
      (s.pkg.phase ≠ .running → exec .wrstPin s = .next s) ∧
      s.beginWarm.pkg.phase = .warm ∧ (∀ b ∈ s.beginWarm.bulk, b.aborted = true) ∧ (∀ o ∈ s.beginWarm.objects, o.waiting = true) ∧
      s.beginWarm.nvm.xfer = Xfer.idle ∧ s.beginWarm.grazer.marches = []) ∧
    (∀ s : State, (s.pkg.phase ≠ .warm ∨ s.yoke.standing * 1000 < s.yoke.envelope → exec .warmRestartDoze s = .next s) ∧
      (s.pkg.phase = .warm → s.yoke.envelope ≤ s.yoke.standing * 1000 →
        let n := s.pkg.usePending.getD s.pkg.profSlot
        let f := s.pkg.fwNext.getD s.pkg.fwSlot
        ∃ t : State, exec .warmRestartDoze s = .next t ∧ t.pkg.phase = .dozing ∧
        t.idr.warm = s.idr.warm + 1 ∧ t.pkg.lastWarm = true ∧ t.entries = s.entries ∧ t.placements = s.placements ∧
        (∀ i, i < 36 → (t.cl (i / 9) (i % 9)).st = .doze ∨ (t.cl (i / 9) (i % 9)).st = .off) ∧
        (∀ k m, (t.core k).sheet m ≠ .on ∧ (t.core k).sheet m ≠ .waking) ∧ (∀ d ∈ t.dies, d.bal = [] ∧ d.ballast = 0) ∧
        (∀ p, s.profOk n = some p → t.profile = p.prof) ∧ (s.profOk n = none → t.profile = s.profile) ∧
        (∀ m, [f, 1 - f].find? s.fwOk = some m → t.pkg.fwSlot = m))) ∧
    (∀ (s : State), (s.dueActivity 7 = none → exec .profileSwitch s = .next s) ∧
      (∀ a, s.dueActivity 7 = some a →
        ((∃ x ∈ s.maint, x.code = 8) → exec .profileSwitch s = .next s) ∧
        ((∀ x ∈ s.maint, x.code ≠ 8) →
          (s.profOk a.arg = none → exec .profileSwitch s = .next (s.abandon a)) ∧
          (∀ p, s.profOk a.arg = some p → let t := s.endActivity a
            exec .profileSwitch s = .next ({ t with pkg := { t.pkg with usePending := some a.arg } } : State).beginWarm)))) ∧
    (∀ (s : State), (s.dueActivity 8 = none → exec .firmwareActivation s = .next s) ∧
      (∀ a, s.dueActivity 8 = some a →
        (s.fwOk a.arg = false → exec .firmwareActivation s = .next (s.abandon a)) ∧
        (s.fwOk a.arg = true → let t := s.endActivity a
          exec .firmwareActivation s = .next ({ t with pkg := { t.pkg with fwNext := some a.arg } } : State).beginWarm))) ∧
    (∀ (s : State) (n : Nat),
      let late : State := { s with flt := { s.flt with event := setBit s.flt.event 4, defer := s.flt.defer + 1 } }
      (n < 6 → exec (.maintDefer n) s = .next late) ∧
      (6 ≤ n → n < 16 → exec (.maintDefer n) s = .next s) ∧
      (16 ≤ n → (∀ a ∈ s.maint, a.id = n → a.running = true) → exec (.maintDefer n) s = .next s) ∧
      (16 ≤ n → ∀ a, s.maint.find? (fun a => a.id == n && !a.running) = some a →
        (a.code = 4 → exec (.maintDefer n) s = .next { late with maint := s.maint.filter (fun x => x.id != n) }) ∧
        (a.code ≠ 4 → exec (.maintDefer n) s = .next (late.abandon a))))) ∧
  ((∀ (s : State) (n power : Nat), portOk n = true → n < s.ports.length →
      (s.clocked = false ∨ s.pkg.phase = .stuck → exec (.moduleInsert n power) s = .next s) ∧
      (s.clocked = true → s.pkg.phase ≠ .stuck →
      ∃ t : State, exec (.moduleInsert n power) s = .next t ∧ (t.port n).present = true ∧ (t.port n).power = power ∧
        (t.port n).up = false ∧
        (s.profile.net.modPmax < power → (t.port n).overs = true) ∧
        ((t.port n).overs = true → t.idr = { s.idr with event := setBit s.idr.event 1, modpwr := s.idr.modpwr + 1 }) ∧
        ((t.port n).overs = false → t.idr = s.idr) ∧ (∀ m, m ≠ n → t.port m = s.port m) ∧
        t = { s with ports := t.ports, idr := t.idr })) ∧
    (∀ (s : State) (n : Nat), portOk n = true → ∃ t : State, exec (.portLinkDown n) s = .next t ∧
      t.portUp n = false ∧ (∀ m, m ≠ n → t.port m = s.port m) ∧ t = { s with ports := t.ports }) ∧
    (∀ (s : State) (n : Nat) (mka : Bool), portOk n = true → n < s.ports.length →
      let fit : Bool := s.portsLive && (s.hub (n / 4)).up && (s.port n).present && !(s.port n).overs && s.addressed n
      (fit = true → ∃ t : State, exec (.portLinkUp n mka) s = .next t ∧ (t.port n).up = true ∧
          ((t.port n).secured = true ↔ (s.port n).secured = true ∨ (mka = true ∧ s.macsecPort n = true ∧ s.secure.dwrap = true)) ∧
          (∀ m, m ≠ n → t.port m = s.port m) ∧ t = { s with ports := t.ports }) ∧
      (fit = false → exec (.portLinkUp n mka) s = .next s)) ∧
    (∀ (s : State) (tap dr : Nat), tap < 6 →
      (∀ ir, ir = 0 ∨ (ir = 3 ∧ s.pkg.phase ≠ .down) ∨ (4 ≤ ir ∧ s.fuses.lcs ≠ 7) →
        exec (.boundaryScan tap ir dr) s = .next { s with out := s.out ++ [.tap tap (dr * 2)] }) ∧
      exec (.boundaryScan tap 1 dr) s = .next { s with out := s.out ++ [.tap tap (Config.tapOut tap 0 % 2 ^ 32)] } ∧
      (∀ ir, ir = 2 ∨ (ir = 3 ∧ s.pkg.phase = .down) ∨ (4 ≤ ir ∧ s.fuses.lcs = 7) →
        exec (.boundaryScan tap ir dr) s = .next { s with
          tap := s.tap.set tap dr, pkg := { s.pkg with free := s.pkg.free + 1 }
          out := s.out ++ [.tap tap (Config.tapOut tap (s.pkg.free + 1))] })))

/-- R6, R342, R476, R477, R535 to R537: a MGMT request that is no segment of the transport, or whose tag fails, or that is a reply
or under a session that may not carry it, is discarded; beyond the limits it is answered BUSY, with a reserved operation, a reserved
field set or a body of another length INVALID (a reply to NVM-DATA carries the cursor); any other has its effect, when the fields of
its body are the operands of the row, and none otherwise. R398, R533, R539, R540: a READ is answered with the words of available registers, each read in
its turn, or with the status and address of the first thing wrong. R375, R398, R443: FOLD.ADMIT_MAX and FAULT.SUBST_MAX read 0 after
they have been read; reading YOKE.TIME_LO latches the upper half of the counter in YOKE.TIME_HI. These three change no other
register but MGMT.READS. Completes: mgmtRead, admitMaxRead, substMaxRead, timeLoRead. -/
def Obligations.Reads : Prop :=
  (∀ (s : State) (m : MgmtIn) (mop : Nat) (allowed own : Bool) (f : State → State),
      let r := s.request m mop allowed own f
      (s.takes m.port m.wire = false → r = s.discard m.port m.wire) ∧
      (s.takes m.port m.wire = true → m.hdr.kind = 6 → m.mop = mop → mopDefined mop = true →
        let full : Bool := m.busy && m.mop != 0x43
        (m.auth = false ∨ m.mdir = 1 ∨ allowed = false →
          r = { s with mgmt := { s.mgmt with event := setBit s.mgmt.event 1, drops := s.mgmt.drops + 1 } }) ∧
        (m.auth = true → m.mdir ≠ 1 → allowed = true →
          (full = true → r = s.turnAway m 1) ∧ (full = false → m.valid = false → r = s.turnAway m 6) ∧
          (full = false → m.valid = true → r = if own then f s else s))) ∧
      (m.valid = true ↔ m.hdr.single m.body.length = true ∧ 16 ≤ m.body.length ∧ m.mdir = 0 ∧ beAt m.body 4 12 = 0 ∧ m.shaped = true) ∧
      (∀ n, s.turnAway m n = s.answerMgmt m n (if m.mop = 0x11 then beBytes 4 s.nvm.xfer.cursor else [])) ∧
      (∀ st f, s.portUp m.port = true → (s.answerMgmt m st f).out = s.out ++ [s.segOut m.port m.addr (headOf 6 m.tsid 0 0 0)
        (fieldBytes [(1, m.mop), (1, 1), (2, m.mtag), (12, 0), (1, st), (3, 0)] ++ f)]) ∧
      (s.takes m.port m.wire = true → m.hdr.kind = 6 → mopDefined m.mop = false → m.auth = true → m.mdir ≠ 1 → m.busy = false →
        (s.session? m.tsid).isSome = true → r = s.turnAway m 6)) ∧
  (∀ (s : State) (m : MgmtIn) (a n : Nat), s.requested m 1 → s.mgmtSession m.tsid = true →
      a ≠ beAt m.body 16 4 ∨ n ≠ beAt m.body 20 2 → exec (.mgmtRead m a n) s = .next s) ∧
  (∀ (s : State) (m : MgmtIn), s.requested m 1 → s.mgmtSession m.tsid = true →
      let a := beAt m.body 16 4
      let n := beAt m.body 20 2
      let no (st : Nat) (f : List Byte) : Prop := exec (.mgmtRead m a n) s = .next (s.answerMgmt m st f)
      (a % 4 ≠ 0 ∨ n = 0 ∨ 2048 < n → no 6 []) ∧
      (a % 4 = 0 → 1 ≤ n → n ≤ 2048 →
        (∀ x, (wordAddrs a n).find? (fun x => (blockAt x).isNone) = some x → no 9 (beBytes 4 x)) ∧
        ((∀ x ∈ wordAddrs a n, (blockAt x).isSome = true) → ∀ x, (wordAddrs a n).find? (fun x =>
          !((blockAt x).any (fun b => s.blockUp b.1))) = some x → no 0x0A (beBytes 4 x)) ∧
        ((∀ x ∈ wordAddrs a n, (blockAt x).any (fun b => s.blockUp b.1) = true) →
          let r := s.readWords ((wordAddrs a n).filterMap blockAt)
          exec (.mgmtRead m a n) s = .next (({ r.1 with mgmt := { r.1.mgmt with reads := r.1.mgmt.reads + 1 } } : State).answerMgmt
            m 0 (fieldBytes [(4, a), (2, n), (2, 0)] ++ r.2.flatMap (beBytes 4)))))) ∧
  (∀ (s : State) (m : MgmtIn), s.requested m 1 → s.mgmtSession m.tsid = true →
      let sent (t : State) (a v : Nat) : Prop :=
        t.out = s.out ++ [s.segOut m.port m.addr (headOf 6 m.tsid 0 0 0) (mgmtBody 1 m.mtag 0 (readFields a 1 [v]))] ∧
        t.secure = (s.nextIv m.port m.tsid).1.secure
      let counted : MgmtRegs := { s.mgmt with reads := s.mgmt.reads + 1 }
      (∀ h, h < 2 → (s.hub h).up = true → m.reads (0x100060 + 0x1000 * h) 1 = true → ∃ t : State, exec (.admitMaxRead m h) s = .next t ∧
        sent t (0x100060 + 0x1000 * h) (s.hub h).fold.admitMax.toNat ∧
        t = { s.modFold h (fun r => { r with admitMax := 0 }) with mgmt := counted, out := t.out, secure := t.secure }) ∧
      (m.reads 0x2030 1 = true → ∃ t : State, exec (.substMaxRead m) s = .next t ∧ sent t 0x2030 s.flt.substMax.toNat ∧
        t = { s with flt := { s.flt with substMax := 0 }, mgmt := counted, out := t.out, secure := t.secure }) ∧
      (m.reads 0x4048 1 = true → ∃ t : State, exec (.timeLoRead m) s = .next t ∧ sent t 0x4048 (s.pkg.aon % 2 ^ 32) ∧
        t = { s with pkg := { s.pkg with timeHi := word (s.pkg.aon / 2 ^ 32) }, mgmt := counted, out := t.out,
                     secure := t.secure }))

/-- R7, R541, R542, R543: a command is checked in order: its code, the life-cycle state, where it is allowed, the serial number, the
challenge, the signer, the signature; the first that fails gives the status, and nothing but the reply and the count of a failed
signature happens; one that is too long or short or has reserved bytes set is recorded and answered INVALID. R423, R501, R524, R525,
R527, R544, R545: the commands that pass their checks act and are answered: CLEAR clears the bits of its masks in every register it
names, and names the first that is none, WARM-RESTART begins a warm restart, RAISE-SVN raises the floor to at most the running
image's number, USE-PROFILE resumes a held start or waits as an activity in place of an earlier one, as ACTIVATE-FIRMWARE waits.
Completes: clear, warmRestart, raiseSvn, useProfile, activateFirmware. -/
def Obligations.Commands : Prop :=
  (∀ (s : State) (e : Envelope) (code : Nat) (states : List Nat) (q : QCol) (signer : Option Nat) (own : Bool)
      (f : State → CmdOut) (after : State → State), s.requested e.req 0x10 → s.mgmtSession e.req.tsid = true →
      let c := s.command e code states q signer own f after
      let no (n : Nat) : State := s.answerMgmt e.req n (if 9 ≤ n then beBytes 4 0 else [])
      (cmdDefined e.cmd = false → c = no 6) ∧
      (cmdDefined e.cmd = true → e.cmd = code →
        (states.contains s.fuses.lcs = false → c = no 3) ∧
        (states.contains s.fuses.lcs = true →
          (s.qAllows q = false → c = no 8) ∧
          (s.qAllows q = true →
            (e.serial ≠ s.fuses.serial → c = no 6) ∧
            (e.serial = s.fuses.serial →
              (e.chal ≠ s.mgmt.challenge → c = no 0x0B) ∧
              (e.chal = s.mgmt.challenge →
                (some e.signer ≠ signer → c = no 2) ∧
                (some e.signer = signer → e.sigOk = false → c = (no 2).countAuthFail) ∧
                (some e.signer = signer → e.sigOk = true → e.lenOk = false → c = s.answered e code 6 []) ∧
                (some e.signer = signer → e.sigOk = true → e.lenOk = true → own = false → c = s))))))) ∧
  (∀ (s : State) (e : Envelope), let cmd (code : Nat) (q : QCol) : Prop := s.commanded e code [3] q s.fuses.owner
      (cmd 1 qYes → let pairs := e.pairs
        let gives (st : Nat) (f : List Byte) : Prop := exec (.clear e pairs) s = .next (s.answered e 1 st f)
        let sound : Prop := 1 ≤ pairs.length ∧ pairs.length ≤ 64 ∧ ∀ p ∈ pairs, maskBad p = false
        (∀ l, l ≠ pairs → exec (.clear e l) s = .next s) ∧
        (¬ sound → gives 6 []) ∧
        (sound → ∀ p, pairs.find? (fun p => !(isW1C p.1)) = some p → gives 9 (beBytes 4 p.1)) ∧
        (sound → (∀ p ∈ pairs, isW1C p.1 = true) →
          (∀ p, pairs.find? (fun p => !((blockAt p.1).any (fun b => s.blockUp b.1))) = some p → gives 0x0A (beBytes 4 p.1)) ∧
          ((∀ p ∈ pairs, (blockAt p.1).any (fun b => s.blockUp b.1) = true) → exec (.clear e pairs) s = .next ((pairs.foldl
            (fun t p => match blockAt p.1 with
              | some b => t.clearAt b.1 b.2 p.2
              | none => t) s).answered e 1 0 [])))) ∧
      (∀ b i m, (w1cMask b i).isSome = true → (s.clearAt b i m).readBlock b i = s.readBlock b i &&& ~~~(word m)) ∧
      (cmd 0x10 qQuiet → exec (.warmRestart e) s = .next (s.answered e 0x10 0 []).ownerRestart) ∧
      (cmd 0x13 qNo → let n := beAt e.args 0 1
        (∀ x, x ≠ n → exec (.raiseSvn e x) s = .next s) ∧
        (n ≤ s.pkg.fwSvn → exec (.raiseSvn e n) s =
          .next (({ s with fuses := { s.fuses with svnFloor := max s.fuses.svnFloor n } } : State).answered e 0x13 0 [])) ∧
        (s.pkg.fwSvn < n → exec (.raiseSvn e n) s = .next (s.answered e 0x13 0x0C (beBytes 4 1)))) ∧
      (cmd 0x11 qHeld → let slot := beAt e.args 0 1
        (∀ x, x ≠ slot → exec (.useProfile e x) s = .next s) ∧
        (4 ≤ slot → exec (.useProfile e slot) s = .next (s.answered e 0x11 6 [])) ∧
        (slot < 4 → s.pkg.phase = .held → s.profOk slot = none → exec (.useProfile e slot) s =
          .next (s.answered e 0x11 0x11 (beBytes 4 0))) ∧
        (slot < 4 → s.pkg.phase = .held → ∀ p, s.profOk slot = some p → let t := (s.inForce slot p).settle'
          exec (.useProfile e slot) s =
            .next (({ t with pkg := { t.pkg with phase := .starting } } : State).answered e 0x11 0 [])) ∧
        (slot < 4 → s.pkg.phase ≠ .held → exec (.useProfile e slot) s =
          .next ((((s.maint.filter (fun a => a.code == 7)).foldl (fun t a => t.abandon a) s).queueActivity e 7 slot).recordCmd
            0x11 0))) ∧
      (cmd 0x12 qNo → let slot := beAt e.args 0 1
        (∀ x, x ≠ slot → exec (.activateFirmware e x) s = .next s) ∧
        (2 ≤ slot → exec (.activateFirmware e slot) s = .next (s.answered e 0x12 6 [])) ∧
        (slot < 2 → exec (.activateFirmware e slot) s = .next ((s.queueActivity e 8 slot).recordCmd 0x12 0))))

/-- R546: NVM-BEGIN opens a transfer to a region that is not in force, while none is being programmed; NVM-DATA is taken at the
cursor, answered again below it and refused beyond it; with the last byte a right digest starts the programming and erases the
region, a wrong one fails the transfer; programming ends it, and changes no other region. Completes: nvmBegin, nvmData,
nvmProgramDone. -/
def Obligations.NvmTransfers : Prop :=
  (∀ (s : State) (e : Envelope), s.commanded e 0x20 [3] qHeld s.fuses.owner →
    let target := beAt e.args 0 1
    let len := beAt e.args 4 4
    let digest := beAt e.args 8 64
    (∀ x y z, x ≠ target ∨ y ≠ len ∨ z ≠ digest → exec (.nvmBegin e x y z) s = .next s) ∧
    let sized : Prop := target < 7 ∧ (target = 0 → len = 68) ∧ (target ≠ 0 → len ≤ regionSize target)
    (¬ sized → exec (.nvmBegin e target len digest) s = .next (s.answered e 0x20 6 [])) ∧
    (sized → s.slotInForce target = true → exec (.nvmBegin e target len digest) s =
      .next (s.answered e 0x20 0x10 (beBytes 4 target))) ∧
    (sized → s.slotInForce target = false → s.nvm.xfer.st = .programming →
      exec (.nvmBegin e target len digest) s = .next (s.answered e 0x20 1 [])) ∧
    (sized → s.slotInForce target = false → s.nvm.xfer.st ≠ .programming → exec (.nvmBegin e target len digest) s =
      .next (({ s with nvm := { s.nvm with xfer := ⟨.receiving, target, len, digest, 0, []⟩ } } : State).answered e 0x20 0 []))) ∧
  (∀ (s : State) (m : MgmtIn), s.requested m 0x11 → s.mgmtSession m.tsid = true →
    let off := beAt m.body 16 4
    let data := m.body.drop 32
    (∀ a b, a ≠ off ∨ b ≠ data → exec (.nvmData m a b) s = .next s) ∧
    let x := s.nvm.xfer
    let say (t : State) (st v : Nat) : Prop := exec (.nvmData m off data) s = .next (t.answerMgmt m st (beBytes 4 v))
    let put (y : Xfer) : State := { s with nvm := { s.nvm with xfer := y } }
    (data.length = 0 ∨ 8192 < data.length → say s 6 x.cursor) ∧
    (1 ≤ data.length → data.length ≤ 8192 →
      (x.st ≠ .receiving → say s 0x0C x.cursor) ∧
      (x.st = .receiving → x.total < off + data.length → say s 6 x.cursor) ∧
      (x.st = .receiving → off + data.length ≤ x.total →
        (off ≠ x.cursor → off + data.length ≤ x.cursor → say s 0 x.cursor) ∧
        (off ≠ x.cursor → x.cursor < off + data.length → say s 0x0E x.cursor) ∧
        (off = x.cursor →
          let y := { x with data := x.data ++ data, cursor := x.cursor + data.length }
          (y.cursor < x.total → say (put y) 0 y.cursor) ∧
          (y.cursor = x.total → shaOf y.data ≠ x.digest → say (put { y with st := .failed }) 0x0F 0) ∧
          (y.cursor = x.total → shaOf y.data = x.digest →
            say { s with nvm := { s.nvm.erase x.target with xfer := { y with st := .programming } } } 0 y.cursor))))) ∧
  (∀ (s : State) (sig cak : Bool), let x := s.nvm.xfer
    let n := s.nvm.program s.fuses.part s.fuses.serial ⟨x.target, x.data, sig, cak⟩
    (x.st ≠ .programming → ∀ ok, exec (.nvmProgramDone ok sig cak) s = .next s) ∧
    (x.st = .programming → exec (.nvmProgramDone false sig cak) s =
      .next { s with nvm := { s.nvm with xfer := { x with st := .failed } } }) ∧
    (x.st = .programming → exec (.nvmProgramDone true sig cak) s = .next { s with nvm := { n with xfer := { x with st := .done } } }) ∧
    (x.target = 0 → n.fw = s.nvm.fw ∧ n.prof = s.nvm.prof ∧ n.fwsel = headerSlot x.data) ∧
    (x.target = 1 ∨ x.target = 2 → n.fwsel = s.nvm.fwsel ∧ n.prof = s.nvm.prof ∧ (∀ i, i ≠ x.target - 1 → n.fw[i]? = s.nvm.fw[i]?) ∧
      (x.target - 1 < s.nvm.fw.length → n.fw[x.target - 1]? = some (fwSlotOf x.target x.data sig))) ∧
    (3 ≤ x.target → n.fwsel = s.nvm.fwsel ∧ n.fw = s.nvm.fw ∧ (∀ i, i ≠ x.target - 3 → n.prof[i]? = s.nvm.prof[i]?) ∧
      (x.target - 3 < s.nvm.prof.length → n.prof[x.target - 3]? =
        some (profSlotOf s.fuses.part s.fuses.serial x.target x.data sig cak))))

/-- R425, R426, R436, R547: PAIR-BIND of packages that may be bound burns a seed, counts the binding and makes this package JOINING,
the PRIMARY its leader; it names the first condition that fails, and refuses a 17th binding. PAIR-UNBIND of a survivor or of an idle
pair makes the package UNPAIRED and the home of every stream, and ends QUIET of cause 7; in any other state it is refused. Completes:
pairBind, pairUnbind. -/
def Obligations.PairsAreBound : Prop :=
  (∀ (s : State) (e : Envelope), s.commanded e 0x30 [3] qNo s.fuses.owner →
    let partner := e.partner
    let w := beAt e.args 724 512
    let does (u : Bool) (t : State) : Prop := exec (.pairBind e partner w u) s = .next t
    let fits (u : Bool) : Prop := s.pkg.pairRole = 0 ∧ w = 0 ∨ s.pkg.pairRole ≠ 0 ∧ 0 < w ∧ u = true
    (∀ l x u, l ≠ partner ∨ x ≠ w → exec (.pairBind e l x u) s = .next s) ∧
    (∀ u, (s.pkg.pairRole = 0 ∧ 0 < w) ∨ (s.pkg.pairRole ≠ 0 ∧ w = 0) → does u (s.answered e 0x30 0x0C (beBytes 4 1))) ∧
    (s.pkg.pairRole ≠ 0 → 0 < w → does false (s.answered e 0x30 2 [])) ∧
    (∀ n, s.bindFails partner = some n → ∀ u, fits u → does u (s.answered e 0x30 0x0C (beBytes 4 n))) ∧
    (s.bindFails partner = none → 16 ≤ s.fuses.bindings → ∀ u, fits u → does u (s.answered e 0x30 0x0D (beBytes 4 0))) ∧
    (s.bindFails partner = none → s.fuses.bindings < 16 → ∀ u, fits u →
      ∃ (t : State) (seed : Nat), does u t ∧
        t.fuses = { s.fuses with pairSeed := some seed, bindings := s.fuses.bindings + 1 } ∧
        t.pair.st = .joining ∧ t.pair.bound = true ∧ t.pair.leader = (s.pkg.pairRole == 0) ∧ t.pair.partner = partner ∧
        t.pair.peerBoot = none ∧ t.secure.pwrap = true ∧
        t = { s with fuses := t.fuses, secure := t.secure, pair := t.pair, pkg := { s.pkg with free := t.pkg.free }, mgmt := t.mgmt,
                     out := t.out })) ∧
  (∀ (s : State) (e : Envelope), s.commanded e 0x31 [3] qYes s.fuses.owner →
    (s.pair.st = .unpaired ∨ s.pair.st = .joining ∨ s.pair.st = .suspect ∨ (s.pair.st = .paired ∧ s.streamsLive = true) →
      exec (.pairUnbind e) s = .next (s.answered e 0x31 0x0C (beBytes 4 1))) ∧
    (s.pair.st = .solo ∨ s.pair.st = .diverged ∨ (s.pair.st = .paired ∧ s.streamsLive = false) →
      ∃ t : State, exec (.pairUnbind e) s = .next t ∧ t.pair.st = .unpaired ∧ t.pair.bound = false ∧ t.pair.unconf = [] ∧
        t.entries = s.entries.map (fun x => { x with homeHere := true, away := false }) ∧
        t.streams = s.streams.map (fun p => (p.1, { p.2 with homeHere := true })) ∧
        t.pkg.quiet = (if s.pkg.quiet = 7 then 0 else s.pkg.quiet) ∧ t.fuses = s.fuses ∧ t.cores = s.cores))

/-- R493, R494, R495, R499, R500: an owner takes an UNOWNED package with a valid voucher, rotates its key at most 32 times, and
returns or retires a package that is UNPAIRED and whose Fold is empty, and only such a one; the vendor retires a RETURNED one. Each
transition burns the new life-cycle state, wipes the secure part and the planes and stops the clocks for a cold start. Completes:
takeOwnership, rotateOwner, returnPkg, retire. -/
def Obligations.OwnershipChanges : Prop :=
  ∀ (s : State) (e : Envelope),
    let left (t : State) (f : Fuses) : Prop := t.fuses = f ∧ t.pkg.phase = .down ∧ t.secure.sessions = [] ∧
      t.secure.dwrap = false ∧ t.placements = [] ∧ (∀ k i p, ((t.core k).engine i).plane p = Plane.fresh) ∧
      t.trust.lcCount = s.trust.lcCount + 1 ∧ t.entries = []
    (s.commanded e 0x40 [1] qNo (some e.signer) →
      (∃ t : State, exec (.takeOwnership e true) s = .next t ∧ left t { s.fuses with lcs := 3, owner := some e.signer }) ∧
      exec (.takeOwnership e false) s = .next (s.countAuthFail.answered e 0x40 2 [])) ∧
    (s.commanded e 0x41 [3] qNo s.fuses.owner →
      let d := beAt e.args 0 64
      (∀ x, x ≠ d → exec (.rotateOwner e x) s = .next s) ∧
      (s.fuses.rotations < 32 → exec (.rotateOwner e d) s = .next (({ s with fuses := { s.fuses with
        owner := some d, prevOwner := s.fuses.owner, rotations := s.fuses.rotations + 1 } } : State).answered e 0x41 0 [])) ∧
      (32 ≤ s.fuses.rotations → exec (.rotateOwner e d) s = .next (s.answered e 0x41 0x0D (beBytes 4 0)))) ∧
    (s.commanded e 0x42 [3] qNo s.fuses.owner →
      (s.pair.st = .unpaired → s.entries = [] → s.streamsLive = false →
        ∃ t : State, exec (.returnPkg e) s = .next t ∧ left t { s.fuses with lcs := 7 }) ∧
      (s.pair.st ≠ .unpaired → exec (.returnPkg e) s = .next (s.answered e 0x42 0x0C (beBytes 4 1))) ∧
      (s.pair.st = .unpaired → (s.entries ≠ [] ∨ s.streamsLive = true) →
        exec (.returnPkg e) s = .next (s.answered e 0x42 0x0C (beBytes 4 2)))) ∧
    (s.commanded e 0x43 [3, 7] qNo s.fuses.owner → s.fuses.lcs = 3 →
      (s.pair.st = .unpaired → s.entries = [] → s.streamsLive = false →
        ∃ t : State, exec (.retire e) s = .next t ∧ left t { s.fuses with lcs := 15 }) ∧
      (s.pair.st ≠ .unpaired → exec (.retire e) s = .next (s.answered e 0x43 0x0C (beBytes 4 1))) ∧
      (s.pair.st = .unpaired → (s.entries ≠ [] ∨ s.streamsLive = true) →
        exec (.retire e) s = .next (s.answered e 0x43 0x0C (beBytes 4 2)))) ∧
    (s.commanded e 0x43 [3, 7] qNo (some s.fuses.vendor) → s.fuses.lcs = 7 →
      ∃ t : State, exec (.retire e) s = .next t ∧ left t { s.fuses with lcs := 15 })

/-- R477, R479, R480, R483 to R486: ATTEST and CERTS are answered in every state but BLANK, with the report of R480 and with three
certificates; SESSION-OPEN gives an authorised tenant the lowest free `TSID`, its reply waiting for the partner in paired mode, and
names the first test that fails; the three are answered BUSY beyond the limits of R477; closing ends a session that no stream is bound to. R198: while a wipe is in progress, an ATTEST and
a SESSION-OPEN wait for its end. Completes: attest, certs, sessionOpen, sessionClose. -/
def Obligations.TrustOperations : Prop :=
  ∀ (s : State) (m : MgmtIn),
    (s.requested m 0x40 → s.trustSession m.tsid = true →
      let nonce := beAt m.body 16 64
      let first := beAt m.body 80 2
      let n := beAt m.body 82 2
      (∀ x y z, exec (.attest m x y z true) s = .next (s.answerMgmt m 1 [])) ∧
      (∀ x y z, x ≠ nonce ∨ y ≠ first ∨ z ≠ n → exec (.attest m x y z false) s = .next s) ∧
      (s.fuses.lcs = 0 → exec (.attest m nonce first n false) s = .next (s.answerMgmt m 3 [])) ∧
      (s.fuses.lcs ≠ 0 → 64 < n → exec (.attest m nonce first n false) s = .next (s.answerMgmt m 6 [])) ∧
      (s.fuses.lcs ≠ 0 → n ≤ 64 → s.secure.wiping = false → exec (.attest m nonce first n false) s = .next (State.answerMgmt { s with
        trust := { s.trust with attests := s.trust.attests + 1 }
        pkg := { s.pkg with free := s.pkg.free + 1 } } m 0 (s.report nonce first n))) ∧
      (s.fuses.lcs ≠ 0 → n ≤ 64 → s.secure.wiping = true → exec (.attest m nonce first n false) s =
        .next { s with secure := { s.secure with held := s.secure.held ++ [.attest m nonce first n] } })) ∧
    (s.requested m 0x41 → s.trustSession m.tsid = true →
      exec (.certs m true) s = .next (s.answerMgmt m 1 []) ∧
      (s.fuses.lcs ≠ 0 → ∃ a b c : List Byte, exec (.certs m false) s = .next (s.answerMgmt m 0
        (beBytes 4 a.length ++ a ++ beBytes 4 b.length ++ b ++ beBytes 4 c.length ++ c)) ∧ a.length + b.length + c.length ≤ 8223) ∧
      (s.fuses.lcs = 0 → exec (.certs m false) s = .next (s.answerMgmt m 3 []))) ∧
    (s.requested m 0x42 → m.tsid = 0xFFFE → ∀ (tenant w : Nat) (sig un : Bool),
      let does (t : State) : Prop := exec (.sessionOpen m tenant w sig un false) s = .next t
      let proved : Bool := sig && un && s.namesUs w
      let welcome : Prop := s.profile.work.tenantList = [] ∨ tenant ∈ s.profile.work.tenantList
      exec (.sessionOpen m tenant w sig un true) s = .next (s.answerMgmt m 1 []) ∧
      (s.secure.wiping = true → does { s with secure := { s.secure with
        held := s.secure.held ++ [.sessionOpen m tenant w sig un] } }) ∧
      (s.secure.wiping = false →
        (s.fuses.lcs ≠ 3 → does (s.answerMgmt m 3 [])) ∧
        (s.fuses.lcs = 3 → s.sessionsQuiet = true → does (s.answerMgmt m 8 [])) ∧
        (s.fuses.lcs = 3 → s.sessionsQuiet = false →
          (proved = false → does (s.answerMgmt m 2 []).countAuthFail) ∧
          (proved = true → ¬ welcome → does (s.answerMgmt m 4 [])) ∧
          (proved = true → welcome → 4096 ≤ s.secure.sessions.length → does (s.answerMgmt m 5 [])) ∧
          (proved = true → welcome → s.secure.sessions.length < 4096 →
            ∀ n, (tabulate 4096 (· + 1)).find? s.tsidFree = some n →
              let x (w : Option (Nat × Nat × Nat)) : Session := ⟨n, tenant, w, m.sessionKey⟩
              let with' (w : Option (Nat × Nat × Nat)) : State :=
                { s with secure := { s.secure with sessions := s.secure.sessions ++ [x w] } }
              let told (w : Option (Nat × Nat × Nat)) : State := (with' w).keysync (x w) true
              (s.paired = false → does ((if s.mirrors then told none else with' none).mgmtReply
                m.port m.addr n 0x42 m.mtag 0 (beBytes 2 n ++ beBytes 16 tenant))) ∧
              (s.paired = true → does ((told (some (m.port, m.addr, m.mtag))).await 0 2 n 0 0)))))) ∧
    (∀ nonce first n, nonce < 2 ^ 512 →
      let r := s.report nonce first n
      let l := ((s.byHandle.filter (fun p => decide (first ≤ p.handle))).take n).length
      r.length = 2048 + 80 * l ∧ beAt r 0 4 = 0xA7E5 ∧ beAt r 0x00A 1 = s.fuses.lcs % 256 ∧ beAt r 0x010 16 = s.fuses.serial % 2 ^ 128 ∧
        beAt r 0x020 64 = nonce ∧ beAt r 0x0E0 64 = s.setDigest % 2 ^ 512 ∧ beAt r 0x120 1 = s.fuses.rotations % 256 ∧
        beAt r 0x140 8 = s.pkg.aon % 2 ^ 64 ∧ beAt r 0x14E 2 = l % 65536 ∧ beAt r 0x580 64 = (s.fuses.owner.getD 0) % 2 ^ 512) ∧
    (∀ (x : Session) (b : Bool), s.keysync x b = s.sendPair 11 [(2, x.tsid), (1, flag b), (13, 0)]
      (if b then beBytes 32 x.key ++ beBytes 16 x.tenant else [])) ∧
    (s.requested m 0x43 → (s.session? m.tsid).isSome = true →
      (s.sessionsQuiet = true → exec (.sessionClose m) s = .next (s.answerMgmt m 8 [])) ∧
      (s.sessionsQuiet = false → s.tsidBound m.tsid = true → exec (.sessionClose m) s = .next (s.answerMgmt m 7 [])) ∧
      (s.sessionsQuiet = false → s.tsidBound m.tsid = false →
        let t := s.answerMgmt m 0 []
        let u : State := { t with secure := { t.secure with sessions := t.secure.sessions.filter (fun x => x.tsid != m.tsid) } }
        exec (.sessionClose m) s = .next (if s.mirrors then u.keysync ⟨m.tsid, 0, none, 0⟩ false else u)))

/-- R340, R429, R430, R431: a PAIR frame that is no segment of the transport, not authentic or not of a defined form, or under a
`PBOOT` that was retired, is nothing; a repeat is only heard; another `PBOOT` is taken from a HEARTBEAT alone, while the partner
counts as lost. A partner heard ends SUSPECT. R432: the timer sends a HEARTBEAT and begins an interval; an interval in which nothing
came is a miss, which makes a PAIRED package SUSPECT; the 20th in a row declares a partner lost that can be, and the survivor is
SOLO, leader and home of every stream. Completes: pairHeartbeatTimer, pairHeartbeatMiss. -/
def Obligations.PairFrames : Prop :=
  (∀ (s : State) (p : PairIn) (pop : Nat) (ok : Bool) (f : State → State),
      let r := s.pairFrame p pop ok f
      (s.takes p.port p.wire = false → r = s.discard p.port p.wire) ∧
      (s.takes p.port p.wire = true → s.pairLive = false ∨ p.is pop = false ∨ ok = false ∨ p.pboot ∈ s.pair.retired → r = s) ∧
      (s.takesPair p pop → ok = true → r = f (s.heard p)) ∧
      (s.takes p.port p.wire = true → s.pairLive = true → p.is pop = true → ok = true → p.pboot ∉ s.pair.retired →
        (s.pair.peerBoot = some p.pboot → s.pair.isNew p.pseq = false → r = s.hear p.netB) ∧
        (s.pair.peerBoot ≠ some p.pboot → (pop ≠ 1 ∨ s.peerOpen = false) → r = s) ∧
        (s.pair.peerBoot ≠ some p.pboot → pop = 1 → s.peerOpen = true →
          r = f (({ s with pair := s.pair.reboot p.pboot p.pseq } : State).hear p.netB))) ∧
      (s.heard p).pair.misses = 0 ∧ (s.heard p).pair.st = (if s.pair.st = .suspect then .paired else s.pair.st) ∧
      (s.heard p).entries = s.entries ∧ (s.heard p).cores = s.cores) ∧
  (∀ (s : State),
      (s.pairLive = false → exec .pairHeartbeatTimer s = .next s ∧ exec .pairHeartbeatMiss s = .next s) ∧
      (s.pairLive = true → ∃ t : State, exec .pairHeartbeatTimer s = .next t ∧ t.pair.heardA = s.pair.nowA ∧
        t.pair.heardB = s.pair.nowB ∧ t.pair.nowA = false ∧ t.pair.nowB = false ∧
        t.out = s.out ++ s.pairPorts.map (s.pairOut 1 [(1, s.pair.st.code), (1, flag s.pair.leader), (2, s.pkg.quiet), (8, s.pkg.cseq),
          (4, 0)] []) ∧ t = { s with pair := t.pair, out := t.out }) ∧
      ((s.pair.heardA || s.pair.heardB || s.pair.nowA || s.pair.nowB) = true → exec .pairHeartbeatMiss s = .next s) ∧
      (s.pairLive = true → (s.pair.heardA || s.pair.heardB || s.pair.nowA || s.pair.nowB) = false →
        let m : State := { s with pair := { s.pair with
          misses := s.pair.misses + 1, st := if s.pair.st = .paired then .suspect else s.pair.st
          regs := { s.pair.regs with event := setBit s.pair.regs.event 0, miss := s.pair.regs.miss + 1 } } }
        let mine : Prop := s.pair.st = .paired ∨ s.pair.st = .suspect ∨ s.pair.st = .joining
        (s.pair.misses + 1 < 20 → exec .pairHeartbeatMiss s = .next m) ∧
        (19 ≤ s.pair.misses → ¬ mine → exec .pairHeartbeatMiss s = .next m) ∧
        (19 ≤ s.pair.misses → mine → exec .pairHeartbeatMiss s = .next m.declareLost)) ∧
      ((∀ e ∈ s.entries, e.here = true) → (∀ c ∈ s.commits, c.needPeer = false) →
        let t := s.declareLost
        t.pair.st = .solo ∧ t.pair.leader = true ∧ t.pair.partnerLost = true ∧ t.pair.regs.lost = s.pair.regs.lost + 1 ∧
          t.pair.unconf = [] ∧ t.streams = s.streams.map (fun x => (x.1, { x.2 with homeHere := true })) ∧
          t.entries = s.entries.map (fun e => { e with homeHere := true, away := false }) ∧ t.cores = s.cores))

/-- R431 to R435: what a HEARTBEAT of the partner does, by this package's state and the partner's: two survivors are DIVERGED and
QUIET; a partner that is QUIET is declared lost; a package whose partner survived it discards its Fold and joins; a survivor sends
the joiner a snapshot; the partner's profile is noted (R524; DESIGN CHOICE, log 119). R353, R354, R427, R428: a COMMIT record of an entry that is new here makes it, one with `STATE` FREE ends it,
one of an entry that runs here leaves its run alone unless it cancels it, and one of the partner's gives its state; a CONFIRM
releases every commit up to its number, numbers the first that waits for a number, or acknowledges a session; in a warm restart
no CONFIRM goes out and no new entry of the partner's is numbered (R527; DEDUCED, log 120); a STRIKE removes the entry and is
counted. Completes: pairHeartbeat, pairCommit, pairConfirm, pairStrike. -/
def Obligations.PairStates : Prop :=
  (∀ (s : State) (p : PairIn) (pst lead quiet last : Nat), s.takesPair p 1 → pst ≤ 5 → lead ≤ 1 → quiet ≤ 7 →
      p.holds (beatFields pst lead quiet last) [] = true →
      let t : State := { s.heard p with pair := { (s.heard p).pair with peerProf := p.prof } }
      let does (u : State) : Prop := exec (.pairHeartbeat p pst lead quiet last) s = .next u
      let whole : Prop := pst = 2 ∨ pst = 3
      (t.pair.st = .unpaired ∨ t.pair.st = .diverged → does t) ∧
      (t.pair.st = .solo →
        (pst = 4 ∨ pst = 5 → does t.diverged) ∧ (pst ≠ 4 → pst ≠ 5 → quiet ≠ 0 → does t) ∧
        (pst = 1 → quiet = 0 → t.pair.syncTo = none → does t.snapshot) ∧
        (whole → quiet = 0 → t.pair.syncTo.isSome = true → does (t.becomePaired true)) ∧
        (pst = 0 ∨ (pst = 1 ∧ t.pair.syncTo ≠ none) ∨ (whole ∧ t.pair.syncTo = none) → quiet = 0 → does t)) ∧
      (t.pair.st = .joining →
        let t1 : State := { t with pkg := { t.pkg with cseqNext := max t.pkg.cseqNext (last + 1) } }
        (quiet ≠ 0 → does t.declareLost) ∧
        (quiet = 0 → pst = 1 ∨ (whole ∧ (t.pair.fresh = true ∨ last = 0)) → does (t1.becomePaired false)) ∧
        (quiet = 0 → pst ≠ 1 → (¬ whole ∨ (t.pair.fresh = false ∧ last ≠ 0)) →
          does ({ t1 with pair := { t1.pair with leader := t1.pair.leader && lead == 0 } } : State).tryJoin)) ∧
      (t.pair.st = .paired →
        (quiet ≠ 0 → does t.declareLost) ∧
        (quiet = 0 → pst = 4 → t.pkg.quiet = 0 → ∃ u : State, does u ∧ u.pair.st = .joining ∧ u.pair.leader = false ∧
          u.entries = [] ∧ u.streams = [] ∧ u.commits = [] ∧ u.pkg.cseq = 0 ∧ u.placements = t.placements) ∧
        (quiet = 0 → pst ≠ 4 ∨ t.pkg.quiet ≠ 0 → does { t with pkg := { t.pkg with
          cseqNext := if t.pair.leader then t.pkg.cseqNext else max t.pkg.cseqNext (last + 1) } })) ∧
      (∀ r : Bool, (t.becomePaired r).pair.st = .paired ∧ (t.becomePaired r).pair.partnerLost = false ∧
        (t.becomePaired r) = { t with pair := (t.becomePaired r).pair }) ∧
      (s.diverged.pair.st = .diverged ∧ s.diverged.pkg.quiet = (if quietRank s.pkg.quiet < 2 then 7 else s.pkg.quiet) ∧
        s.diverged.entries = s.entries)) ∧
  (∀ (s : State) (p : PairIn), s.takesPair p 2 →
      let t := s.heard p
      (∀ recs : List PairRecord, p.commits recs = false → exec (.pairCommit p recs) s = .next s) ∧
      (∀ recs : List PairRecord, p.commits recs = true ↔ recs ≠ [] ∧ recs.length ≤ 96 ∧ (∀ r ∈ recs, r.defined = true) ∧
        p.body.drop 16 = fieldBytes [(2, recs.length), (14, 0)] ++ recs.flatMap PairRecord.bytes) ∧
      (∀ recs : List PairRecord, p.commits recs = true →
        (t.follows = false → exec (.pairCommit p recs) s = .next t) ∧
        (t.follows = true → t.restarting = false → let u := recs.foldl State.takeRecord t
          exec (.pairCommit p recs) s = .next
            (if recs.all (fun r => r.cseq != 0) then u.sendPair 3 [(8, u.pkg.cseq), (8, 0)] [] else u).tryJoin) ∧
        (t.follows = true → t.restarting = true → exec (.pairCommit p recs) s = .next
          (recs.foldl (fun u r => if r.cseq = 0 ∧ t.recordEntry r = none then u else u.takeRecord r) t).tryJoin)) ∧
      (t.paired = true → ∀ r : PairRecord, p.commits [r] = true → r.cseq ≠ 0 →
        let does (u : State) : Prop := exec (.pairCommit p [r]) s = .next u ∧ u.pkg.cseq = max t.pkg.cseq r.cseq
        (t.recordEntry r = none → r.state ≠ 0 → r.opc ≠ 2 → r.away = false → ∃ u : State, does u ∧
          u.entries.length = t.entries.length + 1 ∧ (∃ e ∈ u.entries, e.cseq = r.cseq ∧ e.stream = r.stream ∧
            e.incarn = r.incarn ∧ e.seq = r.seq ∧ some e.st = entrySt r.state ∧ e.status = resStatus r.status) ∧
          u.cores = t.cores) ∧
        (t.recordEntry r = none → r.state = 0 → ∃ u : State, does u ∧ u.entries = t.entries ∧ u.cores = t.cores) ∧
        (∀ e, t.recordEntry r = some e →
          (r.state = 0 → ∃ u : State, does u ∧ (∀ x ∈ u.entries, x.cseq ≠ e.cseq)) ∧
          (r.state ≠ 0 → e.here = true → (r.state ≠ 4 ∨ r.status ≠ 3) → ∃ u : State, does u ∧ u.entries = t.entries ∧
            u.cores = t.cores) ∧
          (r.state ≠ 0 → e.here = false → r.away = false → t.profile.work.dualRun = false → ∃ u : State, does u ∧
            ∀ x ∈ u.entries, x.cseq = e.cseq → some x.st = entrySt r.state ∧ x.status = resStatus r.status ∧
              x.replays = r.replays)))) ∧
  (∀ (s : State) (p : PairIn), s.takesPair p 3 →
      let t := s.heard p
      let after (l : List (List Nat)) : State := { t with pair := { t.pair with unconf := l } }
      let holds' (n a : Nat) : Prop := p.holds (confirmFields n a) [] = true
      (∀ n a time, ¬ holds' n a → exec (.pairConfirm p ⟨n, a⟩ time) s = .next s) ∧
      (t.mirrors = false → ∀ n a time, holds' n a → exec (.pairConfirm p ⟨n, a⟩ time) s = .next t) ∧
      (t.mirrors = true →
        (∀ n time, holds' n 0 → (∀ x ∈ t.pair.unconf, at' x 1 0 ≠ 2) → exec (.pairConfirm p ⟨n, 0⟩ time) s = .next
          ((t.commits.filter (fun c => (c.cseq != 0 && decide (c.cseq ≤ n)) && c.needPeer)).foldl
            (fun u c => u.progress { c with needPeer := false } time)
            (after (t.pair.unconf.filter (fun x => !(at' x 0 0 != 0 && decide (at' x 0 0 ≤ n))))))) ∧
        (∀ x l time, holds' 0 0 → t.pair.unconf = x :: l → at' x 1 0 = 2 →
          exec (.pairConfirm p ⟨0, 0⟩ time) s = .next ((after l).ackSession (at' x 2 0))) ∧
        (∀ x a time, holds' 0 a → a ≠ 0 → t.pair.unconf.find? (fun y => at' y 0 0 == 0 && at' y 1 0 != 2) = some x → at' x 1 0 = 1 →
          exec (.pairConfirm p ⟨0, a⟩ time) s = .next ((after (t.pair.unconf.erase x)).numberCommit (x.drop 2) a time))) ∧
      (∀ (c : Commit) time,
        (c.needHubs ≠ [] ∨ c.cseq = 0 → t.progress { c with needPeer := false } time = { t with
          commits := t.commits.map (fun x => if x.cseq == c.cseq then { c with needPeer := false } else x) }) ∧
        (c.needHubs = [] → c.cseq ≠ 0 → t.progress { c with needPeer := false } time = t.confirm { c with needPeer := false } time))) ∧
  (∀ (s : State) (p : PairIn), s.takesPair p 10 →
      let t := s.heard p
      ∀ n a b c, p.holds (strikeFields n a b c) [] = true → let hit := if n = 0 then t.target? a b c else t.entry? n
        (hit = none → exec (.pairStrike p n a b c) s = .next (t.dropMirrored a b c)) ∧
        (∀ e, hit = some e → t.follows = false → exec (.pairStrike p n a b c) s = .next t) ∧
        (∀ e, hit = some e → t.follows = true → ∃ u : State, exec (.pairStrike p n a b c) s = .next u ∧
          (∀ x ∈ u.entries, x.cseq ≠ e.cseq) ∧ u.pair.regs.strike = t.pair.regs.strike + 1))

/-- R428, R434: a copied segment is stored in place of an earlier copy, and the last one that an entry lacked completes it; bytes of
an input parcel are kept; bytes of an object are staged for the object of that name and nothing else, and its OBJCOMMIT commits it
here, or answers one sent from here. R434, R437, R438, R485: SYNCDONE names the commit up to which a joiner must be; without anything
lacking it is PAIRED and counts a rejoin; a session opened at the partner lives here too and is acknowledged, one closed there ends
here; digests of a run that agree change nothing else, and with those that differ a complete frame runs again. Completes:
pairSegment, pairParcel, pairObject, pairObjcommit, pairSyncdone, pairKeysync, pairDigest. -/
def Obligations.PairCopies : Prop :=
  (∀ (s : State) (p : PairIn), s.takesPair p 4 →
      let t := s.heard p
      ∀ (h : Hdr) (body : List Byte), p.copies h body = true →
        let l := t.pair.segs.filter (fun x => !(sameFrame x.hdr h && x.hdr.segidx == h.segidx))
        let t1 : State := { t with pair := { t.pair with segs := l ++ [⟨0, 8, 0, h, body⟩] } }
        (t.follows = false → exec (.pairSegment p h body) s = .next t) ∧
        (t.follows = true → (∀ e, t.target? h.stream h.incarn h.seq = some e → e.cseq ∉ t.pair.hollow) ∨
            t1.mirroredOp h.stream h.incarn h.seq = none →
          exec (.pairSegment p h body) s = .next t1.tryJoin) ∧
        (t.follows = true → ∀ e op, t.target? h.stream h.incarn h.seq = some e → e.cseq ∈ t.pair.hollow →
          t1.mirroredOp h.stream h.incarn h.seq = some op →
          exec (.pairSegment p h body) s = .next (t1.fillEntry e op).tryJoin)) ∧
  (∀ (s : State) (p : PairIn), s.takesPair p 8 →
      let t := s.heard p
      ∀ (n off : Nat) (data : List Byte), data.length ≤ 8192 → p.holds (parcelFields n off) data = true →
        let b := putBytes ((Tbl.get t.pair.parcels n).getD []) off data
        let t1 : State := { t with pair := { t.pair with parcels := Tbl.set t.pair.parcels n b } }
        (t.pair.st ≠ .joining → exec (.pairParcel p n off data) s = .next t) ∧
        (t.pair.st = .joining → n ∉ t.pair.hollow ∨ t.entry? n = none ∨ (∀ op, parseBody b ≠ .ok op) → exec (.pairParcel p n off data) s = .next t1.tryJoin) ∧
        (t.pair.st = .joining → n ∈ t.pair.hollow → ∀ e op, t.entry? n = some e → parseBody b = .ok op →
          exec (.pairParcel p n off data) s = .next (t1.fillEntry e op).tryJoin)) ∧
  (∀ (s : State) (p : PairIn), s.takesPair p 5 →
      let t := s.heard p
      ∀ (tenant target name off : Nat) (data : List Byte), target ≤ 4 → data.length ≤ 8192 →
        p.holds (objFields target name off) data = true →
        (t.follows = false → exec (.pairObject p tenant target name off data) s = .next t) ∧
        (t.follows = true → ∃ u : State, exec (.pairObject p tenant target name off data) s = .next u ∧
          (∃ o ∈ u.objects, o.is tenant target name = true ∧ (off, off + data.length) ∈ o.staged ∧
            ∀ i : Nat, i < data.length → Mem.read o.data (off + i) = (data[i]?).getD 0) ∧
          (∀ o ∈ t.objects, o.is tenant target name = false → o ∈ u.objects) ∧ u = { t with objects := u.objects })) ∧
  (∀ (s : State) (p : PairIn), s.takesPair p 6 →
      let t := s.heard p
      ∀ (tenant target name status : Nat) (o : CommitIn), target ≤ 4 → status ≤ 0x17 →
        p.holds (objcommitFields target status name) [] = true →
        let does (u : State) : Prop := exec (.pairObjcommit p tenant target name status o) s = .next u
        (∀ r, t.pair.replies.find? (fun r => at' r 0 9 == target && at' r 1 0 == name) = some r →
          ∃ u : State, does u ∧ u.pair.replies = t.pair.replies.erase r ∧ u.placements = t.placements) ∧
        (t.pair.replies.find? (fun r => at' r 0 9 == target && at' r 1 0 == name) = none →
          (status ≠ 0 ∨ t.follows = false → does t) ∧
          (status = 0 → t.follows = true → let b := mirroredBulk target name
            does (t.bulkCommit b tenant (bulkHead b.body) o).tryJoin))) ∧
  (∀ (s : State) (p : PairIn), s.takesPair p 9 →
      let t := s.heard p
      ∀ n, p.holds (syncFields n) [] = true → let t1 : State := { t with pair := { t.pair with syncTo := some n } }
        let lacks : Prop := t.pkg.cseq < n ∨ t.pair.hollow ≠ [] ∨ t.pair.failedObj = true ∨ t.mirrorBusy = true
        (t.pair.st ≠ .joining → exec (.pairSyncdone p n) s = .next t) ∧
        (t.pair.st = .joining → lacks → exec (.pairSyncdone p n) s = .next t1) ∧
        (t.pair.st = .joining → ¬ lacks → exec (.pairSyncdone p n) s = .next (t1.becomePaired true).runMirrored) ∧
        (t1.becomePaired true).pair.regs.rejoin = t.pair.regs.rejoin + 1 ∧ (t1.becomePaired true).pair.st = .paired ∧
        (t.profile.work.dualRun = false → (t1.becomePaired true).runMirrored = t1.becomePaired true)) ∧
  (∀ (s : State) (p : PairIn), s.takesPair p 11 →
      let t := s.heard p
      ∀ tsid tenant, let rest := t.secure.sessions.filter (fun x => x.tsid != tsid)
        (t.follows = false → ∀ opened, p.keysyncs tsid tenant opened = true → exec (.pairKeysync p tsid tenant opened) s = .next t) ∧
        (t.follows = true →
          (p.keysyncs tsid tenant true = true → ∃ u : State, exec (.pairKeysync p tsid tenant true) s = .next u ∧
            u.secure = { t.secure with sessions := rest ++ [⟨tsid, tenant, none, beAt p.body 32 32⟩] } ∧
            u.out.length = t.out.length + t.pairPorts.length ∧ u = { t with secure := u.secure, pair := u.pair, out := u.out }) ∧
          (p.keysyncs tsid tenant false = true → exec (.pairKeysync p tsid tenant false) s = .next { t with secure := { t.secure with sessions := rest } }))) ∧
  (∀ (s : State) (p : PairIn), s.takesPair p 7 →
      let t := s.heard p
      (t.dualRun = true ↔ t.profile.work.dualRun = true ∧ t.pair.peerProf = t.pkg.profDigest) ∧
      let holds' (n run d : Nat) : Prop := p.holds (digestFields n run d) [] = true
      (∀ n run d, holds' n run d → t.paired = false ∨ t.dualRun = false ∨ t.entry? n = none →
        exec (.pairDigest p n run d) s = .next t) ∧
      (t.paired = true → t.dualRun = true → ∀ n e, t.entry? n = some e →
        (∀ run d, holds' n run d → t.pair.own.find? (fun x => x.1 == n) = none ∨ t.pair.own.find? (fun x => x.1 == n) = some (n, run, d) →
          exec (.pairDigest p n run d) s = .next { t with pair := { t.pair with
            peer := t.pair.peer.filter (fun x => !(x.1 == n && x.2.1 == run)) ++ [(n, run, d)] } }) ∧
        (∀ d d', holds' n e.reruns d → t.pair.own.find? (fun x => x.1 == n) = some (n, e.reruns, d') → d' ≠ d → e.ranOut = true → e.st = .complete →
          e.replays + 1 ≤ t.profile.work.replayMax → ∃ u : State, exec (.pairDigest p n e.reruns d) s = .next u ∧
            u.pair.regs.dual = t.pair.regs.dual + 1 ∧
            ∃ x ∈ u.entries, x.cseq = n ∧ x.st = .ready ∧ x.replays = e.replays + 1 ∧ x.reruns = e.reruns + 1)))

/-- Taking commands: a step takes the command at the front of the queue and has its effect on the state with the rest
of the queue. -/
def Obligations.StepRunsTheFront : Prop :=
  ∀ (s : State) (c : Instr) (rest : List Instr), step { s with pending := c :: rest } = exec c { s with pending := rest }

/-- A command has its effect when every unit it names exists (R13, R24, R35, R144), and faults when one does not. With
no command waiting, the block idles (DESIGN CHOICE, log 15). -/
def Obligations.CommandsComplete : Prop :=
  (∀ (c : Instr) (s : State), (WellFormed c = true → ∃ t, exec c s = .next t) ∧
      (WellFormed c = false → exec c s = .fault .noSuchUnit)) ∧
  (∀ s : State, s.pending = [] → step s = .next s)

/-- The queue is its own: no command changes the commands that wait. -/
def Obligations.CommandsLeaveTheQueue : Prop :=
  ∀ (c : Instr) (s t : State), exec c s = .next t → t.pending = s.pending

/-- R472, R492, R493, R499, R500, R501: whatever a step does, the life cycle moves only as R492 draws it, the tallies
of rotations and bindings and the SVN floor never fall, what was burned at manufacture stays, and an owner changes
only by a rotation or by taking ownership. R492 to R495, R499, R501, R544, R547: only the owner's and vendor's
commands and the start burn fuses. -/
def Obligations.FusesOnlyBurn : Prop :=
  (∀ (s t : State), step s = .next t → s.fuses.burned t.fuses ∧ (s.fuses.legal = true → t.fuses.legal = true)) ∧
  (∀ (c : Instr) (s t : State), exec c s = .next t → t.fuses ≠ s.fuses →
      (∃ e p w u, c = .pairBind e p w u) ∨ (∃ e v, c = .takeOwnership e v) ∨ (∃ e d, c = .rotateOwner e d) ∨
      (∃ e, c = .returnPkg e) ∨ (∃ e, c = .retire e) ∨ (∃ e n, c = .raiseSvn e n) ∨ c = .readyAssert)

/-- R501: a package that asserts READY after a cold start raises the SVN floor to the `SVN` of the image that booted, where `SVN_AUTO`
is 1, which is the default; RAISE-SVN raises it at most to that number; with `SVN_AUTO` 0 nothing else raises it. -/
def Obligations.SvnFloorRises : Prop :=
  Profile.dflt.work.svnAuto = true ∧
  (∀ s : State, s.pkg.phase = .starting → s.pkg.quiet = 0 → ∃ t : State, exec .readyAssert s = .next t ∧ t.readyPin = true ∧
    t.fuses.svnFloor = if s.profile.work.svnAuto then max s.fuses.svnFloor s.pkg.fwSvn else s.fuses.svnFloor) ∧
  (∀ (s : State) (e : Envelope) (n : Nat), s.commanded e 0x13 [3] qNo s.fuses.owner → n = beAt e.args 0 1 →
    (s.pkg.fwSvn < n → exec (.raiseSvn e n) s = .next (s.answered e 0x13 0x0C (beBytes 4 1))) ∧
    (n ≤ s.pkg.fwSvn → ∃ t : State, exec (.raiseSvn e n) s = .next t ∧
      t.fuses = { s.fuses with svnFloor := max s.fuses.svnFloor n })) ∧
  (∀ (c : Instr) (s t : State), exec c s = .next t → s.profile.work.svnAuto = false → t.fuses.svnFloor ≠ s.fuses.svnFloor →
    ∃ e n, c = .raiseSvn e n)

/-- R83, R142, R180, R181, R254, R293, R314, R375, R443, R444, R469, R470, R503: every counter and flag register of
R531 reads 0 after a cold start; the package runs, nothing is placed, no stream is open and no frame is in the Fold.
The life-cycle code is a legal one of R492 (OWNED is DESIGN CHOICE, log 3), and every memory has its canonical form (what an unlisted byte reads as is DESIGN CHOICE, log 9). -/
def Obligations.ResetReads : Prop :=
  let r := State.reset
  r.pkg.phase = .running ∧ r.readyPin = true ∧ r.faultPin = false ∧ r.entries = [] ∧ r.streams = [] ∧ r.placements = [] ∧
    r.pkg.epoch = 0 ∧ r.pkg.cseq = 0 ∧ r.pkg.quiet = 0 ∧ r.pending = [] ∧
    r.fuses.legal = true ∧ (∀ k, Mem.wf (r.core k).mem.spad = true ∧ Mem.wf (r.core k).mem.treg = true) ∧
    (∀ h, h < 2 → (r.hub h).fold = FoldRegs.fresh) ∧ r.flt = ⟨0, 0, 0, 0, 0, 0, 0, 0, 0, 0, 0, 0, 0⟩ ∧
    (∀ k, (r.core k).arr = ArrayRegs.fresh ∧ (r.core k).sp = SpadRegs.fresh ∧ (r.core k).prog = ProgRegs.fresh ∧
      (r.core k).st = .idle ∧ ∀ e p, ((r.core k).engine e).plane p = Plane.fresh)

end
end

