-- ==== Sys2Proof/Laws/Table.lean ====
section
/-! SUPPORT. Sparse tables and byte memories: read after write, and every memory operation keeps the canonical form. -/
namespace Sys2Proof.Machine
open Sys2Proof

variable {α : Type}

@[simp] theorem Tbl_get_nil (k : Nat) : Tbl.get ([] : Tbl α) k = none := rfl

theorem Tbl_get_cons (p : Nat × α) (r : Tbl α) (k : Nat) :
    Tbl.get (p :: r) k = if p.1 = k then some p.2 else Tbl.get r k := by
  unfold Tbl.get
  by_cases h : p.1 = k <;> simp [h]

@[simp] theorem Tbl_get_set_same (t : Tbl α) (k : Nat) (v : α) : Tbl.get (Tbl.set t k v) k = some v := by
  induction t with
  | nil => simp [Tbl.set, Tbl_get_cons]
  | cons p r ih =>
    unfold Tbl.set
    split
    · simp [Tbl_get_cons]
    · split
      · simp [Tbl_get_cons]
      · rw [Tbl_get_cons, if_neg (by omega), ih]

theorem Tbl_get_set_ne (t : Tbl α) {k j : Nat} (v : α) (h : j ≠ k) : Tbl.get (Tbl.set t k v) j = Tbl.get t j := by
  induction t with
  | nil => simp [Tbl.set, Tbl_get_cons, Ne.symm h]
  | cons p r ih =>
    unfold Tbl.set
    split
    · rw [Tbl_get_cons, if_neg (Ne.symm h)]
    · split
      · rename_i _ e
        rw [Tbl_get_cons, Tbl_get_cons, if_neg (Ne.symm h), if_neg (by omega)]
      · rw [Tbl_get_cons, Tbl_get_cons, ih]

@[simp] theorem Tbl_set_set (t : Tbl α) (k : Nat) (v w : α) : Tbl.set (Tbl.set t k v) k w = Tbl.set t k w := by
  induction t with
  | nil => simp [Tbl.set]
  | cons p r ih =>
    simp only [Tbl.set]
    split
    · simp [Tbl.set]
    · split
      · simp [Tbl.set]
      · simp only [Tbl.set]
        rw [if_neg (by assumption), if_neg (by assumption), ih]

theorem Tbl_get_erase_ne (t : Tbl α) {k j : Nat} (h : j ≠ k) : Tbl.get (Tbl.erase t k) j = Tbl.get t j := by
  induction t with
  | nil => rfl
  | cons p r ih =>
    unfold Tbl.erase at ih ⊢
    by_cases e : p.1 = k
    · rw [List.filter_cons_of_neg (by simp [e]), ih, Tbl_get_cons, if_neg (by omega)]
    · rw [List.filter_cons_of_pos (by simp [e]), Tbl_get_cons, Tbl_get_cons, ih]

@[simp] theorem Tbl_get_erase_same (t : Tbl α) (k : Nat) : Tbl.get (Tbl.erase t k) k = none := by
  induction t with
  | nil => rfl
  | cons p r ih =>
    unfold Tbl.erase at ih ⊢
    by_cases e : p.1 = k
    · rw [List.filter_cons_of_neg (by simp [e]), ih]
    · rw [List.filter_cons_of_pos (by simp [e]), Tbl_get_cons, if_neg e, ih]

/-! ### Bytes -/

/-- A byte reads as it was written. -/
@[simp] theorem Mem_read_write_same (m : Mem) (a : Nat) (b : Byte) : Mem.read (Mem.write m a b) a = b := by
  unfold Mem.read Mem.write
  split <;> simp_all

/-- A write leaves every other byte alone. -/
theorem Mem_read_write_ne (m : Mem) {a x : Nat} (b : Byte) (h : x ≠ a) : Mem.read (Mem.write m a b) x = Mem.read m x := by
  unfold Mem.read Mem.write
  split
  · rw [Tbl_get_erase_ne m h]
  · rw [Tbl_get_set_ne m b h]

/-- A byte outside the bytes written reads as before. -/
theorem Mem_read_writeBytes_out (l : List Byte) (m : Mem) (a x : Nat) (h : x < a ∨ a + l.length ≤ x) :
    Mem.read (Mem.writeBytes m a l) x = Mem.read m x := by
  induction l generalizing m a with
  | nil => rfl
  | cons b r ih =>
    simp only [List.length_cons] at h
    rw [Mem.writeBytes, ih _ _ (by omega), Mem_read_write_ne m b (by omega)]

/-- The bytes written read as they were written. -/
theorem Mem_read_writeBytes_in (l : List Byte) (m : Mem) (a i : Nat) (h : i < l.length) :
    Mem.read (Mem.writeBytes m a l) (a + i) = l[i] := by
  induction l generalizing m a i with
  | nil => simp at h
  | cons b r ih =>
    rw [Mem.writeBytes]
    cases i with
    | zero => exact (Mem_read_writeBytes_out r _ _ _ (by omega)).trans (Mem_read_write_same m a b)
    | succ i =>
      have := ih (Mem.write m a b) (a + 1) i (by simpa using h)
      rw [show a + (i + 1) = a + 1 + i by omega, this]
      rfl

/-! ### The canonical form -/

/-- Rising keys, each below every later one. -/
theorem Tbl_sorted_iff (t : Tbl α) : Tbl.sorted t = true ↔ t.Pairwise (fun p q => p.1 < q.1) := by
  induction t with
  | nil => simp [Tbl.sorted]
  | cons p r ih =>
    cases r with
    | nil => simp [Tbl.sorted]
    | cons q r =>
      simp only [Tbl.sorted, Bool.and_eq_true, decide_eq_true_eq, ih, List.pairwise_cons, List.mem_cons, forall_eq_or_imp]
      constructor
      · rintro ⟨h, h1, h2⟩
        exact ⟨⟨h, fun x hx => Nat.lt_trans h (h1 x hx)⟩, h1, h2⟩
      · rintro ⟨⟨h, _⟩, h1, h2⟩
        exact ⟨h, h1, h2⟩

theorem Tbl_sorted_filter (t : Tbl α) (p : Nat × α → Bool) (h : Tbl.sorted t = true) : Tbl.sorted (t.filter p) = true := by
  rw [Tbl_sorted_iff] at h ⊢
  exact h.filter p

theorem Tbl_sorted_erase (t : Tbl α) (k : Nat) (h : Tbl.sorted t = true) : Tbl.sorted (Tbl.erase t k) = true :=
  Tbl_sorted_filter t _ h

/-- The keys of a table with `k` listed. -/
theorem Tbl_mem_set (t : Tbl α) (k : Nat) (v : α) (x : Nat × α) (h : x ∈ Tbl.set t k v) : x = (k, v) ∨ x ∈ t := by
  induction t with
  | nil => simpa [Tbl.set] using h
  | cons p r ih =>
    unfold Tbl.set at h
    split at h
    · simpa using h
    · split at h
      · rcases List.mem_cons.1 h with h | h
        · exact .inl h
        · exact .inr (List.mem_cons_of_mem _ h)
      · rcases List.mem_cons.1 h with h | h
        · exact .inr (h ▸ List.mem_cons_self)
        · exact (ih h).imp_right (List.mem_cons_of_mem _)

theorem Tbl_sorted_set (t : Tbl α) (k : Nat) (v : α) (h : Tbl.sorted t = true) : Tbl.sorted (Tbl.set t k v) = true := by
  rw [Tbl_sorted_iff] at h ⊢
  induction t with
  | nil => simp [Tbl.set]
  | cons p r ih =>
    have hp := List.pairwise_cons.1 h
    unfold Tbl.set
    split
    · rename_i hk
      refine List.pairwise_cons.2 ⟨fun x hx => ?_, h⟩
      rcases List.mem_cons.1 hx with hx | hx
      · exact hx ▸ hk
      · exact Nat.lt_trans hk (hp.1 x hx)
    · split
      · rename_i _ hk
        exact List.pairwise_cons.2 ⟨fun x hx => hk ▸ hp.1 x hx, hp.2⟩
      · refine List.pairwise_cons.2 ⟨fun x hx => ?_, ih hp.2⟩
        rcases Tbl_mem_set r k v x hx with hx | hx
        · subst hx
          show p.1 < k
          omega
        · exact hp.1 x hx

theorem Mem_wf_iff (m : Mem) : Mem.wf m = true ↔ Tbl.sorted m = true ∧ ∀ c ∈ m, c.2 ≠ 0 := by
  simp [Mem.wf]

@[simp] theorem Mem_wf_nil : Mem.wf [] = true := rfl

/-- A write keeps the canonical form. -/
theorem Mem_wf_write (m : Mem) (a : Nat) (b : Byte) (h : Mem.wf m = true) : Mem.wf (Mem.write m a b) = true := by
  rw [Mem_wf_iff] at h ⊢
  unfold Mem.write
  split
  · exact ⟨Tbl_sorted_erase m a h.1, fun c hc => h.2 c (List.mem_filter.1 hc).1⟩
  · refine ⟨Tbl_sorted_set m a b h.1, fun c hc => ?_⟩
    rcases Tbl_mem_set m a b c hc with hc | hc
    · subst hc; assumption
    · exact h.2 c hc

theorem Mem_wf_writeBytes (l : List Byte) (m : Mem) (a : Nat) (h : Mem.wf m = true) :
    Mem.wf (Mem.writeBytes m a l) = true := by
  induction l generalizing m a with
  | nil => exact h
  | cons b r ih => exact ih _ _ (Mem_wf_write m a b h)

theorem Mem_wf_filter (m : Mem) (p : Host.Cell → Bool) (h : Mem.wf m = true) : Mem.wf (m.filter p) = true := by
  rw [Mem_wf_iff] at h ⊢
  exact ⟨Tbl_sorted_filter m p h.1, fun c hc => h.2 c (List.mem_filter.1 hc).1⟩

theorem Mem_wf_clear (m : Mem) (a n : Nat) (h : Mem.wf m = true) : Mem.wf (Mem.clear m a n) = true := Mem_wf_filter m _ h

/-- Two memories in canonical form that read alike are equal data. -/
theorem Mem_ext (m n : Mem) (hm : Mem.wf m = true) (hn : Mem.wf n = true) (h : ∀ a, Mem.read m a = Mem.read n a) :
    m = n := by
  rw [Mem_wf_iff, Tbl_sorted_iff] at hm hn
  induction m generalizing n with
  | nil =>
    cases n with
    | nil => rfl
    | cons q s =>
      have := h q.1
      simp only [Mem.read, Tbl_get_nil, Tbl_get_cons] at this
      exact absurd this.symm (hn.2 q (by simp))
  | cons p r ih =>
    have hp := List.pairwise_cons.1 hm.1
    have gone (t : Mem) (a : Nat) (ha : ∀ x ∈ t, a < x.1) : Mem.read t a = 0 := by
      induction t with
      | nil => rfl
      | cons y z ihz =>
        have := ha y (by simp)
        rw [Mem.read, Tbl_get_cons, if_neg (by omega)]
        exact ihz (fun x hx => ha x (List.mem_cons_of_mem _ hx))
    have here (y : Host.Cell) (z : Mem) : Mem.read (y :: z) y.1 = y.2 := by simp [Mem.read, Tbl_get_cons]
    have there (y : Host.Cell) (z : Mem) (a : Nat) (ha : y.1 ≠ a) : Mem.read (y :: z) a = Mem.read z a := by
      simp [Mem.read, Tbl_get_cons, ha]
    cases n with
    | nil =>
      have := h p.1
      rw [here] at this
      exact absurd this (hm.2 p (by simp))
    | cons q s =>
      have hq := List.pairwise_cons.1 hn.1
      have e : p.1 = q.1 := by
        rcases Nat.lt_trichotomy p.1 q.1 with c | c | c
        · have := h p.1
          rw [here, there q s p.1 (by omega), gone s p.1 (fun x hx => Nat.lt_trans c (hq.1 x hx))] at this
          exact absurd this (hm.2 p (by simp))
        · exact c
        · have := h q.1
          rw [here, there p r q.1 (by omega), gone r q.1 (fun x hx => Nat.lt_trans c (hp.1 x hx))] at this
          exact absurd this.symm (hn.2 q (by simp))
      have v : p.2 = q.2 := by
        have := h p.1
        rw [here, e, here] at this
        exact this
      have pq : p = q := Prod.ext e v
      subst pq
      refine congrArg (p :: ·) (ih s ⟨hp.2, fun c hc => hm.2 c (List.mem_cons_of_mem _ hc)⟩
        ⟨hq.2, fun c hc => hn.2 c (List.mem_cons_of_mem _ hc)⟩ (fun a => ?_))
      by_cases c : p.1 = a
      · subst c
        rw [gone r p.1 hp.1, gone s p.1 hq.1]
      · rw [← there p r a c, ← there p s a c]
        exact h a

end Sys2Proof.Machine
end

