-- ==== Sys2Proof/Laws/Memory.lean ====
section
/-! SUPPORT. The byte memories of a core keep their canonical form under the operations that write them. -/
namespace Sys2Proof.Machine
open Sys2Proof

/-- Reset: the memories of every core have the canonical form. -/
theorem State_reset_mem_wf (k : Nat) :
    Mem.wf (State.reset.core k).mem.spad = true ∧ Mem.wf (State.reset.core k).mem.treg = true := ⟨rfl, rfl⟩

theorem Mem_wf_setElem (m : Mem) (a w i v : Nat) (h : Mem.wf m = true) : Mem.wf (Mem.setElem m a w i v) = true := by
  unfold Mem.setElem
  split
  · exact Mem_wf_write _ _ _ h
  · exact Mem_wf_writeBytes _ _ _ h

theorem Mem_wf_setElems (l : List (Nat × Nat)) (a w : Nat) (m : Mem) (h : Mem.wf m = true) :
    Mem.wf (l.foldl (fun m x => Mem.setElem m a w x.1 x.2) m) = true := by
  induction l generalizing m with
  | nil => exact h
  | cons x r ih => exact ih _ (Mem_wf_setElem _ _ _ _ _ h)

theorem Mem_wf_putCodes (l : List Nat) (m : Mem) (a w c0 : Nat) (h : Mem.wf m = true) :
    Mem.wf (putCodes m a w c0 l) = true := by
  induction l generalizing m c0 with
  | nil => exact h
  | cons x r ih => exact ih _ _ (Mem_wf_setElem _ _ _ _ _ h)

theorem Mem_wf_clears (l : List Nat) (n : Nat) (m : Mem) (h : Mem.wf m = true) :
    Mem.wf (l.foldl (fun m x => Mem.clear m (x * n) n) m) = true := by
  induction l generalizing m with
  | nil => exact h
  | cons x r ih => exact ih _ (Mem_wf_clear m _ _ h)

theorem Core_spStore_wf (c : Core) (a : Nat) (b : List Byte) (t : Option Nat) (h : Mem.wf c.mem.spad = true) :
    Mem.wf (c.spStore a b t).mem.spad = true := Mem_wf_writeBytes b _ a h

@[simp] theorem Core_spStore_treg (c : Core) (a : Nat) (b : List Byte) (t : Option Nat) :
    (c.spStore a b t).mem.treg = c.mem.treg := rfl

theorem Core_trStore_wf (c : Core) (a : Nat) (b : List Byte) (t : Nat) (h : Mem.wf c.mem.treg = true) :
    Mem.wf (c.trStore a b t).mem.treg = true := Mem_wf_writeBytes b _ a h

@[simp] theorem Core_trStore_spad (c : Core) (a : Nat) (b : List Byte) (t : Nat) :
    (c.trStore a b t).mem.spad = c.mem.spad := rfl

theorem Core_writeLanes_wf (c : Core) (v : View) (i n : Nat) (l : List (Nat × Nat)) (t : Nat)
    (h : Mem.wf c.mem.treg = true) : Mem.wf (c.writeLanes v i n l t).mem.treg = true := Mem_wf_setElems l _ _ _ h

@[simp] theorem Core_writeLanes_spad (c : Core) (v : View) (i n : Nat) (l : List (Nat × Nat)) (t : Nat) :
    (c.writeLanes v i n l t).mem.spad = c.mem.spad := rfl

end Sys2Proof.Machine
end

