-- ==== Sys2Proof/Laws/State.lean ====
section
/-! SUPPORT. One lemma per field for each named update of the state and of a core, true by rfl; and what a core reads as
after an update. -/
namespace Sys2Proof.Machine
open Sys2Proof

variable (s : State) (c : Core)


/-! ### State.setCore -/

@[simp] theorem State_setCore_pkg (k : Nat) (d : Core) : (s.setCore k d).pkg = s.pkg := rfl
@[simp] theorem State_setCore_fuses (k : Nat) (d : Core) : (s.setCore k d).fuses = s.fuses := rfl
@[simp] theorem State_setCore_secure (k : Nat) (d : Core) : (s.setCore k d).secure = s.secure := rfl
@[simp] theorem State_setCore_profile (k : Nat) (d : Core) : (s.setCore k d).profile = s.profile := rfl
@[simp] theorem State_setCore_nvm (k : Nat) (d : Core) : (s.setCore k d).nvm = s.nvm := rfl
@[simp] theorem State_setCore_hubs (k : Nat) (d : Core) : (s.setCore k d).hubs = s.hubs := rfl
@[simp] theorem State_setCore_ports (k : Nat) (d : Core) : (s.setCore k d).ports = s.ports := rfl
@[simp] theorem State_setCore_deposits (k : Nat) (d : Core) : (s.setCore k d).deposits = s.deposits := rfl
@[simp] theorem State_setCore_nextDep (k : Nat) (d : Core) : (s.setCore k d).nextDep = s.nextDep := rfl
@[simp] theorem State_setCore_streams (k : Nat) (d : Core) : (s.setCore k d).streams = s.streams := rfl
@[simp] theorem State_setCore_entries (k : Nat) (d : Core) : (s.setCore k d).entries = s.entries := rfl
@[simp] theorem State_setCore_commits (k : Nat) (d : Core) : (s.setCore k d).commits = s.commits := rfl
@[simp] theorem State_setCore_pages (k : Nat) (d : Core) : (s.setCore k d).pages = s.pages := rfl
@[simp] theorem State_setCore_used (k : Nat) (d : Core) : (s.setCore k d).used = s.used := rfl
@[simp] theorem State_setCore_ledgerLost (k : Nat) (d : Core) : (s.setCore k d).ledgerLost = s.ledgerLost := rfl
@[simp] theorem State_setCore_placements (k : Nat) (d : Core) : (s.setCore k d).placements = s.placements := rfl
@[simp] theorem State_setCore_objects (k : Nat) (d : Core) : (s.setCore k d).objects = s.objects := rfl
@[simp] theorem State_setCore_bulk (k : Nat) (d : Core) : (s.setCore k d).bulk = s.bulk := rfl
@[simp] theorem State_setCore_installs (k : Nat) (d : Core) : (s.setCore k d).installs = s.installs := rfl
@[simp] theorem State_setCore_routines (k : Nat) (d : Core) : (s.setCore k d).routines = s.routines := rfl
@[simp] theorem State_setCore_dies (k : Nat) (d : Core) : (s.setCore k d).dies = s.dies := rfl
@[simp] theorem State_setCore_clusters (k : Nat) (d : Core) : (s.setCore k d).clusters = s.clusters := rfl
@[simp] theorem State_setCore_maps (k : Nat) (d : Core) : (s.setCore k d).maps = s.maps := rfl
@[simp] theorem State_setCore_dsm (k : Nat) (d : Core) : (s.setCore k d).dsm = s.dsm := rfl
@[simp] theorem State_setCore_repair (k : Nat) (d : Core) : (s.setCore k d).repair = s.repair := rfl
@[simp] theorem State_setCore_hbmStacks (k : Nat) (d : Core) : (s.setCore k d).hbmStacks = s.hbmStacks := rfl
@[simp] theorem State_setCore_yoke (k : Nat) (d : Core) : (s.setCore k d).yoke = s.yoke := rfl
@[simp] theorem State_setCore_standby (k : Nat) (d : Core) : (s.setCore k d).standby = s.standby := rfl
@[simp] theorem State_setCore_maint (k : Nat) (d : Core) : (s.setCore k d).maint = s.maint := rfl
@[simp] theorem State_setCore_nextAct (k : Nat) (d : Core) : (s.setCore k d).nextAct = s.nextAct := rfl
@[simp] theorem State_setCore_pair (k : Nat) (d : Core) : (s.setCore k d).pair = s.pair := rfl
@[simp] theorem State_setCore_grazer (k : Nat) (d : Core) : (s.setCore k d).grazer = s.grazer := rfl
@[simp] theorem State_setCore_tap (k : Nat) (d : Core) : (s.setCore k d).tap = s.tap := rfl
@[simp] theorem State_setCore_idr (k : Nat) (d : Core) : (s.setCore k d).idr = s.idr := rfl
@[simp] theorem State_setCore_trust (k : Nat) (d : Core) : (s.setCore k d).trust = s.trust := rfl
@[simp] theorem State_setCore_flt (k : Nat) (d : Core) : (s.setCore k d).flt = s.flt := rfl
@[simp] theorem State_setCore_inst (k : Nat) (d : Core) : (s.setCore k d).inst = s.inst := rfl
@[simp] theorem State_setCore_mgmt (k : Nat) (d : Core) : (s.setCore k d).mgmt = s.mgmt := rfl
@[simp] theorem State_setCore_out (k : Nat) (d : Core) : (s.setCore k d).out = s.out := rfl
@[simp] theorem State_setCore_pending (k : Nat) (d : Core) : (s.setCore k d).pending = s.pending := rfl

/-! ### State.modCore -/

@[simp] theorem State_modCore_pkg (k : Nat) (f : Core → Core) : (s.modCore k f).pkg = s.pkg := rfl
@[simp] theorem State_modCore_fuses (k : Nat) (f : Core → Core) : (s.modCore k f).fuses = s.fuses := rfl
@[simp] theorem State_modCore_secure (k : Nat) (f : Core → Core) : (s.modCore k f).secure = s.secure := rfl
@[simp] theorem State_modCore_profile (k : Nat) (f : Core → Core) : (s.modCore k f).profile = s.profile := rfl
@[simp] theorem State_modCore_nvm (k : Nat) (f : Core → Core) : (s.modCore k f).nvm = s.nvm := rfl
@[simp] theorem State_modCore_hubs (k : Nat) (f : Core → Core) : (s.modCore k f).hubs = s.hubs := rfl
@[simp] theorem State_modCore_ports (k : Nat) (f : Core → Core) : (s.modCore k f).ports = s.ports := rfl
@[simp] theorem State_modCore_deposits (k : Nat) (f : Core → Core) : (s.modCore k f).deposits = s.deposits := rfl
@[simp] theorem State_modCore_nextDep (k : Nat) (f : Core → Core) : (s.modCore k f).nextDep = s.nextDep := rfl
@[simp] theorem State_modCore_streams (k : Nat) (f : Core → Core) : (s.modCore k f).streams = s.streams := rfl
@[simp] theorem State_modCore_entries (k : Nat) (f : Core → Core) : (s.modCore k f).entries = s.entries := rfl
@[simp] theorem State_modCore_commits (k : Nat) (f : Core → Core) : (s.modCore k f).commits = s.commits := rfl
@[simp] theorem State_modCore_pages (k : Nat) (f : Core → Core) : (s.modCore k f).pages = s.pages := rfl
@[simp] theorem State_modCore_used (k : Nat) (f : Core → Core) : (s.modCore k f).used = s.used := rfl
@[simp] theorem State_modCore_ledgerLost (k : Nat) (f : Core → Core) : (s.modCore k f).ledgerLost = s.ledgerLost := rfl
@[simp] theorem State_modCore_placements (k : Nat) (f : Core → Core) : (s.modCore k f).placements = s.placements := rfl
@[simp] theorem State_modCore_objects (k : Nat) (f : Core → Core) : (s.modCore k f).objects = s.objects := rfl
@[simp] theorem State_modCore_bulk (k : Nat) (f : Core → Core) : (s.modCore k f).bulk = s.bulk := rfl
@[simp] theorem State_modCore_installs (k : Nat) (f : Core → Core) : (s.modCore k f).installs = s.installs := rfl
@[simp] theorem State_modCore_routines (k : Nat) (f : Core → Core) : (s.modCore k f).routines = s.routines := rfl
@[simp] theorem State_modCore_dies (k : Nat) (f : Core → Core) : (s.modCore k f).dies = s.dies := rfl
@[simp] theorem State_modCore_clusters (k : Nat) (f : Core → Core) : (s.modCore k f).clusters = s.clusters := rfl
@[simp] theorem State_modCore_maps (k : Nat) (f : Core → Core) : (s.modCore k f).maps = s.maps := rfl
@[simp] theorem State_modCore_dsm (k : Nat) (f : Core → Core) : (s.modCore k f).dsm = s.dsm := rfl
@[simp] theorem State_modCore_repair (k : Nat) (f : Core → Core) : (s.modCore k f).repair = s.repair := rfl
@[simp] theorem State_modCore_hbmStacks (k : Nat) (f : Core → Core) : (s.modCore k f).hbmStacks = s.hbmStacks := rfl
@[simp] theorem State_modCore_yoke (k : Nat) (f : Core → Core) : (s.modCore k f).yoke = s.yoke := rfl
@[simp] theorem State_modCore_standby (k : Nat) (f : Core → Core) : (s.modCore k f).standby = s.standby := rfl
@[simp] theorem State_modCore_maint (k : Nat) (f : Core → Core) : (s.modCore k f).maint = s.maint := rfl
@[simp] theorem State_modCore_nextAct (k : Nat) (f : Core → Core) : (s.modCore k f).nextAct = s.nextAct := rfl
@[simp] theorem State_modCore_pair (k : Nat) (f : Core → Core) : (s.modCore k f).pair = s.pair := rfl
@[simp] theorem State_modCore_grazer (k : Nat) (f : Core → Core) : (s.modCore k f).grazer = s.grazer := rfl
@[simp] theorem State_modCore_tap (k : Nat) (f : Core → Core) : (s.modCore k f).tap = s.tap := rfl
@[simp] theorem State_modCore_idr (k : Nat) (f : Core → Core) : (s.modCore k f).idr = s.idr := rfl
@[simp] theorem State_modCore_trust (k : Nat) (f : Core → Core) : (s.modCore k f).trust = s.trust := rfl
@[simp] theorem State_modCore_flt (k : Nat) (f : Core → Core) : (s.modCore k f).flt = s.flt := rfl
@[simp] theorem State_modCore_inst (k : Nat) (f : Core → Core) : (s.modCore k f).inst = s.inst := rfl
@[simp] theorem State_modCore_mgmt (k : Nat) (f : Core → Core) : (s.modCore k f).mgmt = s.mgmt := rfl
@[simp] theorem State_modCore_out (k : Nat) (f : Core → Core) : (s.modCore k f).out = s.out := rfl
@[simp] theorem State_modCore_pending (k : Nat) (f : Core → Core) : (s.modCore k f).pending = s.pending := rfl

/-! ### State.modEntry -/

@[simp] theorem State_modEntry_pkg (n : Nat) (f : Entry → Entry) : (s.modEntry n f).pkg = s.pkg := rfl
@[simp] theorem State_modEntry_fuses (n : Nat) (f : Entry → Entry) : (s.modEntry n f).fuses = s.fuses := rfl
@[simp] theorem State_modEntry_secure (n : Nat) (f : Entry → Entry) : (s.modEntry n f).secure = s.secure := rfl
@[simp] theorem State_modEntry_profile (n : Nat) (f : Entry → Entry) : (s.modEntry n f).profile = s.profile := rfl
@[simp] theorem State_modEntry_nvm (n : Nat) (f : Entry → Entry) : (s.modEntry n f).nvm = s.nvm := rfl
@[simp] theorem State_modEntry_hubs (n : Nat) (f : Entry → Entry) : (s.modEntry n f).hubs = s.hubs := rfl
@[simp] theorem State_modEntry_ports (n : Nat) (f : Entry → Entry) : (s.modEntry n f).ports = s.ports := rfl
@[simp] theorem State_modEntry_cores (n : Nat) (f : Entry → Entry) : (s.modEntry n f).cores = s.cores := rfl
@[simp] theorem State_modEntry_deposits (n : Nat) (f : Entry → Entry) : (s.modEntry n f).deposits = s.deposits := rfl
@[simp] theorem State_modEntry_nextDep (n : Nat) (f : Entry → Entry) : (s.modEntry n f).nextDep = s.nextDep := rfl
@[simp] theorem State_modEntry_streams (n : Nat) (f : Entry → Entry) : (s.modEntry n f).streams = s.streams := rfl
@[simp] theorem State_modEntry_commits (n : Nat) (f : Entry → Entry) : (s.modEntry n f).commits = s.commits := rfl
@[simp] theorem State_modEntry_pages (n : Nat) (f : Entry → Entry) : (s.modEntry n f).pages = s.pages := rfl
@[simp] theorem State_modEntry_used (n : Nat) (f : Entry → Entry) : (s.modEntry n f).used = s.used := rfl
@[simp] theorem State_modEntry_ledgerLost (n : Nat) (f : Entry → Entry) : (s.modEntry n f).ledgerLost = s.ledgerLost := rfl
@[simp] theorem State_modEntry_placements (n : Nat) (f : Entry → Entry) : (s.modEntry n f).placements = s.placements := rfl
@[simp] theorem State_modEntry_objects (n : Nat) (f : Entry → Entry) : (s.modEntry n f).objects = s.objects := rfl
@[simp] theorem State_modEntry_bulk (n : Nat) (f : Entry → Entry) : (s.modEntry n f).bulk = s.bulk := rfl
@[simp] theorem State_modEntry_installs (n : Nat) (f : Entry → Entry) : (s.modEntry n f).installs = s.installs := rfl
@[simp] theorem State_modEntry_routines (n : Nat) (f : Entry → Entry) : (s.modEntry n f).routines = s.routines := rfl
@[simp] theorem State_modEntry_dies (n : Nat) (f : Entry → Entry) : (s.modEntry n f).dies = s.dies := rfl
@[simp] theorem State_modEntry_clusters (n : Nat) (f : Entry → Entry) : (s.modEntry n f).clusters = s.clusters := rfl
@[simp] theorem State_modEntry_maps (n : Nat) (f : Entry → Entry) : (s.modEntry n f).maps = s.maps := rfl
@[simp] theorem State_modEntry_dsm (n : Nat) (f : Entry → Entry) : (s.modEntry n f).dsm = s.dsm := rfl
@[simp] theorem State_modEntry_repair (n : Nat) (f : Entry → Entry) : (s.modEntry n f).repair = s.repair := rfl
@[simp] theorem State_modEntry_hbmStacks (n : Nat) (f : Entry → Entry) : (s.modEntry n f).hbmStacks = s.hbmStacks := rfl
@[simp] theorem State_modEntry_yoke (n : Nat) (f : Entry → Entry) : (s.modEntry n f).yoke = s.yoke := rfl
@[simp] theorem State_modEntry_standby (n : Nat) (f : Entry → Entry) : (s.modEntry n f).standby = s.standby := rfl
@[simp] theorem State_modEntry_maint (n : Nat) (f : Entry → Entry) : (s.modEntry n f).maint = s.maint := rfl
@[simp] theorem State_modEntry_nextAct (n : Nat) (f : Entry → Entry) : (s.modEntry n f).nextAct = s.nextAct := rfl
@[simp] theorem State_modEntry_pair (n : Nat) (f : Entry → Entry) : (s.modEntry n f).pair = s.pair := rfl
@[simp] theorem State_modEntry_grazer (n : Nat) (f : Entry → Entry) : (s.modEntry n f).grazer = s.grazer := rfl
@[simp] theorem State_modEntry_tap (n : Nat) (f : Entry → Entry) : (s.modEntry n f).tap = s.tap := rfl
@[simp] theorem State_modEntry_idr (n : Nat) (f : Entry → Entry) : (s.modEntry n f).idr = s.idr := rfl
@[simp] theorem State_modEntry_trust (n : Nat) (f : Entry → Entry) : (s.modEntry n f).trust = s.trust := rfl
@[simp] theorem State_modEntry_flt (n : Nat) (f : Entry → Entry) : (s.modEntry n f).flt = s.flt := rfl
@[simp] theorem State_modEntry_inst (n : Nat) (f : Entry → Entry) : (s.modEntry n f).inst = s.inst := rfl
@[simp] theorem State_modEntry_mgmt (n : Nat) (f : Entry → Entry) : (s.modEntry n f).mgmt = s.mgmt := rfl
@[simp] theorem State_modEntry_out (n : Nat) (f : Entry → Entry) : (s.modEntry n f).out = s.out := rfl
@[simp] theorem State_modEntry_pending (n : Nat) (f : Entry → Entry) : (s.modEntry n f).pending = s.pending := rfl

/-! ### State.emitOut -/

@[simp] theorem State_emitOut_pkg (o : Out) : (s.emitOut o).pkg = s.pkg := rfl
@[simp] theorem State_emitOut_fuses (o : Out) : (s.emitOut o).fuses = s.fuses := rfl
@[simp] theorem State_emitOut_secure (o : Out) : (s.emitOut o).secure = s.secure := rfl
@[simp] theorem State_emitOut_profile (o : Out) : (s.emitOut o).profile = s.profile := rfl
@[simp] theorem State_emitOut_nvm (o : Out) : (s.emitOut o).nvm = s.nvm := rfl
@[simp] theorem State_emitOut_hubs (o : Out) : (s.emitOut o).hubs = s.hubs := rfl
@[simp] theorem State_emitOut_ports (o : Out) : (s.emitOut o).ports = s.ports := rfl
@[simp] theorem State_emitOut_cores (o : Out) : (s.emitOut o).cores = s.cores := rfl
@[simp] theorem State_emitOut_deposits (o : Out) : (s.emitOut o).deposits = s.deposits := rfl
@[simp] theorem State_emitOut_nextDep (o : Out) : (s.emitOut o).nextDep = s.nextDep := rfl
@[simp] theorem State_emitOut_streams (o : Out) : (s.emitOut o).streams = s.streams := rfl
@[simp] theorem State_emitOut_entries (o : Out) : (s.emitOut o).entries = s.entries := rfl
@[simp] theorem State_emitOut_commits (o : Out) : (s.emitOut o).commits = s.commits := rfl
@[simp] theorem State_emitOut_pages (o : Out) : (s.emitOut o).pages = s.pages := rfl
@[simp] theorem State_emitOut_used (o : Out) : (s.emitOut o).used = s.used := rfl
@[simp] theorem State_emitOut_ledgerLost (o : Out) : (s.emitOut o).ledgerLost = s.ledgerLost := rfl
@[simp] theorem State_emitOut_placements (o : Out) : (s.emitOut o).placements = s.placements := rfl
@[simp] theorem State_emitOut_objects (o : Out) : (s.emitOut o).objects = s.objects := rfl
@[simp] theorem State_emitOut_bulk (o : Out) : (s.emitOut o).bulk = s.bulk := rfl
@[simp] theorem State_emitOut_installs (o : Out) : (s.emitOut o).installs = s.installs := rfl
@[simp] theorem State_emitOut_routines (o : Out) : (s.emitOut o).routines = s.routines := rfl
@[simp] theorem State_emitOut_dies (o : Out) : (s.emitOut o).dies = s.dies := rfl
@[simp] theorem State_emitOut_clusters (o : Out) : (s.emitOut o).clusters = s.clusters := rfl
@[simp] theorem State_emitOut_maps (o : Out) : (s.emitOut o).maps = s.maps := rfl
@[simp] theorem State_emitOut_dsm (o : Out) : (s.emitOut o).dsm = s.dsm := rfl
@[simp] theorem State_emitOut_repair (o : Out) : (s.emitOut o).repair = s.repair := rfl
@[simp] theorem State_emitOut_hbmStacks (o : Out) : (s.emitOut o).hbmStacks = s.hbmStacks := rfl
@[simp] theorem State_emitOut_yoke (o : Out) : (s.emitOut o).yoke = s.yoke := rfl
@[simp] theorem State_emitOut_standby (o : Out) : (s.emitOut o).standby = s.standby := rfl
@[simp] theorem State_emitOut_maint (o : Out) : (s.emitOut o).maint = s.maint := rfl
@[simp] theorem State_emitOut_nextAct (o : Out) : (s.emitOut o).nextAct = s.nextAct := rfl
@[simp] theorem State_emitOut_pair (o : Out) : (s.emitOut o).pair = s.pair := rfl
@[simp] theorem State_emitOut_grazer (o : Out) : (s.emitOut o).grazer = s.grazer := rfl
@[simp] theorem State_emitOut_tap (o : Out) : (s.emitOut o).tap = s.tap := rfl
@[simp] theorem State_emitOut_idr (o : Out) : (s.emitOut o).idr = s.idr := rfl
@[simp] theorem State_emitOut_trust (o : Out) : (s.emitOut o).trust = s.trust := rfl
@[simp] theorem State_emitOut_flt (o : Out) : (s.emitOut o).flt = s.flt := rfl
@[simp] theorem State_emitOut_inst (o : Out) : (s.emitOut o).inst = s.inst := rfl
@[simp] theorem State_emitOut_mgmt (o : Out) : (s.emitOut o).mgmt = s.mgmt := rfl
@[simp] theorem State_emitOut_pending (o : Out) : (s.emitOut o).pending = s.pending := rfl

/-! ### State.modDie -/

@[simp] theorem State_modDie_pkg (d : Nat) (f : Die → Die) : (s.modDie d f).pkg = s.pkg := rfl
@[simp] theorem State_modDie_fuses (d : Nat) (f : Die → Die) : (s.modDie d f).fuses = s.fuses := rfl
@[simp] theorem State_modDie_secure (d : Nat) (f : Die → Die) : (s.modDie d f).secure = s.secure := rfl
@[simp] theorem State_modDie_profile (d : Nat) (f : Die → Die) : (s.modDie d f).profile = s.profile := rfl
@[simp] theorem State_modDie_nvm (d : Nat) (f : Die → Die) : (s.modDie d f).nvm = s.nvm := rfl
@[simp] theorem State_modDie_hubs (d : Nat) (f : Die → Die) : (s.modDie d f).hubs = s.hubs := rfl
@[simp] theorem State_modDie_ports (d : Nat) (f : Die → Die) : (s.modDie d f).ports = s.ports := rfl
@[simp] theorem State_modDie_cores (d : Nat) (f : Die → Die) : (s.modDie d f).cores = s.cores := rfl
@[simp] theorem State_modDie_deposits (d : Nat) (f : Die → Die) : (s.modDie d f).deposits = s.deposits := rfl
@[simp] theorem State_modDie_nextDep (d : Nat) (f : Die → Die) : (s.modDie d f).nextDep = s.nextDep := rfl
@[simp] theorem State_modDie_streams (d : Nat) (f : Die → Die) : (s.modDie d f).streams = s.streams := rfl
@[simp] theorem State_modDie_entries (d : Nat) (f : Die → Die) : (s.modDie d f).entries = s.entries := rfl
@[simp] theorem State_modDie_commits (d : Nat) (f : Die → Die) : (s.modDie d f).commits = s.commits := rfl
@[simp] theorem State_modDie_pages (d : Nat) (f : Die → Die) : (s.modDie d f).pages = s.pages := rfl
@[simp] theorem State_modDie_used (d : Nat) (f : Die → Die) : (s.modDie d f).used = s.used := rfl
@[simp] theorem State_modDie_ledgerLost (d : Nat) (f : Die → Die) : (s.modDie d f).ledgerLost = s.ledgerLost := rfl
@[simp] theorem State_modDie_placements (d : Nat) (f : Die → Die) : (s.modDie d f).placements = s.placements := rfl
@[simp] theorem State_modDie_objects (d : Nat) (f : Die → Die) : (s.modDie d f).objects = s.objects := rfl
@[simp] theorem State_modDie_bulk (d : Nat) (f : Die → Die) : (s.modDie d f).bulk = s.bulk := rfl
@[simp] theorem State_modDie_installs (d : Nat) (f : Die → Die) : (s.modDie d f).installs = s.installs := rfl
@[simp] theorem State_modDie_routines (d : Nat) (f : Die → Die) : (s.modDie d f).routines = s.routines := rfl
@[simp] theorem State_modDie_clusters (d : Nat) (f : Die → Die) : (s.modDie d f).clusters = s.clusters := rfl
@[simp] theorem State_modDie_maps (d : Nat) (f : Die → Die) : (s.modDie d f).maps = s.maps := rfl
@[simp] theorem State_modDie_dsm (d : Nat) (f : Die → Die) : (s.modDie d f).dsm = s.dsm := rfl
@[simp] theorem State_modDie_repair (d : Nat) (f : Die → Die) : (s.modDie d f).repair = s.repair := rfl
@[simp] theorem State_modDie_hbmStacks (d : Nat) (f : Die → Die) : (s.modDie d f).hbmStacks = s.hbmStacks := rfl
@[simp] theorem State_modDie_yoke (d : Nat) (f : Die → Die) : (s.modDie d f).yoke = s.yoke := rfl
@[simp] theorem State_modDie_standby (d : Nat) (f : Die → Die) : (s.modDie d f).standby = s.standby := rfl
@[simp] theorem State_modDie_maint (d : Nat) (f : Die → Die) : (s.modDie d f).maint = s.maint := rfl
@[simp] theorem State_modDie_nextAct (d : Nat) (f : Die → Die) : (s.modDie d f).nextAct = s.nextAct := rfl
@[simp] theorem State_modDie_pair (d : Nat) (f : Die → Die) : (s.modDie d f).pair = s.pair := rfl
@[simp] theorem State_modDie_grazer (d : Nat) (f : Die → Die) : (s.modDie d f).grazer = s.grazer := rfl
@[simp] theorem State_modDie_tap (d : Nat) (f : Die → Die) : (s.modDie d f).tap = s.tap := rfl
@[simp] theorem State_modDie_idr (d : Nat) (f : Die → Die) : (s.modDie d f).idr = s.idr := rfl
@[simp] theorem State_modDie_trust (d : Nat) (f : Die → Die) : (s.modDie d f).trust = s.trust := rfl
@[simp] theorem State_modDie_flt (d : Nat) (f : Die → Die) : (s.modDie d f).flt = s.flt := rfl
@[simp] theorem State_modDie_inst (d : Nat) (f : Die → Die) : (s.modDie d f).inst = s.inst := rfl
@[simp] theorem State_modDie_mgmt (d : Nat) (f : Die → Die) : (s.modDie d f).mgmt = s.mgmt := rfl
@[simp] theorem State_modDie_out (d : Nat) (f : Die → Die) : (s.modDie d f).out = s.out := rfl
@[simp] theorem State_modDie_pending (d : Nat) (f : Die → Die) : (s.modDie d f).pending = s.pending := rfl

/-! ### State.modCl -/

@[simp] theorem State_modCl_pkg (d c : Nat) (f : Cluster → Cluster) : (s.modCl d c f).pkg = s.pkg := rfl
@[simp] theorem State_modCl_fuses (d c : Nat) (f : Cluster → Cluster) : (s.modCl d c f).fuses = s.fuses := rfl
@[simp] theorem State_modCl_secure (d c : Nat) (f : Cluster → Cluster) : (s.modCl d c f).secure = s.secure := rfl
@[simp] theorem State_modCl_profile (d c : Nat) (f : Cluster → Cluster) : (s.modCl d c f).profile = s.profile := rfl
@[simp] theorem State_modCl_nvm (d c : Nat) (f : Cluster → Cluster) : (s.modCl d c f).nvm = s.nvm := rfl
@[simp] theorem State_modCl_hubs (d c : Nat) (f : Cluster → Cluster) : (s.modCl d c f).hubs = s.hubs := rfl
@[simp] theorem State_modCl_ports (d c : Nat) (f : Cluster → Cluster) : (s.modCl d c f).ports = s.ports := rfl
@[simp] theorem State_modCl_cores (d c : Nat) (f : Cluster → Cluster) : (s.modCl d c f).cores = s.cores := rfl
@[simp] theorem State_modCl_deposits (d c : Nat) (f : Cluster → Cluster) : (s.modCl d c f).deposits = s.deposits := rfl
@[simp] theorem State_modCl_nextDep (d c : Nat) (f : Cluster → Cluster) : (s.modCl d c f).nextDep = s.nextDep := rfl
@[simp] theorem State_modCl_streams (d c : Nat) (f : Cluster → Cluster) : (s.modCl d c f).streams = s.streams := rfl
@[simp] theorem State_modCl_entries (d c : Nat) (f : Cluster → Cluster) : (s.modCl d c f).entries = s.entries := rfl
@[simp] theorem State_modCl_commits (d c : Nat) (f : Cluster → Cluster) : (s.modCl d c f).commits = s.commits := rfl
@[simp] theorem State_modCl_pages (d c : Nat) (f : Cluster → Cluster) : (s.modCl d c f).pages = s.pages := rfl
@[simp] theorem State_modCl_used (d c : Nat) (f : Cluster → Cluster) : (s.modCl d c f).used = s.used := rfl
@[simp] theorem State_modCl_ledgerLost (d c : Nat) (f : Cluster → Cluster) : (s.modCl d c f).ledgerLost = s.ledgerLost := rfl
@[simp] theorem State_modCl_placements (d c : Nat) (f : Cluster → Cluster) : (s.modCl d c f).placements = s.placements := rfl
@[simp] theorem State_modCl_objects (d c : Nat) (f : Cluster → Cluster) : (s.modCl d c f).objects = s.objects := rfl
@[simp] theorem State_modCl_bulk (d c : Nat) (f : Cluster → Cluster) : (s.modCl d c f).bulk = s.bulk := rfl
@[simp] theorem State_modCl_installs (d c : Nat) (f : Cluster → Cluster) : (s.modCl d c f).installs = s.installs := rfl
@[simp] theorem State_modCl_routines (d c : Nat) (f : Cluster → Cluster) : (s.modCl d c f).routines = s.routines := rfl
@[simp] theorem State_modCl_dies (d c : Nat) (f : Cluster → Cluster) : (s.modCl d c f).dies = s.dies := rfl
@[simp] theorem State_modCl_maps (d c : Nat) (f : Cluster → Cluster) : (s.modCl d c f).maps = s.maps := rfl
@[simp] theorem State_modCl_dsm (d c : Nat) (f : Cluster → Cluster) : (s.modCl d c f).dsm = s.dsm := rfl
@[simp] theorem State_modCl_repair (d c : Nat) (f : Cluster → Cluster) : (s.modCl d c f).repair = s.repair := rfl
@[simp] theorem State_modCl_hbmStacks (d c : Nat) (f : Cluster → Cluster) : (s.modCl d c f).hbmStacks = s.hbmStacks := rfl
@[simp] theorem State_modCl_yoke (d c : Nat) (f : Cluster → Cluster) : (s.modCl d c f).yoke = s.yoke := rfl
@[simp] theorem State_modCl_standby (d c : Nat) (f : Cluster → Cluster) : (s.modCl d c f).standby = s.standby := rfl
@[simp] theorem State_modCl_maint (d c : Nat) (f : Cluster → Cluster) : (s.modCl d c f).maint = s.maint := rfl
@[simp] theorem State_modCl_nextAct (d c : Nat) (f : Cluster → Cluster) : (s.modCl d c f).nextAct = s.nextAct := rfl
@[simp] theorem State_modCl_pair (d c : Nat) (f : Cluster → Cluster) : (s.modCl d c f).pair = s.pair := rfl
@[simp] theorem State_modCl_grazer (d c : Nat) (f : Cluster → Cluster) : (s.modCl d c f).grazer = s.grazer := rfl
@[simp] theorem State_modCl_tap (d c : Nat) (f : Cluster → Cluster) : (s.modCl d c f).tap = s.tap := rfl
@[simp] theorem State_modCl_idr (d c : Nat) (f : Cluster → Cluster) : (s.modCl d c f).idr = s.idr := rfl
@[simp] theorem State_modCl_trust (d c : Nat) (f : Cluster → Cluster) : (s.modCl d c f).trust = s.trust := rfl
@[simp] theorem State_modCl_flt (d c : Nat) (f : Cluster → Cluster) : (s.modCl d c f).flt = s.flt := rfl
@[simp] theorem State_modCl_inst (d c : Nat) (f : Cluster → Cluster) : (s.modCl d c f).inst = s.inst := rfl
@[simp] theorem State_modCl_mgmt (d c : Nat) (f : Cluster → Cluster) : (s.modCl d c f).mgmt = s.mgmt := rfl
@[simp] theorem State_modCl_out (d c : Nat) (f : Cluster → Cluster) : (s.modCl d c f).out = s.out := rfl
@[simp] theorem State_modCl_pending (d c : Nat) (f : Cluster → Cluster) : (s.modCl d c f).pending = s.pending := rfl

/-! ### State.modHub -/

@[simp] theorem State_modHub_pkg (h : Nat) (f : Hub → Hub) : (s.modHub h f).pkg = s.pkg := rfl
@[simp] theorem State_modHub_fuses (h : Nat) (f : Hub → Hub) : (s.modHub h f).fuses = s.fuses := rfl
@[simp] theorem State_modHub_secure (h : Nat) (f : Hub → Hub) : (s.modHub h f).secure = s.secure := rfl
@[simp] theorem State_modHub_profile (h : Nat) (f : Hub → Hub) : (s.modHub h f).profile = s.profile := rfl
@[simp] theorem State_modHub_nvm (h : Nat) (f : Hub → Hub) : (s.modHub h f).nvm = s.nvm := rfl
@[simp] theorem State_modHub_ports (h : Nat) (f : Hub → Hub) : (s.modHub h f).ports = s.ports := rfl
@[simp] theorem State_modHub_cores (h : Nat) (f : Hub → Hub) : (s.modHub h f).cores = s.cores := rfl
@[simp] theorem State_modHub_deposits (h : Nat) (f : Hub → Hub) : (s.modHub h f).deposits = s.deposits := rfl
@[simp] theorem State_modHub_nextDep (h : Nat) (f : Hub → Hub) : (s.modHub h f).nextDep = s.nextDep := rfl
@[simp] theorem State_modHub_streams (h : Nat) (f : Hub → Hub) : (s.modHub h f).streams = s.streams := rfl
@[simp] theorem State_modHub_entries (h : Nat) (f : Hub → Hub) : (s.modHub h f).entries = s.entries := rfl
@[simp] theorem State_modHub_commits (h : Nat) (f : Hub → Hub) : (s.modHub h f).commits = s.commits := rfl
@[simp] theorem State_modHub_pages (h : Nat) (f : Hub → Hub) : (s.modHub h f).pages = s.pages := rfl
@[simp] theorem State_modHub_used (h : Nat) (f : Hub → Hub) : (s.modHub h f).used = s.used := rfl
@[simp] theorem State_modHub_ledgerLost (h : Nat) (f : Hub → Hub) : (s.modHub h f).ledgerLost = s.ledgerLost := rfl
@[simp] theorem State_modHub_placements (h : Nat) (f : Hub → Hub) : (s.modHub h f).placements = s.placements := rfl
@[simp] theorem State_modHub_objects (h : Nat) (f : Hub → Hub) : (s.modHub h f).objects = s.objects := rfl
@[simp] theorem State_modHub_bulk (h : Nat) (f : Hub → Hub) : (s.modHub h f).bulk = s.bulk := rfl
@[simp] theorem State_modHub_installs (h : Nat) (f : Hub → Hub) : (s.modHub h f).installs = s.installs := rfl
@[simp] theorem State_modHub_routines (h : Nat) (f : Hub → Hub) : (s.modHub h f).routines = s.routines := rfl
@[simp] theorem State_modHub_dies (h : Nat) (f : Hub → Hub) : (s.modHub h f).dies = s.dies := rfl
@[simp] theorem State_modHub_clusters (h : Nat) (f : Hub → Hub) : (s.modHub h f).clusters = s.clusters := rfl
@[simp] theorem State_modHub_maps (h : Nat) (f : Hub → Hub) : (s.modHub h f).maps = s.maps := rfl
@[simp] theorem State_modHub_dsm (h : Nat) (f : Hub → Hub) : (s.modHub h f).dsm = s.dsm := rfl
@[simp] theorem State_modHub_repair (h : Nat) (f : Hub → Hub) : (s.modHub h f).repair = s.repair := rfl
@[simp] theorem State_modHub_hbmStacks (h : Nat) (f : Hub → Hub) : (s.modHub h f).hbmStacks = s.hbmStacks := rfl
@[simp] theorem State_modHub_yoke (h : Nat) (f : Hub → Hub) : (s.modHub h f).yoke = s.yoke := rfl
@[simp] theorem State_modHub_standby (h : Nat) (f : Hub → Hub) : (s.modHub h f).standby = s.standby := rfl
@[simp] theorem State_modHub_maint (h : Nat) (f : Hub → Hub) : (s.modHub h f).maint = s.maint := rfl
@[simp] theorem State_modHub_nextAct (h : Nat) (f : Hub → Hub) : (s.modHub h f).nextAct = s.nextAct := rfl
@[simp] theorem State_modHub_pair (h : Nat) (f : Hub → Hub) : (s.modHub h f).pair = s.pair := rfl
@[simp] theorem State_modHub_grazer (h : Nat) (f : Hub → Hub) : (s.modHub h f).grazer = s.grazer := rfl
@[simp] theorem State_modHub_tap (h : Nat) (f : Hub → Hub) : (s.modHub h f).tap = s.tap := rfl
@[simp] theorem State_modHub_idr (h : Nat) (f : Hub → Hub) : (s.modHub h f).idr = s.idr := rfl
@[simp] theorem State_modHub_trust (h : Nat) (f : Hub → Hub) : (s.modHub h f).trust = s.trust := rfl
@[simp] theorem State_modHub_flt (h : Nat) (f : Hub → Hub) : (s.modHub h f).flt = s.flt := rfl
@[simp] theorem State_modHub_inst (h : Nat) (f : Hub → Hub) : (s.modHub h f).inst = s.inst := rfl
@[simp] theorem State_modHub_mgmt (h : Nat) (f : Hub → Hub) : (s.modHub h f).mgmt = s.mgmt := rfl
@[simp] theorem State_modHub_out (h : Nat) (f : Hub → Hub) : (s.modHub h f).out = s.out := rfl
@[simp] theorem State_modHub_pending (h : Nat) (f : Hub → Hub) : (s.modHub h f).pending = s.pending := rfl

/-! ### State.modFold -/

@[simp] theorem State_modFold_pkg (h : Nat) (f : FoldRegs → FoldRegs) : (s.modFold h f).pkg = s.pkg := rfl
@[simp] theorem State_modFold_fuses (h : Nat) (f : FoldRegs → FoldRegs) : (s.modFold h f).fuses = s.fuses := rfl
@[simp] theorem State_modFold_secure (h : Nat) (f : FoldRegs → FoldRegs) : (s.modFold h f).secure = s.secure := rfl
@[simp] theorem State_modFold_profile (h : Nat) (f : FoldRegs → FoldRegs) : (s.modFold h f).profile = s.profile := rfl
@[simp] theorem State_modFold_nvm (h : Nat) (f : FoldRegs → FoldRegs) : (s.modFold h f).nvm = s.nvm := rfl
@[simp] theorem State_modFold_ports (h : Nat) (f : FoldRegs → FoldRegs) : (s.modFold h f).ports = s.ports := rfl
@[simp] theorem State_modFold_cores (h : Nat) (f : FoldRegs → FoldRegs) : (s.modFold h f).cores = s.cores := rfl
@[simp] theorem State_modFold_deposits (h : Nat) (f : FoldRegs → FoldRegs) : (s.modFold h f).deposits = s.deposits := rfl
@[simp] theorem State_modFold_nextDep (h : Nat) (f : FoldRegs → FoldRegs) : (s.modFold h f).nextDep = s.nextDep := rfl
@[simp] theorem State_modFold_streams (h : Nat) (f : FoldRegs → FoldRegs) : (s.modFold h f).streams = s.streams := rfl
@[simp] theorem State_modFold_entries (h : Nat) (f : FoldRegs → FoldRegs) : (s.modFold h f).entries = s.entries := rfl
@[simp] theorem State_modFold_commits (h : Nat) (f : FoldRegs → FoldRegs) : (s.modFold h f).commits = s.commits := rfl
@[simp] theorem State_modFold_pages (h : Nat) (f : FoldRegs → FoldRegs) : (s.modFold h f).pages = s.pages := rfl
@[simp] theorem State_modFold_used (h : Nat) (f : FoldRegs → FoldRegs) : (s.modFold h f).used = s.used := rfl
@[simp] theorem State_modFold_ledgerLost (h : Nat) (f : FoldRegs → FoldRegs) : (s.modFold h f).ledgerLost = s.ledgerLost := rfl
@[simp] theorem State_modFold_placements (h : Nat) (f : FoldRegs → FoldRegs) : (s.modFold h f).placements = s.placements := rfl
@[simp] theorem State_modFold_objects (h : Nat) (f : FoldRegs → FoldRegs) : (s.modFold h f).objects = s.objects := rfl
@[simp] theorem State_modFold_bulk (h : Nat) (f : FoldRegs → FoldRegs) : (s.modFold h f).bulk = s.bulk := rfl
@[simp] theorem State_modFold_installs (h : Nat) (f : FoldRegs → FoldRegs) : (s.modFold h f).installs = s.installs := rfl
@[simp] theorem State_modFold_routines (h : Nat) (f : FoldRegs → FoldRegs) : (s.modFold h f).routines = s.routines := rfl
@[simp] theorem State_modFold_dies (h : Nat) (f : FoldRegs → FoldRegs) : (s.modFold h f).dies = s.dies := rfl
@[simp] theorem State_modFold_clusters (h : Nat) (f : FoldRegs → FoldRegs) : (s.modFold h f).clusters = s.clusters := rfl
@[simp] theorem State_modFold_maps (h : Nat) (f : FoldRegs → FoldRegs) : (s.modFold h f).maps = s.maps := rfl
@[simp] theorem State_modFold_dsm (h : Nat) (f : FoldRegs → FoldRegs) : (s.modFold h f).dsm = s.dsm := rfl
@[simp] theorem State_modFold_repair (h : Nat) (f : FoldRegs → FoldRegs) : (s.modFold h f).repair = s.repair := rfl
@[simp] theorem State_modFold_hbmStacks (h : Nat) (f : FoldRegs → FoldRegs) : (s.modFold h f).hbmStacks = s.hbmStacks := rfl
@[simp] theorem State_modFold_yoke (h : Nat) (f : FoldRegs → FoldRegs) : (s.modFold h f).yoke = s.yoke := rfl
@[simp] theorem State_modFold_standby (h : Nat) (f : FoldRegs → FoldRegs) : (s.modFold h f).standby = s.standby := rfl
@[simp] theorem State_modFold_maint (h : Nat) (f : FoldRegs → FoldRegs) : (s.modFold h f).maint = s.maint := rfl
@[simp] theorem State_modFold_nextAct (h : Nat) (f : FoldRegs → FoldRegs) : (s.modFold h f).nextAct = s.nextAct := rfl
@[simp] theorem State_modFold_pair (h : Nat) (f : FoldRegs → FoldRegs) : (s.modFold h f).pair = s.pair := rfl
@[simp] theorem State_modFold_grazer (h : Nat) (f : FoldRegs → FoldRegs) : (s.modFold h f).grazer = s.grazer := rfl
@[simp] theorem State_modFold_tap (h : Nat) (f : FoldRegs → FoldRegs) : (s.modFold h f).tap = s.tap := rfl
@[simp] theorem State_modFold_idr (h : Nat) (f : FoldRegs → FoldRegs) : (s.modFold h f).idr = s.idr := rfl
@[simp] theorem State_modFold_trust (h : Nat) (f : FoldRegs → FoldRegs) : (s.modFold h f).trust = s.trust := rfl
@[simp] theorem State_modFold_flt (h : Nat) (f : FoldRegs → FoldRegs) : (s.modFold h f).flt = s.flt := rfl
@[simp] theorem State_modFold_inst (h : Nat) (f : FoldRegs → FoldRegs) : (s.modFold h f).inst = s.inst := rfl
@[simp] theorem State_modFold_mgmt (h : Nat) (f : FoldRegs → FoldRegs) : (s.modFold h f).mgmt = s.mgmt := rfl
@[simp] theorem State_modFold_out (h : Nat) (f : FoldRegs → FoldRegs) : (s.modFold h f).out = s.out := rfl
@[simp] theorem State_modFold_pending (h : Nat) (f : FoldRegs → FoldRegs) : (s.modFold h f).pending = s.pending := rfl

/-! ### State.modFlt -/

@[simp] theorem State_modFlt_pkg (f : FaultRegs → FaultRegs) : (s.modFlt f).pkg = s.pkg := rfl
@[simp] theorem State_modFlt_fuses (f : FaultRegs → FaultRegs) : (s.modFlt f).fuses = s.fuses := rfl
@[simp] theorem State_modFlt_secure (f : FaultRegs → FaultRegs) : (s.modFlt f).secure = s.secure := rfl
@[simp] theorem State_modFlt_profile (f : FaultRegs → FaultRegs) : (s.modFlt f).profile = s.profile := rfl
@[simp] theorem State_modFlt_nvm (f : FaultRegs → FaultRegs) : (s.modFlt f).nvm = s.nvm := rfl
@[simp] theorem State_modFlt_hubs (f : FaultRegs → FaultRegs) : (s.modFlt f).hubs = s.hubs := rfl
@[simp] theorem State_modFlt_ports (f : FaultRegs → FaultRegs) : (s.modFlt f).ports = s.ports := rfl
@[simp] theorem State_modFlt_cores (f : FaultRegs → FaultRegs) : (s.modFlt f).cores = s.cores := rfl
@[simp] theorem State_modFlt_deposits (f : FaultRegs → FaultRegs) : (s.modFlt f).deposits = s.deposits := rfl
@[simp] theorem State_modFlt_nextDep (f : FaultRegs → FaultRegs) : (s.modFlt f).nextDep = s.nextDep := rfl
@[simp] theorem State_modFlt_streams (f : FaultRegs → FaultRegs) : (s.modFlt f).streams = s.streams := rfl
@[simp] theorem State_modFlt_entries (f : FaultRegs → FaultRegs) : (s.modFlt f).entries = s.entries := rfl
@[simp] theorem State_modFlt_commits (f : FaultRegs → FaultRegs) : (s.modFlt f).commits = s.commits := rfl
@[simp] theorem State_modFlt_pages (f : FaultRegs → FaultRegs) : (s.modFlt f).pages = s.pages := rfl
@[simp] theorem State_modFlt_used (f : FaultRegs → FaultRegs) : (s.modFlt f).used = s.used := rfl
@[simp] theorem State_modFlt_ledgerLost (f : FaultRegs → FaultRegs) : (s.modFlt f).ledgerLost = s.ledgerLost := rfl
@[simp] theorem State_modFlt_placements (f : FaultRegs → FaultRegs) : (s.modFlt f).placements = s.placements := rfl
@[simp] theorem State_modFlt_objects (f : FaultRegs → FaultRegs) : (s.modFlt f).objects = s.objects := rfl
@[simp] theorem State_modFlt_bulk (f : FaultRegs → FaultRegs) : (s.modFlt f).bulk = s.bulk := rfl
@[simp] theorem State_modFlt_installs (f : FaultRegs → FaultRegs) : (s.modFlt f).installs = s.installs := rfl
@[simp] theorem State_modFlt_routines (f : FaultRegs → FaultRegs) : (s.modFlt f).routines = s.routines := rfl
@[simp] theorem State_modFlt_dies (f : FaultRegs → FaultRegs) : (s.modFlt f).dies = s.dies := rfl
@[simp] theorem State_modFlt_clusters (f : FaultRegs → FaultRegs) : (s.modFlt f).clusters = s.clusters := rfl
@[simp] theorem State_modFlt_maps (f : FaultRegs → FaultRegs) : (s.modFlt f).maps = s.maps := rfl
@[simp] theorem State_modFlt_dsm (f : FaultRegs → FaultRegs) : (s.modFlt f).dsm = s.dsm := rfl
@[simp] theorem State_modFlt_repair (f : FaultRegs → FaultRegs) : (s.modFlt f).repair = s.repair := rfl
@[simp] theorem State_modFlt_hbmStacks (f : FaultRegs → FaultRegs) : (s.modFlt f).hbmStacks = s.hbmStacks := rfl
@[simp] theorem State_modFlt_yoke (f : FaultRegs → FaultRegs) : (s.modFlt f).yoke = s.yoke := rfl
@[simp] theorem State_modFlt_standby (f : FaultRegs → FaultRegs) : (s.modFlt f).standby = s.standby := rfl
@[simp] theorem State_modFlt_maint (f : FaultRegs → FaultRegs) : (s.modFlt f).maint = s.maint := rfl
@[simp] theorem State_modFlt_nextAct (f : FaultRegs → FaultRegs) : (s.modFlt f).nextAct = s.nextAct := rfl
@[simp] theorem State_modFlt_pair (f : FaultRegs → FaultRegs) : (s.modFlt f).pair = s.pair := rfl
@[simp] theorem State_modFlt_grazer (f : FaultRegs → FaultRegs) : (s.modFlt f).grazer = s.grazer := rfl
@[simp] theorem State_modFlt_tap (f : FaultRegs → FaultRegs) : (s.modFlt f).tap = s.tap := rfl
@[simp] theorem State_modFlt_idr (f : FaultRegs → FaultRegs) : (s.modFlt f).idr = s.idr := rfl
@[simp] theorem State_modFlt_trust (f : FaultRegs → FaultRegs) : (s.modFlt f).trust = s.trust := rfl
@[simp] theorem State_modFlt_inst (f : FaultRegs → FaultRegs) : (s.modFlt f).inst = s.inst := rfl
@[simp] theorem State_modFlt_mgmt (f : FaultRegs → FaultRegs) : (s.modFlt f).mgmt = s.mgmt := rfl
@[simp] theorem State_modFlt_out (f : FaultRegs → FaultRegs) : (s.modFlt f).out = s.out := rfl
@[simp] theorem State_modFlt_pending (f : FaultRegs → FaultRegs) : (s.modFlt f).pending = s.pending := rfl

/-! ### State.modDsm -/

@[simp] theorem State_modDsm_pkg (d : Nat) (f : Dsm → Dsm) : (s.modDsm d f).pkg = s.pkg := rfl
@[simp] theorem State_modDsm_fuses (d : Nat) (f : Dsm → Dsm) : (s.modDsm d f).fuses = s.fuses := rfl
@[simp] theorem State_modDsm_secure (d : Nat) (f : Dsm → Dsm) : (s.modDsm d f).secure = s.secure := rfl
@[simp] theorem State_modDsm_profile (d : Nat) (f : Dsm → Dsm) : (s.modDsm d f).profile = s.profile := rfl
@[simp] theorem State_modDsm_nvm (d : Nat) (f : Dsm → Dsm) : (s.modDsm d f).nvm = s.nvm := rfl
@[simp] theorem State_modDsm_hubs (d : Nat) (f : Dsm → Dsm) : (s.modDsm d f).hubs = s.hubs := rfl
@[simp] theorem State_modDsm_ports (d : Nat) (f : Dsm → Dsm) : (s.modDsm d f).ports = s.ports := rfl
@[simp] theorem State_modDsm_cores (d : Nat) (f : Dsm → Dsm) : (s.modDsm d f).cores = s.cores := rfl
@[simp] theorem State_modDsm_deposits (d : Nat) (f : Dsm → Dsm) : (s.modDsm d f).deposits = s.deposits := rfl
@[simp] theorem State_modDsm_nextDep (d : Nat) (f : Dsm → Dsm) : (s.modDsm d f).nextDep = s.nextDep := rfl
@[simp] theorem State_modDsm_streams (d : Nat) (f : Dsm → Dsm) : (s.modDsm d f).streams = s.streams := rfl
@[simp] theorem State_modDsm_entries (d : Nat) (f : Dsm → Dsm) : (s.modDsm d f).entries = s.entries := rfl
@[simp] theorem State_modDsm_commits (d : Nat) (f : Dsm → Dsm) : (s.modDsm d f).commits = s.commits := rfl
@[simp] theorem State_modDsm_pages (d : Nat) (f : Dsm → Dsm) : (s.modDsm d f).pages = s.pages := rfl
@[simp] theorem State_modDsm_used (d : Nat) (f : Dsm → Dsm) : (s.modDsm d f).used = s.used := rfl
@[simp] theorem State_modDsm_ledgerLost (d : Nat) (f : Dsm → Dsm) : (s.modDsm d f).ledgerLost = s.ledgerLost := rfl
@[simp] theorem State_modDsm_placements (d : Nat) (f : Dsm → Dsm) : (s.modDsm d f).placements = s.placements := rfl
@[simp] theorem State_modDsm_objects (d : Nat) (f : Dsm → Dsm) : (s.modDsm d f).objects = s.objects := rfl
@[simp] theorem State_modDsm_bulk (d : Nat) (f : Dsm → Dsm) : (s.modDsm d f).bulk = s.bulk := rfl
@[simp] theorem State_modDsm_installs (d : Nat) (f : Dsm → Dsm) : (s.modDsm d f).installs = s.installs := rfl
@[simp] theorem State_modDsm_routines (d : Nat) (f : Dsm → Dsm) : (s.modDsm d f).routines = s.routines := rfl
@[simp] theorem State_modDsm_dies (d : Nat) (f : Dsm → Dsm) : (s.modDsm d f).dies = s.dies := rfl
@[simp] theorem State_modDsm_clusters (d : Nat) (f : Dsm → Dsm) : (s.modDsm d f).clusters = s.clusters := rfl
@[simp] theorem State_modDsm_maps (d : Nat) (f : Dsm → Dsm) : (s.modDsm d f).maps = s.maps := rfl
@[simp] theorem State_modDsm_repair (d : Nat) (f : Dsm → Dsm) : (s.modDsm d f).repair = s.repair := rfl
@[simp] theorem State_modDsm_hbmStacks (d : Nat) (f : Dsm → Dsm) : (s.modDsm d f).hbmStacks = s.hbmStacks := rfl
@[simp] theorem State_modDsm_yoke (d : Nat) (f : Dsm → Dsm) : (s.modDsm d f).yoke = s.yoke := rfl
@[simp] theorem State_modDsm_standby (d : Nat) (f : Dsm → Dsm) : (s.modDsm d f).standby = s.standby := rfl
@[simp] theorem State_modDsm_maint (d : Nat) (f : Dsm → Dsm) : (s.modDsm d f).maint = s.maint := rfl
@[simp] theorem State_modDsm_nextAct (d : Nat) (f : Dsm → Dsm) : (s.modDsm d f).nextAct = s.nextAct := rfl
@[simp] theorem State_modDsm_pair (d : Nat) (f : Dsm → Dsm) : (s.modDsm d f).pair = s.pair := rfl
@[simp] theorem State_modDsm_grazer (d : Nat) (f : Dsm → Dsm) : (s.modDsm d f).grazer = s.grazer := rfl
@[simp] theorem State_modDsm_tap (d : Nat) (f : Dsm → Dsm) : (s.modDsm d f).tap = s.tap := rfl
@[simp] theorem State_modDsm_idr (d : Nat) (f : Dsm → Dsm) : (s.modDsm d f).idr = s.idr := rfl
@[simp] theorem State_modDsm_trust (d : Nat) (f : Dsm → Dsm) : (s.modDsm d f).trust = s.trust := rfl
@[simp] theorem State_modDsm_flt (d : Nat) (f : Dsm → Dsm) : (s.modDsm d f).flt = s.flt := rfl
@[simp] theorem State_modDsm_inst (d : Nat) (f : Dsm → Dsm) : (s.modDsm d f).inst = s.inst := rfl
@[simp] theorem State_modDsm_mgmt (d : Nat) (f : Dsm → Dsm) : (s.modDsm d f).mgmt = s.mgmt := rfl
@[simp] theorem State_modDsm_out (d : Nat) (f : Dsm → Dsm) : (s.modDsm d f).out = s.out := rfl
@[simp] theorem State_modDsm_pending (d : Nat) (f : Dsm → Dsm) : (s.modDsm d f).pending = s.pending := rfl

/-! ### State.modRep -/

@[simp] theorem State_modRep_pkg (d : Nat) (f : Repair → Repair) : (s.modRep d f).pkg = s.pkg := rfl
@[simp] theorem State_modRep_fuses (d : Nat) (f : Repair → Repair) : (s.modRep d f).fuses = s.fuses := rfl
@[simp] theorem State_modRep_secure (d : Nat) (f : Repair → Repair) : (s.modRep d f).secure = s.secure := rfl
@[simp] theorem State_modRep_profile (d : Nat) (f : Repair → Repair) : (s.modRep d f).profile = s.profile := rfl
@[simp] theorem State_modRep_nvm (d : Nat) (f : Repair → Repair) : (s.modRep d f).nvm = s.nvm := rfl
@[simp] theorem State_modRep_hubs (d : Nat) (f : Repair → Repair) : (s.modRep d f).hubs = s.hubs := rfl
@[simp] theorem State_modRep_ports (d : Nat) (f : Repair → Repair) : (s.modRep d f).ports = s.ports := rfl
@[simp] theorem State_modRep_cores (d : Nat) (f : Repair → Repair) : (s.modRep d f).cores = s.cores := rfl
@[simp] theorem State_modRep_deposits (d : Nat) (f : Repair → Repair) : (s.modRep d f).deposits = s.deposits := rfl
@[simp] theorem State_modRep_nextDep (d : Nat) (f : Repair → Repair) : (s.modRep d f).nextDep = s.nextDep := rfl
@[simp] theorem State_modRep_streams (d : Nat) (f : Repair → Repair) : (s.modRep d f).streams = s.streams := rfl
@[simp] theorem State_modRep_entries (d : Nat) (f : Repair → Repair) : (s.modRep d f).entries = s.entries := rfl
@[simp] theorem State_modRep_commits (d : Nat) (f : Repair → Repair) : (s.modRep d f).commits = s.commits := rfl
@[simp] theorem State_modRep_pages (d : Nat) (f : Repair → Repair) : (s.modRep d f).pages = s.pages := rfl
@[simp] theorem State_modRep_used (d : Nat) (f : Repair → Repair) : (s.modRep d f).used = s.used := rfl
@[simp] theorem State_modRep_ledgerLost (d : Nat) (f : Repair → Repair) : (s.modRep d f).ledgerLost = s.ledgerLost := rfl
@[simp] theorem State_modRep_placements (d : Nat) (f : Repair → Repair) : (s.modRep d f).placements = s.placements := rfl
@[simp] theorem State_modRep_objects (d : Nat) (f : Repair → Repair) : (s.modRep d f).objects = s.objects := rfl
@[simp] theorem State_modRep_bulk (d : Nat) (f : Repair → Repair) : (s.modRep d f).bulk = s.bulk := rfl
@[simp] theorem State_modRep_installs (d : Nat) (f : Repair → Repair) : (s.modRep d f).installs = s.installs := rfl
@[simp] theorem State_modRep_routines (d : Nat) (f : Repair → Repair) : (s.modRep d f).routines = s.routines := rfl
@[simp] theorem State_modRep_dies (d : Nat) (f : Repair → Repair) : (s.modRep d f).dies = s.dies := rfl
@[simp] theorem State_modRep_clusters (d : Nat) (f : Repair → Repair) : (s.modRep d f).clusters = s.clusters := rfl
@[simp] theorem State_modRep_maps (d : Nat) (f : Repair → Repair) : (s.modRep d f).maps = s.maps := rfl
@[simp] theorem State_modRep_dsm (d : Nat) (f : Repair → Repair) : (s.modRep d f).dsm = s.dsm := rfl
@[simp] theorem State_modRep_hbmStacks (d : Nat) (f : Repair → Repair) : (s.modRep d f).hbmStacks = s.hbmStacks := rfl
@[simp] theorem State_modRep_yoke (d : Nat) (f : Repair → Repair) : (s.modRep d f).yoke = s.yoke := rfl
@[simp] theorem State_modRep_standby (d : Nat) (f : Repair → Repair) : (s.modRep d f).standby = s.standby := rfl
@[simp] theorem State_modRep_maint (d : Nat) (f : Repair → Repair) : (s.modRep d f).maint = s.maint := rfl
@[simp] theorem State_modRep_nextAct (d : Nat) (f : Repair → Repair) : (s.modRep d f).nextAct = s.nextAct := rfl
@[simp] theorem State_modRep_pair (d : Nat) (f : Repair → Repair) : (s.modRep d f).pair = s.pair := rfl
@[simp] theorem State_modRep_grazer (d : Nat) (f : Repair → Repair) : (s.modRep d f).grazer = s.grazer := rfl
@[simp] theorem State_modRep_tap (d : Nat) (f : Repair → Repair) : (s.modRep d f).tap = s.tap := rfl
@[simp] theorem State_modRep_idr (d : Nat) (f : Repair → Repair) : (s.modRep d f).idr = s.idr := rfl
@[simp] theorem State_modRep_trust (d : Nat) (f : Repair → Repair) : (s.modRep d f).trust = s.trust := rfl
@[simp] theorem State_modRep_flt (d : Nat) (f : Repair → Repair) : (s.modRep d f).flt = s.flt := rfl
@[simp] theorem State_modRep_inst (d : Nat) (f : Repair → Repair) : (s.modRep d f).inst = s.inst := rfl
@[simp] theorem State_modRep_mgmt (d : Nat) (f : Repair → Repair) : (s.modRep d f).mgmt = s.mgmt := rfl
@[simp] theorem State_modRep_out (d : Nat) (f : Repair → Repair) : (s.modRep d f).out = s.out := rfl
@[simp] theorem State_modRep_pending (d : Nat) (f : Repair → Repair) : (s.modRep d f).pending = s.pending := rfl

/-! ### State.modMgmt -/

@[simp] theorem State_modMgmt_pkg (f : MgmtRegs → MgmtRegs) : (s.modMgmt f).pkg = s.pkg := rfl
@[simp] theorem State_modMgmt_fuses (f : MgmtRegs → MgmtRegs) : (s.modMgmt f).fuses = s.fuses := rfl
@[simp] theorem State_modMgmt_secure (f : MgmtRegs → MgmtRegs) : (s.modMgmt f).secure = s.secure := rfl
@[simp] theorem State_modMgmt_profile (f : MgmtRegs → MgmtRegs) : (s.modMgmt f).profile = s.profile := rfl
@[simp] theorem State_modMgmt_nvm (f : MgmtRegs → MgmtRegs) : (s.modMgmt f).nvm = s.nvm := rfl
@[simp] theorem State_modMgmt_hubs (f : MgmtRegs → MgmtRegs) : (s.modMgmt f).hubs = s.hubs := rfl
@[simp] theorem State_modMgmt_ports (f : MgmtRegs → MgmtRegs) : (s.modMgmt f).ports = s.ports := rfl
@[simp] theorem State_modMgmt_cores (f : MgmtRegs → MgmtRegs) : (s.modMgmt f).cores = s.cores := rfl
@[simp] theorem State_modMgmt_deposits (f : MgmtRegs → MgmtRegs) : (s.modMgmt f).deposits = s.deposits := rfl
@[simp] theorem State_modMgmt_nextDep (f : MgmtRegs → MgmtRegs) : (s.modMgmt f).nextDep = s.nextDep := rfl
@[simp] theorem State_modMgmt_streams (f : MgmtRegs → MgmtRegs) : (s.modMgmt f).streams = s.streams := rfl
@[simp] theorem State_modMgmt_entries (f : MgmtRegs → MgmtRegs) : (s.modMgmt f).entries = s.entries := rfl
@[simp] theorem State_modMgmt_commits (f : MgmtRegs → MgmtRegs) : (s.modMgmt f).commits = s.commits := rfl
@[simp] theorem State_modMgmt_pages (f : MgmtRegs → MgmtRegs) : (s.modMgmt f).pages = s.pages := rfl
@[simp] theorem State_modMgmt_used (f : MgmtRegs → MgmtRegs) : (s.modMgmt f).used = s.used := rfl
@[simp] theorem State_modMgmt_ledgerLost (f : MgmtRegs → MgmtRegs) : (s.modMgmt f).ledgerLost = s.ledgerLost := rfl
@[simp] theorem State_modMgmt_placements (f : MgmtRegs → MgmtRegs) : (s.modMgmt f).placements = s.placements := rfl
@[simp] theorem State_modMgmt_objects (f : MgmtRegs → MgmtRegs) : (s.modMgmt f).objects = s.objects := rfl
@[simp] theorem State_modMgmt_bulk (f : MgmtRegs → MgmtRegs) : (s.modMgmt f).bulk = s.bulk := rfl
@[simp] theorem State_modMgmt_installs (f : MgmtRegs → MgmtRegs) : (s.modMgmt f).installs = s.installs := rfl
@[simp] theorem State_modMgmt_routines (f : MgmtRegs → MgmtRegs) : (s.modMgmt f).routines = s.routines := rfl
@[simp] theorem State_modMgmt_dies (f : MgmtRegs → MgmtRegs) : (s.modMgmt f).dies = s.dies := rfl
@[simp] theorem State_modMgmt_clusters (f : MgmtRegs → MgmtRegs) : (s.modMgmt f).clusters = s.clusters := rfl
@[simp] theorem State_modMgmt_maps (f : MgmtRegs → MgmtRegs) : (s.modMgmt f).maps = s.maps := rfl
@[simp] theorem State_modMgmt_dsm (f : MgmtRegs → MgmtRegs) : (s.modMgmt f).dsm = s.dsm := rfl
@[simp] theorem State_modMgmt_repair (f : MgmtRegs → MgmtRegs) : (s.modMgmt f).repair = s.repair := rfl
@[simp] theorem State_modMgmt_hbmStacks (f : MgmtRegs → MgmtRegs) : (s.modMgmt f).hbmStacks = s.hbmStacks := rfl
@[simp] theorem State_modMgmt_yoke (f : MgmtRegs → MgmtRegs) : (s.modMgmt f).yoke = s.yoke := rfl
@[simp] theorem State_modMgmt_standby (f : MgmtRegs → MgmtRegs) : (s.modMgmt f).standby = s.standby := rfl
@[simp] theorem State_modMgmt_maint (f : MgmtRegs → MgmtRegs) : (s.modMgmt f).maint = s.maint := rfl
@[simp] theorem State_modMgmt_nextAct (f : MgmtRegs → MgmtRegs) : (s.modMgmt f).nextAct = s.nextAct := rfl
@[simp] theorem State_modMgmt_pair (f : MgmtRegs → MgmtRegs) : (s.modMgmt f).pair = s.pair := rfl
@[simp] theorem State_modMgmt_grazer (f : MgmtRegs → MgmtRegs) : (s.modMgmt f).grazer = s.grazer := rfl
@[simp] theorem State_modMgmt_tap (f : MgmtRegs → MgmtRegs) : (s.modMgmt f).tap = s.tap := rfl
@[simp] theorem State_modMgmt_idr (f : MgmtRegs → MgmtRegs) : (s.modMgmt f).idr = s.idr := rfl
@[simp] theorem State_modMgmt_trust (f : MgmtRegs → MgmtRegs) : (s.modMgmt f).trust = s.trust := rfl
@[simp] theorem State_modMgmt_flt (f : MgmtRegs → MgmtRegs) : (s.modMgmt f).flt = s.flt := rfl
@[simp] theorem State_modMgmt_inst (f : MgmtRegs → MgmtRegs) : (s.modMgmt f).inst = s.inst := rfl
@[simp] theorem State_modMgmt_out (f : MgmtRegs → MgmtRegs) : (s.modMgmt f).out = s.out := rfl
@[simp] theorem State_modMgmt_pending (f : MgmtRegs → MgmtRegs) : (s.modMgmt f).pending = s.pending := rfl

/-! ### State.modStream -/

@[simp] theorem State_modStream_pkg (n : Nat) (f : Stream → Stream) : (s.modStream n f).pkg = s.pkg := rfl
@[simp] theorem State_modStream_fuses (n : Nat) (f : Stream → Stream) : (s.modStream n f).fuses = s.fuses := rfl
@[simp] theorem State_modStream_secure (n : Nat) (f : Stream → Stream) : (s.modStream n f).secure = s.secure := rfl
@[simp] theorem State_modStream_profile (n : Nat) (f : Stream → Stream) : (s.modStream n f).profile = s.profile := rfl
@[simp] theorem State_modStream_nvm (n : Nat) (f : Stream → Stream) : (s.modStream n f).nvm = s.nvm := rfl
@[simp] theorem State_modStream_hubs (n : Nat) (f : Stream → Stream) : (s.modStream n f).hubs = s.hubs := rfl
@[simp] theorem State_modStream_ports (n : Nat) (f : Stream → Stream) : (s.modStream n f).ports = s.ports := rfl
@[simp] theorem State_modStream_cores (n : Nat) (f : Stream → Stream) : (s.modStream n f).cores = s.cores := rfl
@[simp] theorem State_modStream_deposits (n : Nat) (f : Stream → Stream) : (s.modStream n f).deposits = s.deposits := rfl
@[simp] theorem State_modStream_nextDep (n : Nat) (f : Stream → Stream) : (s.modStream n f).nextDep = s.nextDep := rfl
@[simp] theorem State_modStream_entries (n : Nat) (f : Stream → Stream) : (s.modStream n f).entries = s.entries := rfl
@[simp] theorem State_modStream_commits (n : Nat) (f : Stream → Stream) : (s.modStream n f).commits = s.commits := rfl
@[simp] theorem State_modStream_pages (n : Nat) (f : Stream → Stream) : (s.modStream n f).pages = s.pages := rfl
@[simp] theorem State_modStream_used (n : Nat) (f : Stream → Stream) : (s.modStream n f).used = s.used := rfl
@[simp] theorem State_modStream_ledgerLost (n : Nat) (f : Stream → Stream) : (s.modStream n f).ledgerLost = s.ledgerLost := rfl
@[simp] theorem State_modStream_placements (n : Nat) (f : Stream → Stream) : (s.modStream n f).placements = s.placements := rfl
@[simp] theorem State_modStream_objects (n : Nat) (f : Stream → Stream) : (s.modStream n f).objects = s.objects := rfl
@[simp] theorem State_modStream_bulk (n : Nat) (f : Stream → Stream) : (s.modStream n f).bulk = s.bulk := rfl
@[simp] theorem State_modStream_installs (n : Nat) (f : Stream → Stream) : (s.modStream n f).installs = s.installs := rfl
@[simp] theorem State_modStream_routines (n : Nat) (f : Stream → Stream) : (s.modStream n f).routines = s.routines := rfl
@[simp] theorem State_modStream_dies (n : Nat) (f : Stream → Stream) : (s.modStream n f).dies = s.dies := rfl
@[simp] theorem State_modStream_clusters (n : Nat) (f : Stream → Stream) : (s.modStream n f).clusters = s.clusters := rfl
@[simp] theorem State_modStream_maps (n : Nat) (f : Stream → Stream) : (s.modStream n f).maps = s.maps := rfl
@[simp] theorem State_modStream_dsm (n : Nat) (f : Stream → Stream) : (s.modStream n f).dsm = s.dsm := rfl
@[simp] theorem State_modStream_repair (n : Nat) (f : Stream → Stream) : (s.modStream n f).repair = s.repair := rfl
@[simp] theorem State_modStream_hbmStacks (n : Nat) (f : Stream → Stream) : (s.modStream n f).hbmStacks = s.hbmStacks := rfl
@[simp] theorem State_modStream_yoke (n : Nat) (f : Stream → Stream) : (s.modStream n f).yoke = s.yoke := rfl
@[simp] theorem State_modStream_standby (n : Nat) (f : Stream → Stream) : (s.modStream n f).standby = s.standby := rfl
@[simp] theorem State_modStream_maint (n : Nat) (f : Stream → Stream) : (s.modStream n f).maint = s.maint := rfl
@[simp] theorem State_modStream_nextAct (n : Nat) (f : Stream → Stream) : (s.modStream n f).nextAct = s.nextAct := rfl
@[simp] theorem State_modStream_pair (n : Nat) (f : Stream → Stream) : (s.modStream n f).pair = s.pair := rfl
@[simp] theorem State_modStream_grazer (n : Nat) (f : Stream → Stream) : (s.modStream n f).grazer = s.grazer := rfl
@[simp] theorem State_modStream_tap (n : Nat) (f : Stream → Stream) : (s.modStream n f).tap = s.tap := rfl
@[simp] theorem State_modStream_idr (n : Nat) (f : Stream → Stream) : (s.modStream n f).idr = s.idr := rfl
@[simp] theorem State_modStream_trust (n : Nat) (f : Stream → Stream) : (s.modStream n f).trust = s.trust := rfl
@[simp] theorem State_modStream_flt (n : Nat) (f : Stream → Stream) : (s.modStream n f).flt = s.flt := rfl
@[simp] theorem State_modStream_inst (n : Nat) (f : Stream → Stream) : (s.modStream n f).inst = s.inst := rfl
@[simp] theorem State_modStream_mgmt (n : Nat) (f : Stream → Stream) : (s.modStream n f).mgmt = s.mgmt := rfl
@[simp] theorem State_modStream_out (n : Nat) (f : Stream → Stream) : (s.modStream n f).out = s.out := rfl
@[simp] theorem State_modStream_pending (n : Nat) (f : Stream → Stream) : (s.modStream n f).pending = s.pending := rfl

/-! ### Core.setA -/

@[simp] theorem Core_setA_st (r : Nat) (v : Word) : (c.setA r v).st = c.st := rfl
@[simp] theorem Core_setA_entry (r : Nat) (v : Word) : (c.setA r v).entry = c.entry := rfl
@[simp] theorem Core_setA_lastTenant (r : Nat) (v : Word) : (c.setA r v).lastTenant = c.lastTenant := rfl
@[simp] theorem Core_setA_rank (r : Nat) (v : Word) : (c.setA r v).rank = c.rank := rfl
@[simp] theorem Core_setA_q (r : Nat) (v : Word) : (c.setA r v).q = c.q := rfl
@[simp] theorem Core_setA_acc (r : Nat) (v : Word) : (c.setA r v).acc = c.acc := rfl
@[simp] theorem Core_setA_wins (r : Nat) (v : Word) : (c.setA r v).wins = c.wins := rfl
@[simp] theorem Core_setA_mem (r : Nat) (v : Word) : (c.setA r v).mem = c.mem := rfl
@[simp] theorem Core_setA_engines (r : Nat) (v : Word) : (c.setA r v).engines = c.engines := rfl
@[simp] theorem Core_setA_arr (r : Nat) (v : Word) : (c.setA r v).arr = c.arr := rfl
@[simp] theorem Core_setA_sp (r : Nat) (v : Word) : (c.setA r v).sp = c.sp := rfl
@[simp] theorem Core_setA_prog (r : Nat) (v : Word) : (c.setA r v).prog = c.prog := rfl
@[simp] theorem Core_setA_haltRec (r : Nat) (v : Word) : (c.setA r v).haltRec = c.haltRec := rfl
@[simp] theorem Core_setA_diag (r : Nat) (v : Word) : (c.setA r v).diag = c.diag := rfl
@[simp] theorem Core_setA_ctl_sreg (r : Nat) (v : Word) : (c.setA r v).ctl.sreg = c.ctl.sreg := rfl
@[simp] theorem Core_setA_ctl_ainc (r : Nat) (v : Word) : (c.setA r v).ctl.ainc = c.ctl.ainc := rfl
@[simp] theorem Core_setA_ctl_ctr (r : Nat) (v : Word) : (c.setA r v).ctl.ctr = c.ctl.ctr := rfl
@[simp] theorem Core_setA_ctl_ctx (r : Nat) (v : Word) : (c.setA r v).ctl.ctx = c.ctl.ctx := rfl
@[simp] theorem Core_setA_ctl_pc (r : Nat) (v : Word) : (c.setA r v).ctl.pc = c.ctl.pc := rfl
@[simp] theorem Core_setA_ctl_calls (r : Nat) (v : Word) : (c.setA r v).ctl.calls = c.ctl.calls := rfl
@[simp] theorem Core_setA_ctl_loops (r : Nat) (v : Word) : (c.setA r v).ctl.loops = c.ctl.loops := rfl
@[simp] theorem Core_setA_ctl_stall (r : Nat) (v : Word) : (c.setA r v).ctl.stall = c.ctl.stall := rfl
@[simp] theorem Core_setA_ctl_stopSeen (r : Nat) (v : Word) : (c.setA r v).ctl.stopSeen = c.ctl.stopSeen := rfl

/-! ### Core.setS -/

@[simp] theorem Core_setS_st (r : Nat) (v : Word) : (c.setS r v).st = c.st := rfl
@[simp] theorem Core_setS_entry (r : Nat) (v : Word) : (c.setS r v).entry = c.entry := rfl
@[simp] theorem Core_setS_lastTenant (r : Nat) (v : Word) : (c.setS r v).lastTenant = c.lastTenant := rfl
@[simp] theorem Core_setS_rank (r : Nat) (v : Word) : (c.setS r v).rank = c.rank := rfl
@[simp] theorem Core_setS_q (r : Nat) (v : Word) : (c.setS r v).q = c.q := rfl
@[simp] theorem Core_setS_acc (r : Nat) (v : Word) : (c.setS r v).acc = c.acc := rfl
@[simp] theorem Core_setS_wins (r : Nat) (v : Word) : (c.setS r v).wins = c.wins := rfl
@[simp] theorem Core_setS_mem (r : Nat) (v : Word) : (c.setS r v).mem = c.mem := rfl
@[simp] theorem Core_setS_engines (r : Nat) (v : Word) : (c.setS r v).engines = c.engines := rfl
@[simp] theorem Core_setS_arr (r : Nat) (v : Word) : (c.setS r v).arr = c.arr := rfl
@[simp] theorem Core_setS_sp (r : Nat) (v : Word) : (c.setS r v).sp = c.sp := rfl
@[simp] theorem Core_setS_prog (r : Nat) (v : Word) : (c.setS r v).prog = c.prog := rfl
@[simp] theorem Core_setS_haltRec (r : Nat) (v : Word) : (c.setS r v).haltRec = c.haltRec := rfl
@[simp] theorem Core_setS_diag (r : Nat) (v : Word) : (c.setS r v).diag = c.diag := rfl
@[simp] theorem Core_setS_ctl_a (r : Nat) (v : Word) : (c.setS r v).ctl.a = c.ctl.a := rfl
@[simp] theorem Core_setS_ctl_ainc (r : Nat) (v : Word) : (c.setS r v).ctl.ainc = c.ctl.ainc := rfl
@[simp] theorem Core_setS_ctl_ctr (r : Nat) (v : Word) : (c.setS r v).ctl.ctr = c.ctl.ctr := rfl
@[simp] theorem Core_setS_ctl_ctx (r : Nat) (v : Word) : (c.setS r v).ctl.ctx = c.ctl.ctx := rfl
@[simp] theorem Core_setS_ctl_pc (r : Nat) (v : Word) : (c.setS r v).ctl.pc = c.ctl.pc := rfl
@[simp] theorem Core_setS_ctl_calls (r : Nat) (v : Word) : (c.setS r v).ctl.calls = c.ctl.calls := rfl
@[simp] theorem Core_setS_ctl_loops (r : Nat) (v : Word) : (c.setS r v).ctl.loops = c.ctl.loops := rfl
@[simp] theorem Core_setS_ctl_stall (r : Nat) (v : Word) : (c.setS r v).ctl.stall = c.ctl.stall := rfl
@[simp] theorem Core_setS_ctl_stopSeen (r : Nat) (v : Word) : (c.setS r v).ctl.stopSeen = c.ctl.stopSeen := rfl

/-! ### Core.jump -/

@[simp] theorem Core_jump_st (n : Nat) : (c.jump n).st = c.st := rfl
@[simp] theorem Core_jump_entry (n : Nat) : (c.jump n).entry = c.entry := rfl
@[simp] theorem Core_jump_lastTenant (n : Nat) : (c.jump n).lastTenant = c.lastTenant := rfl
@[simp] theorem Core_jump_rank (n : Nat) : (c.jump n).rank = c.rank := rfl
@[simp] theorem Core_jump_q (n : Nat) : (c.jump n).q = c.q := rfl
@[simp] theorem Core_jump_acc (n : Nat) : (c.jump n).acc = c.acc := rfl
@[simp] theorem Core_jump_wins (n : Nat) : (c.jump n).wins = c.wins := rfl
@[simp] theorem Core_jump_mem (n : Nat) : (c.jump n).mem = c.mem := rfl
@[simp] theorem Core_jump_engines (n : Nat) : (c.jump n).engines = c.engines := rfl
@[simp] theorem Core_jump_arr (n : Nat) : (c.jump n).arr = c.arr := rfl
@[simp] theorem Core_jump_sp (n : Nat) : (c.jump n).sp = c.sp := rfl
@[simp] theorem Core_jump_prog (n : Nat) : (c.jump n).prog = c.prog := rfl
@[simp] theorem Core_jump_haltRec (n : Nat) : (c.jump n).haltRec = c.haltRec := rfl
@[simp] theorem Core_jump_diag (n : Nat) : (c.jump n).diag = c.diag := rfl
@[simp] theorem Core_jump_ctl_a (n : Nat) : (c.jump n).ctl.a = c.ctl.a := rfl
@[simp] theorem Core_jump_ctl_sreg (n : Nat) : (c.jump n).ctl.sreg = c.ctl.sreg := rfl
@[simp] theorem Core_jump_ctl_ainc (n : Nat) : (c.jump n).ctl.ainc = c.ctl.ainc := rfl
@[simp] theorem Core_jump_ctl_ctr (n : Nat) : (c.jump n).ctl.ctr = c.ctl.ctr := rfl
@[simp] theorem Core_jump_ctl_ctx (n : Nat) : (c.jump n).ctl.ctx = c.ctl.ctx := rfl
@[simp] theorem Core_jump_ctl_calls (n : Nat) : (c.jump n).ctl.calls = c.ctl.calls := rfl
@[simp] theorem Core_jump_ctl_loops (n : Nat) : (c.jump n).ctl.loops = c.ctl.loops := rfl
@[simp] theorem Core_jump_ctl_stall (n : Nat) : (c.jump n).ctl.stall = c.ctl.stall := rfl
@[simp] theorem Core_jump_ctl_stopSeen (n : Nat) : (c.jump n).ctl.stopSeen = c.ctl.stopSeen := rfl

/-! ### Core.nextPc -/

@[simp] theorem Core_nextPc_st  : (c.nextPc ).st = c.st := rfl
@[simp] theorem Core_nextPc_entry  : (c.nextPc ).entry = c.entry := rfl
@[simp] theorem Core_nextPc_lastTenant  : (c.nextPc ).lastTenant = c.lastTenant := rfl
@[simp] theorem Core_nextPc_rank  : (c.nextPc ).rank = c.rank := rfl
@[simp] theorem Core_nextPc_q  : (c.nextPc ).q = c.q := rfl
@[simp] theorem Core_nextPc_acc  : (c.nextPc ).acc = c.acc := rfl
@[simp] theorem Core_nextPc_wins  : (c.nextPc ).wins = c.wins := rfl
@[simp] theorem Core_nextPc_mem  : (c.nextPc ).mem = c.mem := rfl
@[simp] theorem Core_nextPc_engines  : (c.nextPc ).engines = c.engines := rfl
@[simp] theorem Core_nextPc_arr  : (c.nextPc ).arr = c.arr := rfl
@[simp] theorem Core_nextPc_sp  : (c.nextPc ).sp = c.sp := rfl
@[simp] theorem Core_nextPc_prog  : (c.nextPc ).prog = c.prog := rfl
@[simp] theorem Core_nextPc_haltRec  : (c.nextPc ).haltRec = c.haltRec := rfl
@[simp] theorem Core_nextPc_diag  : (c.nextPc ).diag = c.diag := rfl
@[simp] theorem Core_nextPc_ctl_a  : (c.nextPc ).ctl.a = c.ctl.a := rfl
@[simp] theorem Core_nextPc_ctl_sreg  : (c.nextPc ).ctl.sreg = c.ctl.sreg := rfl
@[simp] theorem Core_nextPc_ctl_ainc  : (c.nextPc ).ctl.ainc = c.ctl.ainc := rfl
@[simp] theorem Core_nextPc_ctl_ctr  : (c.nextPc ).ctl.ctr = c.ctl.ctr := rfl
@[simp] theorem Core_nextPc_ctl_ctx  : (c.nextPc ).ctl.ctx = c.ctl.ctx := rfl
@[simp] theorem Core_nextPc_ctl_calls  : (c.nextPc ).ctl.calls = c.ctl.calls := rfl
@[simp] theorem Core_nextPc_ctl_loops  : (c.nextPc ).ctl.loops = c.ctl.loops := rfl
@[simp] theorem Core_nextPc_ctl_stall  : (c.nextPc ).ctl.stall = c.ctl.stall := rfl
@[simp] theorem Core_nextPc_ctl_stopSeen  : (c.nextPc ).ctl.stopSeen = c.ctl.stopSeen := rfl

/-! ### Core.setCtr -/

@[simp] theorem Core_setCtr_st (i v : Nat) : (c.setCtr i v).st = c.st := rfl
@[simp] theorem Core_setCtr_entry (i v : Nat) : (c.setCtr i v).entry = c.entry := rfl
@[simp] theorem Core_setCtr_lastTenant (i v : Nat) : (c.setCtr i v).lastTenant = c.lastTenant := rfl
@[simp] theorem Core_setCtr_rank (i v : Nat) : (c.setCtr i v).rank = c.rank := rfl
@[simp] theorem Core_setCtr_q (i v : Nat) : (c.setCtr i v).q = c.q := rfl
@[simp] theorem Core_setCtr_acc (i v : Nat) : (c.setCtr i v).acc = c.acc := rfl
@[simp] theorem Core_setCtr_wins (i v : Nat) : (c.setCtr i v).wins = c.wins := rfl
@[simp] theorem Core_setCtr_mem (i v : Nat) : (c.setCtr i v).mem = c.mem := rfl
@[simp] theorem Core_setCtr_engines (i v : Nat) : (c.setCtr i v).engines = c.engines := rfl
@[simp] theorem Core_setCtr_arr (i v : Nat) : (c.setCtr i v).arr = c.arr := rfl
@[simp] theorem Core_setCtr_sp (i v : Nat) : (c.setCtr i v).sp = c.sp := rfl
@[simp] theorem Core_setCtr_prog (i v : Nat) : (c.setCtr i v).prog = c.prog := rfl
@[simp] theorem Core_setCtr_haltRec (i v : Nat) : (c.setCtr i v).haltRec = c.haltRec := rfl
@[simp] theorem Core_setCtr_diag (i v : Nat) : (c.setCtr i v).diag = c.diag := rfl
@[simp] theorem Core_setCtr_ctl_a (i v : Nat) : (c.setCtr i v).ctl.a = c.ctl.a := rfl
@[simp] theorem Core_setCtr_ctl_sreg (i v : Nat) : (c.setCtr i v).ctl.sreg = c.ctl.sreg := rfl
@[simp] theorem Core_setCtr_ctl_ainc (i v : Nat) : (c.setCtr i v).ctl.ainc = c.ctl.ainc := rfl
@[simp] theorem Core_setCtr_ctl_ctx (i v : Nat) : (c.setCtr i v).ctl.ctx = c.ctl.ctx := rfl
@[simp] theorem Core_setCtr_ctl_pc (i v : Nat) : (c.setCtr i v).ctl.pc = c.ctl.pc := rfl
@[simp] theorem Core_setCtr_ctl_calls (i v : Nat) : (c.setCtr i v).ctl.calls = c.ctl.calls := rfl
@[simp] theorem Core_setCtr_ctl_loops (i v : Nat) : (c.setCtr i v).ctl.loops = c.ctl.loops := rfl
@[simp] theorem Core_setCtr_ctl_stall (i v : Nat) : (c.setCtr i v).ctl.stall = c.ctl.stall := rfl
@[simp] theorem Core_setCtr_ctl_stopSeen (i v : Nat) : (c.setCtr i v).ctl.stopSeen = c.ctl.stopSeen := rfl

/-! ### Core.setQueue -/

@[simp] theorem Core_setQueue_st (q : Nat) (l : List QEntry) : (c.setQueue q l).st = c.st := rfl
@[simp] theorem Core_setQueue_entry (q : Nat) (l : List QEntry) : (c.setQueue q l).entry = c.entry := rfl
@[simp] theorem Core_setQueue_lastTenant (q : Nat) (l : List QEntry) : (c.setQueue q l).lastTenant = c.lastTenant := rfl
@[simp] theorem Core_setQueue_rank (q : Nat) (l : List QEntry) : (c.setQueue q l).rank = c.rank := rfl
@[simp] theorem Core_setQueue_ctl (q : Nat) (l : List QEntry) : (c.setQueue q l).ctl = c.ctl := rfl
@[simp] theorem Core_setQueue_acc (q : Nat) (l : List QEntry) : (c.setQueue q l).acc = c.acc := rfl
@[simp] theorem Core_setQueue_wins (q : Nat) (l : List QEntry) : (c.setQueue q l).wins = c.wins := rfl
@[simp] theorem Core_setQueue_mem (q : Nat) (l : List QEntry) : (c.setQueue q l).mem = c.mem := rfl
@[simp] theorem Core_setQueue_engines (q : Nat) (l : List QEntry) : (c.setQueue q l).engines = c.engines := rfl
@[simp] theorem Core_setQueue_arr (q : Nat) (l : List QEntry) : (c.setQueue q l).arr = c.arr := rfl
@[simp] theorem Core_setQueue_sp (q : Nat) (l : List QEntry) : (c.setQueue q l).sp = c.sp := rfl
@[simp] theorem Core_setQueue_prog (q : Nat) (l : List QEntry) : (c.setQueue q l).prog = c.prog := rfl
@[simp] theorem Core_setQueue_haltRec (q : Nat) (l : List QEntry) : (c.setQueue q l).haltRec = c.haltRec := rfl
@[simp] theorem Core_setQueue_diag (q : Nat) (l : List QEntry) : (c.setQueue q l).diag = c.diag := rfl

/-! ### Core.setEngine -/

@[simp] theorem Core_setEngine_st (e : Nat) (g : Engine) : (c.setEngine e g).st = c.st := rfl
@[simp] theorem Core_setEngine_entry (e : Nat) (g : Engine) : (c.setEngine e g).entry = c.entry := rfl
@[simp] theorem Core_setEngine_lastTenant (e : Nat) (g : Engine) : (c.setEngine e g).lastTenant = c.lastTenant := rfl
@[simp] theorem Core_setEngine_rank (e : Nat) (g : Engine) : (c.setEngine e g).rank = c.rank := rfl
@[simp] theorem Core_setEngine_ctl (e : Nat) (g : Engine) : (c.setEngine e g).ctl = c.ctl := rfl
@[simp] theorem Core_setEngine_q (e : Nat) (g : Engine) : (c.setEngine e g).q = c.q := rfl
@[simp] theorem Core_setEngine_acc (e : Nat) (g : Engine) : (c.setEngine e g).acc = c.acc := rfl
@[simp] theorem Core_setEngine_wins (e : Nat) (g : Engine) : (c.setEngine e g).wins = c.wins := rfl
@[simp] theorem Core_setEngine_mem (e : Nat) (g : Engine) : (c.setEngine e g).mem = c.mem := rfl
@[simp] theorem Core_setEngine_arr (e : Nat) (g : Engine) : (c.setEngine e g).arr = c.arr := rfl
@[simp] theorem Core_setEngine_sp (e : Nat) (g : Engine) : (c.setEngine e g).sp = c.sp := rfl
@[simp] theorem Core_setEngine_prog (e : Nat) (g : Engine) : (c.setEngine e g).prog = c.prog := rfl
@[simp] theorem Core_setEngine_haltRec (e : Nat) (g : Engine) : (c.setEngine e g).haltRec = c.haltRec := rfl
@[simp] theorem Core_setEngine_diag (e : Nat) (g : Engine) : (c.setEngine e g).diag = c.diag := rfl

/-! ### Core.setWindow -/

@[simp] theorem Core_setWindow_st (w : Nat) (v : Option Window) : (c.setWindow w v).st = c.st := rfl
@[simp] theorem Core_setWindow_entry (w : Nat) (v : Option Window) : (c.setWindow w v).entry = c.entry := rfl
@[simp] theorem Core_setWindow_lastTenant (w : Nat) (v : Option Window) : (c.setWindow w v).lastTenant = c.lastTenant := rfl
@[simp] theorem Core_setWindow_rank (w : Nat) (v : Option Window) : (c.setWindow w v).rank = c.rank := rfl
@[simp] theorem Core_setWindow_ctl (w : Nat) (v : Option Window) : (c.setWindow w v).ctl = c.ctl := rfl
@[simp] theorem Core_setWindow_q (w : Nat) (v : Option Window) : (c.setWindow w v).q = c.q := rfl
@[simp] theorem Core_setWindow_acc (w : Nat) (v : Option Window) : (c.setWindow w v).acc = c.acc := rfl
@[simp] theorem Core_setWindow_mem (w : Nat) (v : Option Window) : (c.setWindow w v).mem = c.mem := rfl
@[simp] theorem Core_setWindow_engines (w : Nat) (v : Option Window) : (c.setWindow w v).engines = c.engines := rfl
@[simp] theorem Core_setWindow_arr (w : Nat) (v : Option Window) : (c.setWindow w v).arr = c.arr := rfl
@[simp] theorem Core_setWindow_sp (w : Nat) (v : Option Window) : (c.setWindow w v).sp = c.sp := rfl
@[simp] theorem Core_setWindow_prog (w : Nat) (v : Option Window) : (c.setWindow w v).prog = c.prog := rfl
@[simp] theorem Core_setWindow_haltRec (w : Nat) (v : Option Window) : (c.setWindow w v).haltRec = c.haltRec := rfl
@[simp] theorem Core_setWindow_diag (w : Nat) (v : Option Window) : (c.setWindow w v).diag = c.diag := rfl

/-! ### Core.modFlight -/

@[simp] theorem Core_modFlight_st (id : Nat) (f : Flight → Flight) : (c.modFlight id f).st = c.st := rfl
@[simp] theorem Core_modFlight_entry (id : Nat) (f : Flight → Flight) : (c.modFlight id f).entry = c.entry := rfl
@[simp] theorem Core_modFlight_lastTenant (id : Nat) (f : Flight → Flight) : (c.modFlight id f).lastTenant = c.lastTenant := rfl
@[simp] theorem Core_modFlight_rank (id : Nat) (f : Flight → Flight) : (c.modFlight id f).rank = c.rank := rfl
@[simp] theorem Core_modFlight_ctl (id : Nat) (f : Flight → Flight) : (c.modFlight id f).ctl = c.ctl := rfl
@[simp] theorem Core_modFlight_acc (id : Nat) (f : Flight → Flight) : (c.modFlight id f).acc = c.acc := rfl
@[simp] theorem Core_modFlight_wins (id : Nat) (f : Flight → Flight) : (c.modFlight id f).wins = c.wins := rfl
@[simp] theorem Core_modFlight_mem (id : Nat) (f : Flight → Flight) : (c.modFlight id f).mem = c.mem := rfl
@[simp] theorem Core_modFlight_engines (id : Nat) (f : Flight → Flight) : (c.modFlight id f).engines = c.engines := rfl
@[simp] theorem Core_modFlight_arr (id : Nat) (f : Flight → Flight) : (c.modFlight id f).arr = c.arr := rfl
@[simp] theorem Core_modFlight_sp (id : Nat) (f : Flight → Flight) : (c.modFlight id f).sp = c.sp := rfl
@[simp] theorem Core_modFlight_prog (id : Nat) (f : Flight → Flight) : (c.modFlight id f).prog = c.prog := rfl
@[simp] theorem Core_modFlight_haltRec (id : Nat) (f : Flight → Flight) : (c.modFlight id f).haltRec = c.haltRec := rfl
@[simp] theorem Core_modFlight_diag (id : Nat) (f : Flight → Flight) : (c.modFlight id f).diag = c.diag := rfl

/-! ### Reading after an update -/

@[simp] theorem State_core_setCore_same (k : Nat) : (s.setCore k c).core k = c := by
  simp [State.core, State.setCore]

theorem State_core_setCore_ne {j k : Nat} (h : j ≠ k) : (s.setCore k c).core j = s.core j := by
  simp [State.core, State.setCore, Tbl_get_set_ne _ _ h]

@[simp] theorem State_setCore_setCore (k : Nat) (d : Core) : (s.setCore k c).setCore k d = s.setCore k d := by
  simp [State.setCore]

@[simp] theorem State_core_modCore_same (k : Nat) (f : Core → Core) : (s.modCore k f).core k = f (s.core k) := by
  simp [State.modCore]

theorem State_core_modCore_ne {j k : Nat} (f : Core → Core) (h : j ≠ k) : (s.modCore k f).core j = s.core j :=
  State_core_setCore_ne s _ h

@[simp] theorem Core_engine_setEngine_same (e : Nat) (g : Engine) : (c.setEngine e g).engine e = g := by
  simp [Core.engine, Core.setEngine]

theorem Core_engine_setEngine_ne {e x : Nat} (g : Engine) (h : x ≠ e) : (c.setEngine e g).engine x = c.engine x := by
  simp [Core.engine, Core.setEngine, Tbl_get_set_ne _ _ h]

theorem State_due_eq (t : State) (d : Core) (h : t.frameOf d = s.frameOf c) (hs : d.st = c.st) (hc : d.ctl.ctx = c.ctl.ctx)
    (hp : d.ctl.pc = c.ctl.pc) (hr : t.routines = s.routines) : t.due d = s.due c := by
  simp only [State.due, State.code, State.routineFor, h, hs, hc, hp, hr]

/-- What a command answers (R13): its effect when the units it names exist. -/
theorem answer_next {ok : Bool} {t u : State} : answer ok t = .next u ↔ ok = true ∧ u = t := by
  unfold answer
  split <;> simp_all [eq_comm]

/-- A control-core row whose instruction is due and issues (R213, R214). -/
theorem ccIssue_issuing {k : Nat} {i : MInstr} {isOp : MInstr → Bool} {body : MInstr → Core → Core}
    (h : s.issuing k i c) (ho : isOp i = true) : s.ccIssue k isOp body = s.issued k i (s.core k) (body i c) := by
  obtain ⟨_, h1, h2⟩ := h
  unfold State.begins at h2
  unfold State.ccIssue
  simp only [h1, ho, Bool.not_true]
  dsimp only at h2 ⊢
  split at h2 <;> simp_all
  split at h2 <;> simp_all

end Sys2Proof.Machine
end

