-- ==== Sys2Proof/Tests/Slice0.lean ====
section
/-! SUPPORT. Tests: one small state and one command each. Expected results are worked out by hand from the rules that each
test names. The theorems named `witness_…` show states that meet the hypotheses of the statements in Certificates. -/
namespace Sys2Proof.Tests
open Sys2Proof Sys2Proof.Machine
set_option Elab.async false
/-! ### Small states -/

/-- The state after a command, when it answers one. -/
def after (c : Instr) (s : State) : State :=
  match exec c s with
  | .next t => t
  | _ => s

/-- Whether a command answers a next state. -/
def nexts (c : Instr) (s : State) : Bool :=
  match exec c s with
  | .next _ => true
  | _ => false

def isGo : Gate → Bool
  | .go => true
  | _ => false
def isOk {α : Type} : Eff α → Bool
  | .ok _ => true
  | _ => false
theorem go_of {g : Gate} (h : isGo g = true) : g = .go := by cases g <;> simp_all [isGo]
theorem ok_of {α : Type} {e : Eff α} (h : isOk e = true) : ∃ a, e = .ok a := by cases e <;> simp_all [isOk]
theorem except_of {α β : Type} {e : Except α β} (h : e.toOption.isSome = true) : ∃ b, e = .ok b := by
  cases e <;> simp_all [Except.toOption]

/-- An instruction of one word. -/
def ins (op rest : Nat) : MInstr := ⟨BitVec.ofNat 128 (op * 2 ^ 120 + rest), []⟩

/-- The entry of a frame that runs. -/
def entryOf (prog : List MInstr) : Entry :=
  { cseq := 1, stream := 0, incarn := 1, seq := 1, tsid := 1, tenant := 7
    op := .run ⟨[], [], [], 128, 0, 0, 0, 0, 0, []⟩, st := .running, epoch := some 0, status := .done, wreason := 0
    replays := 0, reruns := 0, tadmit := 0, inputOk := true, ipar := ⟨0, 0, 4, 0, 1⟩, rpar := ⟨0, 1, 4, 1, 1⟩, homeHere := true
    away := false, payload := [], port := 0, addr := 0, acked := true, ended := false, parcelOk := false, powered := false
    frame := { FrameRun.fresh with prog := prog, cores := [(0, 0, 0)] }, order := 4 }

/-- A core in RUN with A0 to A3 holding 5, 3, 64 and 128 and every sheet ON. -/
def coreRun : Core :=
  { Core.fresh with
    st := .run, entry := some 1
    ctl := { CtlRegs.fresh with a := [5, 3, 64, 128] ++ List.replicate 12 0 }
    mem := { CoreMem.fresh with sheets := List.replicate 32 .on } }

/-- The package with core 0 as `c` and the frame of `prog` on it. -/
def onCore (prog : List MInstr) (c : Core) : State :=
  { State.reset with entries := [entryOf prog], cores := [(0, c)] }

/-- The package with core 0 in RUN at the first instruction of `prog`. -/
def running (prog : List MInstr) : State := onCore prog coreRun

/-- Register `r` of core 0 after a command. -/
def aAfter (c : Instr) (s : State) (r : Nat) : Word := ((after c s).core 0).a r

/-! ### The control core (R213 to R241) -/

/-- `ADD A4, A0, A1`, then NOP. -/
def addProg : List MInstr := [ins 0x02 (4 * 2 ^ 80 + 0 * 2 ^ 76 + 1 * 2 ^ 72), ins 0 0]

theorem witness_ScalarResults : (running addProg).issuing 0 (ins 0x02 (4 * 2 ^ 80 + 1 * 2 ^ 72)) coreRun := by
  refine ⟨?_, ?_, ?_⟩ <;> decide +kernel

theorem test_add : aAfter (.add 0) (running addProg) 4 = 8 := by decide +kernel
theorem test_add_leaves_sources : aAfter (.add 0) (running addProg) 0 = 5 := by decide +kernel
theorem test_ldi : aAfter (.ldi 0) (running [ins 0x01 (2 ^ 80 * 6 + 2 ^ 66 + 0xFFFFFFFF * 2 ^ 32), ins 0 0]) 6 = 0xFFFFFFFF := by
  decide +kernel
theorem test_sub_wraps : aAfter (.sub 0) (running [ins 0x03 (4 * 2 ^ 80 + 1 * 2 ^ 76 + 0 * 2 ^ 72), ins 0 0]) 4 = 0xFFFFFFFE := by
  decide +kernel
theorem test_shl : aAfter (.shl 0) (running [ins 0x04 (4 * 2 ^ 80 + 2 ^ 66 + 33 * 2 ^ 32), ins 0 0]) 4 = 10 := by decide +kernel
theorem test_shr : aAfter (.shr 0) (running [ins 0x05 (4 * 2 ^ 80 + 3 * 2 ^ 76 + 2 ^ 66 + 3 * 2 ^ 32), ins 0 0]) 4 = 16 := by
  decide +kernel
/-- R229: SRA keeps the sign. A0 is 0x80000000. -/
theorem test_sra : aAfter (.sra 0) (onCore [ins 0x06 (4 * 2 ^ 80 + 2 ^ 66 + 4 * 2 ^ 32), ins 0 0]
    (coreRun.setA 0 0x80000000)) 4 = 0xF8000000 := by decide +kernel
/-- R229: MADD multiplies by the signed 16-bit immediate. 5 + 3 · (−2) is −1. -/
theorem test_madd : aAfter (.madd 0) (running [ins 0x07 (4 * 2 ^ 80 + 1 * 2 ^ 72 + 0xFFFE * 2 ^ 32), ins 0 0]) 4 =
    0xFFFFFFFF := by decide +kernel
/-- R229: MIN and MAX compare signed. -/
theorem test_min : aAfter (.min 0) (running [ins 0x08 (4 * 2 ^ 80 + 2 ^ 66 + 0xFFFFFFFF * 2 ^ 32), ins 0 0]) 4 = 0xFFFFFFFF := by
  decide +kernel
theorem test_max : aAfter (.max 0) (running [ins 0x09 (4 * 2 ^ 80 + 2 ^ 66 + 0xFFFFFFFF * 2 ^ 32), ins 0 0]) 4 = 5 := by
  decide +kernel
theorem test_and : aAfter (.and 0) (running [ins 0x0A (4 * 2 ^ 80 + 1 * 2 ^ 72), ins 0 0]) 4 = 1 := by decide +kernel
theorem test_smov : aAfter (.smov 0) (onCore [ins 0x0B (4 * 2 ^ 80 + 2 * 2 ^ 76), ins 0 0] (coreRun.setS 2 9)) 4 = 9 := by
  decide +kernel
theorem test_qdepth : aAfter (.qdepth 0) (running [ins 0x0C (4 * 2 ^ 80 + 4 * 2 ^ 68), ins 0 0]) 4 = 16 := by decide +kernel
theorem test_cset : ((after (.cset 0) (running [ins 0x0E (7 * 2 ^ 80 + 0x1FFFF * 2 ^ 32), ins 0 0])).core 0).ctr 7 = 65535 := by
  decide +kernel
theorem test_setinc : ((after (.setinc 0) (running [ins 0x0D (6 * 2 ^ 80 + 1 * 2 ^ 68 + 2048 * 2 ^ 32), ins 0 0])).core 0).stride 6 1 =
    2048 := by decide +kernel
/-- R213: an instruction that is not due is not issued. -/
theorem test_not_due : aAfter (.sub 0) (running addProg) 4 = 0 := by decide +kernel
/-- R238: past the last instruction the core halts with PC_RANGE. -/
theorem test_pc_range : (((after (.nop 0) (running [ins 0 0])).core 0).haltRec).map (·.reason) = some 0x08 := by decide +kernel

/-- R214: a wait for C3 ≥ 1 on a NOP. -/
def waitNop : MInstr := ins 0 (2 ^ 119 + 3 * 2 ^ 113 + 1 * 2 ^ 97)
theorem witness_IssueAndWait : coreOk 0 = true ∧ (running [waitNop]).due coreRun = some waitNop ∧ coreRun.ctl.stall = none ∧
    (running [waitNop]).atStop coreRun = none ∧ waitNop.we = true ∧ coreRun.ctr waitNop.wctr < waitNop.wval := by
  decide +kernel
theorem test_wait_stalls : ((after (.nop 0) (running [waitNop])).core 0).ctl.stall = some (.wait 3 1) := by decide +kernel
theorem test_wait_consumes : ((after (.nop 0) (onCore [waitNop, ins 0 0] (coreRun.setCtr 3 2))).core 0).ctr 3 = 1 := by
  decide +kernel
theorem test_wait_satisfied : ((after (.waitSatisfied 0) (onCore [waitNop] { coreRun.setCtr 3 1 with
    ctl := { (coreRun.setCtr 3 1).ctl with stall := some (.wait 3 1) } })).core 0).ctl.stall = some .ready := by decide +kernel
theorem test_wait_timeout : (((after (.waitTimeout 0 0) (onCore [waitNop] { coreRun with
    ctl := { coreRun.ctl with stall := some (.wait 3 1) } })).core 0).haltRec).map (fun r => (r.reason, r.detail)) =
    some (0x0D, 3 * 2 ^ 26 + 1 * 2 ^ 10) := by decide +kernel
theorem test_run_limit : (((after (.runLimit 0) (running [ins 0 0])).core 0).haltRec).map (fun r => (r.reason, r.detail)) =
    some (0x19, 10000) := by decide +kernel
/-- R216: a counter that a signal would take above 65,535 keeps its value, and the core halts. -/
theorem test_signal_overflow : let t := (after (.nop 0) (onCore [ins 0 (2 ^ 96 + 2 * 2 ^ 90), ins 0 0] (coreRun.setCtr 2 65535))).core 0
    t.haltRec.map (·.reason) = some 0x17 ∧ t.ctr 2 = 65535 := by decide +kernel

/-- LOOP 2, its body a NOP, then NOP; A5 gains 16 at each end of the body (R233 to R236). -/
def loopProg : List MInstr := [ins 0x10 (2 ^ 66 + 2 * 2 ^ 32 + 1), ins 0 0, ins 0 0]
def looping : Core := { coreRun with ctl := { coreRun.ctl with ainc := coreRun.ctl.ainc.set 20 16 } }
def inLoop (n : Nat) : Core := { looping with ctl := { looping.ctl with
  pc := 1, loops := [⟨1, 1, n, coreRun.ctl.a⟩] } }
theorem witness_Loops : (onCore loopProg looping).issuing 0 (ins 0x10 (2 ^ 66 + 2 * 2 ^ 32 + 1)) looping ∧
    (onCore loopProg (inLoop 2)).issuing 0 (ins 0 0) (inLoop 2) ∧ (inLoop 2).ownLoop = some ⟨1, 1, 2, coreRun.ctl.a⟩ := by
  refine ⟨⟨?_, ?_, ?_⟩, ⟨?_, ?_, ?_⟩, ?_⟩ <;> decide +kernel
/-- `n` levels are open around the LOOP, each with its last instruction where the new body ends. -/
def deep (n : Nat) : Core := { looping with ctl := { looping.ctl with loops := List.replicate n ⟨0, 1, 2, coreRun.ctl.a⟩ } }
/-- With three levels open a fourth opens, with four none; LBRK is in a loop or in none. -/
theorem witness_Loops_levels : (onCore loopProg (deep 3)).issuing 0 (ins 0x10 (2 ^ 66 + 2 * 2 ^ 32 + 1)) (deep 3) ∧
    (deep 3).ctl.loops.length < 4 ∧ (∀ lv, (deep 3).ownLoop = some lv → 0 + 1 ≤ lv.last) ∧
    (onCore loopProg (deep 4)).issuing 0 (ins 0x10 (2 ^ 66 + 2 * 2 ^ 32 + 1)) (deep 4) ∧ 4 ≤ (deep 4).ctl.loops.length ∧
    (running [ins 0x10 (2 ^ 66 + 1), ins 0 0, ins 0 0]).issuing 0 (ins 0x10 (2 ^ 66 + 1)) coreRun ∧
    (onCore [ins 0 0, ins 0x11 0, ins 0 0] (inLoop 2)).issuing 0 (ins 0x11 0) (inLoop 2) ∧
    (running [ins 0x11 0]).issuing 0 (ins 0x11 0) coreRun ∧ coreRun.ownLoop = none := by
  have h : (deep 3).ownLoop = some ⟨0, 1, 2, coreRun.ctl.a⟩ := by decide +kernel
  refine ⟨⟨?_, ?_, ?_⟩, ?_, fun lv hl => ?_, ⟨?_, ?_, ?_⟩, ?_, ⟨?_, ?_, ?_⟩, ⟨?_, ?_, ?_⟩, ⟨?_, ?_, ?_⟩, ?_⟩
  case refine_5 => rw [h] at hl; cases hl; decide
  all_goals decide +kernel
/-- A body that has run for the last time, and one that runs again. -/
theorem witness_Loops_ends : ({ inLoop 1 with ctl := { (inLoop 1).ctl with pc := 2 } } : Core).ownLoop = some ⟨1, 1, 1, coreRun.ctl.a⟩ ∧
    ({ inLoop 2 with ctl := { (inLoop 2).ctl with pc := 2 } } : Core).ownLoop = some ⟨1, 1, 2, coreRun.ctl.a⟩ := by decide +kernel
theorem test_loop_opens : ((after (.loop 0) (onCore loopProg looping)).core 0).ctl.loops = [⟨1, 1, 2, coreRun.ctl.a⟩] := by
  decide +kernel
theorem test_loop_repeats : let c := (after (.nop 0) (onCore loopProg (inLoop 2))).core 0
    c.ctl.pc = 1 ∧ c.a 5 = 16 ∧ c.ctl.loops.map (·.count) = [1] := by decide +kernel
theorem test_loop_ends : let c := (after (.nop 0) (onCore loopProg (inLoop 1))).core 0
    c.ctl.pc = 2 ∧ c.a 5 = 0 ∧ c.ctl.loops = [] := by decide +kernel
theorem test_loop_zero : ((after (.loop 0) (running [ins 0x10 (2 ^ 66 + 1), ins 0 0, ins 0 0])).core 0).ctl.pc = 2 := by
  decide +kernel
theorem test_lbrk : let c := (after (.lbrk 0) (onCore [ins 0 0, ins 0x11 0, ins 0 0] (inLoop 2))).core 0
    c.ctl.pc = 2 ∧ c.ctl.loops = [] := by decide +kernel
theorem test_lbrk_outside : (((after (.lbrk 0) (running [ins 0x11 0])).core 0).haltRec).map (fun r => (r.reason, r.detail)) =
    some (0x0B, 0x30000000) := by decide +kernel

/-- BR when A0 ≠ A1, two instructions on. -/
def brProg : List MInstr := [ins 0x12 (0 * 2 ^ 76 + 1 * 2 ^ 72 + 2 * 2 ^ 68 + 2), ins 0 0, ins 0 0]
theorem witness_BranchesAndCalls : (running brProg).issuing 0 (ins 0x12 (1 * 2 ^ 72 + 2 * 2 ^ 68 + 2)) coreRun ∧
    coreRun.ctl.calls.length < 8 := by refine ⟨⟨?_, ?_, ?_⟩, ?_⟩ <;> decide +kernel
/-- A taken branch to the last index, and one past it; in a loop body to its end, and beyond. -/
theorem witness_BranchesAndCalls_targets : (running [ins 0x12 1, ins 0 0]).issuing 0 (ins 0x12 1) coreRun ∧
    (running [ins 0x12 2, ins 0 0]).issuing 0 (ins 0x12 2) coreRun ∧
    (onCore [ins 0 0, ins 0x12 1, ins 0 0] (inLoop 2)).issuing 0 (ins 0x12 1) (inLoop 2) ∧
    (onCore [ins 0 0, ins 0x12 2, ins 0 0] (inLoop 2)).issuing 0 (ins 0x12 2) (inLoop 2) := by
  refine ⟨⟨?_, ?_, ?_⟩, ⟨?_, ?_, ?_⟩, ⟨?_, ?_, ?_⟩, ⟨?_, ?_, ?_⟩⟩ <;> decide +kernel
theorem test_br_taken : ((after (.br 0) (running brProg)).core 0).ctl.pc = 2 := by decide +kernel
theorem test_br_not_taken : ((after (.br 0) (running [ins 0x12 (1 * 2 ^ 72 + 1 * 2 ^ 68 + 2), ins 0 0, ins 0 0])).core 0).ctl.pc = 1 := by
  decide +kernel
theorem test_ret : ((after (.ret 0) (onCore [ins 0x14 0, ins 0 0] { coreRun with
    ctl := { coreRun.ctl with calls := [⟨0, 0, 0⟩] } })).core 0).ctl.pc = 1 := by decide +kernel
theorem test_ret_outside : (((after (.ret 0) (running [ins 0x14 0])).core 0).haltRec).map (fun r => (r.reason, r.detail)) =
    some (0x0C, 0x20000000) := by decide +kernel
theorem test_halt : ((after (.halt 0) (running [ins 0x15 0])).core 0).st = .ended := by decide +kernel
/-- R239: routine 9 of the tenant, current since commit 0. -/
def withRoutine (s : State) : State :=
  { s with routines := [⟨9, 7, 15, some 1, [⟨1, 1, [ins 0x14 0], 0, none, 1, [(0, 0)], [], 0⟩], []⟩] }
def callI : MInstr := ins 0x13 (9 * 2 ^ 32)
def calling (n : Nat) : Core := { coreRun with ctl := { coreRun.ctl with calls := List.replicate n ⟨0, 0, 0⟩ } }
/-- CALL where the routine is, where it is not, seven and eight deep, and while the directory is rebuilt; RET at depth 0, and
with a loop open. -/
theorem witness_BranchesAndCalls_calls :
    (withRoutine (onCore [callI, ins 0 0] (calling 7))).issuing 0 callI (calling 7) ∧ (calling 7).ctl.calls.length < 8 ∧
    ((withRoutine (running [callI])).routineFor (entryOf [callI]) 9).isSome = true ∧ (running [callI]).routineFor (entryOf [callI]) 9 = none ∧
    (running [callI]).frameOf coreRun = some (entryOf [callI]) ∧
    (withRoutine (onCore [callI, ins 0 0] (calling 8))).issuing 0 callI (calling 8) ∧ 8 ≤ (calling 8).ctl.calls.length ∧
    (at' State.reset.dsm 0 (Dsm.fresh false)).rebuild = false ∧ (at' (State.reset.dsm.map (fun d => { d with rebuild := true })) 0 (Dsm.fresh false)).rebuild = true ∧
    (onCore [ins 0x14 0, ins 0 0] (calling 1)).issuing 0 (ins 0x14 0) (calling 1) ∧ (running [ins 0x14 0]).issuing 0 (ins 0x14 0) coreRun ∧
    (running [ins 0x15 0]).issuing 0 (ins 0x15 0) coreRun := by
  refine ⟨⟨?_, ?_, ?_⟩, ?_, ?_, ?_, ?_, ⟨?_, ?_, ?_⟩, ?_, ?_, ?_, ⟨?_, ?_, ?_⟩, ⟨?_, ?_, ?_⟩, ⟨?_, ?_, ?_⟩⟩ <;> decide +kernel
theorem test_call_waits : ((after (.call 0) { withRoutine (running [callI, ins 0 0]) with
    dsm := State.reset.dsm.map (fun d => { d with rebuild := true }) }).core 0).ctl.pc = 0 := by decide +kernel
theorem test_call : let c := (after (.call 0) (withRoutine (running [ins 0x13 (9 * 2 ^ 32), ins 0 0]))).core 0
    c.ctl.ctx = 9 ∧ c.ctl.pc = 0 ∧ c.ctl.calls = [⟨0, 0, 0⟩] := by decide +kernel

/-- WINDOW 2: 4 lines from line 8, counter 6 (R165, R222). -/
def winProg : List MInstr := [ins 0x17 (6 * 2 ^ 80 + 2 * 2 ^ 68 + (3 * 65536 + 8) * 2 ^ 32), ins 0 0]
def windowed : Core := coreRun.setWindow 2 (some ⟨8, 4, 6, 0⟩)
def grantProg (n : Nat) : List MInstr := [ins 0x18 (2 * 2 ^ 68 + 2 ^ 66 + n * 2 ^ 32), ins 0 0]
theorem witness_SheetsAndWindows : (running winProg).issuing 0 (ins 0x17 (6 * 2 ^ 80 + 2 * 2 ^ 68 + (3 * 65536 + 8) * 2 ^ 32)) coreRun ∧
    (running winProg).inFlight 0 2 = false ∧ (onCore (grantProg 4) windowed).issuing 0 (ins 0x18 (2 * 2 ^ 68 + 2 ^ 66 + 4 * 2 ^ 32)) windowed := by
  refine ⟨⟨?_, ?_, ?_⟩, ?_, ?_, ?_, ?_⟩ <;> decide +kernel
/-- A window that ends with the scratchpad; credit of the whole window, beyond it, and none; no window; a sheet that was ON, and
one that was OFF. -/
theorem witness_SheetsAndWindows_clauses : (running [ins 0x17 (6 * 2 ^ 80 + 7 * 2 ^ 68 + 32767 * 2 ^ 32), ins 0 0]).issuing 0
      (ins 0x17 (6 * 2 ^ 80 + 7 * 2 ^ 68 + 32767 * 2 ^ 32)) coreRun ∧
    (∀ m ∈ sheetsOf (32767 * 64) 64, coreRun.sheet m ≠ .off) ∧
    (onCore [ins 0x17 (10 * 2 ^ 68), ins 0 0] windowed).issuing 0 (ins 0x17 (10 * 2 ^ 68)) windowed ∧
    (onCore (grantProg 5) windowed).issuing 0 (ins 0x18 (2 * 2 ^ 68 + 2 ^ 66 + 5 * 2 ^ 32)) windowed ∧
    (onCore (grantProg 0) windowed).issuing 0 (ins 0x18 (2 * 2 ^ 68 + 2 ^ 66)) windowed ∧
    (running (grantProg 4)).issuing 0 (ins 0x18 (2 * 2 ^ 68 + 2 ^ 66 + 4 * 2 ^ 32)) coreRun ∧ coreRun.window 2 = none ∧
    coreRun.sheet 31 ≠ .off ∧ Core.fresh.sheet 31 = .off ∧ coreRun.mem.sheets.length = 32 ∧ Mem.wf coreRun.mem.spad = true := by
  refine ⟨⟨?_, ?_, ?_⟩, ?_, ⟨?_, ?_, ?_⟩, ⟨?_, ?_, ?_⟩, ⟨?_, ?_, ?_⟩, ⟨?_, ?_, ?_⟩, ?_, ?_, ?_, ?_, ?_⟩ <;> decide +kernel
theorem test_window : ((after (.windowDeclare 0) (running winProg)).core 0).window 2 = some ⟨8, 4, 6, 0⟩ := by decide +kernel
theorem test_window_undeclare : ((after (.windowUndeclare 0) (onCore [ins 0x17 (10 * 2 ^ 68), ins 0 0] windowed)).core 0).window 2 =
    none := by decide +kernel
theorem test_grant : ((after (.grant 0) (onCore (grantProg 4) windowed)).core 0).window 2 = some ⟨8, 4, 6, 4⟩ := by decide +kernel
theorem test_grant_beyond : let c := (after (.grant 0) (onCore (grantProg 5) windowed)).core 0
    c.window 2 = some ⟨8, 4, 6, 0⟩ ∧ c.haltRec.map (·.reason) = some 0x02 := by decide +kernel
theorem test_sheets : let c := (after (.sheets 0) (running [ins 0x16 (2 ^ 66 + 2 * 2 ^ 32), ins 0 0])).core 0
    c.sheet 1 = .on ∧ c.sheet 2 = .off := by decide +kernel

/-! ### Queued instructions (R220, R242 to R246) -/

/-- A push of `ACCBASE 31` by the control core. -/
def accbase31 : MInstr := ins 0x20 (2 ^ 66 + 31 * 2 ^ 32)
def qent (i : MInstr) : QEntry := ⟨i, coreRun.ctl.a, 0, 0, 0, none⟩
/-- Core `c` whose queue 1 holds `n` entries. -/
def filled (n : Nat) : Core := coreRun.setQueue 1 (List.replicate n (qent accbase31))
theorem witness_QueuedPush : (onCore [accbase31, ins 0 0] (filled 63)).issuing 0 accbase31 (filled 63) ∧
    hasOp 0x20 accbase31 = true ∧ ((filled 63).queue 1).length < queueDepth 1 := by
  refine ⟨⟨?_, ?_, ?_⟩, ?_, ?_⟩ <;> decide +kernel
theorem witness_QueuedPush_full : (onCore [accbase31, ins 0 0] (filled 64)).issuing 0 accbase31 (filled 64) ∧
    queueDepth 1 ≤ ((filled 64).queue 1).length := by
  refine ⟨⟨?_, ?_, ?_⟩, ?_⟩ <;> decide +kernel
theorem test_push : let c := (after (.accbase 0 .issue) (onCore [accbase31, ins 0 0] (filled 63))).core 0
    (c.queue 1).length = 64 ∧ c.ctl.pc = 1 ∧ c.acc.accBase = 0 := by decide +kernel
theorem test_push_overrun : let c := (after (.accbase 0 .issue) (onCore [accbase31, ins 0 0] (filled 64))).core 0
    c.haltRec.map (fun r => (r.reason, r.detail)) = some (0x0A, 0x10000000) := by decide +kernel

/-- Core `c` with `i` started, its effect due. -/
def flown (i : MInstr) (c : Core) : Core :=
  { c with q := { c.q with
    flights := [⟨0, queueOf i.op, qent i, false, [], isMacro i.op, false, none, none⟩]
    nextId := 1 } }
def theFlight (i : MInstr) : Flight := ⟨0, queueOf i.op, qent i, false, [], isMacro i.op, false, none, none⟩
def tm0 : Timing := ⟨[], 0, 0, [], ⟨[], [], []⟩⟩
/-- The package whose core 0 is `c`, with `i` started. -/
def queued (i : MInstr) (c : Core) : State := onCore [i, ins 0 0] (flown i c)

/-- R116: `ACCBASE` takes sheets 0 to 31. -/
theorem witness_RegionAndConfiguration : (queued accbase31 coreRun).effective 0 tm0 (hasOp 0x20) (theFlight accbase31) ∧
    (queued (ins 0x80 (3 * 2 ^ 54 + 2 * 2 ^ 50 + 9 * 2 ^ 18)) coreRun).effective 0 tm0 (hasOp 0x80)
      (theFlight (ins 0x80 (3 * 2 ^ 54 + 2 * 2 ^ 50 + 9 * 2 ^ 18))) := by
  refine ⟨⟨?_, ?_, ?_, ?_⟩, ⟨?_, ?_, ?_, ?_⟩⟩ <;> decide +kernel
theorem test_accbase : ((after (.accbase 0 (.run tm0)) (queued accbase31 coreRun)).core 0).acc.accBase = 31 := by decide +kernel
theorem test_accbase_beyond : (((after (.accbase 0 (.run tm0)) (queued (ins 0x20 (2 ^ 66 + 32 * 2 ^ 32)) coreRun)).core 0).haltRec).map
    (·.reason) = some 0x02 := by decide +kernel
theorem test_accstride : ((after (.accstride 0 (.run tm0)) (queued (ins 0x21 (2 ^ 66 + 16 * 2 ^ 32)) coreRun)).core 0).acc.accStride = 16 := by
  decide +kernel
theorem test_accslots : ((after (.accslots 0 (.run tm0)) (queued (ins 0x22 (2 ^ 66 + 1024 * 2 ^ 32)) coreRun)).core 0).acc.accSlots =
    1024 := by decide +kernel
theorem test_accslots_beyond : (((after (.accslots 0 (.run tm0)) (queued (ins 0x22 (2 ^ 66 + 1025 * 2 ^ 32)) coreRun)).core 0).haltRec).map
    (·.reason) = some 0x02 := by decide +kernel
/-- R98, R227: CFG of ACT for engines 0 and 1. -/
theorem test_cfg : let c := (after (.cfg 0 (.run tm0)) (queued (ins 0x80 (3 * 2 ^ 54 + 2 * 2 ^ 50 + 9 * 2 ^ 18)) coreRun)).core 0
    (c.engine 1).nu.act = 9 ∧ (c.engine 2).nu.act = 0 := by decide +kernel

/-- Byte 64 of the scratchpad is 0x80, byte 65 is 7, and byte 576 is 3; their lines have the tags 1 and 2. -/
def loaded : Core := { coreRun with mem := { coreRun.mem with spad := [(64, 0x80), (65, 7), (576, 3)], lineTag := [(1, 1), (9, 2)] } }
theorem loaded_clean (a n : Nat) (h : a + n ≤ 65536) : loaded.clean a n := by
  refine ⟨by omega, ?_, by intro w hw; exact absurd hw (by simp [loaded, coreRun, CoreMem.fresh])⟩
  intro m hm
  have : m < 32 := by
    simp only [sheetsOf] at hm
    split at hm
    · simp at hm
    · simp only [tabulate, List.mem_map, List.mem_range] at hm
      omega
  exact (by decide +kernel : ∀ m, m < 32 → loaded.sheet m = .on) m this
/-- TXFER of two rows from A2 = 64, the second 512 bytes on, into rows 62 and 63 of tile register 1. -/
def txferIn : MInstr := ins 0x24 (2 * 2 ^ 81 + 1 * 2 ^ 77 + 62 * 2 ^ 71 + 1 * 2 ^ 65 + 8 * 2 ^ 50)
def vxferOut : MInstr := ins 0x40 (2 ^ 85 + 2 * 2 ^ 81 + 1 * 2 ^ 77 + 62 * 2 ^ 71 + 0 * 2 ^ 65 + 8 * 2 ^ 50)
theorem witness_Transfers : (queued txferIn loaded).effective 0 tm0 (hasOp 0x24) (theFlight txferIn) ∧ txferIn.xDIR = false ∧
    (theFlight txferIn).ent.reg txferIn.xRA = 64 ∧ txferIn.xROW + txferIn.xNROWS = 64 ∧
    (∀ j, j < txferIn.xNROWS → loaded.clean (64 + 64 * j * txferIn.xSTRIDE) 512) ∧
    (queued vxferOut loaded).effective 0 tm0 (hasOp 0x40) (theFlight vxferOut) ∧ vxferOut.xDIR = true ∧ vxferOut.xSLT = false := by
  refine ⟨⟨?_, ?_, ?_, ?_⟩, ?_, ?_, ?_, ?_, ⟨?_, ?_, ?_, ?_⟩, ?_, ?_⟩
  · decide +kernel
  · decide +kernel
  · decide +kernel
  · decide +kernel
  · decide +kernel
  · decide +kernel
  · decide +kernel
  · intro j hj
    have h2 : txferIn.xNROWS = 2 := by decide +kernel
    have h8 : txferIn.xSTRIDE = 8 := by decide +kernel
    rw [h2] at hj
    rw [h8]
    exact loaded_clean _ _ (by omega)
  all_goals decide +kernel
theorem test_txfer_in : let c := (after (.txfer 0 (.run tm0)) (queued txferIn loaded)).core 0
    Mem.read c.mem.treg (tregAddr 1 62 + 1) = 7 ∧ Mem.read c.mem.treg (tregAddr 1 63) = 3 ∧ c.rowTag 1 62 = 1 ∧ c.rowTag 1 63 = 2 := by
  decide +kernel
theorem test_vxfer_out : let c := (after (.vxfer 0 (.run tm0)) (queued vxferOut { loaded with
    mem := { loaded.mem with treg := [(tregAddr 1 62 + 5, 9)] } })).core 0
    Mem.read c.mem.spad 69 = 9 ∧ Mem.read c.mem.spad 65 = 0 ∧ Mem.read c.mem.spad 576 = 3 := by decide +kernel
theorem test_txfer_beyond : (((after (.txfer 0 (.run tm0)) (queued (ins 0x24 (2 * 2 ^ 81 + 63 * 2 ^ 71 + 1 * 2 ^ 65)) loaded)).core 0).haltRec).map
    (·.reason) = some 0x03 := by decide +kernel

/-- CCOUNT of the 64 INT8 elements from A2: those less than 1 (62 zeros and −128) go to S3. -/
def ccountLt : MInstr := ins 0x41 (2 * 2 ^ 82 + 64 * 2 ^ 58 + 4 * 2 ^ 54 + 2 * 2 ^ 51 + 3 * 2 ^ 48 + 1 * 2 ^ 16)
theorem witness_CompareAndCount : (queued ccountLt loaded).effective 0 tm0 (hasOp 0x41) (theFlight ccountLt) ∧
    Fmt.ofCode ccountLt.cFMT = some .int8 ∧ (theFlight ccountLt).ent.reg ccountLt.cRA = 64 ∧ 0 < ccountLt.cE ∧
    loaded.clean 64 (rowLines ccountLt.cE Fmt.int8.width * 64) := by
  refine ⟨⟨?_, ?_, ?_, ?_⟩, ?_, ?_, ?_, ?_⟩
  all_goals first
    | exact loaded_clean _ _ (by decide +kernel)
    | decide +kernel
theorem test_ccount : ((after (.ccount 0 (.run tm0)) (queued ccountLt loaded)).core 0).sr 3 = 63 := by decide +kernel
theorem test_ccount_empty : ((after (.ccount 0 (.run tm0)) (queued (ins 0x41 (2 * 2 ^ 82 + 4 * 2 ^ 54 + 3 * 2 ^ 48))
    (loaded.setS 3 5))).core 0).sr 3 = 0 := by decide +kernel

/-! ### Vector macros (R292 to R313) -/

/-- A TENSOR word in tile registers: format, base register, rows, columns, row stride. -/
def tensor (fmt base maxr maxc rstr : Nat) : Word128 :=
  BitVec.ofNat 128 (2 * 2 ^ 124 + fmt * 2 ^ 118 + base * 2 ^ 113 + maxr * 2 ^ 57 + maxc * 2 ^ 33 + rstr * 2 ^ 7)
/-- A VEC of operation `vop` on one row of two INT8 columns: sources at A2 (register 1) and A3 (register 2), the
destination at A4 (register 0). -/
def vecI (vop fd : Nat) : MInstr :=
  ⟨BitVec.ofNat 128 (0x48 * 2 ^ 120 + 3 * 2 ^ 56 + vop * 2 ^ 48), [tensor 4 2 1 2 1, tensor 4 3 1 2 1, tensor fd 4 1 2 1]⟩
def vecU (op vop fa fd : Nat) : MInstr :=
  ⟨BitVec.ofNat 128 (op * 2 ^ 120 + 2 * 2 ^ 56 + vop * 2 ^ 48), [tensor fa 2 1 2 1, tensor fd 4 1 2 1]⟩
/-- Register 1 holds 100 and −2, register 2 holds 100 and 3, as INT8. -/
def lanes : Core := { coreRun with mem := { coreRun.mem with
  treg := [(tregAddr 1 0, 100), (tregAddr 1 0 + 1, 0xFE), (tregAddr 2 0, 100), (tregAddr 2 0 + 1, 3)]
  rowTag := [(64, 1), (128, 2)] } }
def lane (c : Instr) (i : MInstr) (a : Nat) : Byte := Mem.read ((after c (queued i lanes)).core 0).mem.treg (tregAddr 0 0 + a)

theorem witness_VectorRowsComplete : (queued (vecI 0x01 4) lanes).effective 0 tm0 (isVec 0x01) (theFlight (vecI 0x01 4)) ∧
    (theFlight (vecI 0x01 4)).zero = false ∧ lanes.mem.tregBad = [] ∧
    colsOf (theFlight (vecI 0x01 4)).ent.tens = 2 ∧ rowsOf (theFlight (vecI 0x01 4)).ent.tens = 1 := by
  refine ⟨⟨?_, ?_, ?_, ?_⟩, ?_, ?_, ?_, ?_⟩ <;> decide +kernel
/-- R300: an INT8 sum saturates at 127. -/
theorem test_vec_add : lane (.vecAdd 0 (.run tm0)) (vecI 0x01 4) 0 = 127 ∧ lane (.vecAdd 0 (.run tm0)) (vecI 0x01 4) 1 = 1 := by
  decide +kernel
theorem test_vec_mul : lane (.vecMul 0 (.run tm0)) (vecI 0x02 4) 0 = 127 ∧ lane (.vecMul 0 (.run tm0)) (vecI 0x02 4) 1 = 0xFA := by
  decide +kernel
theorem test_vec_min : lane (.vecMin 0 (.run tm0)) (vecI 0x04 4) 1 = 0xFE := by decide +kernel
theorem test_vec_max : lane (.vecMax 0 (.run tm0)) (vecI 0x05 4) 1 = 3 := by decide +kernel
/-- R300: a comparison gives 1 where it holds and 0 where it does not. -/
theorem test_cmpeq : lane (.cmpeq 0 (.run tm0)) (vecI 0x08 5) 0 = 1 ∧ lane (.cmpeq 0 (.run tm0)) (vecI 0x08 5) 1 = 0 := by
  decide +kernel
theorem test_cmplt : lane (.cmplt 0 (.run tm0)) (vecI 0x0A 5) 1 = 1 := by decide +kernel
theorem test_cmpne : lane (.cmpne 0 (.run tm0)) (vecI 0x09 5) 0 = 0 ∧ lane (.cmpne 0 (.run tm0)) (vecI 0x09 5) 1 = 1 := by decide +kernel
theorem test_cmple : lane (.cmple 0 (.run tm0)) (vecI 0x0B 5) 0 = 1 ∧ lane (.cmple 0 (.run tm0)) (vecI 0x0B 5) 1 = 1 := by decide +kernel
theorem test_cmpgt : lane (.cmpgt 0 (.run tm0)) (vecI 0x0C 5) 0 = 0 ∧ lane (.cmpgt 0 (.run tm0)) (vecI 0x0C 5) 1 = 0 := by decide +kernel
theorem test_cmpge : lane (.cmpge 0 (.run tm0)) (vecI 0x0D 5) 0 = 1 ∧ lane (.cmpge 0 (.run tm0)) (vecI 0x0D 5) 1 = 0 := by decide +kernel
/-- Register 0 holds 10 in column 1, and register 2 holds 0 there. -/
def lanesD : Core := { lanes with mem := { lanes.mem with treg := [(1, 10), (tregAddr 1 0, 100), (tregAddr 1 0 + 1, 0xFE), (tregAddr 2 0, 100)] } }
/-- R300: −2 · 0 + 10 is 10; SELECT keeps the destination where B is 0. -/
theorem test_vec_fma : Mem.read ((after (.vecFma 0 (.run tm0)) (queued (vecI 0x03 4) lanesD)).core 0).mem.treg 1 = 10 := by decide +kernel
theorem test_select : let c := (after (.select 0 (.run tm0)) (queued (vecI 0x0E 4) lanesD)).core 0
    Mem.read c.mem.treg 0 = 100 ∧ Mem.read c.mem.treg 1 = 10 := by decide +kernel
/-- R90: INT8 to UINT8 saturates at 0. -/
theorem test_convert : lane (.convert 0 (.run tm0)) (vecU 0x48 0x10 4 5) 0 = 100 ∧ lane (.convert 0 (.run tm0)) (vecU 0x48 0x10 4 5) 1 = 0 := by
  decide +kernel
/-- FP32 column 0 of register 1 holds a number whose two high bytes are `h` and `l`. -/
def fpLane (h l : Byte) : Core := { coreRun with mem := { coreRun.mem with treg := [(tregAddr 1 0 + 2, l), (tregAddr 1 0 + 3, h)] } }
def fpAfter (c : Instr) (vop : Nat) (h l : Byte) : Byte × Byte :=
  let m := ((after c (queued (vecU 0x48 vop 12 12) (fpLane h l))).core 0).mem.treg
  (Mem.read m 3, Mem.read m 2)
/-- R300: 2^1 is 2, 1/2 is 0.5, 1/√4 is 0.5. -/
theorem test_exp2 : fpAfter (.exp2 0 (.run tm0)) 0x11 0x3F 0x80 = (0x40, 0) := by decide +kernel
theorem test_recip : fpAfter (.recip 0 (.run tm0)) 0x12 0x40 0 = (0x3F, 0) := by decide +kernel
theorem test_rsqrt : fpAfter (.rsqrt 0 (.run tm0)) 0x13 0x40 0x80 = (0x3F, 0) := by decide +kernel
/-- R310: a column that the element mask clears is not written. -/
theorem test_vec_masked : let c := (after (.vecAdd 0 (.run tm0)) (queued (vecI 0x01 4) { lanes with
    mem := { lanes.mem with elemMask := 2 } })).core 0
    Mem.read c.mem.treg (tregAddr 0 0) = 0 ∧ Mem.read c.mem.treg (tregAddr 0 0 + 1) = 1 := by decide +kernel

def emaskI : MInstr := ⟨BitVec.ofNat 128 (0x48 * 2 ^ 120 + 2 * 2 ^ 56 + 0x18 * 2 ^ 48), [tensor 5 2 1 3 1, tensor 5 4 1 3 1]⟩
theorem witness_MasksAndReductions : (queued emaskI lanes).effective 0 tm0 (isVec 0x18) (theFlight emaskI) ∧
    (queued (vecU 0x49 (2 * 64 + 8 + 5) 4 4) lanes).effective 0 tm0 (isRed 1) (theFlight (vecU 0x49 (2 * 64 + 8 + 5) 4 4)) ∧
    (theFlight emaskI).zero = false ∧ lanes.mem.tregBad = [] := by
  refine ⟨⟨?_, ?_, ?_, ?_⟩, ⟨?_, ?_, ?_, ?_⟩, ?_, ?_⟩ <;> decide +kernel
theorem test_emask : ((after (.emask 0 (.run tm0)) (queued emaskI lanes)).core 0).mem.elemMask = 3 := by decide +kernel
/-- REDUCE MAX along both axes, its result to S5 too. -/
theorem test_reduce_max : ((after (.reduceMax 0 (.run tm0)) (queued (vecU 0x49 (2 * 64 + 8 + 5) 4 4) lanes)).core 0).sr 5 = 100 := by
  decide +kernel

/-- R306, R309: the sum of 100 and −2, the count of elements that are not 0, and the first of the greatest with its index. -/
def redS (c : Instr) (rop fd r : Nat) : Word := ((after c (queued (vecU 0x49 (2 * 64 + 8 * rop + 5) 4 fd) lanes)).core 0).sr r
theorem test_reduce_min : redS (.reduceMin 0 (.run tm0)) 2 4 5 = 0xFFFFFFFE := by decide +kernel
theorem test_reduce_sum : redS (.reduceSum 0 (.run tm0)) 0 13 5 = 98 := by decide +kernel
theorem test_reduce_count : redS (.reduceCount 0 (.run tm0)) 3 13 5 = 2 := by decide +kernel
theorem test_reduce_top1 : redS (.reduceTop1 0 (.run tm0)) 4 4 5 = 100 ∧ redS (.reduceTop1 0 (.run tm0)) 4 4 6 = 0 := by decide +kernel

/-! ### Sends, emits and macros -/

/-- SEND of one line from A2 to rank 0, window 2, line 3. -/
def sendI : MInstr := ins 0x60 (0 * 2 ^ 76 + 2 * 2 ^ 73 + 3 * 2 ^ 58 + 0 * 2 ^ 43 + 2 * 2 ^ 39)
def wide : Core := loaded.setWindow 2 (some ⟨100, 4, 6, 1⟩)
/-- EMIT of one line from A2 = 64 to offset A2 of the result. -/
def emitI : MInstr := ins 0x61 (2 * 2 ^ 82 + 2 * 2 ^ 78)
theorem witness_SendsAndEmits : (queued sendI wide).effective 0 tm0 (hasOp 0x60) (theFlight sendI) ∧
    (queued sendI wide).coreOfRank (flown sendI wide) sendI.dDRANK = some 0 ∧ (queued sendI wide).substOn 0 none = none ∧
    (queued sendI wide).depositFault 0 0 sendI.dWIN sendI.dWOFF sendI.dLEN = none ∧
    (queued emitI loaded).effective 0 tm0 (hasOp 0x61) (theFlight emitI) ∧
    ((queued emitI loaded).frameOf (flown emitI loaded)).isSome = true := by
  refine ⟨⟨?_, ?_, ?_, ?_⟩, ?_, ?_, ?_, ⟨?_, ?_, ?_, ?_⟩, ?_⟩ <;> decide +kernel
/-- The destination's engine or core is being replaced; its window is not declared; it runs another frame. A line past the
result, and one emitted before. -/
theorem witness_SendsAndEmits_halts :
    ({ queued sendI wide with maps := { State.reset.maps with subst := [⟨3, 0, 0, 0⟩] } } : State).substOn 0 none = some 3 ∧
    ((queued sendI loaded).depositFault 0 0 sendI.dWIN sendI.dWOFF sendI.dLEN).isSome = true ∧
    (let s := ({ queued ⟨sendI.head + BitVec.ofNat 128 (2 ^ 76), []⟩ wide with
        entries := [{ entryOf [] with frame := { (entryOf []).frame with cores := [(0, 0, 0), (1, 0, 1)] } }] } : State);
      s.coreOfRank (s.core 0) 1 = some 1 ∧ (s.core 1).entry ≠ (s.core 0).entry ∧ s.substOn 1 none = none) ∧
    (∀ l ∈ tabulate emitI.eLEN (fun j => 64 / 64 + j), l * 64 + 64 ≤ 128) ∧ loaded.clean 64 (emitI.eLEN * 64) ∧
    ([2].find? (fun l => decide (128 < l * 64 + 64) || ([] : List Nat).contains l)) = some 2 ∧
    ([1].find? (fun l => decide (128 < l * 64 + 64) || [1].contains l)) = some 1 := by
  refine ⟨?_, ?_, ⟨?_, ?_, ?_⟩, ?_, loaded_clean _ _ (by decide +kernel), ?_, ?_⟩ <;> decide +kernel
theorem test_send : (after (.send 0 (.run tm0)) (queued sendI wide)).deposits.map (fun d => (d.dests, d.win, d.off, d.lines)) =
    [([0], 2, 3, 1)] := by decide +kernel
theorem test_emit : ((after (.emit 0 (.run tm0)) (queued emitI loaded)).entries.map (fun e => (e.frame.emitted, e.frame.rtag))) =
    [([1], 1)] := by decide +kernel
/-- R246: line 2 ends at 192, past the result's 128 bytes. -/
theorem test_emit_range : (((after (.emit 0 (.run tm0)) (queued (ins 0x61 (2 * 2 ^ 82 + 3 * 2 ^ 78)) loaded)).core 0).haltRec).map
    (fun r => (r.reason, r.detail)) = some (0x18, 0x10000002) := by decide +kernel

/-- Placement 5: one INT8 block on plane 0 of engine 0 of core 0. -/
def plc : Placement :=
  { handle := 5, tenant := 7, wfmt := .int8, bwth := 0, replica := none, kp := 512, np := 32
    spans := [⟨0, 0, 0, 0, 0, false, 0, 31, 0, 0⟩], cores := [0], psig := ⟨[], 0, []⟩, tables := [⟨0, 4, [1, 2, 3]⟩], region := []
    gold := [], goldOk := 2, copies := ⟨[], 0, [], 0, [], 0, [], []⟩, rowsAt := [], replicaAt := 0, wkey := 0, commit := 0, removed := none, notes := [], patched := [], digest := 0, pool := 0, tabBytes := 0
    patch := [], reply := [], retiring := false }
/-- The package with placement 5 in the frame of core 0. -/
def placed (s : State) : State :=
  { s with placements := [plc], entries := s.entries.map (fun e => { e with
    op := .run ⟨[5], [], [], 128, 0, 0, 0, 0, 0, []⟩, frame := { e.frame with places := [5] } }) }
/-- A MATMUL of one vector: X at A2 in a tile register, PLAN with one vector of 32 INT8 outputs at A3, no group. -/
def matmulI : MInstr := ⟨BitVec.ofNat 128 (0x28 * 2 ^ 120 + 5 * 2 ^ 70 + 3 * 2 ^ 56),
  [tensor 4 2 1 512 1, BitVec.ofNat 128 (3 * 2 ^ 92 + 32 * 2 ^ 51 + 4 * 2 ^ 47), BitVec.ofNat 128 0]⟩
/-- A MOVE of one row of 64 bytes to the line at A3. -/
def moveI : MInstr := ⟨BitVec.ofNat 128 (0x68 * 2 ^ 120 + 2 * 2 ^ 56),
  [BitVec.ofNat 128 (1 * 2 ^ 124 + 4 * 2 ^ 118 + 2 * 2 ^ 113 + 1 * 2 ^ 57 + 64 * 2 ^ 33 + 1 * 2 ^ 7), BitVec.ofNat 128 (3 * 2 ^ 120)]⟩
def zeroed (i : MInstr) (c : Core) : Core := { c with q := { c.q with flights := [{ theFlight i with zero := true }] } }
theorem witness_MatrixMacros : (placed (queued matmulI coreRun)).effective 0 tm0 (hasOp 0x28) (theFlight matmulI) ∧
    (theFlight matmulI).zero = false ∧ ((theFlight matmulI).ent.red 3).split = false ∧
    ((placed (queued matmulI coreRun)).namedPlacement (flown matmulI coreRun) 5).toOption.map (·.handle) = some 5 ∧
    (queued moveI coreRun).effective 0 tm0 (hasOp 0x68) (theFlight moveI) ∧
    (onCore [moveI] (zeroed moveI coreRun)).effective 0 tm0 (hasOp 0x68) { theFlight moveI with zero := true } ∧
    ((theFlight moveI).ent.mov 2).mcast = 0 := by
  refine ⟨⟨?_, ?_, ?_, ?_⟩, ?_, ?_, ?_, ⟨?_, ?_, ?_, ?_⟩, ⟨?_, ?_, ?_, ?_⟩, ?_⟩ <;> decide +kernel
/-- A DMATMUL, a WPLANE and a COMBINE of placement 5. -/
def dmatmulI : MInstr := ⟨BitVec.ofNat 128 (0x29 * 2 ^ 120 + 5 * 2 ^ 70 + 3 * 2 ^ 56),
  [tensor 4 2 1 512 1, tensor 4 2 512 32 1, BitVec.ofNat 128 (3 * 2 ^ 92 + 32 * 2 ^ 51 + 4 * 2 ^ 47)]⟩
def wplaneM : MInstr := ⟨BitVec.ofNat 128 (0x2A * 2 ^ 120 + 5 * 2 ^ 70 + 1 * 2 ^ 56), [tensor 4 2 1 32 1]⟩
def combineI : MInstr := ⟨BitVec.ofNat 128 (0x2B * 2 ^ 120 + 5 * 2 ^ 70 + 2 * 2 ^ 56),
  [BitVec.ofNat 128 (3 * 2 ^ 92 + 32 * 2 ^ 51 + 4 * 2 ^ 47), BitVec.ofNat 128 0]⟩
theorem witness_MatrixMacros_rows : (placed (queued dmatmulI coreRun)).effective 0 tm0 (hasOp 0x29) (theFlight dmatmulI) ∧
    (placed (queued wplaneM coreRun)).effective 0 tm0 (hasOp 0x2A) (theFlight wplaneM) ∧
    (placed (queued combineI coreRun)).effective 0 tm0 (hasOp 0x2B) (theFlight combineI) ∧
    coreRun.window ((theFlight combineI).ent.red 2).win = none ∧
    outAllowed ((theFlight combineI).ent.red 2).pfp (theFlight combineI).plan.yfmt = true ∧
    (onCore [matmulI] (zeroed matmulI coreRun)).effective 0 tm0 (hasOp 0x28) { theFlight matmulI with zero := true } ∧
    (onCore [dmatmulI] (zeroed dmatmulI coreRun)).effective 0 tm0 (hasOp 0x29) { theFlight dmatmulI with zero := true } ∧
    (onCore [wplaneM] (zeroed wplaneM coreRun)).effective 0 tm0 (hasOp 0x2A) { theFlight wplaneM with zero := true } ∧
    (onCore [combineI] (zeroed combineI coreRun)).effective 0 tm0 (hasOp 0x2B) { theFlight combineI with zero := true } := by
  refine ⟨⟨?_, ?_, ?_, ?_⟩, ⟨?_, ?_, ?_, ?_⟩, ⟨?_, ?_, ?_, ?_⟩, ?_, ?_, ⟨?_, ?_, ?_, ?_⟩, ⟨?_, ?_, ?_, ?_⟩, ⟨?_, ?_, ?_, ?_⟩,
    ⟨?_, ?_, ?_, ?_⟩⟩ <;> decide +kernel
/-- A combine whose partials lie in window 0, which is declared. -/
def combining : Core := { coreRun with acc := { coreRun.acc with accSlots := 1 } }.setEngine 0
  { Engine.fresh with nu := { NearUnit.fresh with outctl := 0x40 } }
theorem witness_MatrixMacros_combine : let c := (flown combineI combining).setWindow 0 (some ⟨64, 64, 6, 0⟩)
    let f := theFlight combineI
    c.window (f.ent.red 2).win = some ⟨64, 64, 6, 0⟩ ∧
    ∃ c1, combineAll f plc 0 ⟨64, 64, 6, 0⟩ ((combineUnits f.ent plc 0).flatMap (fun q =>
      (List.range (actualLen f.plan.rowLen none f.plan.pm)).map (fun m => (q.1, q.2, m)))) c = .ok c1 := by
  refine ⟨?_, ok_of ?_⟩ <;> decide +kernel
/-- R98, R99, R101, R227: a table of zero points, one of thresholds that do not rise, and a bank that is active. -/
def cfgT (item tidx : Nat) : MInstr := ins 0x80 (1 * 2 ^ 54 + item * 2 ^ 50 + 5 * 2 ^ 34 + tidx * 2 ^ 18)
def tabled (i : MInstr) : State :=
  { placed (queued i coreRun) with placements := [{ plc with tables := [⟨0, 1, [7]⟩, ⟨1, 5, [2, 1]⟩] }] }
theorem witness_RegionAndConfiguration_tables : (tabled (cfgT 1 0)).effective 0 tm0 (hasOp 0x80) (theFlight (cfgT 1 0)) ∧
    (∃ pl, (tabled (cfgT 1 0)).namedPlacement ((tabled (cfgT 1 0)).core 0) (cfgT 1 0).gHANDLE = .ok pl) ∧ (cfgT 1 0).gTIDX = 0 ∧
    (tabled (cfgT 5 1)).effective 0 tm0 (hasOp 0x80) (theFlight (cfgT 5 1)) ∧
    loadFault [(coreRun.engine 0).nu] 1 [7] = none ∧ (loadFault [(coreRun.engine 0).nu] 5 [2, 1]).isSome = true ∧
    (coreRun.engine 0).nu.bankB = false ∧
    (queued (ins 0x20 (2 ^ 66 + 32 * 2 ^ 32)) coreRun).effective 0 tm0 (hasOp 0x20) (theFlight (ins 0x20 (2 ^ 66 + 32 * 2 ^ 32))) ∧
    (queued (ins 0x21 (2 ^ 66)) coreRun).effective 0 tm0 (hasOp 0x21) (theFlight (ins 0x21 (2 ^ 66))) ∧
    (queued (ins 0x22 (2 ^ 66 + 1024 * 2 ^ 32)) coreRun).effective 0 tm0 (hasOp 0x22) (theFlight (ins 0x22 (2 ^ 66 + 1024 * 2 ^ 32))) ∧
    (queued (ins 0x22 (2 ^ 66 + 1025 * 2 ^ 32)) coreRun).effective 0 tm0 (hasOp 0x22) (theFlight (ins 0x22 (2 ^ 66 + 1025 * 2 ^ 32))) := by
  refine ⟨⟨?_, ?_, ?_, ?_⟩, except_of ?_, ?_, ⟨?_, ?_, ?_, ?_⟩, ?_, ?_, ?_, ⟨?_, ?_, ?_, ?_⟩, ⟨?_, ?_, ?_, ?_⟩, ⟨?_, ?_, ?_, ?_⟩,
    ⟨?_, ?_, ?_, ?_⟩⟩ <;> decide +kernel
theorem test_cfg_table : let c := (after (.cfg 0 (.run tm0)) (tabled (cfgT 1 0))).core 0
    (c.engine 0).nu.zp = [7] ∧ (c.engine 1).nu.zp = [] := by decide +kernel
/-- R277, R289: one pen-tile load and one pass; one field tile. -/
theorem test_matmul : ((after (.matmul 0 (.run tm0)) (placed (queued matmulI coreRun))).core 0).q.flights.map (·.todo) =
    [[.pen 0 0 0 [0], .pass [⟨0, 0, 0, 32, 0, false⟩] 0 0 0 0 0 3 0 [0]]] := by decide +kernel
theorem test_move : ((after (.move 0 (.run tm0)) (queued moveI coreRun)).core 0).q.flights.map (·.todo) =
    [[.field 0 1 0 1 true]] := by decide +kernel

/-! ### Queue heads, completions, waits and halts (R214 to R217, R241, R243, R247) -/

/-- TXFER that waits for C4 ≥ 2. -/
def waitX : MInstr := ⟨txferIn.head + BitVec.ofNat 128 (2 ^ 119 + 4 * 2 ^ 113 + 2 * 2 ^ 97), []⟩
def headed (i : MInstr) (n : Nat) : Core := (coreRun.setQueue (queueOf i.op) [qent i]).setCtr 4 n
/-- The core whose started `i` has done all it does. -/
def done (i : MInstr) (c : Core) : Core :=
  { c with q := { c.q with flights := [{ theFlight i with ran := true, atHead := false }], nextId := 1 } }
theorem witness_QueueHeadsAndCompletions : (onCore [] (headed waitX 2)).core 0 = headed waitX 2 ∧ (headed waitX 2).live = true ∧
    (headed waitX 2).headEntry 1 = some (qent waitX) ∧ waitX.we = true ∧ waitX.wval = 2 ∧ (headed waitX 2).ctr waitX.wctr = 2 ∧
    isMacro waitX.op = false ∧ isMacro matmulI.op = true ∧
    (onCore [] (done txferIn coreRun)).flightDone 0 (done txferIn coreRun) { theFlight txferIn with ran := true, atHead := false } = true ∧
    ∃ c1, closeRuns ((done txferIn coreRun).acc.runs.filter (fun r => r.flight == 0)) (done txferIn coreRun) = .ok c1 := by
  refine ⟨?_, ?_, ?_, ?_, ?_, ?_, ?_, ?_, ?_, ok_of ?_⟩ <;> decide +kernel
theorem test_head_waits : ((after (.queueHeadStart 0 1) (onCore [] (headed waitX 1))).core 0).q.flights = [] := by decide +kernel
theorem test_head_starts : let c := (after (.queueHeadStart 0 1) (onCore [] (headed waitX 2))).core 0
    c.ctr 4 = 0 ∧ c.queue 1 = [] ∧ c.q.flights.map (fun f => (f.id, f.q, f.atHead)) = [(0, 1, false)] := by decide +kernel
/-- R243: a macro holds the head. Placement 5 is not in this frame's list: PLACEMENT_DENIED, cause 1. -/
theorem test_head_denied : (((after (.queueHeadStart 0 1) (onCore [] (headed matmulI 0))).core 0).haltRec).map (fun r => (r.reason, r.detail)) =
    some (0x07, 0x00050010) := by decide +kernel
/-- R215: the completion signals: C6 gains SINC + 1 = 3. -/
theorem test_completion_signals : let c := (after (.instructionComplete 0 0) (onCore [] (done
      ⟨txferIn.head + BitVec.ofNat 128 (2 ^ 96 + 6 * 2 ^ 90 + 2 * 2 ^ 86), []⟩ coreRun))).core 0
    c.ctr 6 = 3 ∧ c.q.flights = [] := by decide +kernel

theorem witness_WaitsAndHalts : coreOk 511 = true ∧ ({ coreRun with ctl := { coreRun.ctl with stall := some (.wait 3 1) } } : Core).ctr 3 < 1 ∧
    (headed waitX 1).headEntry 1 = some (qent waitX) ∧ (headed waitX 1).ctr 4 < 2 ∧ coreRun.live = true := by decide +kernel
/-- A core that a fence holds, and one whose cluster is being replaced: the cycles do not count. -/
theorem witness_WaitsAndHalts_counts : (running []).counts 0 = true ∧
    (onCore [] { coreRun with q := { coreRun.q with flights := [{ theFlight matmulI with fence := some (0, 0) }] } }).counts 0 = false ∧
    ({ running [] with maps := { State.reset.maps with subst := [⟨4, 15, 0, 0⟩] } } : State).counts 0 = false := by decide +kernel
theorem test_queue_wait_timeout : (((after (.waitTimeout 0 1) (onCore [] (headed waitX 1))).core 0).haltRec).map
    (fun r => (r.reason, r.detail)) = some (0x0D, 4 * 2 ^ 26 + 2 * 2 ^ 10) := by decide +kernel
/-- R247: a halt discards the queues and leaves the other cores alone. -/
theorem test_halt_discards : let s := onCore [] (headed waitX 1)
    ((s.haltCore 0 0 7 0 0x02 9).core 0).queue 1 = [] ∧ ((s.haltCore 0 0 7 0 0x02 9).core 0).haltRec = some ⟨0, 7, 0x02, 0, 0, 9⟩ := by
  decide +kernel

/-! ### Passes, tiles, rows and drains -/

/-- A plane of placement 5 that is LIVE with weight 2 for row 0 and output 0, and its engine. -/
def livePlane : Plane :=
  { Plane.fresh with st := .live, wfmt := some .int8, tenant := some 7, spans := [⟨5, 0, 31, 0, 0⟩], rows := [(0, rowWithResidue .int8 2)] }
def withPlane (p : Plane) (c : Core) : Core := c.setEngine 0 ((c.engine 0).setPlane 0 p)
def passCmd : DCmd := .pass [⟨0, 0, 0, 32, 0, false⟩] 0 0 0 0 0 3 0 [0]
/-- The flight of a MATMUL whose next command is `d`. -/
def flightAt (i : MInstr) (d : DCmd) : Flight := { theFlight i with ran := true, atHead := true, todo := [d] }
def atCmd (i : MInstr) (d : DCmd) (c : Core) : Core := { c with q := { c.q with flights := [flightAt i d], nextId := 1 } }
def passing (p : Plane) : State :=
  placed (onCore [matmulI] (atCmd matmulI passCmd (withPlane p { coreRun with mem := { coreRun.mem with treg := [(0, 3)] } })))
def ptm : PassTiming := ⟨true, 0, 0, ⟨[], [], []⟩⟩
theorem witness_Passes : ((passing livePlane).core 0).live = true ∧
    ((passing livePlane).core 0).drover (fun d => match d with
      | .pass _ _ _ _ _ _ _ _ _ => true
      | _ => false) = some (flightAt matmulI passCmd, passCmd, []) ∧
    (∃ pl, (passing livePlane).namedPlacement ((passing livePlane).core 0) 5 = .ok pl) ∧
    (passing livePlane).passGate ((passing livePlane).core 0) 0 (flightAt matmulI passCmd) ((flightAt matmulI passCmd).geo plc 0) 5
      [⟨0, 0, 0, 32, 0, false⟩] 0 0 0 3 = .go ∧
    ((passing livePlane).powerGate 0 [⟨0, 0, 0, 32, 0, false⟩] 0 ptm).2 = true := by
  refine ⟨?_, ?_, except_of ?_, go_of ?_, ?_⟩ <;> decide +kernel
/-- A pass that waits for the result set, one at a FENCED plane, met now or before, one of a format that is no input, and one
whose start the die's part of the envelope does not allow. -/
def passGateOf (p : Plane) (f : Core → Core) (i : MInstr) : Gate :=
  let s := placed (onCore [i] (f (atCmd i passCmd (withPlane p coreRun))))
  s.passGate (s.core 0) 0 (flightAt i passCmd) ((flightAt i passCmd).geo plc 0) 5 [⟨0, 0, 0, 32, 0, false⟩] 0 0 0 3
def isFence : Gate → Bool
  | .fence 0 0 => true
  | _ => false
def isStop : Gate → Bool
  | .stop 0x10 _ => true
  | _ => false
def isWait : Gate → Bool
  | .wait => true
  | _ => false
/-- The MATMUL with an X of ACC32. -/
def matmulAcc : MInstr := ⟨matmulI.head, [tensor 13 2 1 512 1] ++ matmulI.desc.tail⟩
theorem witness_Passes_gates : isWait (passGateOf livePlane (fun c => { c with diag := true }) matmulI) = true ∧
    isFence (passGateOf { livePlane with st := .fenced } id matmulI) = true ∧ (flightAt matmulI passCmd).fence.isSome = false ∧
    isStop (passGateOf livePlane id matmulAcc) = true := by decide +kernel
theorem test_pass_issue : let t := after (.passIssue 0 ptm) (passing livePlane)
    (t.core 0).acc.passes.map (fun p => (p.lead, p.res.mode, p.members.map (fun m => m.2.1.headD 0))) = [(0, 3, [3])] ∧
      (t.die 0).starts = 1 := by decide +kernel
/-- The same, of a placement whose passes take 10 µJ each. -/
def costly : State := { passing livePlane with placements := [{ plc with psig := ⟨List.replicate 9 10000000, 0, []⟩ }] }
theorem witness_Passes_power : costly.overPart 0 (passEnergy { plc with psig := ⟨List.replicate 9 10000000, 0, []⟩ } .int8 .int8 1) = true ∧
    isGo (costly.passGate (costly.core 0) 0 (flightAt matmulI passCmd) ((flightAt matmulI passCmd).geo plc 0) 5
      [⟨0, 0, 0, 32, 0, false⟩] 0 0 0 3) = true := by decide +kernel
theorem test_pass_held : let t := after (.passIssue 0 ptm) costly
    t.yoke.regs.powerHold = 1 ∧ t.yoke.held = [0] ∧ (t.core 0).acc.passes.length = 0 := by decide +kernel

/-- A result set of the MATMUL's flight in mode `mode`. -/
def resOf (mode : Nat) (outs : List Word) : Result := ⟨outs, false, 1, mode, 4, 0, 8, 0, 0, 0, 0, 0, 32, [0], 0⟩
/-- A pass in flight on engine 0 with input 3 for row 0. -/
def thePass : PassRun := ⟨0, [(⟨0, 0, 0, 32, 0, false⟩, [3], [])], false, 1, resOf 0 []⟩
def resulting (p : Plane) : State :=
  onCore [matmulI] (atCmd matmulI passCmd (withPlane p { coreRun with acc := { coreRun.acc with passes := [thePass] } }))
def badPlane : Plane := { livePlane with rows := [(0, 2)] }
theorem witness_PassResults : coreOk 0 = true ∧ engineOk 31 = true ∧ ((resulting livePlane).core 0).acc.passes.find? (fun p => p.lead == 0) = some thePass ∧
    (((resulting livePlane).core 0).engine 0).active = none ∧
    (((resulting livePlane).core 0).memberResult false 32 [] (⟨0, 0, 0, 32, 0, false⟩, [3], [])).2.1 = true ∧
    (((resulting badPlane).core 0).memberResult false 32 [] (⟨0, 0, 0, 32, 0, false⟩, [3], [])).2.1 = false := by decide +kernel
theorem test_pass_result : ((((after (.passResultComplete 0 ⟨0, []⟩) (resulting livePlane)).core 0).engine 0).active).map
    (fun r => (r.outs.headD 0, r.tag)) = some (6, 1) := by decide +kernel
/-- R68: a row whose residue is wrong fences the plane and halts with BELLWETHER. -/
theorem test_bellwether : let c := (after (.passResultComplete 0 ⟨0, []⟩) (resulting badPlane)).core 0
    c.haltRec.map (·.reason) = some 0x20 ∧ ((c.engine 0).plane 0).st = .fenced ∧ c.arr.bwCount = 1 := by decide +kernel

/-- A WPLANE of placement 5 from W at A2 in a tile register; its next command writes row 0 of plane 7 of engine 0. -/
def wplaneI : MInstr := ⟨BitVec.ofNat 128 (0x2A * 2 ^ 120 + 5 * 2 ^ 70 + 1 * 2 ^ 56), [tensor 4 2 1 32 1]⟩
def rowCmd : DCmd := .rowWrite 0 0 0 0 0 true
def dynPlane : Plane := { livePlane with spans := [], dyn := some 5, written := 6, tag := 2 }
def rowing : State :=
  placed (onCore [wplaneI] (atCmd wplaneI rowCmd (withPlane dynPlane { coreRun with mem := { coreRun.mem with
    treg := [(tregAddr 1 0, 9)], rowTag := [(64, 1)] } })))
def penCmd : DCmd := .pen 0 0 0 [0]
def matmulSp : MInstr := ⟨matmulI.head, [BitVec.ofNat 128 (4 * 2 ^ 118 + 2 * 2 ^ 113 + 1 * 2 ^ 57 + 512 * 2 ^ 33 + 8 * 2 ^ 7)] ++ matmulI.desc.tail⟩
def penning : State := placed (onCore [matmulSp] (atCmd matmulSp penCmd loaded))
def fieldCmd : DCmd := .field 0 1 0 1 true
/-- A MOVE of one line at A2 = 64 to the line at A3 = 128. -/
def moveSp : MInstr := ⟨moveI.head, [BitVec.ofNat 128 (4 * 2 ^ 118 + 2 * 2 ^ 113 + 1 * 2 ^ 57 + 64 * 2 ^ 33 + 1 * 2 ^ 7), BitVec.ofNat 128 (3 * 2 ^ 120)]⟩
def fielding : State := onCore [moveSp] (atCmd moveSp fieldCmd loaded)
theorem witness_TilesAndRows : (rowing.core 0).drover (fun d => match d with
      | .rowWrite _ _ _ _ _ _ => true
      | _ => false) = some (flightAt wplaneI rowCmd, rowCmd, []) ∧
    rowing.conflictStop (some 1) tm0 = none ∧ ((rowing.core 0).engine 0).plane 0 = dynPlane ∧
    (rowing.frameOf (rowing.core 0)).map (fun e => e.frame.places) = some [5] ∧
    isOk ((rowing.core 0).dynSource ((flightAt wplaneI rowCmd).ent.ten 1) 32 32 0 0 0) = true ∧
    (penning.core 0).drover (fun d => match d with
      | .pen _ _ _ _ => true
      | _ => false) = some (flightAt matmulSp penCmd, penCmd, []) ∧
    (fielding.core 0).drover (fun d => match d with
      | .field _ _ _ _ _ => true
      | _ => false) = some (flightAt moveSp fieldCmd, fieldCmd, []) ∧
    isOk (fielding.moveRows (flightAt moveSp fieldCmd) ((flightAt moveSp fieldCmd).ent.ten 1) 1 64 0 1 1 0 (fielding.core 0)) = true := by
  refine ⟨?_, ?_, ?_, ?_, ?_, ?_, ?_, ?_⟩ <;> decide +kernel
/-- A pen-tile load whose lines can be read; field tiles that store, that go to WORK and that are cast to core 0. -/
def castI : MInstr := ⟨moveSp.head, [moveSp.desc.headD 0, BitVec.ofNat 128 (4 * 2 ^ 120 + 2 ^ 62 + 2 * 2 ^ 59)]⟩
def workI : MInstr := ⟨moveSp.head, [moveSp.desc.headD 0, BitVec.ofNat 128 (2 ^ 124 + 4 * 2 ^ 120)]⟩
def moved (i : MInstr) (c : Core) : Eff (Core × List (Nat × Nat × List Byte × Nat)) :=
  let s := onCore [i] (atCmd i fieldCmd c)
  s.moveRows (flightAt i fieldCmd) ((flightAt i fieldCmd).ent.ten 1) 1 64 0 1 1 0 (s.core 0)
theorem witness_TilesAndRows_moves : penning.conflictStop (some 1) tm0 = none ∧
    loaded.clean (((flightAt matmulSp penCmd).ent.ten 1).view.row 0 + 0) (penPart ((flightAt matmulSp penCmd).ent.ten 1) 0).2 ∧
    ((flightAt moveSp fieldCmd).ent.mov 2).mcast = 0 ∧ ((flightAt moveSp fieldCmd).ent.mov 2).dwork = false ∧
    fielding.castWaits 0 0 = false ∧ ((flightAt workI fieldCmd).ent.mov 2).dwork = true ∧
    isOk ((moved moveSp loaded).bind (fun q => putLines ((flightAt moveSp fieldCmd).ent.mov 2) q.2 q.1)) = true ∧
    isOk (moved workI loaded) = true ∧ ((flightAt castI fieldCmd).ent.mov 2).mcast ≠ 0 ∧
    isOk ((moved castI wide).bind (fun q => ((onCore [castI] (atCmd castI fieldCmd wide)).setCore 0 q.1).castTile 0 (flightAt castI fieldCmd)
      ((flightAt castI fieldCmd).ent.mov 2) q.2 true)) = true := by
  refine ⟨?_, loaded_clean _ _ ?_, ?_, ?_, ?_, ?_, ?_, ?_, ?_, ?_⟩ <;> decide +kernel
theorem test_field_cast : let t := after (.fieldTile 0 ⟨0, tm0⟩) (onCore [castI] (atCmd castI fieldCmd wide))
    Mem.read (t.core 0).mem.spad (100 * 64 + 1) = 7 ∧ (t.core 0).ctr 6 = 1 := by decide +kernel
theorem test_row_write : let p := (((after (.dynamicRowWrite 0 tm0) rowing).core 0).engine 0).plane 0
    p.written = 1 ∧ p.tag = 1 ∧ Tbl.num p.rows 0 = rowWithResidue .int8 9 := by decide +kernel
/-- R274: the pen tile of one vector lies in register `PTR` = 0. -/
theorem test_pen_tile : let c := (after (.penTileLoad 0 tm0) penning).core 0
    Mem.read c.mem.treg 1 = 7 ∧ c.rowTag 0 0 = 1 ∧ c.q.flights.map (fun f => (f.todo, f.atHead)) = [([], false)] := by decide +kernel
theorem test_field_tile : let c := (after (.fieldTile 0 ⟨5, tm0⟩) fielding).core 0
    Mem.read c.mem.spad 129 = 7 ∧ c.lineTags 128 64 = 1 ∧ c.prog.coalesced = 5 := by decide +kernel

def openRun : Run := ⟨0, [0], 4, 0, 8, [5, 6], false, 0⟩
/-- The run to which the results belong, open on engine 0. -/
def anOpen : OpenRun := ⟨0, [0], 4, 0⟩
/-- Core 0 with a result in the active or the shadow set of engine 0. -/
def resultIn (active shadow : Option Result) (runs : List Run) : State :=
  onCore [matmulI] (let c := atCmd matmulI passCmd { coreRun with acc := { coreRun.acc with runs := runs, opens := [anOpen], nextRun := 1 } }
    c.setEngine 0 { c.engine 0 with active := active, shadow := shadow })
theorem witness_ResultSetsAndDrains : (((resultIn (some (resOf 0 [1, 2])) none []).core 0).engine 0).active = some (resOf 0 [1, 2]) ∧
    (((resultIn none (some (resOf 1 [1, 2])) [openRun]).core 0).engine 0).shadow = some (resOf 1 [1, 2]) ∧
    ((resultIn none (some (resOf 1 [1, 2])) [openRun]).core 0).runOf 0 = some openRun ∧
    ((resultIn none none []).core 0).runOf 0 = none := by decide +kernel
theorem test_swap : let c := (after (.resultSetSwap 0 0 9) (resultIn (some (resOf 0 [1, 2])) none [])).core 0
    (c.engine 0).active = none ∧ (c.engine 0).shadow = some (resOf 0 [1, 2]) ∧ c.arr.drainWait = 9 := by decide +kernel
theorem test_swap_waits : (((after (.resultSetSwap 0 0 9) (resultIn (some (resOf 0 [1])) (some (resOf 0 [2])) [])).core 0).engine 0).active =
    some (resOf 0 [1]) := by decide +kernel
theorem test_drain_init : let c := (after (.drain 0 ⟨0, tm0⟩) (resultIn none (some (resOf 0 [1, 2])) [])).core 0
    c.acc.runs.map (·.sums) = [[1, 2]] ∧ (c.slotEntry 4).tag = 1 ∧ (c.engine 0).shadow = none := by decide +kernel
theorem test_drain_add : ((after (.drain 0 ⟨0, tm0⟩) (resultIn none (some (resOf 1 [1, 0xFFFFFFFF])) [openRun])).core 0).acc.runs.map (·.sums) =
    [[6, 5]] := by decide +kernel

/-! ### Deposits and sheets (R155, R167, R169) -/

/-- Core 1 of the frame, with window 2 of four lines from line 100, counter 6. -/
def receiver : Core := { coreRun.setWindow 2 (some ⟨100, 4, 6, 0⟩) with rank := 1 }
/-- A SEND of one line from byte 64 of core 0 to line 3 of the window of core 1. -/
def theDep (credited : Bool) : Deposit := ⟨0, .core 0 0, [1], 2, 3, 1, some 64, [], credited, true⟩
def depositing (credited : Bool) (v : Nat) : State :=
  { onCore [sendI] (flown sendI loaded) with cores := [(0, flown sendI loaded), (1, receiver.setCtr 6 v)], deposits := [theDep credited], nextDep := 1 }
theorem witness_DepositsAndSheets : (depositing true 65534).deposits.find? (fun x => x.id == 0 && x.credited) = some (theDep true) ∧
    (depositing true 65534).depositPath (theDep true) = true ∧ ((depositing true 65534).core 1).window 2 = some ⟨100, 4, 6, 0⟩ ∧
    (100 + 3 + 1) * 64 ≤ 2097152 ∧ (∀ m ∈ sheetsOf ((100 + 3) * 64) 64, ((depositing true 65534).core 1).sheet m = .on) ∧
    ((depositing true 65534).core 1).live = true ∧ ((depositing true 65534).core 1).ctr 6 < 65535 ∧
    (depositing false 0).deposits.find? (fun x => x.id == 0 && !x.credited) = some (theDep false) ∧
    ((depositing false 0).core 0).q.flights.find? (fun f => f.id == 0) = some (theFlight sendI) := by
  refine ⟨?_, ?_, ?_, ?_, ?_, ?_, ?_, ?_, ?_⟩ <;> decide +kernel
/-- A deposit that waits for credit, of a multicast and of a hub; a sender that a diagnosis of its cluster's spare holds. -/
def waitingDep (d : DepSrc) : State :=
  { depositing false 0 with deposits := [{ theDep false with src := d }] }
theorem witness_DepositsAndSheets_timeouts : (depositing false 0).depositCounts (theDep false) = true ∧
    (waitingDep (.multicast 0 0)).depositCounts { theDep false with src := .multicast 0 0 } = true ∧
    (waitingDep (.hub 1)).depositCounts { theDep false with src := .hub 1 } = true ∧
    ({ depositing false 0 with maps := { State.reset.maps with subst := [⟨3, 1, 0, 0⟩] } } : State).depositCounts (theDep false) = false ∧
    (depositing true 0).depositBefore (theDep true) = false ∧ (31 : Nat) < (coreRun.mem.sheets).length := by decide +kernel
theorem witness_DepositsAndSheets_source : (((depositing true 65534).enter 0 tm0).core 0).clean 64 64 := by
  refine ⟨by decide, ?_, ?_⟩ <;> decide +kernel
theorem test_deposit_lands : let t := after (.depositLand ⟨0, tm0⟩) (depositing true 65534)
    Mem.read (t.core 1).mem.spad (103 * 64 + 1) = 7 ∧ (t.core 1).ctr 6 = 65535 ∧ (t.core 1).lineTags (103 * 64) 64 = 1 ∧
      t.deposits.length = 0 := by decide +kernel
theorem test_credit_timeout : let t := after (.creditTimeout 0) (depositing false 0)
    (t.core 0).haltRec.map (fun r => (r.reason, r.detail)) = some (0x09, 2 ^ 28 + 2 * 2 ^ 25) ∧ t.deposits.length = 0 := by
  decide +kernel
theorem test_sheet_wake : ((after (.sheetWakeDone 0 31) (onCore [] { coreRun with mem := { coreRun.mem with
    sheets := List.replicate 31 .retention ++ [.waking] } })).core 0).sheet 31 = .on := by decide +kernel

/-! ### Frames (R179, R219, R247, R248, R251, R359, R361) -/

/-- A RUN of placement 5 with 65 bytes of input, two lines of which are delivered. -/
def runBody : RunBody := ⟨[5], [], 3 :: List.replicate 64 1, 128, 2, 8192, 0, 0, 0, []⟩
/-- An image whose only instruction is HALT. -/
def haltImage : List Byte := leBytes 16 (2 ^ 112 + 2 ^ 80) ++ leBytes 16 (0x15 * 2 ^ 120)
def entryAs (st : EntrySt) : Entry := { entryOf [ins 0x15 0] with op := .run runBody, st := st, cseq := 1 }
/-- The package with placement 5, the entry `e` and the core `c`. -/
def framed (e : Entry) (c : Core) : State :=
  { State.reset with placements := [plc], entries := [e], cores := [(0, c)], secure := { State.reset.secure with sessions := [⟨1, 7, none, 5⟩] } }
def starting : State := framed (entryAs .running) { Core.fresh with st := .starting, entry := some 1, ctl := coreRun.ctl }
def unbound (image : List Byte) : Entry := { entryAs .admitted with op := .run { runBody with image := image }, epoch := none, inputOk := false }
def haltedCore : Core := { coreRun with st := .halted, haltRec := some ⟨0, 3, 0x02, 0, 0, 9⟩ }
theorem witness_FramesBeginAndStop : starting.entry? 1 = some (entryAs .running) ∧
    (entryAs .running).frame.cores.findIdx? (fun x => x.1 == 0) = some 0 ∧ (starting.core 0).st = .starting ∧
    (framed (unbound haltImage) Core.fresh).entry? 1 = some (unbound haltImage) ∧
    (framed (unbound haltImage) Core.fresh).runsHere (unbound haltImage) = true ∧
    (framed (unbound haltImage) Core.fresh).cancelDue (unbound haltImage) = false ∧
    (∃ x, translate false haltImage = .ok x) ∧ (translate false []).toOption.isNone = true ∧
    (framed (unbound haltImage) Core.fresh).bindFault [5] 7 0 = none ∧
    ((framed (entryAs .running) (receiver.setWindow 0 (some ⟨0, 2, 1, 2⟩))).hasCredit 0 0 2) = true ∧
    (entryAs .running).entryCore = some 0 ∧ ((framed (entryAs .running) haltedCore).core 0).haltRec.isSome = true := by
  refine ⟨?_, ?_, ?_, ?_, ?_, ?_, except_of ?_, ?_, ?_, ?_, ?_, ?_⟩ <;> decide +kernel
/-- A frame of cores 0 and 1, the second of which is in state `st`. -/
def startingTwo (st : RunSt) : State :=
  { framed { entryAs .running with frame := { (entryAs .running).frame with cores := [(0, 0, 0), (1, 0, 1)] } } Core.fresh with
    cores := [(0, { Core.fresh with st := .starting, entry := some 1 }), (1, { Core.fresh with st := st, entry := some 1 })] }
/-- RS of die 0 is full of one version. -/
def fullStore : State := { framed (unbound haltImage) Core.fresh with
  routines := [⟨9, 7, 1, some 1, [⟨1, 720896, [ins 0x14 0], 0, none, 1, [(0, 0)], [], 0⟩], []⟩] }
theorem witness_FramesBeginAndStop_clauses : (∀ j ∈ (startingTwo .armed).coresOf 1, j ≠ 0 → ((startingTwo .armed).core j).st = .armed) ∧
    1 ∈ (startingTwo .starting).coresOf 1 ∧ ((startingTwo .starting).core 1).st ≠ .armed ∧
    ((framed (unbound haltImage) Core.fresh).programRuns (ceilDiv haltImage.length 64) [0]).isSome = true ∧
    fullStore.programRuns (ceilDiv haltImage.length 64) [0] = none ∧
    (({ framed (unbound haltImage) Core.fresh with placements := [] } : State).bindFault [5] 7 0).isSome = true ∧
    (framed { unbound haltImage with acked := false } Core.fresh).entry? 1 = some { unbound haltImage with acked := false } ∧
    (entryAs .running).frame.delivered = false ∧ runBody.dlines ≠ 0 ∧ (framed (entryAs .running) coreRun).deposits = [] ∧
    (∀ k ∈ (framed (entryAs .running) coreRun).coresOf 1, ((framed (entryAs .running) coreRun).core k).st ≠ .starting ∧
      ((framed (entryAs .running) coreRun).core k).st ≠ .armed) ∧
    ({ framed (entryAs .running) haltedCore with cores := [(0, haltedCore), (511, { haltedCore with rank := 1 })] } : State).entry? 1 =
      some (entryAs .running) ∧ [511].all coreOk = true := by
  refine ⟨?_, ?_, ?_, ?_, ?_, ?_, ?_, ?_, ?_, ?_, ?_, ?_, ?_⟩ <;> decide +kernel
/-- R247: of two records of one hub cycle that of the lower rank counts. -/
def halted (rank index : Nat) : Core := { haltedCore with rank := rank, haltRec := some ⟨0, index, 0x02, 0, rank, 9⟩ }
theorem test_halt_rank : (after (.haltRecord ⟨0, [511]⟩) { framed (entryAs .running) (halted 1 3) with
    cores := [(0, halted 1 3), (511, halted 0 8)] }).entries.map (fun e => e.frame.halt.map (·.index)) = [some 8] := by decide +kernel
theorem test_frame_start : let c := (after (.frameStart 1 0) starting).core 0
    c.st = .run ∧ c.a 3 = 65 ∧ c.a 4 = 0 ∧ c.acc.accStride = 8 := by decide +kernel
theorem test_bind : let t := after (.frameBind 1) (framed (unbound haltImage) Core.fresh)
    t.entries.map (fun e => (e.st, e.epoch, e.frame.prog.length)) = [(.admitted, some 0, 1)] ∧ t.entries.map (·.frame.cores) = [[(0, 0, 0)]] := by
  decide +kernel
/-- R211: an image without a header of version 1 completes FAILED_PROGRAM with `RANK` 0x3FF. -/
theorem test_bind_fails : let t := after (.frameBind 1) (framed (unbound []) Core.fresh)
    t.entries.map (fun e => (e.st, e.ended, e.status, e.frame.halt.map (fun r => (r.rank, r.reason)))) =
      [(.admitted, true, .failed, some (0x3FF, 0x02))] := by
  decide +kernel
theorem test_input_written : (after (.inputParcelWritten 1) (framed { unbound haltImage with epoch := some 0 } Core.fresh)).entries.map
    (·.st) = [.ready] := by decide +kernel
theorem test_input_delivery : let t := after (.hubInputDelivery 1) (framed (entryAs .running) (receiver.setWindow 0 (some ⟨0, 2, 1, 2⟩)))
    t.deposits.map (fun d => (d.dests, d.lines, d.credited)) = [([0], 2, true)] ∧
      t.deposits.map (fun d => d.data.map (fun l => (l.2.1.headD 0, l.2.1.getD 1 0))) = [[(3, 1), (1, 0)]] := by decide +kernel
theorem test_halt_record : let t := after (.haltRecord ⟨0, []⟩) { framed (entryAs .running) haltedCore with cores := [(0, haltedCore), (1, coreRun)] }
    t.entries.map (fun e => e.frame.halt.map (·.index)) = [some 3] ∧ (t.core 1).st = .halted := by decide +kernel
theorem test_stop_timeout : ((after (.stopTimeout 1) (framed { entryAs .running with
    frame := { (entryAs .running).frame with stopped := [0] } } coreRun)).core 0).st = .stopped := by decide +kernel

/-! ### WORK (R341 to R370) -/

/-- The unpaired package with session 1 of tenant 7. -/
def live : State := { State.reset with secure := { State.reset.secure with sessions := [⟨1, 7, none, 5⟩] } }
/-- One segment on port 2 for stream 9, incarnation 4. -/
def wireOf (h : Hdr) : Wire := ⟨.ipv4, 47210, false, none, 5, Hdr.bytes h, false⟩
def segHdr (h : Hdr) (body : List Byte) : SegIn := ⟨2, wireOf h, body, true, 5, 0⟩
def segOf (kind seq : Nat) (body : List Byte) : SegIn := segHdr ⟨1, kind, 1, 9, 4, 0, 1, body.length, seq, 0, 0⟩ body
/-- The ACKs that left: port, address, stream, sequence number, `AKIND`, reason, flags, credit, next sequence number, detail and
commit number. -/
def acks (s : State) : List (List Nat) := s.out.filterMap (fun o => match o with
  | .seg p a h b => if beAt h 1 1 = 2 then some [p, a, beAt h 6 2, beAt h 16 4, beAt b 0 1, beAt b 1 1, beAt b 2 2, beAt b 4 2, beAt b 8 4,
      beAt b 12 4, beAt b 16 8] else none
  | _ => none)
/-- The segments of results that left: port, address, sequence number, segment, status, and the first byte of the payload. -/
def results (s : State) : List (List Nat) := s.out.filterMap (fun o => match o with
  | .seg p a h b => if beAt h 1 1 = 3 then some [p, a, beAt h 16 4, beAt h 10 2, beAt b 0 1, beAt b 64 1] else none
  | _ => none)
def openBody : List Byte := [1, 0, 0, 3] ++ List.replicate 12 0
def closeBody : List Byte := 3 :: List.replicate 15 0
def cancelBody (t : Byte) : List Byte := [2, 0, 0, 0, 0, 0, 0, t] ++ List.replicate 8 0
/-- Stream 9 with an OPEN committed, at sequence number `n`. -/
def opened (st : StreamSt) (n : Nat) : State := { live with streams := [(9, ⟨st, some 4, 1, n, 3, 1, true, 2, 5⟩)] }
def refused : Verdict → Option (Nat × Nat)
  | .refuse r d => some (r, d)
  | _ => none
theorem refuse_of {v : Verdict} {r d : Nat} (h : refused v = some (r, d)) : v = .refuse r d := by
  cases v <;> simp_all [refused]

/-- Each test of R352 refuses where its own condition fails and those before it hold. -/
theorem witness_TestsInOrder :
    ({ live with pkg := { live.pkg with quiet := 3 } } : State).tests (segOf 1 0 openBody).hdr openBody 0 = .refuse 7 1 ∧
    live.tests (segOf 1 1 openBody).hdr openBody 0 = .refuse 5 1 ∧ live.tests (segOf 1 0 closeBody).hdr closeBody 0 = .refuse 5 1 ∧
    ({ live with streams := [(9, { Stream.fresh with incarn := some 4 })] } : State).tests (segOf 1 0 openBody).hdr openBody 0 = .refuse 5 3 ∧
    (opened .open 1).tests { (segOf 1 1 closeBody).hdr with tsid := 2 } closeBody 0 = .refuse 4 0 ∧
    (opened .open 1).tests { (segOf 1 1 closeBody).hdr with incarn := 5 } closeBody 0 = .refuse 5 3 ∧
    (opened .closing 1).tests (segOf 1 1 closeBody).hdr closeBody 0 = .refuse 5 2 ∧
    (opened .open 1).tests (segOf 1 2 closeBody).hdr closeBody 0 = .refuse 1 0 ∧
    (opened .open 1).tests (segOf 1 1 [9]).hdr [9] 0 = .refuse 6 0 ∧
    ({ live with streams := [(9, ⟨.open, some 4, 1, 1, 3, 3, true, 2, 5⟩)] } : State).tests (segOf 1 1 closeBody).hdr closeBody 0 = .refuse 2 3 := by
  refine ⟨?_, ?_, ?_, ?_, ?_, ?_, ?_, ?_, ?_, ?_⟩ <;> exact refuse_of (by decide +kernel)

def refusedOpen : Verdict → Option Nat
  | .refuseOpen r => some r
  | _ => none
def pendingDup : Verdict → Option Nat
  | .dupPending n => some n
  | _ => none
def isDup : Verdict → Bool
  | .dup => true
  | _ => false
/-- An OPEN of stream 9 that is being committed under number 1. -/
def openPending : State := { live with commits := [⟨1, 0, 2, 5, { entryAs .admitted with stream := 9, incarn := 4, seq := 0, op := .open 3, tsid := 1 },
  [0, 1], false, []⟩] }
/-- The last sequence number; an OPEN on an open stream; a frame that is being committed, of another incarnation, of another
session and again; a duplicate; an OPEN that passes. -/
theorem witness_TestsInOrder_more :
    refused ((opened .open 1).tests { (segOf 1 1 (cancelBody 0)).hdr with seq := 0xFFFFFFFF } (cancelBody 0) 0) = some (5, 4) ∧
    refusedOpen ((opened .open 1).tests (segOf 1 1 openBody).hdr openBody 0) = some 5 ∧
    refused (openPending.tests { (segOf 1 0 openBody).hdr with incarn := 5 } openBody 0) = some (5, 3) ∧
    refused (openPending.tests { (segOf 1 0 openBody).hdr with tsid := 2 } openBody 0) = some (4, 0) ∧
    pendingDup (openPending.tests (segOf 1 0 openBody).hdr openBody 0) = some 1 ∧
    isDup ((opened .open 2).tests (segOf 1 1 closeBody).hdr closeBody 0) = true ∧
    ((opened .open 1).tests (segOf 1 1 closeBody).hdr closeBody 0 matches .take _ _ _ _) = true := by decide +kernel
/-- No stack for a parcel, no page, too long a backlog, and a partner that is joining. -/
theorem witness_TestsInOrder_space :
    refused (({ opened .open 1 with hbmStacks := List.replicate 16 (false, false) } : State).tests (segOf 1 1 closeBody).hdr closeBody 0) = some (3, 2) ∧
    refused (({ opened .open 1 with pages := List.replicate 16 0 } : State).tests (segOf 1 1 closeBody).hdr closeBody 0) = some (3, 2) ∧
    refused ((opened .open 1).tests (segOf 1 1 closeBody).hdr closeBody 262145) = some (3, 3) ∧
    refused (({ opened .open 1 with pair := { live.pair with st := .joining } } : State).tests (segOf 1 1 closeBody).hdr closeBody 262144) =
      some (8, 0) := by decide +kernel
/-- A Fold with no free entry. -/
theorem witness_TestsInOrder_full (e : Entry) : ({ opened .open 1 with entries := List.replicate 262144 e } : State).ledgerCap ≤
    ({ opened .open 1 with entries := List.replicate 262144 e } : State).entries.length := by
  have h : (opened .open 1).ledgerCap = 262144 := by decide +kernel
  rw [List.length_replicate]
  exact Nat.le_of_eq h
theorem witness_WorkFrames : live.wholeFrame 1 (segOf 1 0 openBody) ∧ (opened .open 1).wholeFrame 3 (segOf 1 1 closeBody) ∧
    ((live.examined (segOf 1 0 openBody)).tests (segOf 1 0 openBody).hdr (live.frameBody (segOf 1 0 openBody)) 0 matches .take _ _ _ _) = true ∧
    (live.examined (segOf 1 7 openBody)).tests (segOf 1 7 openBody).hdr (live.frameBody (segOf 1 7 openBody)) 0 = .refuse 5 1 := by
  refine ⟨⟨?_, ?_, ?_, ?_, ?_, ?_, ?_, ?_⟩, ⟨?_, ?_, ?_, ?_, ?_, ?_, ?_, ?_⟩, ?_, refuse_of ?_⟩ <;> decide +kernel
/-- A duplicate, and one of a frame that is still being committed. -/
theorem witness_WorkFrames_again :
    isDup (((opened .open 2).examined (segOf 1 1 closeBody)).tests (segOf 1 1 closeBody).hdr ((opened .open 2).frameBody (segOf 1 1 closeBody)) 0) = true ∧
    pendingDup ((openPending.examined (segOf 1 0 openBody)).tests (segOf 1 0 openBody).hdr (openPending.frameBody (segOf 1 0 openBody)) 0) = some 1 ∧
    (opened .open 2).completes (segOf 1 1 closeBody) = true ∧ openPending.completes (segOf 1 0 openBody) = true ∧
    takesBody 3 ((opened .open 2).frameBody (segOf 1 1 closeBody)) = true := by decide +kernel
theorem test_dup : acks (after (.workClose (segOf 1 1 closeBody)) (opened .open 2)) = [[2, 5, 9, 1, 0, 0, 3, 2, 2, 0, 0]] := by decide +kernel
theorem test_open_commits : let t := after (.workOpen (segOf 1 0 openBody)) live
    t.commits.map (fun c => (c.cseq, c.needHubs, c.needPeer)) = [(1, [0, 1], false)] ∧ t.pkg.cseqNext = 2 ∧ t.out.length = 0 := by
  decide +kernel
theorem test_open_refused : acks (after (.workOpen (segOf 1 7 openBody)) live) = [[2, 5, 9, 7, 1, 5, 0, 0, 0, 1, 0]] := by decide +kernel
theorem test_close_commits : (after (.workClose (segOf 1 1 closeBody)) (opened .open 1)).commits.map (fun c => (c.cseq, c.entry.seq)) = [(1, 1)] := by
  decide +kernel
/-- R364: a CANCEL of a sequence number that no entry has is decided at once: NOT_FOUND is 2. -/
theorem test_cancel_unknown : (after (.workCancel (segOf 1 1 (cancelBody 0))) (opened .open 1)).commits.map (fun c => c.entry.payload.headD 0) =
    [2] := by decide +kernel
/-- R350: an image of 16 bytes is shorter than the least. Offset 4 is its length. -/
def shortRun : List Byte := [0, 1, 0, 0] ++ beBytes 4 16 ++ List.replicate 40 0
theorem test_run_malformed : acks (after (.workRun (segOf 1 1 shortRun)) (opened .open 1)) = [[2, 5, 9, 1, 1, 6, 0, 2, 1, 4, 0]] := by
  decide +kernel

/-- The first of two segments. -/
def half : SegIn := segHdr ⟨1, 1, 1, 9, 4, 0, 2, 8192, 0, 0, 0⟩ (openBody ++ List.replicate 8176 0)
/-- A commit of `e` that needs both hubs. -/
def committing (e : Entry) (peer : Bool) : Commit := ⟨1, 0, 2, 5, e, [0, 1], peer, [(3, 6)]⟩
def openEntry : Entry := { entryAs .admitted with stream := 9, incarn := 4, seq := 0, op := .open 3, tsid := 1, port := 2, addr := 5, acked := false }
def waitingCommit (peer : Bool) : State := { live with commits := [committing openEntry peer], pkg := { live.pkg with cseqNext := 2 } }
/-- A CANCEL of the RUN with sequence number 1, its commit number 2. -/
def cancelling : State := { opened .open 2 with
  entries := [{ entryAs .ready with stream := 9, incarn := 4, seq := 1 }], pkg := { live.pkg with cseqNext := 3 }
  commits := [{ committing { openEntry with op := .cancel 1, seq := 2, cseq := 2 } false with cseq := 2 }] }
theorem witness_SegmentsAndCommits : live.completes half = false ∧ live.haveSeg half = false ∧ live.authentic half = true ∧
    hdrValid half.hdr half.body.length = true ∧ ((after (.workSegment half) live).parts 0 half.hdr).length = 1 ∧
    (waitingCommit false).commits.find? (fun x => x.cseq == 1) = some (committing openEntry false) ∧ (live.hub 1).up = true ∧
    (cancelling.target? 9 4 1).map (·.cseq) = some 1 ∧ cancelling.entry? 2 = none := by
  decide +kernel
/-- The last confirmation of a RUN, a CLOSE and a CANCEL, and of an OPEN that the partner has yet to confirm. -/
def lastOf (op : WorkOp) (peer : Bool) : Commit := { committing { openEntry with op := op, seq := 1, port := 2 } peer with needHubs := [1], dupPorts := [] }
theorem witness_SegmentsAndCommits_confirm : (∀ h ∈ (lastOf .close false).needHubs, h = 1) ∧ (lastOf (.run runBody) false).needPeer = false ∧
    (lastOf (.cancel 1) true).needPeer = true ∧ (live.portUp 2) = true ∧ (∀ p ∈ [((2 : Nat), (5 : Nat)), (3, 6)], live.portUp p.1 = true) ∧
    live.bridgeUp = true ∧ live.hubs.length = 2 ∧ live.takes half.port half.wire = true ∧
    ((after (.workSegment half) live).parts 0 half.hdr).getLast?.isSome = true ∧
    (cancelling.target? 9 4 1).map (fun x => (x.st != .complete, x.st != .sent)) = some (true, true) := by decide +kernel
theorem test_segment_timeout : acks (after (.segmentTimeout 0 half.hdr) (after (.workSegment half) live)) =
    [[2, 5, 9, 0, 1, 6, 0, 0, 0, 0xFFFFFFFF, 0]] := by decide +kernel
theorem test_confirm_open : let t := after (.ledgerConfirm ⟨1, 7⟩ 1) (after (.ledgerConfirm ⟨1, 7⟩ 0) (waitingCommit false))
    t.entries.map (·.cseq) = [1] ∧ t.stream 9 = ⟨.open, some 4, 1, 1, 3, 1, true, 2, 5⟩ ∧
      acks t = [[2, 5, 9, 0, 0, 0, 0, 2, 1, 0, 1], [3, 6, 9, 0, 0, 0, 1, 2, 1, 0, 1]] := by decide +kernel
theorem test_confirm_waits : (after (.ledgerConfirm ⟨1, 7⟩ 1) (after (.ledgerConfirm ⟨1, 7⟩ 0) (waitingCommit true))).entries.length = 0 := by decide +kernel
theorem test_cancel_acts : (after (.ledgerConfirm ⟨2, 7⟩ 1) (after (.ledgerConfirm ⟨2, 7⟩ 0) cancelling)).entries.map (fun e => (e.cseq, e.st, e.ended, e.status)) =
    [(1, .ready, true, .cancelled), (2, .admitted, false, .done)] := by decide +kernel
/-- R354, R355: NO_RESOURCE with detail 4, to the frame and its duplicate. -/
theorem test_deadline : acks (after (.commitDeadline ⟨1, 0⟩) (waitingCommit false)) =
    [[2, 5, 9, 0, 1, 3, 0, 0, 0, 4, 0], [3, 6, 9, 0, 1, 3, 0, 0, 0, 4, 0]] := by decide +kernel

/-- The first entry of the Fold. -/
def headE (s : State) : Entry := s.entries.headD (entryOf [])

/-! ### Frames run and results leave (R359 to R370, R389) -/

/-- The entry READY on core 0, a WORK area of two pages. -/
def readying (part : Nat) : State :=
  { framed { entryAs .ready with frame := { (entryAs .ready).frame with places := [5] } } Core.fresh with
    dies := State.reset.dies.map (fun d => { d with part := part })
    placements := [{ plc with psig := ⟨[], 0, [100]⟩ }] }
/-- The frame has ended on its core, halted for `reason`, or not. -/
def ending (halt : Option Nat) (replays : Nat) : State :=
  framed { entryAs .running with
    replays := replays
    frame := { (entryAs .running).frame with halt := halt.map (fun r => ⟨0, 3, r, 0, 0, 9⟩), result := [(5, 6)], rtag := 1 } }
    { coreRun with st := .ended }
theorem witness_FramesRun : (readying 100000).oldest (headE (readying 100000)) = true ∧
    (readying 100000).coresFree (headE (readying 100000)) = true ∧ (readying 100000).powerOk (headE (readying 100000)) = true ∧
    (readying 0).powerOk (headE (readying 0)) = false ∧ ((readying 100000).workPages (headE (readying 100000)) 8192).isSome = true ∧
    (readying 100000).refusing = none ∧ (∀ k ∈ (ending none 0).coresOf 1, ((ending none 0).core k).live = false) ∧
    (ending none 0).cancelDue (headE (ending none 0)) = false := by
  refine ⟨?_, ?_, ?_, ?_, ?_, ?_, ?_, ?_⟩ <;> decide +kernel
/-- Core 0's cluster is asleep, lost, or wanted by an older frame; no page is left for WORK; the frame was counted before. -/
def readyPaired : State := { readying 100000 with
  pair := { live.pair with st := .paired, bound := true }, maps := { live.maps with cluster := [(0, none)] } }
theorem witness_FramesRun_waits :
    ({ readying 100000 with clusters := [(0, ⟨.doze, true, false, false, false, false⟩)] } : State).coreAwake 0 = false ∧
    readyPaired.handsOver (headE readyPaired) = true ∧ readyPaired.runsHere (headE readyPaired) = true ∧
    ({ readying 100000 with pages := List.replicate 16 0 } : State).workPages (headE (readying 100000)) 8192 = none ∧
    ({ readying 100000 with entries := [headE (readying 100000), { headE (readying 100000) with cseq := 0, order := 0 }] } : State).oldest
      (headE (readying 100000)) = false ∧
    ({ readying 100000 with cores := [(0, coreRun)] } : State).coresFree (headE (readying 100000)) = false ∧
    (headE (readying 0)).powered = false ∧ live.profile.work.replayMax = 4 := by decide +kernel
/-- Halts for a program, for the hardware with a replay left and with none, and for a wait. -/
theorem witness_FramesRun_ends : (headE (ending (some 0x1F) 0)).frame.halt.map (·.reason) = some 0x1F ∧
    (headE (ending (some 0x3F) 3)).replays + 1 ≤ 4 ∧ 4 < (headE (ending (some 0x20) 4)).replays + 1 ∧
    (headE (ending (some 0x40) 0)).frame.halt.map (·.reason) = some 0x40 ∧
    (∀ k ∈ (ending (some 0x40) 0).coresOf 1, ((ending (some 0x40) 0).core k).live = false ∧ ((ending (some 0x40) 0).core k).haltRec = none) ∧
    (ending (some 0x40) 0).cancelDue (headE (ending (some 0x40) 0)) = false := by decide +kernel
theorem test_end_requeued : (after (.frameEnd 1) (ending (some 0x40) 0)).entries.map (fun e => (e.st, e.replays)) = [(.ready, 0)] := by
  decide +kernel
theorem test_dispatch_away : (after (.dispatch 1) readyPaired).entries.map (fun e => (e.st, e.away)) = [(.ready, true)] := by decide +kernel
theorem test_dispatch : let t := after (.dispatch 1) (readying 100000)
    t.entries.map (fun e => (e.st, e.frame.pages)) = [(.running, [(0, 0, 1), (1, 0, 1)])] ∧ (t.core 0).st = .starting ∧
      t.used.take 3 = [[(0, 1)], [(0, 1)], []] := by decide +kernel
theorem test_dispatch_power : let t := after (.dispatch 1) (readying 0)
    t.entries.map (fun e => (e.st, e.powered)) = [(.ready, true)] ∧ t.yoke.regs.powerWait = 1 := by decide +kernel
theorem test_end_done : let t := after (.frameEnd 1) (ending none 0)
    t.entries.map (fun e => (e.st, e.ended, e.status, e.payload.getD 5 0)) = [(.running, true, .done, 6)] ∧ (t.core 0).st = .idle := by
  decide +kernel
theorem test_end_program : (after (.frameEnd 1) (ending (some 0x02) 0)).entries.map (fun e => (e.st, e.ended, e.status)) = [(.running, true, .failed)] := by
  decide +kernel
/-- R248: the fourth replay is allowed under `REPLAY_MAX` 4, the fifth is not. -/
theorem test_end_replay : (after (.frameEnd 1) (ending (some 0x20) 3)).entries.map (fun e => (e.st, e.replays)) = [(.ready, 4)] := by
  decide +kernel
theorem test_end_replay_max : (after (.frameEnd 1) (ending (some 0x20) 4)).entries.map (fun e => (e.st, e.ended, e.status, e.wreason)) =
    [(.running, true, .withheld, 0x10)] := by decide +kernel

/-- Stream 9 with one entry in state `st`. -/
def resulted (st : EntrySt) (x : StreamSt) : State :=
  { opened x 2 with entries := [{ entryAs st with
      stream := 9, incarn := 4, seq := 1, ended := true, parcelOk := st != .running, payload := [8], port := 2 }] }
def ackBody (op seq : Byte) : List Byte := [op, 0, 0, 0, 0, 0, 0, seq] ++ List.replicate 8 0
theorem witness_Results : (resulted .running .open).cancelDue (headE (resulted .running .open)) = false ∧
    ((resulted .complete .open).dueResult 9).isSome = true ∧ (resulted .complete .open).dualOk (headE (resulted .complete .open)) = true ∧
    (resulted .complete .open).resultPort (headE (resulted .complete .open)) = some 2 ∧
    (resulted .sent .closing).rackOk (segOf 4 0 (ackBody 0 1)) = true ∧ (resulted .sent .open).rackOk (segOf 4 0 (ackBody 1 0)) = true := by
  decide +kernel
theorem test_parcel_written : (after (.resultParcelWritten 1) (resulted .running .open)).entries.map (fun e => (e.st, e.parcelOk)) =
    [(.complete, true)] := by decide +kernel
theorem test_transmit : let t := after (.resultTransmit 9) (resulted .complete .open)
    t.entries.map (·.st) = [.sent] ∧ results t = [[2, 5, 1, 0, 0, 8]] := by decide +kernel
/-- R347, R369: the release of the last entry closes the stream. -/
theorem test_release : let t := after (.release (segOf 4 0 (ackBody 0 1))) (resulted .sent .closing)
    t.entries.length = 0 ∧ (t.stream 9).st = .closed := by decide +kernel
theorem test_resend : results (after (.resend (segOf 4 0 (ackBody 1 1))) (resulted .sent .open)) = [[2, 5, 1, 0, 0, 8]] := by
  decide +kernel

/-! ### Parcels, paths, stacks and dies (R365, R411, R412, R418, R419) -/

theorem witness_LossesAndRepairs : (framed (entryAs .ready) Core.fresh).entry? 1 = some (entryAs .ready) ∧
    (framed (entryAs .ready) Core.fresh).runsHere (entryAs .ready) = true ∧ ((running []).core 0).live = true ∧
    ((live.die 3).hubLinks) = [true, true] ∧ live.stackUp 15 = true ∧ live.countLostUnit.poolUsed ≤ live.countLostUnit.poolSize ∧
    (live.die 3).up = true := by decide +kernel
/-- A ring link, a cluster's fabric, a die, a link of a die to a hub and its last one, a stack; a stack and a die that are out of
service; a frame on the stack and on the die that fail. -/
def onStack (e : Entry) : State := { framed { e with
  frame := { e.frame with pages := [(15, 0, 1)] }, ipar := ⟨0, 0, 4, 0, 0⟩, rpar := ⟨0, 0, 4, 0, 0⟩ } coreRun with placements := [] }
theorem witness_LossesAndRepairs_units : [511].all coreOk = true ∧ (live.die 3).hubLinks = [true, true] ∧
    ({ live with dies := live.dies.map (fun d => { d with hubLinks := [false, true] }) } : State).dies.length = 4 ∧
    ([false, true] : List Bool) = [true, true].set (1 - 7 % 2) false ∧
    (after (.stackLost 15) live).stackUp 15 = false ∧ (((after (.dieLost 3) live).die 3).up) = false ∧
    (∃ p ∈ (headE (onStack (entryAs .running))).frame.pages, p.1 = 15) ∧ (headE (onStack (entryAs .running))).ipar.on 15 = false ∧
    0 ∈ (onStack (entryAs .running)).coresOf 1 ∧ (entryAs .ready).completed = false ∧ (entryAs .sent).frame.cores ≠ [] ∧
    ((entryAs .ready).ipar.stack, (entryAs .ready).ipar.first) ≠ ((entryAs .ready).ipar.mirror, (entryAs .ready).ipar.mfirst) := by
  decide +kernel
theorem test_stack_lost_replays : (after (.stackLost 15) (onStack (entryAs .running))).entries.map (fun e => (e.st, e.replays)) = [(.ready, 1)] := by
  decide +kernel
theorem test_parcel_lost : (after (.parcelReadError 1 ⟨true, false⟩ true) (framed (entryAs .ready) Core.fresh)).entries.map
    (fun e => (e.st, e.ended, e.status, e.wreason)) = [(.ready, true, .withheld, 0x12)] := by decide +kernel
theorem test_parcel_one_copy : let t := after (.parcelReadError 1 ⟨true, true⟩ false) { framed (entryAs .ready) Core.fresh with
      hbmStacks := (true, false) :: List.replicate 3 (true, false) ++ (false, false) :: List.replicate 11 (true, false) }
    t.entries.map (fun e => (e.st, e.ipar.stack, e.ipar.mirror != 4)) = [(.ready, 0, true)] := by decide +kernel
theorem test_fabric_ring : let t := after (.fabricTimeout 3 3 [0]) (running [])
    (t.core 0).haltRec.map (fun r => (r.reason, r.detail)) = some (0x23, 0x30000000) ∧ t.pkg.rings = [true, true, true, false] := by
  decide +kernel
theorem test_stack_lost : let t := after (.stackLost 15) live
    t.stackUp 15 = false ∧ t.flt.lost = 1 := by decide +kernel
theorem test_die_lost : let t := after (.dieLost 3) live
    (t.die 3).up = false ∧ t.stackUp 12 = false ∧ t.stackUp 11 = true ∧ t.yoke.regs.step = 1 := by decide +kernel

/-! ### Installing (R323 to R339) -/

/-- A BULK frame on port 2: operation, target, session, name, position, length, object length, and bytes. -/
def bulk (op target session name pos len objlen : Nat) (data : List Byte) : BulkIn :=
  let body := [BitVec.ofNat 8 op, BitVec.ofNat 8 target] ++ beBytes 2 session ++ beBytes 4 name ++ beBytes 8 pos ++ beBytes 8 len
    ++ beBytes 8 objlen ++ data
  ⟨2, wireOf ⟨1, 5, 1, 0, 0, 0, 1, body.length, 0, 0, 0⟩, true, body⟩
/-- The REPLYs that left: position, status and detail. -/
def statuses (s : State) : List (Nat × Nat × Nat) := s.out.filterMap (fun o => match o with
  | .seg _ _ h b => if beAt h 1 1 = 5 then some (beAt b 8 8, beAt b 24 1, beAt b 28 4) else none
  | _ => none)
/-- What `bulkReady` asks, as one test. -/
def readyB (s : State) (op : Nat) (b : BulkIn) (tenant : Nat) : Bool :=
  portOk b.port && (s.takes b.port b.wire && (b.auth && (decide (b.hdr.kind = 5) && (decide ((s.session? b.tsid).map (·.tenant) = some tenant) &&
    (b.hdr.single b.body.length && (decide ((bulkHead b.body).bop = op) && (decide (bulkBad b.body = none) && decide (s.refusing = none))))))))
theorem ready_of {s : State} {op tenant : Nat} {b : BulkIn} (h : readyB s op b tenant = true) : s.bulkReady op b tenant := by
  simpa only [readyB, State.bulkReady, Bool.and_eq_true, decide_eq_true_eq] using h
/-- Session 3 of tenant 7 over bytes 0 to 3 of TABLES object 5 of 8 bytes, with `cursor`. -/
def sess (cursor : Nat) : State :=
  { live with bulk := [⟨3, 7, 2, 5, 0, 4, 8, cursor, 0, false⟩], objects := [⟨7, 2, 5, 8, [], [], false⟩] }
theorem witness_BulkOpens : live.bulkReady 1 (bulk 1 2 3 5 0 4 8 []) 7 ∧ live.outPort 2 = some 2 ∧ live.bulk? 7 3 = none ∧
    live.openBulk.length < 64 ∧ live.poolUsed + 2 * 8 ≤ live.poolSize ∧ (sess 0).bulk? 7 3 = some ⟨3, 7, 2, 5, 0, 4, 8, 0, 0, false⟩ := by
  refine ⟨⟨?_, ?_, ?_, ?_, ?_, ?_, ?_, ?_, ?_⟩, ?_, ?_, ?_, ?_, ?_⟩ <;> decide +kernel
/-- An object that waits, a range that meets a session, 64 open sessions, and an object beyond the pool. -/
theorem witness_BulkOpens_refused : (({ live with objects := [⟨7, 2, 5, 8, [], [], true⟩] } : State).obj? 7 2 5).map (·.waiting) = some true ∧
    (sess 0).bulkReady 1 (bulk 1 2 4 5 3 4 8 []) 7 ∧ (sess 0).bulk? 7 4 = none ∧ (sess 0).sessionsOn 7 2 5 = [⟨3, 7, 2, 5, 0, 4, 8, 0, 0, false⟩] ∧
    meets 0 4 3 4 = true ∧ meets 0 4 4 4 = false ∧
    64 ≤ ({ live with bulk := List.replicate 64 ⟨3, 7, 2, 6, 0, 4, 8, 0, 0, false⟩ } : State).openBulk.length ∧
    live.bulkReady 1 (bulk 1 2 3 5 0 4 (2 ^ 38) []) 7 ∧ live.obj? 7 2 5 = none ∧ live.poolSize < live.poolUsed + 2 * 2 ^ 38 := by
  refine ⟨?_, ready_of ?_, ?_, ?_, ?_, ?_, ?_, ready_of ?_, ?_, ?_⟩ <;> decide +kernel
theorem test_bulk_open_full : (statuses (after (.bulkOpen (bulk 1 2 3 5 0 4 (2 ^ 38) [])) live)).map (·.2.1) = [0x0B] ∧
    (after (.bulkOpen (bulk 1 2 3 5 0 4 (2 ^ 38) [])) live).bulk.length = 0 := by decide +kernel
theorem test_bulk_open : let t := after (.bulkOpen (bulk 1 2 3 5 0 4 8 [])) live
    t.bulk.map (fun b => (b.id, b.cursor, b.len)) = [(3, 0, 4)] ∧ t.objects.map (·.len) = [8] ∧ statuses t = [(0, 0, 0)] := by decide +kernel
/-- R325: another range under the session's number is BULK_BUSY. -/
theorem test_bulk_open_busy : statuses (after (.bulkOpen (bulk 1 2 3 5 4 4 8 [])) (sess 2)) = [(2, 4, 0)] := by decide +kernel
theorem witness_BulkOpens_ended : let s : State := { live with secure := { live.secure with sessions := [] } }
    let b := bulk 1 2 3 5 0 4 8 []
    b.port < 8 ∧ s.takes b.port b.wire = true ∧ b.hdr.kind = 5 ∧ s.session? b.tsid = none ∧ b.tsid < 0xFFFD ∧ s.outPort b.port = some 2 := by
  refine ⟨?_, ?_, ?_, ?_, ?_, ?_⟩ <;> decide +kernel
/-- R486: a frame under a session that has ended is answered AUTH_FAIL. -/
theorem test_bulk_ended : (statuses (after (.bulkOpen (bulk 1 2 3 5 0 4 8 [])) { live with secure := { live.secure with sessions := [] } })).map
    (fun x => x.2) = [(7, 0)] := by decide +kernel

theorem witness_BulkSessions : (sess 1).bulkReady 2 (bulk 2 2 3 5 1 2 0 [7, 8]) 7 ∧
    (sess 1).served (bulk 2 2 3 5 1 2 0 [7, 8]) 7 ⟨3, 7, 2, 5, 0, 4, 8, 1, 0, false⟩ ∧ live.bulk? 7 3 = none ∧
    (sess 4).bulkReady 3 (bulk 3 2 3 5 0 0 0 []) 7 ∧ (sess 4).bulkReady 4 (bulk 4 2 3 5 0 0 0 []) 7 ∧
    (sess 4).bulkReady 5 (bulk 5 2 3 5 0 0 0 []) 7 ∧ { live with placements := [plc] }.bulkReady 8 (bulk 8 0 0 5 0 0 0 []) 7 := by
  refine ⟨⟨?_, ?_, ?_, ?_, ?_, ?_, ?_, ?_, ?_⟩, ⟨?_, ?_, ?_⟩, ?_, ⟨?_, ?_, ?_, ?_, ?_, ?_, ?_, ?_, ?_⟩, ⟨?_, ?_, ?_, ?_, ?_, ?_, ?_, ?_, ?_⟩,
    ⟨?_, ?_, ?_, ?_, ?_, ?_, ?_, ?_, ?_⟩, ⟨?_, ?_, ?_, ?_, ?_, ?_, ?_, ?_, ?_⟩⟩ <;> decide +kernel
/-- An overrun, a burst below the cursor and one above it, at their bounds; a session of the other hub, an aborted one and none. -/
theorem witness_BulkSessions_clauses : (sess 3).bulkReady 2 (bulk 2 2 3 5 3 2 0 [7, 8]) 7 ∧ 0 + 4 < 3 + 2 ∧
    (sess 2).bulkReady 2 (bulk 2 2 3 5 0 2 0 [7, 8]) 7 ∧ (sess 1).bulkReady 2 (bulk 2 2 3 5 2 2 0 [7, 8]) 7 ∧ live.mirrors = false ∧
    (sess 3).bulkReady 3 (bulk 3 2 3 5 0 0 0 []) 7 ∧
    (sess 3).served (bulk 3 2 3 5 0 0 0 []) 7 ⟨3, 7, 2, 5, 0, 4, 8, 3, 0, false⟩ ∧
    (sess 4).served (bulk 3 2 3 5 0 0 0 []) 7 ⟨3, 7, 2, 5, 0, 4, 8, 4, 0, false⟩ ∧
    ({ sess 0 with bulk := [⟨3, 7, 2, 5, 0, 4, 8, 0, 1, false⟩] } : State).bulkReady 2 (bulk 2 2 3 5 1 2 0 [7, 8]) 7 ∧
    (({ sess 0 with bulk := [⟨3, 7, 2, 5, 0, 4, 8, 0, 1, false⟩] } : State).hub 1).up = true ∧
    live.bulkReady 3 (bulk 3 2 3 5 0 0 0 []) 7 ∧ live.bulkReady 4 (bulk 4 2 3 5 0 0 0 []) 7 ∧ live.bulkReady 5 (bulk 5 2 3 5 0 0 0 []) 7 ∧
    live.bulkReady 8 (bulk 8 0 0 5 0 0 0 []) 7 ∧
    ({ live with placements := [{ plc with tenant := 8 }] } : State).bulkReady 8 (bulk 8 0 0 5 0 0 0 []) 7 ∧
    ({ live with objects := [⟨7, 2, 5, 8, [], [], false⟩] } : State).sessionsOn 7 2 5 = [] := by
  refine ⟨ready_of ?_, ?_, ready_of ?_, ready_of ?_, ?_, ready_of ?_, ⟨?_, ?_, ?_⟩, ⟨?_, ?_, ?_⟩, ready_of ?_, ?_, ready_of ?_, ready_of ?_,
    ready_of ?_, ready_of ?_, ready_of ?_, ?_⟩ <;> decide +kernel
theorem test_burst_other_hub : (statuses (after (.burst (bulk 2 2 3 5 1 2 0 [7, 8])) { sess 0 with
    bulk := [⟨3, 7, 2, 5, 0, 4, 8, 1, 1, false⟩] })).map (fun x => x.2) = [(6, 0)] := by decide +kernel
theorem test_burst : let t := after (.burst (bulk 2 2 3 5 1 2 0 [7, 8])) (sess 1)
    t.bulk.map (·.cursor) = [3] ∧ t.objects.map (fun o => Mem.read o.data 2) = [8] ∧ statuses t = [(3, 0, 0)] := by decide +kernel
/-- R326: beyond the cursor BULK_GAP (1), beyond the session BULK_RANGE (2). -/
theorem test_burst_gap : statuses (after (.burst (bulk 2 2 3 5 2 2 0 [7, 8])) (sess 1)) = [(1, 1, 0)] ∧
    statuses (after (.burst (bulk 2 2 3 5 3 2 0 [7, 8])) (sess 3)) = [(3, 2, 0)] := by decide +kernel
theorem test_bulk_close : statuses (after (.bulkClose (bulk 3 2 3 5 0 0 0 [])) (sess 3)) = [(3, 0x0C, 3)] ∧
    (after (.bulkClose (bulk 3 2 3 5 0 0 0 [])) (sess 4)).bulk.length = 0 := by decide +kernel
theorem test_abort : (after (.abort (bulk 4 2 3 5 0 0 0 [])) (sess 1)).bulk.length = 0 := by decide +kernel
theorem test_query : statuses (after (.query (bulk 5 2 3 5 0 0 0 [])) (sess 1)) = [(1, 0, 0)] := by decide +kernel
theorem test_bulk_idle : (after (.bulkIdle (some 3) 7 2 5) (sess 1)).bulk.map (·.aborted) = [true] := by decide +kernel
theorem test_notes : statuses (after (.notes (bulk 8 0 0 5 0 0 0 [])) { live with placements := [{ plc with notes := [9] }] }) = [(0, 0, 1)] := by
  decide +kernel

def noOps : CommitIn := ⟨true, none, none, true, [], [], []⟩
/-- TABLES object 5, its bytes 0 to `n` − 1 staged. -/
def stagedTo (n : Nat) : State := { live with objects := [⟨7, 2, 5, 8, [], [(0, n)], false⟩] }
theorem witness_BulkCommits : (stagedTo 7).bulkReady 6 (bulk 6 2 0 5 0 0 0 []) 7 ∧ (stagedTo 7).obj? 7 2 5 = some ⟨7, 2, 5, 8, [], [(0, 7)], false⟩ ∧
    Obj.missing ⟨7, 2, 5, 8, [], [(0, 7)], false⟩ = 7 ∧ Obj.missing ⟨7, 2, 5, 8, [], [(0, 8)], false⟩ = 8 ∧
    ((stagedTo 8).sessionsOn 7 2 5).length = 0 ∧ (∀ x ∈ (stagedTo 8).objects, ¬ (x.name = 5 ∧ x.tenant ≠ 7)) ∧
    (stagedTo 8).waitingObj 7 2 5 = none ∧ ((0, 0, 0) : Nat × Nat × Nat) ∈ plc.planeKeys := by
  refine ⟨⟨?_, ?_, ?_, ?_, ?_, ?_, ?_, ?_, ?_⟩, ?_, ?_, ?_, ?_, ?_, ?_, ?_⟩ <;> decide +kernel
/-- An INT8 image of placement 5 with one dynamic span, on plane 7 of engine 0 of core 0, and the record of its power signatures. -/
def dynImage (handle : Nat) : List Byte :=
  leBytes 4 0xD401 ++ leBytes 2 1 ++ leBytes 2 handle ++ leBytes 1 4 ++ List.replicate 15 0 ++ leBytes 4 1 ++ leBytes 2 1 ++ List.replicate 18 0 ++
    leBytes 4 34 ++ List.replicate 972 0 ++ leBytes 8 (7 * 2 ^ 47 + 2 ^ 46) ++ List.replicate 64 0 ++ List.replicate 12 0 ++ beBytes 4 0
def dynPlain : List Byte := leBytes 2 1 ++ leBytes 2 1 ++ (List.range 9).flatMap (fun _ => leBytes 2 10) ++ List.replicate 12 0
def dynObj (handle : Nat) : Obj :=
  ⟨7, 0, 5, 1162, Mem.writeBytes (Mem.writeBytes [] 0 (dynImage handle)) 1108 (leBytes 4 34), [(0, 1162)], false⟩
def dynOps : CommitIn := { noOps with plain := dynPlain }
def routineObj : Obj := ⟨7, 1, 9, 100, [], [(0, 100)], false⟩
def routinePlain (mask : Nat) : List Byte := leBytes 64 mask ++ leBytes 16 (2 ^ 112 + 2 ^ 80) ++ leBytes 16 (0x14 * 2 ^ 120)
theorem witness_BulkCommits_staging : imgOf (dynObj 5).data = imgOf (dynObj 5).data ∧ (hdrBad (dynObj 5).data (imgOf (dynObj 5).data)) = none ∧
    (hdrBad (dynObj 6).data (imgOf (dynObj 6).data)) = none ∧ (imgOf (dynObj 6).data).handle ≠ 5 ∧ (imgOf (dynObj 5).data).handle = 5 ∧
    (hdrBad [] (imgOf [])) = some 0 ∧ (imgOf (dynObj 5).data).recOff ≤ 1162 ∧ listBad (dynObj 5).data (imgOf (dynObj 5).data) = none ∧
    Fmt.ofCode (imgOf (dynObj 5).data).wcode = some .int8 ∧ (imgOf (dynObj 5).data).tables = 0 ∧ (imgOf (dynObj 5).data).region = 0 ∧
    ((dynObj 5).records 1096) = ([(1112, 34)], none) ∧ psigBad dynPlain (imgOf (dynObj 5).data) = none ∧
    dynPlain.length = plainLen .int8 (imgOf (dynObj 5).data) (imgSpans (dynObj 5).data (imgOf (dynObj 5).data)) ∧
    live.noFit 7 .int8 (imgOf (dynObj 5).data) (imgSpans (dynObj 5).data (imgOf (dynObj 5).data)) = none ∧
    decryptStop dynOps .int8 (imgOf (dynObj 5).data) [(1112, 34)] = none ∧ live.waitingObj 7 2 5 = none ∧ live.waitingObj 7 3 5 = none := by
  refine ⟨rfl, ?_, ?_, ?_, ?_, ?_, ?_, ?_, ?_, ?_, ?_, ?_, ?_, ?_, ?_, ?_, ?_, ?_⟩ <;> decide +kernel
theorem witness_BulkCommits_clauses : live.bulkReady 6 (bulk 6 2 0 5 0 0 0 []) 7 ∧ live.obj? 7 2 5 = none ∧
    ({ stagedTo 8 with bulk := (sess 0).bulk } : State).sessionsOn 7 2 5 ≠ [] ∧ live.mirrors = false ∧
    live.bulkReady 6 (bulk 6 0 0 5 0 0 0 []) 7 ∧ live.bulkReady 6 (bulk 6 1 0 5 0 0 0 []) 7 ∧ live.bulkReady 6 (bulk 6 4 0 5 0 0 0 []) 7 ∧
    live.planeAt (0, 0, 0) = Plane.fresh ∧ ({ live with cores := [(0, withPlane livePlane Core.fresh)] } : State).planeAt (0, 0, 0) = livePlane ∧
    (translate true ((routinePlain 1).drop 64)).toOption.isSome = true ∧ leAt (routinePlain 1) 0 1 = 1 ∧
    (live.rsSpace 0 (ceilDiv ((routinePlain 1).drop 64).length 64)).isSome = true ∧ live.rdRoom 0 9 = true := by
  refine ⟨ready_of ?_, ?_, ?_, ?_, ready_of ?_, ready_of ?_, ready_of ?_, ?_, ?_, ?_, ?_, ?_, ?_⟩ <;> decide +kernel
theorem test_staging_image : (statuses (live.commitStaging (bulk 6 0 0 5 0 0 0 []) 7 (dynObj 6) dynOps)).map (fun x => x.2) = [(8, 6)] := by
  decide +kernel
theorem test_claim : let t := (live.commitStaging (bulk 6 0 0 5 0 0 0 []) 7 (dynObj 5) dynOps)
    t.installs.map (fun i => (i.pl.handle, i.claimed)) = [(5, [(0, 0, 7)])] ∧ (t.planeAt (0, 0, 7)).st = .programming ∧ statuses t = [] := by
  decide +kernel
theorem test_routine_staged : let t := live.commitRoutine (bulk 6 1 0 9 0 0 0 []) 7 routineObj { noOps with plain := routinePlain 1 }
    t.routines.map (fun r => (r.name, r.current, r.queue.length)) = [(9, none, 1)] ∧
      t.routines.flatMap (fun r => r.queue.map (fun q => (q.v.num, Tbl.num q.v.lineAt 0))) = [(1, 0)] := by decide +kernel
/-- R211, R328: an image of half a word more is TRANSLATE_FAIL. -/
theorem test_routine_length : (statuses (live.commitRoutine (bulk 6 1 0 9 0 0 0 []) 7 routineObj { noOps with
    plain := routinePlain 1 ++ [0] })).map (fun x => x.2) = [(0x10, 0xFFFFFFFF)] := by decide +kernel
theorem test_commit_missing : statuses (after (.bulkCommit (bulk 6 2 0 5 0 0 0 []) noOps) (stagedTo 7)) = [(0, 0x0C, 7)] ∨
    (statuses (after (.bulkCommit (bulk 6 2 0 5 0 0 0 []) noOps) (stagedTo 7))).map (fun x => x.2) = [(0x0C, 7)] := by
  exact .inr (by decide +kernel)
theorem test_commit_waits : (after (.bulkCommit (bulk 6 2 0 5 0 0 0 []) noOps) (stagedTo 8)).objects.map (·.waiting) = [true] := by
  decide +kernel
/-- R330, R323: a handle in use, and a key that does not unwrap. -/
theorem test_staging_in_use : (statuses ({ live with placements := [plc] }.commitStaging (bulk 6 0 0 5 0 0 0 []) 7 ⟨7, 0, 5, 1, [], [(0, 1)], false⟩
    noOps)).map (fun x => x.2) = [(9, 5)] := by decide +kernel
theorem test_staging_key : (statuses (live.commitStaging (bulk 6 0 0 5 0 0 0 []) 7 ⟨7, 0, 5, 1, [], [(0, 1)], false⟩
    { noOps with wkeyOk := false })).map (fun x => x.2) = [(7, 0)] := by decide +kernel

/-- Placement 5 with its golden copy, the first row of its block 2 for output 0; its plane is dynamic in an installation, so
that no row is written. -/
def goldPlc : Placement := { plc with gold := [[2]], goldOk := 3 }
def dynPlc : Placement := { plc with reply := [2, 5, 1, 0], spans := [⟨0, 0, 0, 0, 0, true, 0, 31, 0, 0⟩], gold := [[]] }
def installing (c : Core) (late : Option (Nat × Nat)) (replaced : List (Nat × Nat)) : State :=
  { live with installs := [⟨dynPlc, [(0, 0, 0)], [], 2, (bulk 6 0 0 5 0 0 0 []).body, late, replaced⟩], cores := [(0, c)] }
def programming : Core := withPlane { Plane.fresh with st := .programming } Core.fresh
/-- The engine's cell of row 0, column 0 of plane 0 reads 1. -/
def stuckCore : Core := programming.setEngine 0 { programming.engine 0 with stuck := [⟨0, 0, 0, true⟩] }
def aRoutine : Routine := ⟨9, 7, 15, some 1, [⟨1, 1, [ins 0x14 0], 0, none, 1, [(0, 0)], [], 0⟩],
  [⟨⟨2, 1, [ins 0x14 0], 0, none, 0, [(0, 1)], [], 0⟩, 15, []⟩]⟩
def removing (used : Bool) : State :=
  { framed { entryAs .running with frame := { (entryAs .running).frame with places := if used then [5] else [] } } (withPlane livePlane Core.fresh) with
    placements := [{ goldPlc with removed := some 1 }] }
theorem witness_InstalledObjects : (installing programming none []).installs.length = 1 ∧
    ((installing programming none []).writeSpans dynPlc).planeBad (0, 0, 0) = [] ∧ (installing programming none []).coreUp 0 = true ∧
    ((installing stuckCore none [(0, 0)]).writeSpans dynPlc).planeBad (0, 0, 0) ≠ [] ∧
    (∀ x ∈ dynPlc.planeKeys, (installing programming none []).substBlocks x.1 [x.2.1] = false) ∧
    { live with placements := [plc] }.bulkReady 7 (bulk 7 0 0 5 0 0 0 []) 7 ∧ (removing false).stillUsed 5 1 = false ∧
    (removing true).stillUsed 5 1 = true := by
  refine ⟨?_, ?_, ?_, ?_, ?_, ⟨?_, ?_, ?_, ?_, ?_, ?_, ?_, ?_, ?_⟩, ?_, ?_⟩ <;> decide +kernel
/-- A unit being substituted, a late failure, a reload that waits, a routine to remove, none of the name, planes to empty. -/
def shared : Plane := { livePlane with st := .fenced, spans := [⟨5, 0, 16, 0, 0⟩, ⟨6, 16, 16, 0, 0⟩] }
def emptying (q : Plane) : State := { live with
  placements := [{ goldPlc with retiring := true, removed := some 1 }, { goldPlc with handle := 6, bwth := 3 }], cores := [(0, withPlane q Core.fresh)] }
theorem witness_InstalledObjects_clauses :
    ({ installing programming none [] with maps := { live.maps with subst := [⟨2, 0, 0, 0⟩] } } : State).substBlocks 0 [0] = true ∧
    dynPlc.planeKeys = [(0, 0, 0)] ∧ (installing programming none []).hasHardware 0 = true ∧
    (installing programming (some (8, 3)) []).installs.map (·.late) = [some (8, 3)] ∧
    (dynPlc.planeKeys.filter (fun x => !(((installing stuckCore none [(0, 0)]).writeSpans dynPlc).planeBad x).isEmpty)).find?
      (fun x => [(0, 0)].contains (x.1, x.2.1)) = some (0, 0, 0) ∧
    aRoutine.queue.map (fun q => q.v.until_) = [none] ∧ live.bulkReady 7 (bulk 7 0 0 5 0 0 0 []) 7 ∧
    ({ live with routines := [aRoutine] } : State).bulkReady 7 (bulk 7 1 0 9 0 0 0 []) 7 ∧ aRoutine.current.isSome = true ∧
    (∀ p ∈ (removing false).placements, p.removed = some 1 ∧ p.retiring = false) ∧
    (emptying shared).planeAt (0, 0, 0) = shared ∧ shared.spans.filter (fun y => !((emptying shared).retiring y.handle)) = [⟨6, 16, 16, 0, 0⟩] ∧
    (emptying { shared with spans := [⟨5, 0, 32, 0, 0⟩] }).retiring 5 = true ∧ (emptying shared).installs = [] := by
  refine ⟨?_, ?_, ?_, ?_, ?_, ?_, ready_of ?_, ready_of ?_, ?_, ?_, ?_, ?_, ?_, ?_⟩ <;> decide +kernel
theorem test_install_late : (statuses (after (.installDone 5 none) (installing programming (some (8, 3)) []))).map (fun x => x.2) = [(8, 3)] := by
  decide +kernel
theorem test_remove_routine : let t := after (.remove (bulk 7 1 0 9 0 0 0 [])) { live with routines := [aRoutine] }
    t.routines.map (fun r => r.current) = [none] ∧ (statuses t).map (fun x => x.2) = [(0, 0)] := by decide +kernel
theorem test_empty_shared : let t := after (.planeEmpty 0 0 0) (emptying shared)
    (t.planeAt (0, 0, 0)).spans = [⟨6, 16, 16, 0, 0⟩] ∧ (t.planeAt (0, 0, 0)).st = .live ∧ (t.planeAt (0, 0, 0)).thr = 3 ∧
      (t.planeAt (0, 0, 0)).rows = [] ∧ t.placements.map (·.handle) = [6] := by decide +kernel
theorem test_install : let t := after (.installDone 5 none) (installing programming none [])
    t.pkg.epoch = 1 ∧ t.placements.map (fun p => (p.handle, p.commit)) = [(5, 1)] ∧ (t.planeAt (0, 0, 0)).st = .live ∧
      (t.planeAt (0, 0, 0)).dyn = some 5 := by decide +kernel
/-- R332: a plane that does not verify after its engine was substituted: VERIFY_FAIL with the span. -/
theorem test_install_fails : let t := after (.installDone 5 none) (installing stuckCore none [(0, 0)])
    (statuses t).map (fun x => x.2) = [(0x0D, 0)] ∧ t.placements.length = 0 ∧ (t.planeAt (0, 0, 0)).st = .empty := by decide +kernel
theorem test_routine_commit : let t := after (.routineCommit 7 9) { live with routines := [aRoutine] }
    t.pkg.epoch = 1 ∧ t.routines.map (fun r => (r.current, r.versions.map (fun v => (v.num, v.from_, v.until_)))) =
      [(some 2, [(1, 0, some 1), (2, 1, none)])] := by decide +kernel
theorem test_remove : let t := after (.remove (bulk 7 0 0 5 0 0 0 [])) { live with placements := [plc] }
    t.pkg.epoch = 1 ∧ t.placements.map (·.removed) = [some 1] := by decide +kernel
theorem test_retire_plane : ((after (.placementRetire 5) (removing false)).planeAt (0, 0, 0)).st = .retired ∧
    ((after (.placementRetire 5) (removing true)).planeAt (0, 0, 0)).st = .live := by decide +kernel
theorem test_plane_empty : ((after (.planeEmpty 0 0 0) (onCore [] (withPlane { livePlane with st := .retired } coreRun))).planeAt (0, 0, 0)) =
    Plane.fresh := by decide +kernel

/-! ### Planes in doubt and substitutions (R17, R20, R70 to R79, R336, R337, R412 to R414) -/

/-- Placement 5 installed with its golden copy, its plane as `p`. -/
def golden (p : Plane) : State := { live with placements := [goldPlc], cores := [(0, withPlane p Core.fresh)] }
/-- A FENCED plane in doubt that holds what its golden copy gives: 2 in row 0, output 0. -/
def doubted : Plane := { livePlane with st := .fenced, doubt := true, spans := [⟨5, 0, 32, 0, 0⟩] }
def awaiting : Plane := { doubted with doubt := false, absorb := true }
/-- A cell that reads 1 where 0 is written: row 1, column 17. -/
def stuckAt (p : Plane) : Core := (withPlane p Core.fresh).setEngine 0 { (withPlane p Core.fresh).engine 0 with stuck := [⟨0, 1, 17, true⟩] }
def stuckGolden (p : Plane) (absorb : Bool) : State := { golden p with
  cores := [(0, stuckAt p)]
  profile := { State.reset.profile with work := { State.reset.profile.work with cellPolicy := [(5, 5, absorb)] } } }
/-- Both copies of the only page of the golden copy. -/
def goldLosses : List GoldLoss := [⟨5, 0, 0⟩, ⟨5, 0, 1⟩]
def pagedGolden : State := { golden doubted with placements := [{ goldPlc with rowsAt := [(0, 64)] }] }
def patching (p : Plane) : State := { golden p with placements := [{ goldPlc with patch := [[0, 0, 1, 5]] }] }
def fencing (replica : Bool) : State :=
  let s := placed (onCore [matmulI] (withPlane { livePlane with st := .fenced }
    { coreRun with q := { coreRun.q with flights := [{ flightAt matmulI passCmd with fence := some (0, 0) }] } }))
  if replica then { s with placements := [plc, { plc with handle := 6, replica := some 5, spans := [] }] } else s
theorem witness_PlanesInDoubt : (golden doubted).toDiagnose (0, 0, 0) = true ∧ ((golden doubted).core 0).passOn 0 = false ∧
    (golden doubted).substBlocks 0 [0] = false ∧ (golden doubted).mayProgram 0 0 = true ∧ doubted.bare = false ∧
    (golden doubted).goldWhole (0, 0, 0) = true ∧ (golden doubted).badCells (0, 0, 0) ((golden doubted).goldenRows (0, 0, 0)) = [] ∧
    (golden doubted).goldenRows (0, 0, 0) = doubted.rows ∧
    (stuckGolden doubted true).badCells (0, 0, 0) ((stuckGolden doubted true).goldenRows (0, 0, 0)) = [(1, 17, true)] ∧
    doubted.coveredBy 17 = some 5 ∧ (stuckGolden doubted true).absorbs 5 = true ∧ (stuckGolden doubted false).absorbs 5 = false ∧
    (stuckGolden doubted true).notesFit doubted [(1, 17, true)] = true ∧ (((stuckGolden doubted false).core 0).engine 0).spareCols = 4 ∧
    (pagedGolden.loseGold goldLosses).goldWhole (0, 0, 0) = false ∧ pagedGolden.toDiagnose (0, 0, 0) = true := by
  refine ⟨?_, ?_, ?_, ?_, ?_, ?_, ?_, ?_, ?_, ?_, ?_, ?_, ?_, ?_, ?_, ?_⟩ <;> decide +kernel
theorem witness_PlanesInDoubt_patches : (stuckGolden awaiting false).planeAt (0, 0, 0) = awaiting ∧
    (stuckGolden awaiting false).placements.all (fun q => q.patch.isEmpty) = true ∧
    (patching awaiting).placements.flatMap (·.patchKeys) = [(0, 0, 0)] ∧
    (∀ p ∈ (patching awaiting).placements, p.patch ≠ [] ∧ ∀ x ∈ p.spans, (patching awaiting).mayProgram x.k x.engine = true) ∧
    (patching awaiting).grazer.slices = [] ∧ ((patching doubted).planeAt (0, 0, 0)).absorb = false ∧
    coreOk 0 = true ∧ ((fencing false).core 0).live = true ∧
    (((fencing false).core 0).q.flights.find? (fun f => f.fence.isSome)).map (·.fence) = some (some (0, 0)) ∧
    ((fencing false).frameOf ((fencing false).core 0)).isSome = true ∧ ((((fencing false).core 0).engine 0).plane 0).st = .fenced ∧
    (fencing false).replicaFor ((fencing false).entries.headD (entryOf [])) 5 = none ∧
    ((fencing true).replicaFor ((fencing true).entries.headD (entryOf [])) 5).map (·.handle) = some 6 := by
  refine ⟨?_, ?_, ?_, ?_, ?_, ?_, ?_, ?_, ?_, ?_, ?_, ?_, ?_⟩ <;> decide +kernel
/-- R70: cells that read as the golden copy count as a transient; others are programmed again. -/
theorem test_diagnosis_transient : let t := after (.planeDiagnosis 0 0 0 ⟨true, []⟩) (golden doubted)
    (t.planeAt (0, 0, 0)).st = .live ∧ (t.core 0).arr.transient = 1 ∧ (t.core 0).arr.reprogram = 0 := by decide +kernel
theorem test_diagnosis_reprogram : let t := after (.planeDiagnosis 0 0 0 ⟨true, []⟩) (golden { doubted with rows := [(0, 3)] })
    (t.planeAt (0, 0, 0)).rows = doubted.rows ∧ (t.core 0).arr.reprogram = 1 := by decide +kernel
/-- R70, R74: under ABSORB a note names handle 5, row 1, column 17 and the value 1. -/
theorem test_diagnosis_notes : let t := after (.planeDiagnosis 0 0 0 ⟨true, []⟩) (stuckGolden doubted true)
    t.placements.map (·.notes) = [[5 * 2 ^ 48 + 1 * 2 ^ 22 + 17 * 2 ^ 14 + 2 ^ 13]] ∧ (t.planeAt (0, 0, 0)).absorb = true := by decide +kernel
theorem test_diagnosis_columns : (after (.planeDiagnosis 0 0 0 ⟨true, []⟩) (stuckGolden doubted false)).maps.subst = [⟨1, 0, 0, 17⟩] := by
  decide +kernel
theorem test_diagnosis_lost : let t := after (.planeDiagnosis 0 0 0 ⟨true, goldLosses⟩) pagedGolden
    (t.planeAt (0, 0, 0)).lost = true ∧ t.inst.lostCount = 1 := by decide +kernel
theorem test_absorb_wait : (after (.absorbWait 0 0 0) (stuckGolden awaiting false)).maps.subst = [⟨1, 0, 0, 17⟩] := by decide +kernel
theorem test_patch : let t := after (.patchApply 5) (patching awaiting)
    t.placements.map (fun p => (p.gold, p.patch)) = [([[5 * 256 + 2]], [])] ∧ (t.planeAt (0, 0, 0)).st = .live := by decide +kernel
theorem test_patch_superseded : let t := after (.patchApply 5) (patching doubted)
    t.placements.map (fun p => (p.gold, p.patch)) = [([[2]], [])] := by decide +kernel
/-- R337: no replica: FENCED with the handle, engine and plane; with one, the frame runs again on it. -/
theorem test_fence_wait : (((after (.fenceWait 0) (fencing false)).core 0).haltRec).map (fun r => (r.reason, r.detail)) = some (0x40, 5 * 65536) := by
  decide +kernel
theorem test_fence_redirect : let t := after (.fenceWait 0) (fencing true)
    t.entries.map (fun e => (e.st, e.frame.places)) = [(.ready, [6])] ∧ t.inst.redirects = 1 := by decide +kernel

def substituting (u : FaultUnit) : State := { live with maps := { live.maps with subst := [u] } }
theorem witness_Substitutions : (substituting ⟨1, 0, 31, 263⟩).mayRun ⟨3, live.engineTarget 0 31⟩ = true ∧
    (substituting ⟨2, 0, 31, 0⟩).spareEngine 0 = some 32 ∧ (substituting ⟨3, 15, 0, 0⟩).spareCore 15 = some 16 ∧
    (onCore [] { coreRun with diag := true }).clusterDoubt 0 = false ∧ (onCore [] { coreRun with diag := true }).spareCore 0 = some 16 := by
  decide +kernel
/-- A substitution of each level with its spare, a dynamic plane in doubt, and a core in diagnosis. -/
def testing : State := onCore [] (coreRun.setEngine 0 ((coreRun.engine 0).setPlane 7 { dynPlane with st := .fenced, doubt := true }))
theorem witness_Substitutions_clauses : ((substituting ⟨1, 0, 31, 263⟩).core 0).passOn 31 = false ∧
    (substituting ⟨1, 0, 31, 263⟩).mayProgram 0 31 = true ∧ (substituting ⟨1, 0, 31, 263⟩).grazer.slices = [] ∧
    (testing.planeAt (0, 0, 7)).dyn = some 5 ∧ (∀ p, p < 7 → testing.inDoubt (0, 0, p) = false) ∧ testing.substBlocks 0 [0] = false ∧
    (testing.core 0).passOn 0 = false ∧ testing.mayProgram 0 0 = true ∧ testing.grazer.slices = [] ∧
    (substituting ⟨4, 511, 0, 0⟩).spareCluster 511 = some 8 ∧ (⟨2, 0, 31, 0⟩ : FaultUnit) ∉ live.maps.subst ∧
    (onCore [] { coreRun with diag := true }).spareLeft 3 0 = true ∧ (onCore [] { coreRun with diag := true }).maps.subst = [] := by
  refine ⟨?_, ?_, ?_, ?_, ?_, ?_, ?_, ?_, ?_, ?_, ?_, ?_, ?_⟩ <;> decide +kernel
theorem test_engine_fails : (after (.substitutionDone ⟨2, 0, 31, 0⟩ ⟨7, []⟩ false) (substituting ⟨2, 0, 31, 0⟩)).maps.subst = [⟨3, 0, 0, 0⟩] := by
  decide +kernel
theorem test_cluster : (after (.substitutionDone ⟨4, 511, 0, 0⟩ ⟨7, []⟩ true) (substituting ⟨4, 511, 0, 0⟩)).physCluster 3 7 = some 8 := by
  decide +kernel
theorem test_column : let t := after (.columnSubstitution 0 31 263 ⟨7, []⟩) (substituting ⟨1, 0, 31, 263⟩)
    ((t.core 0).engine 31).physCol 263 = 264 ∧ t.maps.subst.length = 0 ∧ t.flt.subst = 1 ∧ t.flt.substMax = 7 := by decide +kernel
theorem test_engine : let t := after (.substitutionDone ⟨2, 0, 31, 0⟩ ⟨7, []⟩ true) (substituting ⟨2, 0, 31, 0⟩)
    t.physEngine 0 31 = 32 ∧ t.flt.sEngine = 1 := by decide +kernel
theorem test_core : (after (.substitutionDone ⟨3, 15, 0, 0⟩ ⟨7, []⟩ true) (substituting ⟨3, 15, 0, 0⟩)).physCore 15 = 16 := by decide +kernel
theorem test_dynamic_test : let t := after (.dynamicPlaneTest 0 0) (onCore [] (coreRun.setEngine 0 ((coreRun.engine 0).setPlane 7
      { dynPlane with st := .fenced, doubt := true })))
    (t.planeAt (0, 0, 7)).st = .live ∧ (t.planeAt (0, 0, 7)).written = 0 := by decide +kernel
theorem test_core_diagnosis : (after (.coreDiagnosisDone 0 true) (onCore [] { coreRun with diag := true })).maps.subst = [⟨3, 0, 0, 0⟩] ∧
    (after (.coreDiagnosisDone 0 false) (onCore [] { coreRun with diag := true })).flt.transient = 1 := by decide +kernel
/-- R412, R413: a row mended in the diagnosis was the fault; the core returns, and no transient fault is counted. -/
theorem test_core_diagnosis_mended : let t := after (.coreDiagnosisDone 0 false) (onCore [] { coreRun with diag := true, mended := true })
    t.flt.transient = 0 ∧ (t.core 0).diag = false := by decide +kernel

/-! ### Die shared memory, hubs and QUIET (R184 to R194, R411, R420 to R424) -/

/-- A frame whose routine lies at the last line of bank `bank` of die 0, and a placement with tables in TB. -/
def stored (bank : Nat) : State := { running [] with
  routines := [⟨9, 7, 1, some 1, [⟨1, 1, [ins 0x14 0], 0, none, 1, [(0, 16384 * bank + 16383)], [], 0⟩], []⟩]
  placements := [{ plc with tabBytes := 64 }] }
theorem witness_DieSharedMemory : bankOk 3 63 = true ∧ bankOk 5 47 = true ∧ bankOk 5 48 = false ∧ coreOk 0 = true ∧
    live.bankState 0 43 = .off ∧ (stored 43).bankState 0 43 ≠ .off ∧ (stored 43).bankState 0 44 ≠ .off ∧ (stored 43).bankState 0 62 ≠ .off ∧
    (stored 43).bankState 0 63 = .off ∧ live.bankState 5 15 ≠ .off ∧ live.bankState 4 38 = .off ∧ live.bankState 4 39 ≠ .off ∧
    live.bankState 4 46 ≠ .off ∧ live.bankState 4 47 ≠ .off ∧ (live.hub 0).up = true := by decide +kernel
theorem witness_DieSharedMemory_accesses : live.mayAccess 0 1 0 0 true none = true ∧ (stored 43).mayAccess 0 1 43 16383 true none = false ∧
    (stored 43).mayAccess 0 1 43 16382 true none = true ∧ live.mayAccess 0 3 0 0 false none = false ∧ live.mayAccess 0 2 0 0 true none = false ∧
    live.mayAccess 0 2 0 0 true (some 0) = false ∧ (live.core 0).entry = none ∧ live.mayAccess 4 1 0 0 true none = false ∧
    live.mayAccess 0 2 44 0 false (some 0) = true ∧ live.mayAccess 0 2 44 0 false (some 128) = false ∧ hasAccess 0 5 = false ∧
    hasAccess 0 1 = true := by decide +kernel
/-- R183: bank 43, line 5, byte 9. -/
theorem test_dsm_address : dsmBank 0x02B00149 = 43 ∧ dsmLine 0x02B00149 = 5 ∧ dsmByte 0x02B00149 = 9 ∧ dsmAddr 43 5 = 0x02B00140 := by
  decide +kernel
/-- R186: bank 43 is the last of the routine store, bank 44 the first of the shared tables. -/
theorem test_dsm_store : let t := after (.dsmEccError 0 43 16383 true false (some 0)) (stored 43)
    (t.core 0).haltRec.map (fun r => (r.reason, r.detail)) = some (0x21, 2 ^ 30 + 43 * 2 ^ 24 + 16383 * 2 ^ 10) ∧
      t.dsm.map (·.badLines) = [[(43, 16383)], [], [], [], [], []] ∧
      t.routines.flatMap (fun r => r.versions.map (fun v => Tbl.num v.lineAt 0)) = [0] := by decide +kernel
theorem test_dsm_tables : let t := after (.dsmEccError 0 44 5 true false (some 0)) (stored 43)
    (t.core 0).st = .halted ∧ t.dsm.map (·.badLines.length) = [0, 0, 0, 0, 0, 0] := by decide +kernel
theorem test_dsm_directory : (after (.dsmEccError 0 62 5 true false none) (stored 43)).dsm.map (·.rebuild) =
    [true, false, false, false, false, false] := by decide +kernel
theorem test_dsm_ledger : let t := after (.dsmEccError 5 15 0 true true none) live
    t.pkg.quiet = 3 ∧ t.ledgerLost = 1 := by decide +kernel
theorem test_dsm_denied : let t := after (.dsmAccessDenied 0 2 ⟨0, 0⟩ true none) live
    t.dsm.map (·.denied) = [1, 0, 0, 0, 0, 0] ∧ t.flt.local_ = 1 := by decide +kernel
theorem test_dsm_denied_hub : ((after (.dsmAccessDenied 4 1 ⟨0, 0⟩ true none) live).hub 0).up = false := by decide +kernel
theorem test_dsm_wake : ((after (.dsmBankWakeDone 4 16) { live with dsm := live.dsm.map (fun d => { d with banks := d.banks.set 16 .waking }) }).dsm.map
    (fun d => at' d.banks 16 .off)) = [.waking, .waking, .waking, .waking, .on, .waking] := by decide +kernel
theorem test_dsm_power : (State.reset.dsmWords 0).drop 4 |>.take 4 |>.all (· == 0) := by decide +kernel
theorem test_dsm_power_hub : (State.reset.dsmWords 4).drop 4 |>.take 4 |>.map (·.toNat) |> (· = [0xAAAAAAAA, 0, 0xAAAA8000, 0]) := by
  decide +kernel
theorem test_dsm_escalate : (after (.dsmPriorityEscalate 0 44 1 3) (stored 43)).dsm.map (fun d => at' d.conflicts 1 0) = [3, 0, 0, 0, 0, 0] := by
  decide +kernel

def deaf (bridge die : Bool) : State := live.modHub 0 (fun h => { h with beatBridge := bridge, beatDie := die })
theorem witness_HubsAndQuiet : (live.hub 0).up = true ∧ (live.hub 1).up = true ∧ live.bridgeUp = true ∧ ((deaf false true).hub 0).beatDie = true ∧
    (∀ e ∈ live.entries, e.st ≠ .running) := by decide +kernel
def ranOn : State := { live with entries := [entryAs .running] }
/-- The last hub, a hub that is down, digests that differ, each way to leave QUIET, and a running frame. -/
theorem witness_HubsAndQuiet_clauses : ((deaf false false).hub 0).beatDie = false ∧ ((deaf true true).hub 0).beatBridge = true ∧
    ((live.modHub 1 (fun h => { h with up := false })).hub (1 - 0)).up = false ∧ (live.modHub 0 (fun h => { h with digest := 1 })).bridgeUp = true ∧
    ((live.modHub 0 (fun h => { h with digest := 1 })).hub 0).digest ≠ ((live.modHub 0 (fun h => { h with digest := 1 })).hub 1).digest ∧
    (live.enterQuiet 2).pkg.quiet = 2 ∧ live.pkg.quiet = 0 ∧ (live.enterQuiet 7).pkg.quiet = 7 ∧ 1 < live.hubs.length ∧
    ranOn.entries = [entryAs .running] ∧ (entryAs .running).ended = false ∧ ranOn.runsHere (entryAs .running) = true := by decide +kernel
theorem test_quiet_ends : (ranOn.enterQuiet 6).entries.map (fun e => (e.st, e.replays)) = [(.ready, 0)] := by decide +kernel
theorem test_hub_lost : let t := after (.hubHeartbeatLoss 0) (deaf false false)
    (t.hub 0).up = false ∧ t.pkg.leader = 1 := by decide +kernel
theorem test_bridges_lost : let t := after (.hubHeartbeatLoss 0) (deaf false true)
    t.pkg.quiet = 2 ∧ t.pkg.bridges = [false, false] := by decide +kernel
theorem test_digests_differ : (after .digestExchange (live.modHub 0 (fun h => { h with digest := 1 }))).pkg.quiet = 5 := by decide +kernel
theorem test_bridge_restored : (after (.bridgeRestored 0 true) (after (.hubHeartbeatLoss 0) (deaf false true))).pkg.quiet = 0 := by
  decide +kernel
theorem test_quiet_counts_once : (live.enterQuiet 3).flt.quiet = 1 ∧ ((live.enterQuiet 3).enterQuiet 5).pkg.quiet = 3 ∧
    ((live.enterQuiet 2).enterQuiet 5).pkg.quiet = 5 := by decide +kernel
theorem test_hub_self_check : ((after (.hubSelfCheckFail 1) live).hub 1).up = false := by decide +kernel
theorem test_heartbeat : ((after (.hubHeartbeat 0 true false) (deaf false false)).hub 0).beatBridge = true := by decide +kernel
theorem test_fault_pulse : (after .faultPulseEnd { live with pkg := { live.pkg with faultPulse := true } }).pkg.faultPulse = false := by
  decide +kernel

/-! ### The Yoke (R376 to R406) -/

theorem witness_EnvelopeAndSamples : live.clocked = true ∧ (live.die 3).waiting = [] ∧ 3 < live.dies.length ∧
    live.profile.power.floor ≤ live.profile.power.ceiling := by decide +kernel
def combed : State := { running [] with dies := live.dies.map (fun d => { d with waiting := [(0, 3, 2)] }) }
theorem witness_EnvelopeAndSamples_clauses : ({ live with pkg := { live.pkg with phase := .down } } : State).clocked = false ∧
    ({ live with pkg := { live.pkg with phase := .warm } } : State).clocked = true ∧ (live.yoke.doms[5]?).isSome = true ∧
    (live.yoke.doms[6]?).isSome = true ∧ (combed.die 3).waiting = [(0, 3, 2)] ∧ (combed.core 0).live = true := by decide +kernel
/-- R393: at 10 A for each start the limit of a window is 4 starts, and of 6 waiting 4 are granted. -/
theorem test_comb_limit : let t := after (.combWindow 0 10000) { running [] with dies := live.dies.map (fun d => { d with waiting := [(0, 3, 6)] }) }
    (t.die 0).limit = 4 ∧ (t.die 0).starts = 4 ∧ (t.die 0).waiting = [(0, 3, 2)] := by decide +kernel
/-- R398: at 1 µs a tick, 100 counts of 10 ns. -/
theorem test_tick : (after (.yokeTick ⟨[], [], [], []⟩ ⟨[], []⟩) live).pkg.aon = 100 := by decide +kernel
/-- R382: a slew of 10 mW per watt of the ceiling and microsecond: the envelope rises by 3,200 W·10/1000 at most. -/
theorem test_envelope_rises : (stepEnvelope live.profile.power { live.yoke with envelope := 1000 } 260000 260000).envelope = 33000 := by
  decide +kernel
theorem test_envelope_holds : (stepEnvelope live.profile.power { live.yoke with envelope := 260000000 } 200000 200000).envelope = 260000000 := by
  decide +kernel
/-- R378: κ lies between 0.5 and 2. -/
theorem test_kappa : newKappa 65536 3 2 0 = (98304, false) ∧ (newKappa 65536 9 2 0).1 = 131072 ∧ (newKappa 65536 1 9 0).1 = 32768 := by
  decide +kernel
theorem test_avs : ((after (.avsSample 0 750 1000) live).yoke.doms.map (·.draw)) = [750, 0, 0, 0, 225000, 0, 35000] := by decide +kernel
theorem test_pmbus : (after (.pmbusSample 2 40000) live).yoke.pmb = [0, 0, 40000] := by decide +kernel
/-- A regulator that did not answer at the start gives no sample. -/
theorem test_pmbus_missing : (after (.pmbusSample 2 40000) { live with idr := { live.idr with regs := 0xFF } }).yoke.pmb = live.yoke.pmb := by
  decide +kernel
theorem test_env_hold : (after .envHold { live with yoke := { live.yoke with below := true } }).yoke.falling = true := by decide +kernel
/-- R394: a delayed start is granted in the next window. -/
theorem test_comb : let t := after (.combWindow 0 0) { running [] with dies := live.dies.map (fun d => { d with waiting := [(0, 3, 2)] }) }
    (t.die 0).granted = [(0, 3)] ∧ (t.die 0).waiting = [] := by decide +kernel

def downClocks : State := { live with pkg := { live.pkg with phase := .clocksOff } }
theorem witness_HeatAndVoltage : live.yoke.temps[5]? = some 25 ∧ live.clocked = true ∧ (live.die 3).alarm = false ∧ (live.die 3).up = true ∧
    3 < live.dies.length := by decide +kernel
def alarmed : State := { live with dies := live.dies.map (fun d => { d with alarm := true }) }
theorem witness_HeatAndVoltage_clauses : (live.enterQuiet 3).pkg.quiet ≠ 0 ∧ live.profile.power.floor ≤ live.profile.power.ceiling ∧
    downClocks.clocked = false ∧ (alarmed.die 3).alarm = true ∧ (alarmed.die 3).up = true ∧ (live.die 0).vset + 25 < 800 + (live.die 0).vset ∧
    ((running []).core 0).live = true ∧ 0 / 128 = 0 := by decide +kernel
theorem test_readback : let t := (live.railRead 0 ((live.die 0).vset + 25)); let u := live.railRead 0 ((live.die 0).vset + 26)
    (t.die 0).alarm = false ∧ (u.die 0).alarm = true ∧
      (((u.railRead 0 (live.die 0).vset).railRead 0 (live.die 0).vset).die 0).alarm = false := by decide +kernel
theorem test_temp : let t := after (.tempReport 5 105) live
    t.yoke.regs.tlimit = 1 ∧ t.yoke.regs.twarn = 1 ∧ (after (.tempReport 5 104) live).yoke.regs.tlimit = 0 := by decide +kernel
theorem test_thermtrip : let t := after (.thermtrip 0) (running [])
    t.pkg.phase = .clocksOff ∧ (t.core 0).live = false ∧ t.entries.length = 0 := by decide +kernel
theorem test_voltage : let t := after (.voltageAlarm 0) (running [])
    (t.core 0).haltRec.map (fun r => (r.reason, r.detail)) = some (0x25, 0) ∧ (t.die 0).alarm = true := by decide +kernel
theorem test_voltage_persists : ((after (.voltageAlarmPersist 1) { live with dies := live.dies.map (fun d => { d with alarm := true }) }).die 1).up =
    false := by decide +kernel

/-- Physical cluster 0 of die 0 in a state. -/
def clustered (st : ClSt) (waking unlocked : Bool) (c : Core) : State :=
  { onCore [] c with entries := [], clusters := [(0, ⟨st, true, unlocked, waking, false, false⟩)] }
def idleOn : Core := { coreRun with st := .idle, entry := none }
theorem witness_Clusters : live.logCluster 3 7 = some 7 ∧ live.logCluster 3 8 = none ∧ ((clustered .idle false false idleOn).cl 0 0).st = .idle ∧
    (clustered .idle false false idleOn).clusterNeeded 0 0 = false ∧ (clustered .idle false false idleOn).clusterWorks 0 0 = false ∧
    (clustered .doze false false idleOn).holdsPlacement 0 0 = false ∧ ((clustered .doze true false idleOn).cl 0 0).waking = true ∧
    ((clustered .run false true idleOn).cl 0 0).unlocked = true := by decide +kernel
/-- A die asleep with the last cluster, one that is not, a spare cluster, one that is being replaced. -/
theorem witness_Clusters_clauses : ((clustered .run false false coreRun).cl 0 0).unlocked = false ∧
    ((clustered .run false false coreRun).cl 0 0).st = .run ∧ ((clustered .run false false coreRun).core 0).live = true ∧
    live.logCluster 3 8 = none ∧ live.logCluster 0 0 = some 0 ∧ live.spareLeft 4 (128 * 3 + 16 * 7) = true ∧ live.maps.subst = [] ∧
    (clustered .idle false false idleOn).holdsBallast 0 0 = false ∧ ((clustered .idle false false idleOn).cl 0 0).waking = false ∧
    ((clustered .doze false false idleOn).cl 0 0).st = .doze ∧ (clustered .doze false false idleOn).clusterNeeded 0 0 = false ∧
    (clustered .idle false false idleOn).dieAsleep 0 = false ∧
    ({ live with clusters := (List.range 9).map (fun c => (c, ⟨.doze, true, false, false, false, false⟩)) } : State).dieAsleep 0 = true ∧
    ({ live with clusters := (List.range 9).map (fun c => (c, ⟨.doze, true, false, false, false, false⟩)) } : State).stackUp 3 = true := by
  refine ⟨?_, ?_, ?_, ?_, ?_, ?_, ?_, ?_, ?_, ?_, ?_, ?_, ?_, ?_⟩ <;> decide +kernel
theorem test_clock_loss : let t := after (.clockLoss 0 0) { clustered .run false false coreRun with cores := [(0, coreRun), (16, coreRun)] }
    (t.core 0).haltRec.map (fun r => (r.reason, r.detail)) = some (0x24, 0) ∧ (t.core 16).st = .run := by decide +kernel
theorem test_relock : ((after (.clusterRelocked 0 0) (clustered .run false true idleOn)).cl 0 0).unlocked = false := by decide +kernel
/-- R16: a cluster without lock is replaced by the spare one, number 8. -/
theorem test_relock_timeout : (after (.relockTimeout 0 0) (clustered .run false true idleOn)).maps.subst.map (fun u => (u.level, u.k)) = [(4, 0)] := by
  decide +kernel
theorem test_doze : let t := after (.dozeEntry 0 0) (clustered .idle false false idleOn)
    (t.cl 0 0).st = .doze ∧ (t.core 0).sheet 31 = .retention ∧ t.yoke.regs.dozes = 1 := by decide +kernel
theorem test_off : let t := after (.clusterOff 0 0) (clustered .doze false false { idleOn with mem := { idleOn.mem with spad := [(0, 1)] } })
    (t.cl 0 0).st = .off ∧ (t.core 0).mem.spad.length = 0 := by decide +kernel
theorem test_wake : let t := after (.clusterWakeDone 0 0) (clustered .doze true false { idleOn with mem := { idleOn.mem with
      sheets := List.replicate 32 .retention } })
    (t.cl 0 0).st = .run ∧ (t.core 0).sheet 0 = .on ∧ t.yoke.regs.wakes = 1 := by decide +kernel
theorem test_self_refresh : let s : State := { live with clusters := (List.range 9).map (fun c => (c, ⟨.doze, true, false, false, false, false⟩)) }
    (at' (after (.stackSelfRefresh 3) s).hbmStacks 3 (false, false)).2 = true ∧ (at' (after (.stackSelfRefresh 4) s).hbmStacks 4 (false, false)).2 = false := by
  decide +kernel

/-! ### Self-test and repair (R446 to R470) -/

def tgt (kind bank : Nat) : Target := ⟨kind, 0, 0, 0, 0, bank, 0⟩
/-- A slice of LOGIC on core 0 may start: ballast is there. -/
def grazing (slices : List Slice) : State :=
  { clustered .idle false false { idleOn with ctl := { idleOn.ctl with pc := 9 } } with
    dies := live.dies.map (fun d => { d with ballast := 1000 }), grazer := { live.grazer with slices := slices } }
def slice (units limit : Nat) (failed : Bool) : Slice := ⟨tgt 1 0, units, limit, 0, 0, failed, 0⟩
theorem witness_SlicesAndRounds : (grazing []).sliceMay (tgt 1 0) = true ∧ (grazing []).targetAwake (tgt 1 0) = true ∧ live.sliceMay (tgt 1 0) = false ∧
    (grazing [slice 0 1 false]).grazer.slices.find? (fun x => x.t == tgt 1 0) = some (slice 0 1 false) ∧ live.grazer.started = true ∧
    live.grazer.overran = false ∧ live.roundDone = false := by decide +kernel
def sweepT : Target := ⟨3, 0, 0, 0, 0, 0, 0⟩
/-- A SWEEP slice with planes left and one that has tried them all; a slice whose units are done, one that failed; a cluster that
dozes; and a round with nothing left to do, every die and hub being out of service. -/
def outOfWork : State := { live with dies := live.dies.map (fun d => { d with up := false }), hubs := live.hubs.map (fun h => { h with up := false }) }
theorem witness_SlicesAndRounds_clauses : live.nextPlane ⟨sweepT, 0, 8, 0, 0, false, 0⟩ = some 0 ∧
    live.nextPlane ⟨sweepT, 0, 8, 0, 255, false, 0⟩ = none ∧ live.nextPlane ⟨sweepT, 0, 8, 0, 127, false, 0⟩ = some 7 ∧
    (slice 0 1 false).failed = false ∧ (slice 0 1 false).units < (slice 0 1 false).limit ∧ (slice 0 1 true).failed = true ∧
    (slice 1 1 false).limit ≤ (slice 1 1 false).units ∧ (grazing []).grazer.slices = [] ∧ targetOk (tgt 1 0) = true ∧ targetOk sweepT = true ∧
    ({ clustered .doze false false idleOn with dies := live.dies.map (fun d => { d with ballast := 1000 }) } : State).sliceMay (tgt 1 0) = true ∧
    ({ clustered .doze false false idleOn with dies := live.dies.map (fun d => { d with ballast := 1000 }) } : State).targetAwake (tgt 1 0) = false ∧
    ({ live with grazer := { live.grazer with overran := true } } : State).grazer.overran = true := by
  refine ⟨?_, ?_, ?_, ?_, ?_, ?_, ?_, ?_, ?_, ?_, ?_, ?_, ?_⟩ <;> decide +kernel
theorem witness_SlicesAndRounds_round : outOfWork.roundDone = true := by decide +kernel
theorem test_slice_fails : let t := after (.sliceEnd (tgt 1 0)) (grazing [slice 0 1 true])
    t.grazer.slices.length = 0 ∧ t.grazer.regs.fail = 1 := by decide +kernel
theorem test_slice_start : let t := after (.grazerSliceStart (tgt 1 0)) (grazing [])
    t.grazer.slices.length = 1 ∧ (t.core 0).ctl.pc = 0 := by decide +kernel
/-- R451: while core 0 can take a slice, core 1 cannot. -/
theorem test_slice_order : (grazing []).sliceCan ⟨1, 0, 0, 1, 0, 0, 0⟩ = true ∧ (grazing []).sliceMay ⟨1, 0, 0, 1, 0, 0, 0⟩ = false := by
  decide +kernel
theorem test_slice_unit : (after (.sliceUnitDone (tgt 1 0) false 7) (grazing [slice 0 1 false])).grazer.slices.map
    (fun x => (x.units, x.failed, x.bad)) = [(1, true, 7)] := by decide +kernel
theorem test_slice_end : let t := after (.sliceEnd (tgt 1 0)) (grazing [slice 1 1 false])
    t.grazer.slices.length = 0 ∧ t.grazer.regs.slices = 1 := by decide +kernel
theorem test_slice_stop : (after (.sliceStop (tgt 1 0)) (grazing [slice 0 1 false])).grazer.regs.stop = 1 := by decide +kernel
theorem test_overrun : (after .roundOverrun live).grazer.regs.overrun = 1 := by decide +kernel

def sweeping (p : Plane) : State := { golden p with placements := [] }
def record8 : Nat := repairRecord 7 0 0 0 0 5 3
theorem witness_SweepsAndMarches : (sweeping dynPlane).mayRun ⟨4, (sweeping dynPlane).engineTarget 0 0⟩ = true ∧ ((sweeping dynPlane).core 0).passOn 0 = false ∧
    (sweeping dynPlane).sweepSkips 0 0 0 = false ∧ (sweeping dynPlane).compares 0 0 0 = true ∧
    (live.marchTarget (tgt 6 5) true) = true ∧ live.mayRun ⟨2, tgt 6 5⟩ = true ∧ 0 < live.repair.length ∧ live.mayBurn 0 record8 = false ∧
    ({ live with repair := live.repair.map (fun r => { r with due := [record8] }) } : State).mayBurn 5 record8 = true := by decide +kernel
def marching (t : Target) (b : Bool) : State := { live with grazer := { live.grazer with marches := [(t, b)] } }
/-- Four spare rows of a segment are in use. -/
def spent (t : Target) : State := { marching t true with repair := live.repair.map (fun r => { r with spares := [(segmentOf t 3, 4)] }) }
theorem witness_SweepsAndMarches_clauses : (sweeping dynPlane).mayStart ⟨4, (sweeping dynPlane).engineTarget 0 0⟩ = true ∧
    (sweeping dynPlane).substBlocks 0 [0] = false ∧ (∀ p, p < 8 → (sweeping dynPlane).compares 0 0 p = true) ∧
    (sweeping { dynPlane with st := .fenced }).sweepSkips 0 0 0 = true ∧
    (({ live with cores := [(0, stuckAt Plane.fresh)] } : State).planeAt (0, 0, 0)).st = .empty ∧
    (marching (tgt 5 0) false).grazer.marches.find? (fun m => m.1 == tgt 5 0) = some (tgt 5 0, false) ∧
    (marching (tgt 1 0) false).grazer.marches.find? (fun m => m.1 == tgt 1 0) = some (tgt 1 0, false) ∧ 0 ∈ live.targetCores (tgt 5 0) ∧
    (∀ k, k < 7 → 0 < k → targetOk (tgt k 0) = true) ∧ Tbl.num (live.rep 0).spares (segmentOf (tgt 6 5) 3) < 4 ∧
    4 ≤ Tbl.num ((spent (tgt 6 5)).rep 0).spares (segmentOf (tgt 6 5) 3) ∧ 4 ≤ Tbl.num ((spent (tgt 4 0)).rep 0).spares (segmentOf (tgt 4 0) 3) ∧
    0 < live.dsm.length ∧ (live.targetCores (tgt 4 0)).head? = some 0 ∧ record8 < 2 ^ 64 ∧ live.mayBurn 5 record8 = false := by
  refine ⟨?_, ?_, ?_, ?_, ?_, ?_, ?_, ?_, ?_, ?_, ?_, ?_, ?_, ?_, ?_, ?_⟩ <;> decide +kernel
theorem test_march_registers : let t := after (.marchDone (tgt 5 0) []) { marching (tgt 5 0) false with
      cores := [(0, { coreRun with mem := { coreRun.mem with treg := [(0, 3)] } })] }
    (t.core 0).mem.treg.length = 0 ∧ t.grazer.marches = [] := by decide +kernel
theorem test_march_retires : let t := after (.marchDone (tgt 6 5) [3]) (spent (tgt 6 5))
    (t.rep 0).retired = 1 ∧ (t.dsmOf 0).badLines = [(5, 3)] := by decide +kernel
theorem test_march_core : (after (.marchDone (tgt 4 0) [3]) (spent (tgt 4 0))).maps.subst.map (fun u => (u.level, u.k)) = [(3, 0)] := by
  decide +kernel
theorem test_march_defect : (after (.marchDone (tgt 1 0) [0]) (marching (tgt 1 0) false)).maps.bad = [(3, 0, 0, 0, 0)] := by decide +kernel
/-- R465: a core that is out of service is recorded when it fails the same test again, and not otherwise. -/
theorem test_march_retest : let s (l : List (Nat × Nat × Nat × Nat × Nat)) : State :=
      { marching (tgt 1 0) false with maps := { live.maps with bad := [(3, 0, 0, 0, 0)], retest := l } }
    ((after (.marchDone (tgt 1 0) [0]) (s [])).rep 0).due = [] ∧
    ((after (.marchDone (tgt 1 0) [0]) (s [(3, 0, 0, 0, 0)])).rep 0).due.length = 1 := by decide +kernel
/-- R450: a dynamic plane is left cleared; one with a cell that is stuck is FENCED. -/
theorem test_sweep : let t := after (.bellwetherSweep 0 0 true) (sweeping dynPlane)
    (t.planeAt (0, 0, 0)).written = 0 ∧ (t.planeAt (0, 0, 0)).st = .live := by decide +kernel
theorem test_sweep_fails : ((after (.bellwetherSweep 0 0 false) (sweeping dynPlane)).planeAt (0, 0, 0)).st = .fenced := by decide +kernel
theorem test_march : (after (.marchStart (tgt 6 5) true) live).grazer.marches = [(tgt 6 5, true)] := by decide +kernel
theorem test_march_repairs : let t := after (.marchDone (tgt 6 5) [3]) { live with grazer := { live.grazer with marches := [(tgt 6 5, true)] } }
    (t.rep 0).soft = 1 ∧ Tbl.num (t.rep 0).spares (segmentOf (tgt 6 5) 3) = 1 ∧ (t.rep 1).soft = 0 := by decide +kernel
theorem test_burn : let s : State := { live with repair := live.repair.map (fun r => { r with due := [record8] }) }
    ((after (.fuseBurn 5 record8 true) s).rep 5).hard = 1 ∧ ((after (.fuseBurn 5 record8 false) s).rep 5).burnFail = 1 := by decide +kernel
theorem test_wipe : (after .secureWipeDone { live with secure := { live.secure with wiping := true } }).secure.wiping = false := by decide +kernel

/-! ### Tamper and starts (R472, R497, R505 to R529) -/

def downed : State := { live with pkg := { live.pkg with phase := .down } }
theorem witness_TamperAndPowerOnReset : live.fuses.lcs ≠ 0 ∧ live.pkg.phase ≠ .down ∧ downed.pkg.phase = .down := by decide +kernel
theorem witness_TamperAndPowerOnReset_blank : ({ live with fuses := { live.fuses with lcs := 0 } } : State).fuses.lcs = 0 := by decide +kernel
theorem test_tamper : let t := after (.tamper 3) (placed (onCore [] (withPlane livePlane coreRun)))
    t.trust.tamperCnt = 1 ∧ t.trust.tamperSrc = 3 ∧ t.pkg.quiet = 1 ∧ t.placements.length = 0 ∧ (t.planeAt (0, 0, 0)).st = .empty := by
  decide +kernel
theorem test_porst : let t := after .porstAssert (running [])
    t.pkg.phase = .down ∧ t.readyPin = false ∧ t.faultPin = true ∧ t.entries.length = 0 := by decide +kernel

/-- A slot record of slot 7, position 3, partner 9 and role SECONDARY, with the hints of reset; its CRC-32 was computed by zlib. -/
def slotRecord : List Byte := beBytes 4 0xD4A1 ++ [1, 2] ++ beBytes 2 7 ++ beBytes 2 3 ++ beBytes 2 9 ++ beBytes 4 0
  ++ slotHints.map (BitVec.ofNat 8) ++ beBytes 4 0xA048F7C0
def startIn (mbit : Nat) (chain : Bool) : StartIn :=
  ⟨0, 0, true, false, chain, mbit, true, [], slotRecord, 0x1FF, 0xFFFF, 0xFF, List.replicate 8 64, false, [], [], [], [], []⟩
theorem witness_Starts : downed.pkg.phase = .down ∧ (downed.coldBase (startIn 512 true)).bootSlot = some 0 ∧ bitAt (startIn 512 true).regs 4 = true ∧
    bitAt (startIn 512 true).regs 5 = true ∧ downed.fuses.lcs = 3 ∧
    ((((downed.coldBase (startIn 512 true)).boot 0).identity (startIn 512 true)).profOk 0).isSome = true ∧
    ((((downed.coldBase (startIn 512 true)).boot 0).identity (startIn 512 true)).profOk 1).isNone = true := by decide +kernel
def downAs (lcs : Nat) : State := { downed with fuses := { downed.fuses with lcs := lcs } }
def noSlots : State := { downed with nvm := { downed.nvm with fw := [⟨false, true, 0, 0⟩, ⟨true, false, 0, 0⟩] } }
def noProfile (lcs : Nat) : State := { downAs lcs with nvm := { downed.nvm with prof := [⟨0, false, true, Profile.dflt, 0⟩] } }
/-- Each way in which a start stops, or goes on without a profile; a start that was hot; and READY after a cold start in QUIET,
after a warm restart, and after one that leaves QUIET. -/
theorem witness_Starts_clauses : ({ downed with pkg := { downed.pkg with therm := true } } : State).pkg.therm = true ∧
    ({ startIn 512 true with hot := true } : StartIn).hot = true ∧ (downed.pkg.therm && (startIn 512 true).hot) = false ∧
    (startIn 511 true).nvmMbit < 512 ∧ 512 ≤ (startIn 512 false).nvmMbit ∧ (startIn 512 false).chainOk = false ∧ (startIn 512 true).sfdpOk = true ∧
    (noSlots.coldBase (startIn 512 true)).bootSlot = none ∧ bitAt ({ startIn 512 true with regs := 0x1EF } : StartIn).regs 4 = false ∧
    (downAs 0).fuses.lcs = 0 ∧ (downAs 1).fuses.lcs = 1 ∧ ((downAs 0).coldBase (startIn 512 true)).bootSlot = some 0 ∧
    ((((noProfile 2).coldBase (startIn 512 true)).boot 0).identity (startIn 512 true)).profOk 0 = none ∧
    ((((noProfile 3).coldBase (startIn 512 true)).boot 0).identity (startIn 512 true)).profOk 0 = none ∧
    ({ live with pkg := { live.pkg with phase := .starting, quiet := 3 } } : State).pkg.quiet ≠ 0 ∧
    ({ live with pkg := { live.pkg with phase := .dozing } } : State).pkg.leaving = false ∧
    ({ live with pkg := { live.pkg with phase := .dozing, leaving := true, quiet := 3 } } : State).pkg.leaving = true ∧
    live.pkg.phase ≠ .starting ∧ live.pkg.phase ≠ .dozing ∧
    ({ downed with pkg := { downed.pkg with phase := .starting } } : State).pkg.bootHub = 0 := by
  refine ⟨?_, ?_, ?_, ?_, ?_, ?_, ?_, ?_, ?_, ?_, ?_, ?_, ?_, ?_, ?_, ?_, ?_, ?_, ?_, ?_⟩ <;> decide +kernel
set_option maxRecDepth 100000 in
/-- R516: the record counts, and gives role, slot and partner; with another CRC it is ignored whole. -/
theorem test_slot_record : slotRecOk slotRecord = true ∧ slotRecOk (slotRecord.take 0x113 ++ [0]) = false ∧
    startRole (startIn 512 true) = 1 ∧ startRole { startIn 512 true with slotRec := [] } = 0 ∧
    (downed.identity (startIn 512 true)).idr.slotpos = 0x00090003 := by decide +kernel
theorem test_cold_start_held : let t := after (.coldStart (startIn 512 true)) (noProfile 3)
    t.pkg.phase = .held ∧ t.idr.hold = 1 ∧ t.faultPin = true := by decide +kernel
theorem test_ready_leaves : let t := after .readyAssert { live with pkg := { live.pkg with phase := .dozing, leaving := true, quiet := 3 }, ledgerLost := 1 }
    t.pkg.quiet = 0 ∧ t.ledgerLost = 0 ∧ t.readyPin = true := by decide +kernel
/-- R501: a warm restart that activated firmware raises the floor to its number. -/
theorem test_ready_warm : (after .readyAssert { live with pkg := { live.pkg with phase := .dozing, fwSvn := 5 } }).fuses.svnFloor = 5 := by decide +kernel
theorem test_cold_start : let t := after (.coldStart (startIn 512 true)) downed
    t.pkg.phase = .starting ∧ t.readyPin = false ∧ t.pkg.profNone = false := by decide +kernel
/-- R511: an NVM of less than 512 Mbit stops the start at step 2; a bad scan chain at step 3. -/
theorem test_cold_start_stops : (after (.coldStart (startIn 511 true)) downed).pkg.stopped = 2 ∧
    (after (.coldStart (startIn 512 false)) downed).pkg.stopped = 3 := by decide +kernel
theorem test_ready : let t := after .readyAssert { downed with pkg := { downed.pkg with phase := .starting, fwSvn := 5 } }
    t.readyPin = true ∧ t.fuses.svnFloor = 5 ∧ t.yoke.envelope = 260000000 := by decide +kernel
theorem test_boot_timeout : let t := after .bootReportTimeout { downed with pkg := { downed.pkg with phase := .starting } }
    t.pkg.bootHub = 1 ∧ (t.hub 0).up = false := by decide +kernel

theorem witness_WarmRestartsAndPorts : live.pkg.phase = .running ∧ live.portsLive = true ∧ (live.hub 1).up = true ∧ (live.port 7).present = true ∧
    live.addressed 7 = true ∧ live.profOk 0 ≠ none ∧ live.profOk 3 = none ∧ live.fwOk 0 = true ∧ live.fwOk 1 = false ∧
    ({ live with maint := [⟨16, 7, 0, 0, 0, false, 2, 5, 1, 9, 0⟩] } : State).dueActivity 7 = some ⟨16, 7, 0, 0, 0, false, 2, 5, 1, 9, 0⟩ ∧
    ({ live with maint := [⟨16, 8, 0, 0, 0, false, 2, 5, 1, 9, 0⟩] } : State).dueActivity 8 = some ⟨16, 8, 0, 0, 0, false, 2, 5, 1, 9, 0⟩ := by
  decide +kernel
def warming (e : Nat) : State := { live with pkg := { live.pkg with phase := .warm }, yoke := { live.yoke with envelope := e, standing := 9 } }
def activity (code : Nat) : Activity := ⟨16, code, 0, 0, 0, false, 2, 5, 1, 9, 3⟩
theorem witness_WarmRestartsAndPorts_clauses : (warming 9001).yoke.standing * 1000 < (warming 9001).yoke.envelope ∧
    (warming 9000).yoke.envelope ≤ (warming 9000).yoke.standing * 1000 ∧ (warming 9000).profOk 0 ≠ none ∧
    (([0, 1].find? (warming 9000).fwOk) = some 0) ∧ live.dueActivity 7 = none ∧ live.dueActivity 8 = none ∧ live.profOk 3 = none ∧
    live.fwOk 3 = false ∧ ({ live with maint := [activity 7, activity 8] } : State).dueActivity 7 = some (activity 7) ∧
    ({ live with maint := [activity 4] } : State).maint.find? (fun a => a.id == 16 && !a.running) = some (activity 4) ∧
    live.maint = [] ∧ live.ports.length = 8 ∧ live.pkg.phase ≠ .stuck ∧ live.profile.net.modPmax < 65 ∧
    ({ live with pkg := { live.pkg with phase := .stuck } } : State).portsLive = false ∧ live.fuses.lcs ≠ 7 ∧ (downAs 7).fuses.lcs = 7 := by
  refine ⟨?_, ?_, ?_, ?_, ?_, ?_, ?_, ?_, ?_, ?_, ?_, ?_, ?_, ?_, ?_, ?_, ?_⟩ <;> decide +kernel
theorem test_switch_abandoned : let t := after .profileSwitch { live with maint := [activity 7] }
    t.pkg.phase = .running ∧ t.maint.length = 0 := by decide +kernel
theorem test_wrst : let t := after .wrstPin (sess 1)
    t.pkg.phase = .warm ∧ t.bulk.map (·.aborted) = [true] ∧ t.objects.length = 0 := by decide +kernel
theorem test_warm_doze : let t := after .warmRestartDoze (after .wrstPin live)
    t.pkg.phase = .dozing ∧ t.idr.warm = 1 ∧ (t.cl 0 0).st = .doze := by decide +kernel
theorem test_profile_switch : let t := after .profileSwitch { live with maint := [⟨16, 7, 0, 0, 0, false, 2, 5, 1, 9, 0⟩] }
    t.pkg.phase = .warm ∧ t.pkg.usePending = some 0 ∧ t.maint.length = 0 := by decide +kernel
theorem test_firmware : let t := after .firmwareActivation { live with maint := [⟨16, 8, 0, 0, 0, false, 2, 5, 1, 9, 1⟩] }
    t.pkg.phase = .running ∧ t.maint.length = 0 ∧ t.pkg.fwNext = none := by decide +kernel
theorem test_defer : (after (.maintDefer 5) live).flt.defer = 1 := by decide +kernel
/-- R515: a module of more than `MOD_PMAX` (64 quarter watts) stays down. -/
theorem test_module : let t := after (.moduleInsert 7 65) live
    (t.port 7).overs = true ∧ t.idr.modpwr = 1 ∧ ((after (.moduleInsert 7 64) live).port 7).overs = false := by decide +kernel
theorem test_link : (after (.portLinkDown 7) live).portUp 7 = false ∧ (after (.portLinkUp 7 false) (after (.portLinkDown 7) live)).portUp 7 = true := by
  decide +kernel
theorem test_bypass : (after (.boundaryScan 5 0 9) live).out = [.tap 5 18] := by decide +kernel

/-! ### Status space and commands (R533 to R549) -/

/-- A MGMT request under session `tsid` whose head ends in `rsvd`, with the bytes `f` after it (R536). -/
def mgh (mop tsid rsvd : Nat) (auth : Bool) (f : List Byte) : MgmtIn :=
  let b := fieldBytes [(1, mop), (1, 0), (2, 0x55), (12, rsvd)] ++ f
  ⟨2, wireOf ⟨1, 6, tsid, 0, 0, 0, 1, b.length, 0, 0, 0⟩, auth, b, false⟩
def mgb (mop tsid : Nat) (auth : Bool) (f : List Byte) : MgmtIn := mgh mop tsid 0 auth f
/-- A request whose fields are all 0. -/
def mg (mop tsid : Nat) (auth : Bool) : MgmtIn :=
  mgb mop tsid auth (List.replicate (if mop = 0x42 then 1536 else if mop = 0x40 then 80 else 16) 0)
/-- A READ (R539), an ATTEST (R477), NVM-DATA (R546). -/
def rd (tsid : Nat) (auth : Bool) (a n : Nat) : MgmtIn := mgb 1 tsid auth (fieldBytes [(4, a), (2, n), (10, 0)])
def att (nonce first n : Nat) : MgmtIn := mgb 0x40 0xFFFE true (fieldBytes [(64, nonce), (2, first), (2, n), (12, 0)])
def dat (off : Nat) (data : List Byte) : MgmtIn := mgb 0x11 1 true (fieldBytes [(4, off), (2, data.length), (10, 0)] ++ data)
/-- The answers that left: the status, and the fields in numbers of 4 bytes. -/
def replies (s : State) : List (Nat × List Nat) := s.out.filterMap (fun o => match o with
  | .seg _ _ h b => if beAt h 1 1 = 6 then some (beAt b 16 1, (pieces 4 (b.drop 20)).map beNat) else none
  | _ => none)
/-- What `requested` asks, as one test. -/
def reqB (s : State) (m : MgmtIn) (mop : Nat) : Bool :=
  portOk m.port && (s.takes m.port m.wire && (decide (m.hdr.kind = 6) && (decide (m.mop = mop) && (m.auth &&
    (decide (m.busy = false) && m.valid)))))
theorem requested_of {s : State} {m : MgmtIn} {mop : Nat} (h : reqB s m mop = true) : s.requested m mop := by
  simpa only [reqB, State.requested, Bool.and_eq_true, decide_eq_true_eq] using h
theorem witness_Reads : live.requested (rd 0xFFFD true 0x4048 2) 1 ∧ live.mgmtSession 0xFFFD = true ∧
    (∀ x ∈ wordAddrs 0x4048 2, (blockAt x).any (fun b => live.blockUp b.1) = true) ∧
    (wordAddrs 0x4048 2).all (fun x => (blockAt x).isSome) = true ∧ (live.hub 1).up = true ∧
    beAt (rd 0xFFFD true 0x4048 2).body 16 4 = 0x4048 ∧ beAt (rd 0xFFFD true 0x4048 2).body 20 2 = 2 ∧
    live.requested (rd 0xFFFD true 0x101060 1) 1 ∧ (rd 0xFFFD true 0x101060 1).reads 0x101060 1 = true := by
  refine ⟨requested_of ?_, ?_, ?_, ?_, ?_, ?_, ?_, requested_of ?_, ?_⟩ <;> decide +kernel
/-- A frame that is no segment; and requests discarded, busy, bad, and of a reserved operation. -/
theorem witness_Reads_frames : live.takes 2 { (mg 1 0xFFFD true).wire with dest := 1 } = false ∧
    live.takes 2 (mg 1 0xFFFD true).wire = true ∧ (mg 1 0xFFFD true).hdr.kind = 6 ∧ mopDefined 1 = true ∧ live.mgmtSession 2 = false ∧
    (mg 1 0xFFFD true).valid = true ∧ (mgh 1 0xFFFD 1 true []).valid = false ∧ mopDefined 2 = false ∧
    (mgb 1 0xFFFD true (List.replicate 17 0)).valid = false ∧ (mgb 1 0xFFFD true (List.replicate 16 1)).valid = false ∧
    (live.session? 1).isSome = true := by decide +kernel
theorem test_requests : replies (after (.mgmtRead { rd 0xFFFD true 0x4048 1 with busy := true } 0x4048 1) live) = [(1, [])] ∧
    replies (after (.mgmtRead (mgb 1 0xFFFD true (List.replicate 17 0)) 0x4048 1) live) = [(6, [])] ∧
    replies (after (.mgmtRead (mg 2 1 true) 0x4048 1) live) = [(6, [])] ∧ replies (after (.mgmtRead (rd 1 true 0x4048 1) 0x404C 1) live) = [] ∧
    (after (.mgmtRead (mg 1 2 true) 0x4048 1) live).mgmt.drops = 1 ∧
    replies (after (.nvmData { dat 2 [7] with busy := true } 2 [7]) live) = [(1, [0])] := by decide +kernel
/-- Addresses of no register, of a lost die, and of the ends of the range of R539. -/
theorem witness_Reads_words : (wordAddrs 0x4048 2048).length = 2048 ∧
    ((wordAddrs 0x9FFC 1).find? (fun x => (blockAt x).isNone)) = some 0x9FFC ∧
    ((wordAddrs 0x200000 1).find? (fun x => !((blockAt x).any (fun b => ({ live with dies := live.dies.map (fun d =>
      { d with up := false }) } : State).blockUp b.1)))) = some 0x200000 ∧ (∀ x ∈ wordAddrs 0x200000 1, (blockAt x).isSome = true) := by
  decide +kernel
def timed : State := { live with pkg := { live.pkg with aon := 7 * 2 ^ 32 + 5 } }
/-- R398: TIME_LO latches TIME_HI, in one READ of both. -/
theorem test_read : replies (after (.mgmtRead (rd 0xFFFD true 0x4048 2) 0x4048 2) timed) = [(0, [0x4048, 0x20000, 5, 7])] := by decide +kernel
theorem test_read_bad : replies (after (.mgmtRead (rd 0xFFFD true 0x4049 1) 0x4049 1) timed) = [(6, [])] ∧
    replies (after (.mgmtRead (rd 0xFFFD true 0x9FFC 1) 0x9FFC 1) timed) = [(9, [0x9FFC])] ∧
    (after (.mgmtRead (rd 0xFFFD false 0x4048 1) 0x4048 1) timed).mgmt.drops = 1 := by decide +kernel
theorem test_admit_max : let s := live.modHub 1 (fun h => { h with fold := { h.fold with admitMax := 9 } })
    replies (after (.admitMaxRead (rd 0xFFFD true 0x101060 1) 1) s) = [(0, [0x101060, 0x10000, 9])] ∧
      ((after (.admitMaxRead (rd 0xFFFD true 0x101060 1) 1) s).hub 1).fold.admitMax = 0 := by
  decide +kernel
theorem test_subst_max : let t := after (.substMaxRead (rd 0xFFFD true 0x2030 1)) { live with flt := { live.flt with substMax := 9 } }
    replies t = [(0, [0x2030, 0x10000, 9])] ∧ t.flt.substMax = 0 := by decide +kernel
theorem test_time_lo : (after (.timeLoRead (rd 0xFFFD true 0x4048 1)) timed).pkg.timeHi = 7 := by decide +kernel

/-- An envelope signed with the key of digest 0 (R541). -/
def envb (code serial chal : Nat) (args : List Byte) : Envelope :=
  ⟨mgb 0x10 0xFFFD true (fieldBytes [(2, code), (2, 0), (4, args.length), (16, serial), (16, chal), (512, 0)] ++ args
    ++ List.replicate 512 0), 0, true⟩
/-- The owner's envelope of command `code` under challenge 77, which `told` holds. -/
def env (code : Nat) (args : List Byte) : Envelope := envb code 0 77 args
def enva (code a : Nat) : Envelope := env code [BitVec.ofNat 8 a, 0, 0, 0]
/-- The arguments of CLEAR, NVM-BEGIN and PAIR-BIND (R545 to R547). -/
def envClear (l : List (Nat × Nat)) : Envelope := env 1 (fieldBytes ((2, l.length) :: (6, 0) :: l.flatMap (fun x => [(4, x.1), (4, x.2)])))
def envNvm (target len digest : Nat) : Envelope := env 0x20 (fieldBytes [(1, target), (3, 0), (4, len), (64, digest)])
def envBind (l : List Nat) (w : Nat) : Envelope :=
  env 0x30 (fieldBytes [(16, at' l 0 0), (64, at' l 1 0), (512, at' l 2 0), (2, at' l 3 0), (2, 0), (64, at' l 4 0), (64, at' l 5 0), (512, w)])
def envRotate (d : Nat) : Envelope := env 0x41 (beBytes 64 d)
def envTake : Envelope := env 0x40 (List.replicate 512 0)
def told : State := { live with mgmt := { live.mgmt with challenge := 77 } }
/-- `told` in another life-cycle state, signed for by vendor 0. -/
def toldIn (lcs : Nat) : State := { told with fuses := { told.fuses with lcs := lcs } }
def heldStart : State := { told with pkg := { told.pkg with phase := .held } }
def quieted (n : Nat) : State := { told with pkg := { told.pkg with quiet := n } }
/-- What `commanded` asks, as one test. -/
def cmdB (s : State) (e : Envelope) (code : Nat) (states : List Nat) (q : QCol) (signer : Option Nat) : Bool :=
  reqB s e.req 0x10 && (s.mgmtSession e.req.tsid && (decide (e.cmd = code) && (states.contains s.fuses.lcs && (s.qAllows q &&
    (decide (e.serial = s.fuses.serial) && (decide (e.chal = s.mgmt.challenge) && (decide (some e.signer = signer) &&
      (e.sigOk && e.lenOk))))))))
theorem commanded_of {s : State} {e : Envelope} {code : Nat} {states : List Nat} {q : QCol} {signer : Option Nat}
    (h : cmdB s e code states q signer = true) : s.commanded e code states q signer := by
  simp only [cmdB, Bool.and_eq_true, decide_eq_true_eq] at h
  exact ⟨requested_of h.1, h.2⟩
theorem witness_Commands : told.commanded (envClear [(0x2000, 8)]) 1 [3] qYes told.fuses.owner ∧
    (quieted 3).commanded (env 0x10 []) 0x10 [3] qQuiet (quieted 3).fuses.owner ∧
    told.commanded (enva 0x13 255) 0x13 [3] qNo told.fuses.owner ∧ told.commanded (enva 0x12 1) 0x12 [3] qNo told.fuses.owner ∧
    told.commanded (enva 0x11 1) 0x11 [3] qHeld told.fuses.owner ∧
    heldStart.commanded (enva 0x11 3) 0x11 [3] qHeld heldStart.fuses.owner ∧ heldStart.profOk 3 = none ∧ (heldStart.profOk 0).isSome = true := by
  refine ⟨commanded_of ?_, commanded_of ?_, commanded_of ?_, commanded_of ?_, commanded_of ?_, commanded_of ?_, ?_, ?_⟩ <;> decide +kernel
/-- Each check of R541 fails with those before it passed: the code, the state, the circumstances, the serial number, the challenge,
the signer, the signature, and the length. -/
theorem witness_Commands_checks : told.requested (env 1 []).req 0x10 ∧ told.mgmtSession (env 1 []).req.tsid = true ∧ cmdDefined 2 = false ∧
    cmdDefined 1 = true ∧ [3].contains (toldIn 1).fuses.lcs = false ∧ [3].contains told.fuses.lcs = true ∧ (quieted 3).qAllows qNo = false ∧
    told.qAllows qNo = true ∧ told.fuses.serial = 0 ∧ told.mgmt.challenge = 77 ∧ told.fuses.owner = some 0 := by
  refine ⟨requested_of ?_, ?_, ?_, ?_, ?_, ?_, ?_, ?_, ?_, ?_, ?_⟩ <;> decide +kernel
theorem test_command_order : let e := enva 0x13 0
    let raise (e : Envelope) (s : State) : State := after (.raiseSvn e 0) s
    replies (raise (enva 2 0) told) = [(6, [])] ∧ replies (raise e (toldIn 1)) = [(3, [])] ∧ replies (raise e (quieted 3)) = [(8, [])] ∧
    replies (raise (envb 0x13 0 78 [0, 0, 0, 0]) told) = [(0x0B, [0])] ∧ replies (raise (envb 0x13 1 78 [0, 0, 0, 0]) told) = [(6, [])] ∧
    replies (raise { e with signer := 1, sigOk := false } told) = [(2, [])] ∧
    (raise { e with signer := 1, sigOk := false } told).trust.authFail = 0 ∧ replies (raise { e with sigOk := false } told) = [(2, [])] ∧
    (raise { e with sigOk := false } told).trust.authFail = 1 ∧ replies (raise (env 0x13 [0, 0, 1, 0]) told) = [(6, [])] ∧
    replies (raise (enva 0x13 1) told) = [] := by decide +kernel
theorem test_raise_svn : let t := after (.raiseSvn (enva 0x13 4) 4) { told with pkg := { told.pkg with fwSvn := 4 } }
    t.fuses.svnFloor = 4 ∧ replies (after (.raiseSvn (enva 0x13 255) 255) told) = [(0x0C, [1])] := by decide +kernel
/-- FAULT.EVENT is at 0x2000 and is W1C, 0x2004 is not; a mask may not hold a reserved bit. -/
theorem witness_Commands_clear : maskBad (0x2000, 8) = false ∧ isW1C 0x2000 = true ∧ isW1C 0x2004 = false ∧ maskBad (0x2000, 2 ^ 31) = true ∧
    (w1cMask (.package 2) 0).isSome = true ∧ ((blockAt 0x2000).any (fun b => told.blockUp b.1)) = true ∧ isW1C 0x100000 = true ∧
    ((blockAt 0x100000).any (fun b => (told.modHub 0 (fun h => { h with up := false })).blockUp b.1)) = false := by decide +kernel
/-- R545: the bits of FAULT.EVENT are cleared by ones. -/
theorem test_clear : let put (l : List (Nat × Nat)) (s : State) : State := after (.clear (envClear l) l) s
    (put [(0x2000, 8)] { told with flt := { told.flt with event := 0x18 } }).flt.event = 0x10 ∧
    replies (put [(0x2000, 8), (0x2004, 1)] told) = [(9, [0x2004])] ∧ replies (put [] told) = [(6, [])] ∧
    replies (put (List.replicate 64 (0x2000, 8)) told) = [(0, [])] ∧ replies (put (List.replicate 65 (0x2000, 8)) told) = [(6, [])] := by
  decide +kernel
theorem test_warm_restart : (after (.warmRestart (env 0x10 [])) (quieted 3)).pkg.phase = .warm := by decide +kernel
theorem test_use_profile : (after (.useProfile (enva 0x11 0) 0) heldStart).pkg.phase = .starting ∧
    replies (after (.useProfile (enva 0x11 3) 3) heldStart) = [(0x11, [0])] ∧ replies (after (.useProfile (enva 0x11 4) 4) told) = [(6, [])] ∧
    (after (.useProfile (enva 0x11 1) 1) { told with maint := [activity 7] }).maint.map (fun a => (a.code, a.arg)) = [(7, 1)] := by
  decide +kernel
theorem test_activate : (after (.activateFirmware (enva 0x12 1) 1) told).maint.map (fun a => (a.code, a.arg)) = [(8, 1)] ∧
    replies (after (.activateFirmware (enva 0x12 2) 2) told) = [(6, [])] := by decide +kernel

/-- A transfer of the header, with `cursor` bytes staged. -/
def xferring (st : XferSt) (cursor : Nat) : State :=
  { live with nvm := { live.nvm with xfer := ⟨st, 0, 68, shaOf (List.replicate 68 0), cursor, List.replicate cursor 0⟩ } }
theorem witness_NvmTransfers : told.commanded (envNvm 2 100 9) 0x20 [3] qHeld told.fuses.owner ∧ told.slotInForce 1 = true ∧
    told.slotInForce 2 = false ∧ told.slotInForce 0 = false ∧ told.nvm.xfer.st ≠ .programming ∧ live.requested (dat 2 [7]) 0x11 ∧
    live.mgmtSession 1 = true ∧ (xferring .receiving 2).nvm.xfer.total = 68 ∧ (xferring .programming 68).nvm.xfer.st = .programming ∧
    regionSize 2 = 25165824 ∧ regionSize 6 = 1048576 ∧ told.nvm.fw.length = 2 ∧ 0 < told.nvm.prof.length := by
  refine ⟨commanded_of ?_, ?_, ?_, ?_, ?_, requested_of ?_, ?_, ?_, ?_, ?_, ?_, ?_, ?_⟩ <;> decide +kernel
/-- R546: with the last byte, the digest of what was received is the one named; another header's is compared with it all the same. -/
theorem witness_NvmTransfers_digest : let x := (xferring .receiving 67).nvm.xfer
    shaOf (x.data ++ [0]) = x.digest ∧ x.cursor + 1 = x.total := ⟨rfl, rfl⟩
theorem test_nvm_begin : let put (t l d : Nat) (s : State) : State := after (.nvmBegin (envNvm t l d) t l d) s
    (put 2 100 9 told).nvm.xfer = ⟨.receiving, 2, 100, 9, 0, []⟩ ∧ replies (put 1 100 9 told) = [(0x10, [1])] ∧
      replies (put 0 67 9 told) = [(6, [])] ∧ replies (put 7 67 9 told) = [(6, [])] ∧
      replies (put 2 100 9 { told with nvm := (xferring .programming 68).nvm }) = [(1, [])] := by decide +kernel
theorem test_nvm_data : let s := xferring .receiving 2
    let put (off : Nat) (data : List Byte) (s : State) : State := after (.nvmData (dat off data) off data) s
    (put 2 [7] s).nvm.xfer.cursor = 3 ∧ replies (put 2 [7] s) = [(0, [3])] ∧ replies (put 3 [7] s) = [(0x0E, [2])] ∧
      replies (put 1 [7] s) = [(0, [2])] ∧ replies (put 68 [7] s) = [(6, [2])] ∧ replies (put 2 [] s) = [(6, [2])] ∧
      replies (put 0 [7] live) = [(0x0C, [0])] := by
  decide +kernel
theorem test_nvm_done : (after (.nvmProgramDone false true true) (xferring .programming 68)).nvm.xfer.st = .failed ∧
    (after (.nvmProgramDone true true true) (xferring .programming 68)).nvm.xfer.st = .done ∧
    (after (.nvmProgramDone true true true) (xferring .receiving 68)).nvm.xfer.st = .receiving := by decide +kernel

/-- The partner's `SERIAL`, certificate digest, `DWRAP`, and this package's `ID_PART`, firmware and profile. -/
def partner : List Nat := [0, 0, 0, 0x0464, 0, 0]
def secondary : State := { told with pkg := { told.pkg with pairRole := 1 } }
def inState (st : PairSt) : State := { told with pair := { told.pair with st := st, bound := true } }
theorem witness_PairsAreBound : told.commanded (envBind partner 0) 0x30 [3] qNo told.fuses.owner ∧
    secondary.commanded (envBind partner 9) 0x30 [3] qNo secondary.fuses.owner ∧ told.bindFails partner = none ∧ told.bindFails [0, 0, 0, 1, 0, 0] = some 3 ∧
    told.fuses.bindings < 16 ∧ told.pkg.pairRole = 0 ∧ secondary.pkg.pairRole ≠ 0 ∧ secondary.bindFails partner = none ∧
    (inState .solo).commanded (env 0x31 []) 0x31 [3] qYes (inState .solo).fuses.owner ∧
    (inState .suspect).commanded (env 0x31 []) 0x31 [3] qYes (inState .suspect).fuses.owner ∧
    (inState .paired).commanded (env 0x31 []) 0x31 [3] qYes (inState .paired).fuses.owner ∧ (inState .paired).streamsLive = false ∧
    (opened .open 1).streamsLive = true := by
  refine ⟨commanded_of ?_, commanded_of ?_, ?_, ?_, ?_, ?_, ?_, ?_, commanded_of ?_, commanded_of ?_, commanded_of ?_, ?_, ?_⟩ <;> decide +kernel
theorem test_bind_pair : let t := after (.pairBind (envBind partner 0) partner 0 true) told
    t.pair.st = .joining ∧ t.pair.leader = true ∧ t.fuses.bindings = 1 ∧
      (after (.pairBind (envBind partner 9) partner 9 true) secondary).pair.leader = false := by decide +kernel
theorem test_bind_pair_fails : replies (after (.pairBind (envBind [0, 0, 0, 1, 0, 0] 0) [0, 0, 0, 1, 0, 0] 0 true) told) = [(0x0C, [3])] ∧
    replies (after (.pairBind (envBind partner 9) partner 9 true) told) = [(0x0C, [1])] ∧
    replies (after (.pairBind (envBind partner 9) partner 9 false) secondary) = [(2, [])] ∧
    replies (after (.pairBind (envBind partner 0) partner 0 true) { told with fuses := { told.fuses with bindings := 16 } }) = [(0x0D, [0])] := by
  decide +kernel
theorem test_unbind : (after (.pairUnbind (env 0x31 [])) (inState .solo)).pair.st = .unpaired ∧
    (after (.pairUnbind (env 0x31 [])) (inState .suspect)).pair.st = .suspect ∧
    replies (after (.pairUnbind (env 0x31 [])) told) = [(0x0C, [1])] := by decide +kernel

theorem witness_OwnershipChanges : (toldIn 1).commanded envTake 0x40 [1] qNo (some envTake.signer) ∧
    told.commanded (envRotate 9) 0x41 [3] qNo told.fuses.owner ∧ told.commanded (env 0x42 []) 0x42 [3] qNo told.fuses.owner ∧
    told.commanded (env 0x43 []) 0x43 [3, 7] qNo told.fuses.owner ∧ told.fuses.lcs = 3 ∧
    (toldIn 7).commanded (env 0x43 []) 0x43 [3, 7] qNo (some (toldIn 7).fuses.vendor) ∧ told.pair.st = .unpaired ∧ told.entries.length = 0 ∧
    told.streamsLive = false := by
  refine ⟨commanded_of ?_, commanded_of ?_, commanded_of ?_, commanded_of ?_, ?_, commanded_of ?_, ?_, ?_, ?_⟩ <;> decide +kernel
theorem test_take_ownership : let t := after (.takeOwnership envTake true) (toldIn 1)
    t.fuses.lcs = 3 ∧ t.pkg.phase = .down ∧ t.trust.lcCount = 1 ∧
      replies (after (.takeOwnership envTake false) (toldIn 1)) = [(2, [])] := by decide +kernel
theorem test_rotate : let t := after (.rotateOwner (envRotate 9) 9) { told with fuses := { told.fuses with rotations := 31 } }
    t.fuses.owner = some 9 ∧ t.fuses.prevOwner = some 0 ∧ t.fuses.rotations = 32 ∧
      replies (after (.rotateOwner (envRotate 9) 9) { told with fuses := { told.fuses with rotations := 32 } }) = [(0x0D, [0])] := by
  decide +kernel
theorem test_return : (after (.returnPkg (env 0x42 [])) told).fuses.lcs = 7 ∧ (after (.retire (env 0x43 [])) (toldIn 7)).fuses.lcs = 15 ∧
    (after (.retire (env 0x43 [])) told).fuses.lcs = 15 ∧ replies (after (.retire (env 0x43 [])) (inState .solo)) = [(0x0C, [1])] ∧
    replies (after (.returnPkg (env 0x42 [])) { told with streams := (opened .open 1).streams }) = [(0x0C, [2])] ∧
    replies (after (.retire (env 0x43 [])) { told with entries := [openEntry] }) = [(0x0C, [2])] := by decide +kernel

def blank : State := { live with fuses := { live.fuses with lcs := 0 } }
def wiping : State := { live with secure := { live.secure with wiping := true } }
def inPair : State := { live with pair := { live.pair with st := .paired, bound := true } }
theorem witness_TrustOperations : live.requested (mg 0x40 0xFFFE true) 0x40 ∧ live.requested (mg 0x41 1 true) 0x41 ∧
    live.requested (mg 0x42 0xFFFE true) 0x42 ∧ live.requested (mg 0x43 1 true) 0x43 ∧ blank.requested (mg 0x40 0xFFFE true) 0x40 ∧
    wiping.requested (mg 0x40 0xFFFE true) 0x40 ∧ inPair.requested (mg 0x42 0xFFFE true) 0x42 ∧
    (quieted 3).requested (mg 0x42 0xFFFE true) 0x42 := by
  refine ⟨requested_of ?_, requested_of ?_, requested_of ?_, requested_of ?_, requested_of ?_, requested_of ?_, requested_of ?_,
    requested_of ?_⟩ <;> decide +kernel
theorem witness_TrustOperations_state : live.trustSession 0xFFFE = true ∧ live.sessionsQuiet = false ∧ (quieted 3).sessionsQuiet = true ∧
    live.secure.sessions.length < 4096 ∧ live.fuses.lcs = 3 ∧ blank.fuses.lcs = 0 ∧ live.secure.wiping = false ∧ live.namesUs 0 = true ∧
    live.namesUs 1 = false ∧ live.profile.work.tenantList = [] ∧
    ({ live with profile := { live.profile with work := { live.profile.work with tenantList := [8] } } } : State).profile.work.tenantList = [8] ∧
    live.paired = false ∧ live.mirrors = false ∧ inPair.paired = true ∧ (tabulate 4096 (· + 1)).find? live.tsidFree = some 2 ∧
    (live.session? 1).isSome = true ∧ live.tsidBound 1 = false ∧ (opened .open 1).tsidBound 1 = true := by decide +kernel
theorem test_session_open : let t := after (.sessionOpen (mg 0x42 0xFFFE true) 8 0 true true false) live
    t.secure.sessions.map (fun x => (x.tsid, x.tenant)) = [(1, 7), (2, 8)] ∧ replies t = [(0, [0x20000, 0, 0, 0, 8])] ∧
      replies (after (.sessionOpen (mg 0x42 0xFFFE true) 8 1 true true false) live) = [(2, [])] ∧
      replies (after (.sessionOpen (mg 0x42 0xFFFE true) 8 0 true true false) blank) = [(3, [])] ∧
      replies (after (.sessionOpen (mg 0x42 0xFFFE true) 8 0 true true false) (quieted 3)) = [(8, [])] ∧
      replies (after (.sessionOpen (mg 0x42 0xFFFE true) 8 0 true true false)
        { live with profile := { live.profile with work := { live.profile.work with tenantList := [9] } } }) = [(4, [])] ∧
      replies (after (.sessionOpen (mg 0x42 0xFFFE true) 8 0 true true false)
        { live with secure := { live.secure with sessions := List.replicate 4096 ⟨1, 7, none, 5⟩ } }) = [(5, [])] ∧
      replies (after (.sessionOpen (mg 0x42 0xFFFE true) 8 0 true true false) inPair) = [] := by decide +kernel
theorem test_session_close : (after (.sessionClose (mg 0x43 1 true)) live).secure.sessions.length = 0 ∧
    replies (after (.sessionClose (mg 0x43 1 true)) (opened .open 1)) = [(7, [])] ∧
    replies (after (.sessionClose (mg 0x43 1 true)) (quieted 3)) = [(8, [])] := by decide +kernel
theorem test_attest : (after (.attest (att 1 0 64) 1 0 64 false) live).trust.attests = 1 ∧
    replies (after (.attest (att 1 0 65) 1 0 65 false) live) = [(6, [])] ∧ replies (after (.attest (att 1 0 1) 1 0 1 false) blank) = [(3, [])] ∧
    (after (.attest (att 1 0 1) 1 0 1 false) wiping).secure.held.length = 1 ∧
    replies (after (.attest (att 1 0 64) 1 0 64 true) live) = [(1, [])] ∧
    beAt (live.report 1 0 64) 0x05F 1 = 1 ∧ beAt (live.report 1 0 64) 0x124 12 = 0 ∧ (live.reportBody 1 0 64).length = 0x600 := by decide +kernel
theorem test_certs : (after (.certs (mg 0x41 0xFFFE true) false) live).out.length = 1 ∧
    replies (after (.certs (mg 0x41 0xFFFE true) false) blank) = [(3, [])] := by decide +kernel

/-! ### The pair (R425 to R438) -/

/-- A bound package in state `st` whose partner's `PBOOT` is 50 and last `PSEQ` 9; the other package leads unless `leader`. -/
def bound (st : PairSt) (leader : Bool) : State :=
  { live with
    secure := { live.secure with pwrap := true }
    pair := { live.pair with
      st := st, bound := true, leader := leader, pboot := 40, peerBoot := some 50, peerHigh := 9, peerSeen := [9], retired := [41]
      heardSinceCold := true } }
/-- A PAIR frame of operation `pop` from the SECONDARY, with the fields `l` and `data` after its head (R429). -/
def pfb (pop pseq pboot : Nat) (l : List (Nat × Nat)) (data : List Byte) : PairIn :=
  let b := fieldBytes ([(1, pop), (1, 1), (2, 0), (8, pseq), (4, pboot)] ++ l) ++ data
  ⟨2, wireOf ⟨1, 7, 0xFFFF, 0, 0, 0, 1, b.length, 0, 0, 0⟩, true, b, 0⟩
/-- A record of an entry of stream 9, commit number 6, in state `st`. -/
def rec (st : Nat) : PairRecord := ⟨6, 9, 4, 1, 1, 3, st, 0, 0, 0, 0, 0, 0, 0, 0, 0, 0, false, 1, 2, 3, 1⟩
/-- One frame of each operation: its fields and what follows. -/
def sample (pop : Nat) : List (Nat × Nat) × List Byte :=
  match pop with
  | 1 => (beatFields 2 0 0 5, [])
  | 2 => (commitFields 1, (rec 1).bytes)
  | 3 => (confirmFields 1 0, [])
  | 4 => (segFields half.hdr, half.body)
  | 5 => (objFields 2 5 4, [7])
  | 6 => (objcommitFields 2 5 0, [])
  | 7 => (digestFields 6 0 9, [])
  | 8 => (parcelFields 6 1, [7])
  | 9 => (syncFields 0, [])
  | 10 => (strikeFields 6 9 4 1, [])
  | _ => (keysyncFields 3 true, List.replicate 32 3 ++ beBytes 16 8)
def pf (pop pseq pboot : Nat) : PairIn := pfb pop pseq pboot (sample pop).1 (sample pop).2
/-- The commands of the partner's frames, `PSEQ` 10 under `PBOOT` 50 but for a HEARTBEAT. -/
def hb (seq boot pst lead quiet last : Nat) : Instr :=
  .pairHeartbeat (pfb 1 seq boot (beatFields pst lead quiet last) []) pst lead quiet last
def pcommit (l : List PairRecord) : Instr := .pairCommit (pfb 2 10 50 (commitFields l.length) (l.flatMap PairRecord.bytes)) l
def pconfirm (n a time : Nat) : Instr := .pairConfirm (pfb 3 10 50 (confirmFields n a) []) ⟨n, a⟩ time
def psegment (h : Hdr) (b : List Byte) : Instr := .pairSegment (pfb 4 10 50 (segFields h) b) h b
def pobject (target name off : Nat) (d : List Byte) : Instr := .pairObject (pfb 5 10 50 (objFields target name off) d) 7 target name off d
def pobjcommit (target name status : Nat) : Instr :=
  .pairObjcommit (pfb 6 10 50 (objcommitFields target status name) []) 7 target name status noOps
def pdigest (n run d : Nat) : Instr := .pairDigest (pfb 7 10 50 (digestFields n run d) []) n run d
def pparcel (n off : Nat) (d : List Byte) : Instr := .pairParcel (pfb 8 10 50 (parcelFields n off) d) n off d
def psync (n : Nat) : Instr := .pairSyncdone (pfb 9 10 50 (syncFields n) []) n
def pstrike (n a b c : Nat) : Instr := .pairStrike (pfb 10 10 50 (strikeFields n a b c) []) n a b c
def pkeysync (tsid tenant : Nat) (opened : Bool) : Instr :=
  .pairKeysync (pfb 11 10 50 (keysyncFields tsid opened) (if opened then List.replicate 32 3 ++ beBytes 16 tenant else [])) tsid tenant opened
/-- What `takesPair` asks, as one test. -/
def pairB (s : State) (p : PairIn) (pop : Nat) : Bool :=
  portOk p.port && (s.takes p.port p.wire && (s.pairLive && (p.is pop && (!(s.pair.retired.contains p.pboot) &&
    (decide (s.pair.peerBoot = some p.pboot) && s.pair.isNew p.pseq)))))
theorem pair_of {s : State} {p : PairIn} {pop : Nat} (h : pairB s p pop = true) : s.takesPair p pop := by
  simpa [pairB, State.takesPair, Bool.and_eq_true, decide_eq_true_eq] using h
theorem takes_pair (st : PairSt) (leader : Bool) : (bound st leader).takesPair (pf 1 10 50) 1 :=
  pair_of (by cases st <;> cases leader <;> decide +kernel)
theorem witness_PairFrames : (bound .suspect false).takesPair (pf 1 10 50) 1 ∧ (bound .paired false).pairLive = true ∧
    (bound .paired false).pair.isNew 9 = false ∧ (bound .paired false).pairPorts ≠ [] ∧ (bound .solo true).peerOpen = true ∧
    (bound .paired false).peerOpen = false ∧ (pf 1 9 41).pboot ∈ (bound .paired false).pair.retired ∧
    (pf 1 9 51).pboot ∉ (bound .paired false).pair.retired ∧ (bound .paired false).pair.peerBoot ≠ some (pf 1 9 51).pboot ∧
    (pf 1 9 51).is 1 = true ∧ (pf 2 9 51).is 1 = false ∧ live.pairLive = false ∧
    (∀ e ∈ (bound .paired false).entries, e.here = true) ∧ (∀ c ∈ (bound .paired false).commits, c.needPeer = false) := by
  refine ⟨takes_pair _ _, ?_, ?_, ?_, ?_, ?_, ?_, ?_, ?_, ?_, ?_, ?_, ?_, ?_⟩ <;> decide +kernel
/-- R430: a repeat is only heard; a frame under a retired `PBOOT` is nothing; another one is taken once the partner counts as lost. -/
theorem test_repeat : (after (hb 9 50 4 0 7 5) (bound .suspect false)).pair.st = .paired ∧
    (after (hb 10 41 2 0 0 5) (bound .suspect false)).pair.st = .suspect ∧
    (after (hb 10 51 1 0 7 5) (bound .solo true)).pair.peerBoot = some 51 ∧
    (after (hb 10 51 1 0 7 5) (bound .solo true)).pair.retired = [41, 50] := by decide +kernel
/-- Each operation's frame holds its fields, and is of no other form. -/
theorem witness_pair_frames : (pf 1 10 50).holds (beatFields 2 0 0 5) [] = true ∧ (pf 2 10 50).commits [rec 1] = true ∧
    (pf 2 10 50).commits [rec 2] = false ∧ (pf 3 10 50).holds (confirmFields 1 0) [] = true ∧ (pf 3 10 50).holds (confirmFields 0 1) [] = false ∧
    (pf 4 10 50).copies half.hdr half.body = true ∧ (pf 5 10 50).holds (objFields 2 5 4) [7] = true ∧
    (pf 6 10 50).holds (objcommitFields 2 5 0) [] = true ∧ (pf 7 10 50).holds (digestFields 6 0 9) [] = true ∧
    (pf 8 10 50).holds (parcelFields 6 1) [7] = true ∧ (pf 9 10 50).holds (syncFields 0) [] = true ∧
    (pf 10 10 50).holds (strikeFields 6 9 4 1) [] = true ∧ (pf 11 10 50).keysyncs 3 8 true = true ∧
    (pfb 11 10 50 (keysyncFields 3 false) []).keysyncs 3 8 false = true ∧ (pfb 3 10 50 (confirmFields 0 0) []).holds (confirmFields 0 0) [] = true ∧
    (bound .paired false).takesPair (pfb 11 10 50 (keysyncFields 3 false) []) 11 ∧
    (bound .paired false).takesPair (pfb 3 10 50 (confirmFields 0 6) []) 3 := by
  refine ⟨?_, ?_, ?_, ?_, ?_, ?_, ?_, ?_, ?_, ?_, ?_, ?_, ?_, ?_, ?_, pair_of ?_, pair_of ?_⟩ <;> decide +kernel
theorem test_suspect_heard : (after (hb 10 50 2 0 0 5) (bound .suspect false)).pair.st = .paired := by decide +kernel
theorem test_beat_timer : let t := after .pairHeartbeatTimer (bound .paired true)
    t.out.map (fun o => match o with
      | .seg p _ h b => [p, beAt h 1 1, beAt h 4 2, beAt h 24 4, beAt h 28 8, beAt b 0 1, beAt b 1 1, beAt b 4 8, beAt b 12 4, beAt b 16 1,
          beAt b 17 1, beAt b 18 2, beAt b 20 8, b.length]
      | _ => []) = [[0, 7, 0xFFFF, 40, 1, 1, 0, 1, 40, 2, 1, 0, 0, 32], [4, 7, 0xFFFF, 40, 1, 1, 0, 1, 40, 2, 1, 0, 0, 32]] := by
  decide +kernel
theorem test_miss : let t := after .pairHeartbeatMiss (bound .paired false)
    t.pair.st = .suspect ∧ t.pair.misses = 1 := by decide +kernel
def missed (st : PairSt) (n : Nat) : State := { bound st false with pair := { (bound st false).pair with misses := n } }
/-- R432: the 20th miss in a row. -/
theorem test_lost : let t := after .pairHeartbeatMiss (missed .suspect 19)
    t.pair.st = .solo ∧ t.pair.leader = true ∧ t.pair.regs.lost = 1 ∧
      (after .pairHeartbeatMiss (missed .suspect 18)).pair.st = .suspect ∧ (after .pairHeartbeatMiss (missed .solo 19)).pair.regs.lost = 0 := by
  decide +kernel

/-- The bytes of a record: stream, incarnation, sequence number, state, session and commit number of R360, `OPC`, and the stream state. -/
theorem test_record_bytes : let b := (rec 1).bytes
    b.length = 80 ∧ bits (beAt b 0 64) 511 500 = 9 ∧ bits (beAt b 0 64) 499 484 = 4 ∧ bits (beAt b 0 64) 483 452 = 1 ∧
    bits (beAt b 0 64) 451 448 = 1 ∧ bits (beAt b 0 64) 447 432 = 1 ∧ bits (beAt b 0 64) 431 368 = 6 ∧ bits (beAt b 0 64) 335 332 = 3 ∧
    bits (beAt b 0 64) 331 0 = 0 ∧ beAt b 64 2 = 1 ∧ beAt b 66 2 = 4 ∧ beAt b 68 4 = 2 ∧ beAt b 72 4 = 3 ∧ beAt b 76 4 = 1 := by decide +kernel
/-- The entry of that record, a CLOSE of stream 9 at home `here`. -/
def kept (here : Bool) : Entry := { openEntry with cseq := 6, seq := 1, op := .close, homeHere := here }
def mirrored : State := { bound .paired false with entries := [kept false] }
def syncing (st : PairSt) (n : Nat) : State := { bound st true with pair := { (bound st true).pair with syncTo := some n } }
theorem witness_PairStates : (bound .paired false).takesPair (pf 2 10 50) 2 ∧ (bound .solo false).takesPair (pf 2 10 50) 2 ∧
    (bound .paired true).takesPair (pf 3 10 50) 3 ∧ mirrored.takesPair (pf 10 10 50) 10 ∧
    ((bound .paired false).heard (pf 2 10 50)).follows = true ∧ ((bound .solo false).heard (pf 2 10 50)).follows = false ∧
    (rec 1).defined = true ∧ (rec 6).defined = false ∧ ((bound .paired false).heard (pf 2 10 50)).paired = true ∧
    ((bound .paired false).heard (pf 2 10 50)).recordEntry (rec 1) = none ∧
    (mirrored.heard (pf 2 10 50)).recordEntry (rec 0) = some (kept false) ∧ (kept false).here = false ∧ (kept true).here = true ∧
    (mirrored.heard (pf 2 10 50)).profile.work.dualRun = false ∧ (mirrored.heard (pf 10 10 50)).entry? 6 = some (kept false) := by
  refine ⟨pair_of ?_, pair_of ?_, pair_of ?_, pair_of ?_, ?_, ?_, ?_, ?_, ?_, ?_, ?_, ?_, ?_, ?_, ?_⟩ <;> decide +kernel
/-- What a HEARTBEAT finds, state by state. -/
theorem witness_PairStates_beats : ((bound .solo true).heard (pf 1 10 50)).pair.st = .solo ∧
    ((bound .solo true).heard (pf 1 10 50)).pair.syncTo = none ∧ ((syncing .solo 5).heard (pf 1 10 50)).pair.syncTo.isSome = true ∧
    ((bound .joining false).heard (pf 1 10 50)).pair.st = .joining ∧ ((bound .joining false).heard (pf 1 10 50)).pair.fresh = false ∧
    ((bound .suspect false).heard (pf 1 10 50)).pair.st = .paired ∧ ((bound .diverged true).heard (pf 1 10 50)).pair.st = .diverged ∧
    ((bound .paired false).heard (pf 1 10 50)).pkg.quiet = 0 ∧ quietRank 0 < 2 := by decide +kernel
theorem test_beats : (after (hb 10 50 1 0 0 5) (bound .solo true)).pair.syncTo = some 0 ∧
    (after (hb 10 50 2 0 0 5) (syncing .solo 5)).pair.st = .paired ∧
    (after (hb 10 50 2 0 1 5) (syncing .solo 5)).pair.st = .solo ∧
    (after (hb 10 50 1 0 0 5) (bound .joining false)).pair.st = .paired ∧
    (after (hb 10 50 2 0 0 5) (bound .joining false)).pair.st = .joining ∧
    (after (hb 10 50 1 0 1 5) (bound .joining false)).pair.st = .solo ∧
    (after (hb 10 50 2 0 1 5) (bound .paired false)).pair.st = .solo ∧
    (after (hb 10 50 4 0 0 5) (bound .paired true)).pair.st = .joining ∧
    (after (hb 10 50 2 0 0 5) (bound .paired false)).pkg.cseqNext = 6 := by decide +kernel
/-- R527: in a warm restart, no CONFIRM leaves, and a new record without a number is left out. -/
theorem test_commit_restarting : let s : State := { bound .paired true with pkg := { (bound .paired true).pkg with phase := .dozing } }
    (after (pcommit [{ rec 1 with cseq := 0 }]) s).entries = [] ∧ (after (pcommit [rec 1]) s).entries.length = 1 ∧
    (after (pcommit [rec 1]) s).out.length = 0 ∧ (after (pcommit [{ rec 1 with cseq := 0 }]) (bound .paired true)).entries.length = 1 ∧
    (after (pcommit [{ rec 1 with cseq := 0 }]) (bound .paired true)).out.length = 2 := by decide +kernel
/-- R433: two survivors are DIVERGED and QUIET. -/
theorem test_diverged : let t := after (hb 10 50 4 0 0 5) (bound .solo true)
    t.pair.st = .diverged ∧ t.pkg.quiet = 7 := by decide +kernel
theorem test_record : let t := after (pcommit [rec 1]) (bound .paired false)
    t.entries.map (fun e => (e.cseq, e.stream, e.seq, e.st)) = [(6, 9, 1, .admitted)] ∧ t.pkg.cseq = 6 := by decide +kernel
theorem test_record_free : (after (pcommit [rec 0]) mirrored).entries.length = 0 ∧
    (after (pcommit [rec 0]) (bound .paired false)).entries.length = 0 ∧
    (after (pcommit [rec 6]) mirrored).pair.peerHigh = 9 ∧
    (after (pcommit []) mirrored).pair.peerHigh = 9 := by decide +kernel
theorem test_record_follows : ((after (pcommit [rec 5]) mirrored).entries.map (·.st)) = [.sent] ∧
    ((after (pcommit [rec 5]) { mirrored with entries := [kept true] }).entries.map (·.st)) = [.admitted] := by
  decide +kernel
/-- A commit that waits for the partner, with `unconf` sent and not confirmed. -/
def unconfirmed (n : Nat) (unconf : List (List Nat)) : State := { waitingCommit true with
  secure := (bound .paired true).secure
  commits := (waitingCommit true).commits.map (fun c => { c with cseq := n, needHubs := [] })
  pair := { (bound .paired true).pair with unconf := unconf } }
theorem witness_PairStates_confirms : (bound .solo false).mirrors = false ∧
    ((unconfirmed 1 [[1, 1, 9, 4, 0]]).heard (pf 3 10 50)).mirrors = true ∧
    (∀ x ∈ ((unconfirmed 1 [[1, 1, 9, 4, 0]]).heard (pf 3 10 50)).pair.unconf, at' x 1 0 ≠ 2) ∧
    ((unconfirmed 1 [[0, 2, 3]]).heard (pf 3 10 50)).pair.unconf = [[0, 2, 3]] ∧
    ((unconfirmed 0 [[0, 1, 9, 4, 0]]).heard (pf 3 10 50)).pair.unconf.find? (fun y => at' y 0 0 == 0 && at' y 1 0 != 2) = some [0, 1, 9, 4, 0] := by
  decide +kernel
theorem test_confirm : (after (pconfirm 1 0 9) (unconfirmed 1 [[1, 1, 9, 4, 0]])).entries.map (·.cseq) = [1] ∧
    (after (pconfirm 0 6 9) (unconfirmed 0 [[0, 1, 9, 4, 0]])).entries.map (·.cseq) = [6] ∧
    (after (pconfirm 1 0 9) { unconfirmed 1 [[1, 1, 9, 4, 0]] with
      commits := (waitingCommit true).commits }).commits.map (·.needPeer) = [false] := by
  decide +kernel
theorem test_strike : let t := after (pstrike 6 9 4 1) mirrored
    t.entries.length = 0 ∧ t.pair.regs.strike = 1 ∧ (after (pstrike 0 9 4 1) mirrored).entries.length = 0 ∧
      (after (pstrike 7 9 4 1) mirrored).entries.length = 1 ∧
      (after (pstrike 6 9 4 1) { mirrored with pair := (bound .solo true).pair }).entries.length = 1 := by decide +kernel

/-- An entry of the partner's whose body has not come. -/
def hollowed (st : PairSt) : State := { bound st false with
  entries := [{ entryAs .admitted with cseq := 6, stream := 9, incarn := 4, seq := 0, homeHere := false, inputOk := false, epoch := none }]
  pair := { (bound st false).pair with hollow := [6] } }
theorem witness_PairCopies : (bound .paired false).takesPair (pf 4 10 50) 4 ∧ (bound .joining false).takesPair (pf 8 10 50) 8 ∧
    (bound .paired false).takesPair (pf 5 10 50) 5 ∧ (bound .paired false).takesPair (pf 6 10 50) 6 ∧
    (bound .joining false).takesPair (pf 9 10 50) 9 ∧ (bound .paired false).takesPair (pf 11 10 50) 11 ∧
    (bound .paired false).takesPair (pf 7 10 50) 7 ∧ (hollowed .paired).takesPair (pf 4 10 50) 4 ∧ (hollowed .joining).takesPair (pf 8 10 50) 8 := by
  refine ⟨pair_of ?_, pair_of ?_, pair_of ?_, pair_of ?_, pair_of ?_, pair_of ?_, pair_of ?_, pair_of ?_, pair_of ?_⟩ <;> decide +kernel
theorem witness_PairCopies_state : ((bound .paired false).heard (pf 4 10 50)).follows = true ∧ ((bound .solo false).heard (pf 4 10 50)).follows = false ∧
    half.body.length = 8192 ∧
    ((hollowed .paired).heard (pf 4 10 50)).target? 9 4 0 ≠ none ∧ ((hollowed .joining).heard (pf 8 10 50)).entry? 6 ≠ none ∧
    ((bound .joining false).heard (pf 9 10 50)).pair.st = .joining ∧ ((bound .joining false).heard (pf 9 10 50)).mirrorBusy = false ∧
    ((bound .joining false).heard (pf 9 10 50)).pair.hollow = [] ∧ ((bound .joining false).heard (pf 9 10 50)).pair.failedObj = false ∧
    ((bound .joining false).heard (pf 9 10 50)).pkg.cseq = 0 ∧ ((hollowed .joining).heard (pf 9 10 50)).pair.hollow ≠ [] ∧
    ((bound .paired false).heard (pf 11 10 50)).pairPorts ≠ [] ∧ ((bound .paired false).heard (pf 6 10 50)).pair.replies = [] := by decide +kernel
theorem test_copied_segment : (after (psegment half.hdr half.body) (bound .paired false)).pair.segs.map (·.body.length) = [8192] := by
  decide +kernel
/-- The one segment of a RUN completes the entry that lacked it, as its bytes in PARCEL frames do. -/
theorem test_filled : let b : List Byte := { runBody with image := haltImage }.bytes
    let h : Hdr := ⟨1, 1, 1, 9, 4, 0, 1, b.length, 0, 0, 0⟩
    let t := after (psegment h b) (hollowed .paired)
    let u := after (pparcel 6 0 b) (hollowed .joining)
    t.pair.hollow = [] ∧ t.entries.map (·.inputOk) = [true] ∧ u.pair.hollow = [] ∧ u.entries.map (·.inputOk) = [true] := by decide +kernel
theorem test_parcel : (after (pparcel 6 1 [7]) (bound .joining false)).pair.parcels = [(6, [0, 7])] ∧
    (after (pparcel 6 1 [7]) (bound .paired false)).pair.parcels = [] := by decide +kernel
theorem test_object : (after (pobject 2 5 4 [7]) (bound .paired false)).objects.map (fun o => (o.name, o.staged, Mem.read o.data 4)) =
    [(5, [(4, 5)], 7)] ∧ (after (pobject 2 5 4 [7]) (bound .solo true)).objects = [] := by decide +kernel
theorem test_objcommit : let s := { bound .paired false with pair := { (bound .paired false).pair with replies := [[2, 5, 8, 0, 0, 0]] } }
    (after (pobjcommit 2 5 0) s).pair.replies.length = 0 ∧
      (after (pobjcommit 2 5 1) (bound .paired false)).placements = [] := by decide +kernel
theorem test_syncdone : let t := after (psync 0) (bound .joining false)
    t.pair.st = .paired ∧ t.pair.regs.rejoin = 1 ∧ (after (psync 1) (bound .joining false)).pair.syncTo = some 1 ∧
      (after (psync 0) (hollowed .joining)).pair.st = .joining ∧
      (after (psync 0) (bound .paired false)).pair.syncTo = none := by decide +kernel
theorem test_keysync : (after (pkeysync 3 8 true) (bound .paired false)).secure.sessions.map (·.tsid) = [1, 3] ∧
    (after (pkeysync 1 7 false) (bound .paired false)).secure.sessions.length = 0 ∧
    (after (pkeysync 1 7 false) (bound .solo true)).secure.sessions.length = 1 := by decide +kernel
/-- `s` under DUAL_RUN. -/
def dual (s : State) : State := { s with profile := { s.profile with work := { s.profile.work with dualRun := true } } }
/-- A RUN of the partner's that is complete here too, with this package's digest `d`. -/
def ranDual (d : Nat) : State := dual { bound .paired false with
  entries := [{ entryAs .complete with cseq := 6, stream := 9, incarn := 4, homeHere := false, status := .done, ended := true, parcelOk := true }]
  pair := { (bound .paired false).pair with own := [(6, 0, d)] } }
theorem witness_PairCopies_digests : (dual mirrored).takesPair (pf 7 10 50) 7 ∧ ((dual mirrored).heard (pf 7 10 50)).paired = true ∧
    ((dual mirrored).heard (pf 7 10 50)).entry? 6 = some (kept false) ∧ ((dual mirrored).heard (pf 7 10 50)).pair.own = [] ∧
    (ranDual 8).takesPair (pf 7 10 50) 7 ∧ ((ranDual 8).heard (pf 7 10 50)).pair.own = [(6, 0, 8)] ∧
    (((ranDual 8).heard (pf 7 10 50)).entry? 6).map (fun e => (e.reruns, e.ranOut, e.st, e.replays)) = some (0, true, .complete, 0) ∧
    0 + 1 ≤ (ranDual 8).profile.work.replayMax := by
  refine ⟨pair_of ?_, ?_, ?_, ?_, pair_of ?_, ?_, ?_, ?_⟩ <;> decide +kernel
theorem test_digest : (after (pdigest 6 0 9) (dual mirrored)).pair.peer = [(6, 0, 9)] ∧
    (after (pdigest 6 0 9) mirrored).pair.peer = [] ∧
    (after (pdigest 6 0 9) (ranDual 9)).pair.regs.dual = 0 ∧
    (after (pdigest 6 0 9) (ranDual 8)).entries.map (fun e => (e.st, e.replays, e.reruns)) = [(.ready, 1, 1)] := by decide +kernel

/-! ### Commands and their queue -/

theorem witness_CommandsComplete : WellFormed (.nop 511) = true ∧ nexts (.nop 511) State.reset = true ∧ WellFormed (.nop 512) = false ∧
    State.reset.pending = [] := by decide +kernel
theorem witness_CommandsLeaveTheQueue : nexts .envHold { State.reset with pending := [.nop 0] } = true := by decide +kernel
theorem witness_FusesOnlyBurn : State.reset.fuses.legal = true ∧ nexts .envHold State.reset = true ∧
    (after (.raiseSvn (enva 0x13 4) 4) { told with pkg := { told.pkg with fwSvn := 4 } }).fuses ≠ told.fuses := by decide +kernel
theorem witness_SvnFloorRises : ({ live with pkg := { live.pkg with phase := .starting } } : State).pkg.quiet = 0 ∧
    (∃ (c : Instr) (s : State), s.profile.work.svnAuto = false ∧ nexts c s = true ∧ (after c s).fuses.svnFloor ≠ s.fuses.svnFloor) := by
  refine ⟨by decide +kernel, .raiseSvn (enva 0x13 4) 4, { told with
    pkg := { told.pkg with fwSvn := 4 }, profile := { told.profile with work := { told.profile.work with svnAuto := false } } }, ?_, ?_, ?_⟩ <;>
    decide +kernel
theorem witness_ControlCoreFrame : nexts (.add 0) (running addProg) = true ∧ aAfter (.add 0) (running addProg) 4 ≠ coreRun.a 4 := by decide +kernel

/-- The next state's queue and core 0, when the step answers one. -/
def stepped (s : State) : Option (List Instr × Nat) := match step s with
  | .next t => some (t.pending, (t.core 0).ctl.pc)
  | _ => none
theorem test_step_front : stepped { running addProg with pending := [.add 0, .nop 0] } = some ([.nop 0], 1) := by decide +kernel
theorem test_step_idle : stepped (running addProg) = some ([], 0) := by decide +kernel
theorem test_no_words : decodeTableWord 32 5 = none := by decide +kernel

/-! ### Ill-formed commands: each names a unit that does not exist -/

def badTarget (f : Target → Target) : Bool := WellFormed (.grazerSliceStart (f (tgt 1 0)))
theorem test_wf_core : WellFormed (.add 512) = false ∧ WellFormed (.matmul 512 .issue) = false ∧ WellFormed (.frameStart 0 512) = false ∧
    WellFormed (.passIssue 512 ptm) = false := by decide +kernel
theorem test_wf_queue : WellFormed (.queueHeadStart 0 0) = false ∧ WellFormed (.queueHeadStart 0 5) = false ∧ WellFormed (.waitTimeout 0 5) = false := by
  decide +kernel
theorem test_wf_engine : WellFormed (.drain 0 ⟨32, tm0⟩) = false ∧ WellFormed (.planeEmpty 0 32 0) = false ∧ WellFormed (.planeEmpty 0 0 8) = false ∧
    WellFormed (.columnSubstitution 0 0 264 ⟨0, []⟩) = false ∧ WellFormed (.substitutionDone ⟨2, 0, 32, 0⟩ ⟨0, []⟩ true) = false := by decide +kernel
theorem test_wf_sheet : WellFormed (.sheetWakeDone 0 32) = false := by decide +kernel
theorem test_wf_port : WellFormed (.workOpen { segOf 1 0 openBody with port := 8 }) = false ∧ WellFormed (.query { bulk 5 0 0 0 0 0 0 [] with port := 8 }) = false ∧
    WellFormed (.portLinkUp 8 false) = false ∧ WellFormed (.timeLoRead { mg 1 1 true with port := 8 }) = false ∧ WellFormed (.retire { env 0x43 [] with req := { mg 0x10 0xFFFD true with port := 8 } }) = false := by
  decide +kernel
theorem test_wf_hub : WellFormed (.segmentTimeout 2 half.hdr) = false ∧ WellFormed (.admitMaxRead (mg 1 1 true) 2) = false ∧
    WellFormed (.hubHeartbeatLoss 2) = false ∧ WellFormed (.bridgeRestored 2 true) = false := by decide +kernel
theorem test_wf_memory : WellFormed (.dsmEccError 6 0 0 true true none) = false ∧ WellFormed (.dsmEccError 0 64 0 true true none) = false ∧
    WellFormed (.dsmEccError 4 48 0 true true none) = false ∧ WellFormed (.dsmEccError 0 0 16384 true true none) = false ∧
    WellFormed (.dsmEccError 0 0 0 true true (some 512)) = false ∧ WellFormed (.dsmAccessDenied 0 8 ⟨0, 0⟩ true none) = false := by decide +kernel
theorem test_wf_path : WellFormed (.fabricTimeout 0 0 []) = false ∧ WellFormed (.fabricTimeout 1 36 []) = false ∧ WellFormed (.fabricTimeout 3 4 []) = false ∧
    WellFormed (.fabricTimeout 4 8 []) = false ∧ WellFormed (.fabricTimeout 5 16 []) = false ∧ WellFormed (.fabricTimeout 6 0 []) = false := by decide +kernel
theorem test_wf_die : WellFormed (.dieLost 4) = false ∧ WellFormed (.stackLost 16) = false ∧ WellFormed (.clockLoss 0 9) = false ∧
    WellFormed (.tempReport 6 0) = false ∧ WellFormed (.fuseBurn 6 0 true) = false ∧ WellFormed (.fuseBurn 0 (2 ^ 64) true) = false := by decide +kernel
theorem test_wf_sensor : WellFormed (.avsSample 6 0 0) = false ∧ WellFormed (.pmbusSample 3 0) = false ∧ WellFormed (.boundaryScan 6 0 0) = false := by
  decide +kernel
theorem test_wf_target : badTarget (fun t => { t with kind := 0 }) = false ∧ badTarget (fun t => { t with kind := 8 }) = false ∧
    badTarget (fun t => { t with die := 6 }) = false ∧ badTarget (fun t => { t with die := 4 }) = false ∧ badTarget (fun t => { t with cluster := 9 }) = false ∧
    badTarget (fun t => { t with core := 17 }) = false ∧ badTarget (fun t => { t with engine := 33 }) = false ∧
    badTarget (fun t => { t with bank := 64 }) = false := by decide +kernel

/-- A transfer keeps the canonical form of the tile registers. -/
theorem test_memory_form : Mem.wf ((after (.txfer 0 (.run tm0)) (queued txferIn loaded)).core 0).mem.treg = true := by decide +kernel

end Sys2Proof.Tests
end

section
/-! Sheets, windows and credit (05 R155, R157, R165, R166, R170): what a footprint leaves in the scratchpad, and the
effects of WINDOW and GRANT where they go on. -/
namespace Sys2Proof.Machine
open Sys2Proof

/-! ### Bytes after sheets are cleared or filled -/

theorem Tbl_get_filter {α : Type} (t : Tbl α) (p : Nat × α → Bool) (q : Nat → Bool) (hp : ∀ x, p x = q x.1) (k : Nat) :
    Tbl.get (t.filter p) k = if q k then Tbl.get t k else none := by
  induction t with
  | nil => simp
  | cons x r ih =>
    by_cases hx : q x.1 = true
    · rw [List.filter_cons_of_pos (by rw [hp, hx]), Tbl_get_cons, Tbl_get_cons, ih]
      split <;> simp_all
    · rw [List.filter_cons_of_neg (by rw [hp]; exact hx), Tbl_get_cons, ih]
      by_cases hk : x.1 = k <;> simp_all

theorem Mem_read_clear (m : Mem) (a n x : Nat) :
    Mem.read (Mem.clear m a n) x = if a ≤ x ∧ x < a + n then 0 else Mem.read m x := by
  unfold Mem.read Mem.clear
  rw [Tbl_get_filter m _ (fun y => !(decide (a ≤ y) && decide (y < a + n))) (fun _ => rfl)]
  by_cases h : a ≤ x ∧ x < a + n <;> simp only [h, ← Bool.decide_and] <;> simp

/-- Writes of which the one named `j` alone touches the byte at `x`: it reads as that one leaves it, when made. -/
theorem Mem_read_foldl {f : Mem → Nat → Mem} {x j : Nat} {v : Byte} (hj : ∀ m, Mem.read (f m j) x = v)
    (ho : ∀ m n, n ≠ j → Mem.read (f m n) x = Mem.read m x) (l : List Nat) (m : Mem) :
    Mem.read (l.foldl f m) x = if j ∈ l then v else Mem.read m x := by
  induction l generalizing m with
  | nil => simp
  | cons n r ih =>
    rw [List.foldl_cons, ih]
    by_cases hn : n = j
    · subst hn
      simp [hj]
    · simp [ho m n hn, Ne.symm hn]

/-- Sheets that lose their contents read 0. -/
theorem Mem_read_clearSheets (l : List Nat) (m : Mem) (x : Nat) :
    Mem.read (l.foldl (fun m n => Mem.clear m (n * 65536) 65536) m) x =
      if x / 65536 ∈ l then 0 else Mem.read m x := by
  refine Mem_read_foldl (fun m => ?_) (fun m n hn => ?_) l m
  · rw [Mem_read_clear, if_pos (by omega)]
  · rw [Mem_read_clear, if_neg (by omega)]

theorem length_wokenBytes (free n : Nat) : (wokenBytes free n).length = 65536 := by
  rw [wokenBytes, tabulate, List.length_map, List.length_range]

theorem Mem_read_writeWoken_in (m : Mem) (free x : Nat) :
    Mem.read (Mem.writeBytes m (x / 65536 * 65536) (wokenBytes free (x / 65536))) x =
      BitVec.ofNat 8 (Config.openValue 32 free x) := by
  have hx : x / 65536 * 65536 + x % 65536 = x := by omega
  have hi : x % 65536 < (wokenBytes free (x / 65536)).length := by rw [length_wokenBytes]; omega
  have h := Mem_read_writeBytes_in _ m (x / 65536 * 65536) _ hi
  rw [hx] at h
  rw [h]
  simp only [wokenBytes, tabulate, List.getElem_map, List.getElem_range, hx]

/-- Sheets that wake from OFF read the free values of `free`. -/
theorem Mem_read_wakeSheets (free : Nat) (l : List Nat) (m : Mem) (x : Nat) :
    Mem.read (l.foldl (fun m n => Mem.writeBytes m (n * 65536) (wokenBytes free n)) m) x =
      if x / 65536 ∈ l then BitVec.ofNat 8 (Config.openValue 32 free x) else Mem.read m x := by
  refine Mem_read_foldl (fun m => ?_) (fun m n hn => ?_) l m
  · exact Mem_read_writeWoken_in m free x
  · have hlen := length_wokenBytes free n
    exact Mem_read_writeBytes_out _ m _ _ (by omega)

/-! ### The footprint (R155, R157) -/

theorem bitAt_eq_testBit (w i : Nat) : bitAt w i = w.testBit i := by
  rw [Nat.testBit_eq_decide_div_mod_eq]
  rfl

theorem sheetAfter_eq (mask n : Nat) (st : SheetSt) :
    sheetAfter mask n st = if mask.testBit n then (if st = .on then .on else .waking) else .off := by
  unfold sheetAfter
  rw [bitAt_eq_testBit]
  cases st <;> simp

theorem Core_footprint_sheet (c : Core) (mask free : Nat) {m : Nat} (h : m < c.mem.sheets.length) :
    (c.footprint mask free).sheet m = sheetAfter mask m (c.sheet m) := by
  simp [Core.sheet, Core.footprint, at', List.getElem?_mapIdx, List.getElem?_eq_getElem h]

/-- A byte of the scratchpad under a new footprint: 0 in a sheet that is not of it, a free value in one that wakes from
OFF, and kept in any other one. -/
theorem Core_footprint_read (c : Core) (mask free : Nat) {x : Nat} (h : x / 65536 < 32) :
    Mem.read (c.footprint mask free).mem.spad x =
      if mask.testBit (x / 65536) then
        if c.sheet (x / 65536) = .off then BitVec.ofNat 8 (Config.openValue 32 free x) else Mem.read c.mem.spad x
      else 0 := by
  simp only [Core.footprint, Mem_read_wakeSheets, Mem_read_clearSheets, List.mem_filter, List.mem_range, h, true_and,
    bitAt_eq_testBit]
  cases mask.testBit (x / 65536) <;> simp

/-! ### WINDOW and GRANT (R165, R166, R170) -/

/-- A WINDOW instruction that issues, when no deposit into its window is on its way (R170). -/
theorem windowIssue_issuing {s : State} {k : Nat} {i : MInstr} {c : Core} {undo : Bool} {body : MInstr → Core → Core}
    (h : s.issuing k i c) (ho : i.op = 0x17) (hu : decide (8 ≤ i.sSUB) = undo) (hf : s.inFlight k (i.sSUB % 8) = false) :
    s.windowIssue k undo body = s.issued k i (s.core k) (body i c) := by
  have hdue : s.due (s.core k) = some i := h.2.1
  simp only [State.windowIssue, hdue, hf, Bool.and_false, Bool.false_eq_true, if_false]
  exact ccIssue_issuing s c h (by simp [hasOp, ho, hu])

/-- A window that fits, meets no other one and lies on no sheet that is OFF is declared with no credit. -/
theorem declareBody_free {busy : Nat → Bool} {i : MInstr} {c : Core} (hfit : i.sIMM % 32768 + (i.sIMM / 65536 + 1) ≤ 32768)
    (hmeets : ∀ (j : Nat) (v : Window), j ≠ i.sSUB % 8 → c.wins[j]? = some (some v) →
      meets (i.sIMM % 32768) (i.sIMM / 65536 + 1) v.base v.lines = false)
    (hsheets : ∀ m ∈ sheetsOf (i.sIMM % 32768 * 64) ((i.sIMM / 65536 + 1) * 64), c.sheet m ≠ .off)
    (hbusy : busy (i.sSUB % 8) = false) :
    declareBody busy i c =
      (c.setWindow (i.sSUB % 8) (some ⟨i.sIMM % 32768, i.sIMM / 65536 + 1, i.sRD, 0⟩)).nextPc := by
  have hfind : (sheetsOf (i.sIMM % 32768 * 64) ((i.sIMM / 65536 + 1) * 64)).find? (fun n => c.sheet n == .off) = none :=
    List.find?_eq_none.2 fun m hm => by simpa using hsheets m hm
  simp only [declareBody, hfind, hbusy, Bool.false_eq_true, if_false]
  refine if_neg (not_or.2 ⟨by omega, ?_⟩)
  rw [List.any_eq_true]
  rintro ⟨b, hb, rfl⟩
  obtain ⟨j, hj, hmeet⟩ := List.mem_mapIdx.1 hb
  cases hv : c.wins[j] with
  | none => simp [hv] at hmeet
  | some v =>
    simp only [hv, Bool.and_eq_true, bne_iff_ne] at hmeet
    have hfree := hmeets j v hmeet.1 (by rw [List.getElem?_eq_getElem hj, hv])
    exact absurd hmeet.2 (by rw [hfree]; decide)

theorem undeclareBody_free {busy : Nat → Bool} {i : MInstr} {c : Core} (hbusy : busy (i.sSUB % 8) = false) :
    undeclareBody busy i c = (c.setWindow (i.sSUB % 8) none).nextPc := by
  simp [undeclareBody, hbusy]

theorem grantBody_none {i : MInstr} {c : Core} (h : c.window (i.sSUB % 8) = none) :
    grantBody i c = c.haltHere 0x02 (fieldDetail 0 68) := by
  simp only [grantBody, h]

/-- A count that is none, too large, or takes the credit beyond the window. -/
theorem grantBody_beyond {i : MInstr} {c : Core} {v : Window} (h : c.window (i.sSUB % 8) = some v)
    (hbad : (c.single i).toNat = 0 ∨ 32768 < (c.single i).toNat ∨ v.lines < v.credit + (c.single i).toNat) :
    grantBody i c = c.haltHere 0x02 (fieldDetail 0 (if i.sBI then 32 else 76)) := by
  simp only [grantBody, h, if_pos hbad]

theorem grantBody_within {i : MInstr} {c : Core} {v : Window} (h : c.window (i.sSUB % 8) = some v)
    (hpos : 0 < (c.single i).toNat) (hmax : (c.single i).toNat ≤ 32768) (hfit : v.credit + (c.single i).toNat ≤ v.lines) :
    grantBody i c = (c.setWindow (i.sSUB % 8) (some { v with credit := v.credit + (c.single i).toNat })).nextPc := by
  simp only [grantBody, h]
  exact if_neg (by omega)

@[simp] theorem Core_haltHere_window (c : Core) (reason detail w : Nat) :
    (c.haltHere reason detail).window w = c.window w := rfl

/-! ### The rows that issue -/

section
variable {s : State} {k : Nat} {i : MInstr} {c : Core} (h : s.issuing k i c)
include h

theorem exec_sheets_issuing (ho : i.op = 0x16) : exec (.sheets k) s =
    .next ((s.issued k i (s.core k) (c.footprint (c.single i).toNat s.pkg.free).nextPc).drewWakes s k) := by
  refine answer_next.2 ⟨h.1, ?_⟩
  rw [ccIssue_issuing s c h (by simp [hasOp, ho])]

theorem exec_windowDeclare_issuing (ho : i.op = 0x17) (hsub : i.sSUB < 8) (hf : s.inFlight k (i.sSUB % 8) = false) :
    exec (.windowDeclare k) s =
      let t := s.issued k i (s.core k) (declareBody (s.inFlight k) i c)
      .next (recheck k t.deposits t) := by
  refine answer_next.2 ⟨h.1, ?_⟩
  rw [windowIssue_issuing h ho (by simpa using hsub) hf]

theorem exec_windowUndeclare_issuing (ho : i.op = 0x17) (hsub : 8 ≤ i.sSUB) (hf : s.inFlight k (i.sSUB % 8) = false) :
    exec (.windowUndeclare k) s = .next (s.issued k i (s.core k) (undeclareBody (s.inFlight k) i c)) := by
  refine answer_next.2 ⟨h.1, ?_⟩
  rw [windowIssue_issuing h ho (by simpa using hsub) hf]

theorem exec_grant_issuing (ho : i.op = 0x18) :
    exec (.grant k) s = .next (s.issued k i (s.core k) (grantBody i c)).tryCredit := by
  refine answer_next.2 ⟨h.1, ?_⟩
  rw [ccIssue_issuing s c h (by simp [hasOp, ho])]

end

/-- Settles O4: byte by byte for the footprint, and by the effect of each row that issues. -/
theorem sheetsAndWindows : Obligations.SheetsAndWindows := by
  refine ⟨fun c mask free m hm hlen _ => ⟨?_, ?_, ?_⟩, fun s k i c h => ⟨?_, ?_, ?_, ?_, ?_, ?_⟩⟩
  · rw [Core_footprint_sheet c mask free (by omega), sheetAfter_eq]
  · rintro hbit hsheet a rfl
    rw [Core_footprint_read c mask free hm, if_pos hbit, if_neg hsheet]
  · intro hbit hsheet i hi
    have hdiv : (m * 65536 + i) / 65536 = m := by omega
    rw [Core_footprint_read c mask free (by omega), hdiv, if_pos hbit, if_pos hsheet]
  · exact exec_sheets_issuing h
  · intro ho hsub hfit hmeets hsheets hf
    rw [exec_windowDeclare_issuing h ho hsub hf, declareBody_free hfit hmeets hsheets hf]
  · intro ho hsub hf
    rw [exec_windowUndeclare_issuing h ho hsub hf, undeclareBody_free hf]
  · intro ho v hv hpos hmax hcredit
    rw [exec_grant_issuing h ho, grantBody_within hv hpos hmax hcredit]
    rfl
  · intro ho v hv hbad
    exact ⟨by rw [exec_grant_issuing h ho, grantBody_beyond hv hbad], (Core_haltHere_window c _ _ _).trans hv⟩
  · intro ho hv
    rw [exec_grant_issuing h ho, grantBody_none hv]

end Sys2Proof.Machine
end

section
/-! Issuing (07 R213, R233 to R236, R242, R244): the effects of LOOP and LBRK, the ends of loop bodies, and the push of a
queued instruction. -/
namespace Sys2Proof.Machine
open Sys2Proof

/-! ### A control-core row that issues (R213) -/

/-- What a row of the control core answers when it issues. -/
theorem answer_ccIssue_issuing {s : State} {k : Nat} {i : MInstr} {c : Core} {isOp : MInstr → Bool}
    {body : MInstr → Core → Core} (h : s.issuing k i c) (ho : isOp i = true) :
    answer (coreOk k) (s.ccIssue k isOp body) = .next (s.issued k i (s.core k) (body i c)) :=
  answer_next.2 ⟨h.1, (ccIssue_issuing s c h ho).symm⟩

theorem hasOp_of_op {n : Nat} {i : MInstr} (h : i.op = n) : hasOp n i = true := beq_iff_eq.2 h

/-- An instruction that makes no signal and leaves a core that runs on: what follows it is the advance alone (R235, R238). -/
theorem issued_advance {s : State} {k : Nat} {i : MInstr} {c0 c1 : Core} (hsignal : (i.se && queueOf i.op == 0) = false)
    (hrun : c1.st = .run) (hadv : ((s.setCore k c1).advance c1).st = .run) :
    s.issued k i c0 c1 = s.setCore k ((s.setCore k c1).advance c1) := by
  simp [State.issued, hrun, hsignal, hadv]

/-- The ends of loop bodies are all that follows while an instruction of the image is next (R238). -/
theorem advance_within {s : State} {c : Core}
    (h : (Core.loopEnds 5 c).ctl.pc < (s.code (Core.loopEnds 5 c) (Core.loopEnds 5 c).ctl.ctx).length) :
    s.advance c = Core.loopEnds 5 c :=
  if_neg fun hout => absurd hout.2 (Nat.not_le.2 h)

/-! ### LOOP and LBRK (R233 to R236) -/

/-- The count of LOOP: `IMM`[23:0] or A[`RA`] (R233). -/
def loopCount (i : MInstr) (c : Core) : Nat := if i.sBI then i.sIMM % 2 ^ 24 else (c.a i.sRA).toNat

/-- The body of LOOP ends within the innermost loop open in the routine (R234). -/
def Core.nests (c : Core) (last : Nat) : Prop := ∀ lv, c.ownLoop = some lv → last ≤ lv.last

/-- LOOP with a count in range whose body nests: a count of 0 skips the body, and otherwise a level opens when one of
the four is free. -/
theorem loopBody_nests {i : MInstr} {c : Core} (hcount : loopCount i c < 2 ^ 24) (hnests : c.nests (c.ctl.pc + i.sOFF)) :
    loopBody i c =
      if loopCount i c = 0 then c.jump (c.ctl.pc + i.sOFF + 1)
      else if 4 ≤ c.ctl.loops.length then c.haltHere 0x0B 0x10000000
      else { c with ctl := { c.ctl with
        loops := { first := c.ctl.pc + 1, last := c.ctl.pc + i.sOFF, count := loopCount i c, saved := c.ctl.a } :: c.ctl.loops
        pc := c.ctl.pc + 1 } } := by
  refine (if_neg (Nat.not_le.2 hcount)).trans (if_neg fun hbeyond => ?_)
  cases hown : c.ownLoop with
  | none => simp [hown] at hbeyond
  | some lv =>
    have hlast := hnests lv hown
    simp only [hown, decide_eq_true_eq] at hbeyond
    omega

theorem lbrkBody_inside {i : MInstr} {c : Core} {lv : LoopLv} (h : c.ownLoop = some lv) : lbrkBody i c = c.closeLoop lv := by
  simp only [lbrkBody, h]

theorem lbrkBody_outside {i : MInstr} {c : Core} (h : c.ownLoop = none) :
    lbrkBody i c = c.haltHere 0x0B 0x30000000 := by
  simp [lbrkBody, h]

section
variable {s : State} {k : Nat} {i : MInstr} {c : Core} (h : s.issuing k i c)
include h

theorem exec_nop_issuing (ho : i.op = 0x00) : exec (.nop k) s = .next (s.issued k i (s.core k) c.nextPc) :=
  answer_ccIssue_issuing h (hasOp_of_op ho)

theorem exec_loop_issuing (ho : i.op = 0x10) : exec (.loop k) s = .next (s.issued k i (s.core k) (loopBody i c)) :=
  answer_ccIssue_issuing h (hasOp_of_op ho)

theorem exec_lbrk_issuing (ho : i.op = 0x11) : exec (.lbrk k) s = .next (s.issued k i (s.core k) (lbrkBody i c)) :=
  answer_ccIssue_issuing h (hasOp_of_op ho)

end

/-! ### Ends of loop bodies (R235) -/

/-- The body of `lv`, the innermost level, runs again: its strides are added, and one run less is left. -/
def Core.repeatLoop (c : Core) (lv : LoopLv) : Core :=
  { c with ctl := { c.ctl with
      a := c.strided (c.ctl.loops.length - 1)
      loops := { lv with count := lv.count - 1 } :: c.ctl.loops.tail
      pc := lv.first } }

section
variable {c : Core} {lv : LoopLv} (hown : c.ownLoop = some lv) (hend : c.ctl.pc = lv.last + 1)
include hown hend

theorem loopEnds_repeat (n : Nat) (hcount : 1 < lv.count) : Core.loopEnds (n + 1) c = c.repeatLoop lv := by
  simp only [Core.loopEnds, hown, if_pos hend, if_pos hcount]
  rfl

theorem loopEnds_last (n : Nat) (hcount : lv.count ≤ 1) :
    Core.loopEnds (n + 1) c =
      Core.loopEnds n (Core.closeLoop { c with ctl := { c.ctl with a := c.strided (c.ctl.loops.length - 1) } } lv) := by
  simp only [Core.loopEnds, hown, if_pos hend, if_neg (Nat.not_lt.2 hcount)]

end

/-- An instruction without signal that ends a loop body with runs left: the body runs again. -/
theorem issued_repeat {s : State} {k : Nat} {i : MInstr} {c0 c : Core} {lv : LoopLv} (hse : i.se = false) (hrun : c.st = .run)
    (hown : c.ownLoop = some lv) (hlast : c.ctl.pc = lv.last) (hcount : 1 < lv.count)
    (hfirst : lv.first < (s.code c c.ctl.ctx).length) :
    s.issued k i c0 c.nextPc = s.setCore k (c.repeatLoop lv) := by
  have hends : Core.loopEnds 5 c.nextPc = c.repeatLoop lv :=
    loopEnds_repeat (c := c.nextPc) hown (congrArg (· + 1) hlast) 4 hcount
  have hadv : (s.setCore k c.nextPc).advance c.nextPc = c.repeatLoop lv := by
    rw [advance_within (by rw [hends]; exact hfirst), hends]
  rw [issued_advance (c1 := c.nextPc) (by simp [hse]) hrun (by rw [hadv]; exact hrun), hadv]

/-- Settles O2: LOOP and LBRK by their effects as they issue, the ends of loop bodies by one unfolding of the walk over
levels. -/
theorem loops : Obligations.Loops := by
  refine ⟨fun s k i c h => ⟨?_, ?_, ?_, ?_, ?_⟩, fun c lv n hown hend => ⟨?_, ?_⟩, ?_⟩
  · intro ho (hpos : 0 < loopCount i c) hmax hin hfree
    rw [exec_loop_issuing h ho, loopBody_nests hmax hin, if_neg (Nat.pos_iff_ne_zero.1 hpos), if_neg (Nat.not_le.2 hfree)]
    rfl
  · intro ho (hzero : loopCount i c = 0) hin
    rw [exec_loop_issuing h ho, loopBody_nests (by omega) hin, if_pos hzero]
  · intro ho (hpos : 0 < loopCount i c) hmax hin hfull
    rw [exec_loop_issuing h ho, loopBody_nests hmax hin, if_neg (Nat.pos_iff_ne_zero.1 hpos), if_pos hfull]
  · intro ho lv hown
    rw [exec_lbrk_issuing h ho, lbrkBody_inside hown]
    rfl
  · intro ho hown
    rw [exec_lbrk_issuing h ho, lbrkBody_outside hown]
  · exact loopEnds_repeat hown hend n
  · exact loopEnds_last hown hend n
  · intro s k i c lv h ho hse hrun hown hlast hcount hfirst
    rw [exec_nop_issuing h ho, issued_repeat hse hrun hown hlast hcount hfirst]
    rfl

/-! ### The push of a queued instruction (R242, R244) -/

/-- The rows that go through a queue, each with the instructions that it stands for. -/
def pushedRows : List ((Nat → Sys2Proof.Phase → Instr) × (MInstr → Bool)) :=
  queuedRows ++ vecRows.map (fun r => (r.1, isVec r.2)) ++ reduceRows.map (fun r => (r.1, isRed r.2))

/-- At its issue the row `p` pushes the instruction that is due. -/
def pushesAtIssue (p : (Nat → Sys2Proof.Phase → Instr) × (MInstr → Bool)) : Prop :=
  ∀ (s : State) (k : Nat), exec (p.1 k .issue) s = answer (coreOk k) (s.push k p.2)

theorem queuedRows_pushAtIssue {p : (Nat → Sys2Proof.Phase → Instr) × (MInstr → Bool)} (hp : p ∈ queuedRows) :
    pushesAtIssue p := by
  simp only [queuedRows, List.mem_cons, List.not_mem_nil, or_false] at hp
  rcases hp with rfl | rfl | rfl | rfl | rfl | rfl | rfl | rfl | rfl | rfl | rfl | rfl | rfl | rfl | rfl | rfl | rfl <;>
    exact fun _ _ => rfl

theorem vecRows_pushAtIssue {r : (Nat → Sys2Proof.Phase → Instr) × Nat} (hr : r ∈ vecRows) :
    pushesAtIssue (r.1, isVec r.2) := by
  simp only [vecRows, List.mem_cons, List.not_mem_nil, or_false] at hr
  rcases hr with rfl | rfl | rfl | rfl | rfl | rfl | rfl | rfl | rfl | rfl | rfl | rfl | rfl | rfl | rfl | rfl <;>
    exact fun _ _ => rfl

theorem reduceRows_pushAtIssue {r : (Nat → Sys2Proof.Phase → Instr) × Nat} (hr : r ∈ reduceRows) :
    pushesAtIssue (r.1, isRed r.2) := by
  simp only [reduceRows, List.mem_cons, List.not_mem_nil, or_false] at hr
  rcases hr with rfl | rfl | rfl | rfl | rfl <;> exact fun _ _ => rfl

theorem pushedRows_pushAtIssue {p : (Nat → Sys2Proof.Phase → Instr) × (MInstr → Bool)} (hp : p ∈ pushedRows) :
    pushesAtIssue p := by
  rcases List.mem_append.1 hp with hp | hred
  · rcases List.mem_append.1 hp with hqueued | hvec
    · exact queuedRows_pushAtIssue hqueued
    · obtain ⟨r, hr, rfl⟩ := List.mem_map.1 hvec
      exact vecRows_pushAtIssue hr
  · obtain ⟨r, hr, rfl⟩ := List.mem_map.1 hred
    exact reduceRows_pushAtIssue hr

/-- A queued instruction that finds a free entry: it takes it with the A registers as they are, and what a matrix
operation leaves for the next one is noted (R220, R288). -/
theorem pushBody_free {i : MInstr} {c : Core} (h : (c.queue (queueOf i.op)).length < queueDepth (queueOf i.op)) :
    pushBody i c =
      let c1 := c.setQueue (queueOf i.op) (c.queue (queueOf i.op) ++ [c.entryFor i])
      (if queueOf i.op = 1 ∧ isMacro i.op then { c1 with q := { c1.q with prevOut := coutOf i } } else c1).nextPc :=
  if_neg (Nat.not_le.2 h)

theorem pushBody_full {i : MInstr} {c : Core} (h : queueDepth (queueOf i.op) ≤ (c.queue (queueOf i.op)).length) :
    pushBody i c = c.haltHere 0x0A (queueOf i.op * 2 ^ 28) :=
  if_pos h

/-- Settles O7: every queued row issues by `pushBody`, which finds its queue free or full. -/
theorem queuedPush : Obligations.QueuedPush := by
  refine ⟨⟨rfl, rfl, rfl, rfl⟩, fun p hp s k i c h ho => ?_⟩
  have hissue : exec (p.1 k .issue) s = .next (s.issued k i (s.core k) (pushBody i c)) :=
    (pushedRows_pushAtIssue hp s k).trans (answer_ccIssue_issuing h ho)
  refine ⟨fun hfree => ?_, fun hfull => ?_⟩
  · rw [hissue, pushBody_free hfree]
    rfl
  · rw [hissue, pushBody_full hfull]

end Sys2Proof.Machine
end

/-! ## What burns a fuse (16 R492 to R501)

Every operation of the model but those of `mayBurn` leaves the fuses as they are: one lemma per operation, in the order of
the model, each from those of the operations it calls; then every command (`exec_fuses`). -/

section
namespace Sys2Proof.Machine
open Sys2Proof

/-- A fold keeps what each of its steps keeps. -/
theorem foldl_keeps {α β : Type} (g : State → β) {f : State → α → State} (hf : ∀ s a, g (f s a) = g s) (l : List α)
    (s : State) : g (l.foldl f s) = g s := by
  induction l generalizing s with
  | nil => rfl
  | cons a l ih => exact (ih _).trans (hf s a)

@[simp] theorem foldl_fuses {α : Type} (f : State → α → State) (l : List α) (s : State)
    (hf : ∀ s a, (f s a).fuses = s.fuses) : (l.foldl f s).fuses = s.fuses :=
  foldl_keeps State.fuses hf l s

@[simp] theorem fuses_ite (p : Prop) [Decidable p] (a b : State) :
    (if p then a else b).fuses = if p then a.fuses else b.fuses :=
  apply_ite State.fuses p a b

theorem ite_fuses {c : Prop} [Decidable c] {a b : State} {x : Fuses} (ha : a.fuses = x) (hb : b.fuses = x) :
    (if c then a else b).fuses = x := by
  split
  · exact ha
  · exact hb

/-! ### Effects of queued rows -/

/-- `P` holds of the result of an effect, when it has one. -/
def Eff.gives {α : Type} (P : α → Prop) : Eff α → Prop
  | .ok a => P a
  | .wait => True
  | .stop _ _ _ => True

@[simp] theorem Eff_gives_ok {α : Type} (P : α → Prop) (a : α) : (Eff.ok a).gives P ↔ P a := Iff.rfl

@[simp] theorem Eff_gives_wait {α : Type} (P : α → Prop) : (Eff.wait : Eff α).gives P := trivial

@[simp] theorem Eff_gives_stop {α : Type} (P : α → Prop) (c : Core) (r d : Nat) : (Eff.stop c r d : Eff α).gives P :=
  trivial

theorem Eff_gives_bind {α β : Type} {P : β → Prop} {e : Eff α} {f : α → Eff β} (h : ∀ a, (f a).gives P) :
    (e.bind f).gives P := by
  cases e with
  | ok a => exact h a
  | wait => trivial
  | stop c r d => trivial

theorem Eff_gives_ite {α : Type} {P : α → Prop} {c : Prop} [Decidable c] {a b : Eff α} (ha : a.gives P)
    (hb : b.gives P) : (if c then a else b).gives P := by
  split
  · exact ha
  · exact hb

theorem Eff_gives_elim {α : Type} {P : α → Prop} {e : Eff α} {a : α} (he : e = .ok a) (h : e.gives P) : P a := by
  rw [he] at h
  exact h

/-- A body of a queued row burns no fuse. -/
def KeepsFuses (body : State → Core → Flight → Eff (State × List DCmd)) : Prop :=
  ∀ s c f, (body s c f).gives (fun r => r.1.fuses = s.fuses)

section
variable (s : State)

/-! ### Halting a core and stepping its counters -/

@[simp] theorem State_modPlane_fuses (k e p : Nat) (f : Plane → Plane) : (s.modPlane k e p f).fuses = s.fuses := by
  simp [State.modPlane]

@[simp] theorem State_drew_fuses : s.drew.fuses = s.fuses := by simp [State.drew]

@[simp] theorem State_haltCore_fuses (k ctx idx depth reason detail : Nat) :
    (s.haltCore k ctx idx depth reason detail).fuses = s.fuses := by
  simp [State.haltCore]

@[simp] theorem State_haltDue_fuses (k reason detail : Nat) : (s.haltDue k reason detail).fuses = s.fuses := by
  simp [State.haltDue]

@[simp] theorem State_haltEntry_fuses (k : Nat) (q : QEntry) (reason detail : Nat) :
    (s.haltEntry k q reason detail).fuses = s.fuses := by
  simp [State.haltEntry]

@[simp] theorem State_signal_fuses (k i n ctx idx depth : Nat) : (s.signal k i n ctx idx depth).fuses = s.fuses := by
  simp [State.signal]

@[simp] theorem State_depositStep_fuses (k i : Nat) : (s.depositStep k i).fuses = s.fuses := by
  simp [State.depositStep]

/-! ### Issue -/

@[simp] theorem State_meetStop_fuses (k : Nat) : (s.meetStop k).fuses = s.fuses := by
  simp only [State.meetStop]
  split <;> simp

@[simp] theorem State_settle_fuses (k : Nat) : (s.settle k).fuses = s.fuses := by simp [State.settle]

@[simp] theorem State_issued_fuses (k : Nat) (i : MInstr) (c0 c1 : Core) : (s.issued k i c0 c1).fuses = s.fuses := by
  simp [State.issued]

@[simp] theorem State_ccIssue_fuses (k : Nat) (isOp : MInstr → Bool) (body : MInstr → Core → Core) :
    (s.ccIssue k isOp body).fuses = s.fuses := by
  simp only [State.ccIssue]
  repeat' split
  all_goals simp

@[simp] theorem State_drewWakes_fuses (s t : State) (k : Nat) : (s.drewWakes t k).fuses = s.fuses := by
  simp [State.drewWakes]

@[simp] theorem State_windowIssue_fuses (k : Nat) (undo : Bool) (body : MInstr → Core → Core) :
    (s.windowIssue k undo body).fuses = s.fuses := by
  simp only [State.windowIssue]
  repeat' split
  all_goals simp

/-! ### The engine queues (07 R242 to R244) -/

@[simp] theorem State_push_fuses (k : Nat) (isOp : MInstr → Bool) : (s.push k isOp).fuses = s.fuses := by
  simp [State.push]

@[simp] theorem State_enter_fuses (k : Nat) (tm : Timing) : (s.enter k tm).fuses = s.fuses := by simp [State.enter]

@[simp] theorem State_timed_fuses (k : Nat) (cls : Option Nat) (tm : Timing) :
    (s.timed k cls tm).fuses = s.fuses := by
  simp only [State.timed]
  repeat' split
  all_goals simp

theorem State_runQueued_fuses (s : State) {body : State → Core → Flight → Eff (State × List DCmd)}
    (hb : KeepsFuses body) (k : Nat) (isOp : MInstr → Bool) (tm : Timing) : (s.runQueued k isOp tm body).fuses = s.fuses := by
  unfold State.runQueued
  split
  · rfl
  · split
    · rfl
    · next f _ =>
      dsimp only
      split
      · simp
      · have h := hb (s.enter k tm) ((s.enter k tm).core k) f
        split
        · rfl
        · simp
        · next hr =>
          rw [hr] at h
          simpa using h

@[simp] theorem State_queued_fuses (s : State) {body : State → Core → Flight → Eff (State × List DCmd)}
    (hb : KeepsFuses body) (k : Nat) (ph : Sys2Proof.Phase) (isOp : MInstr → Bool) : (s.queued k ph isOp body).fuses = s.fuses := by
  cases ph with
  | issue => exact State_push_fuses s k isOp
  | run tm => exact State_runQueued_fuses s hb k isOp tm

@[simp] theorem coreBody_keepsFuses (k : Nat) (f : State → Core → Flight → Eff Core) : KeepsFuses (coreBody k f) :=
  fun _ _ _ => Eff_gives_bind fun _ => rfl

/-! ### Units of the package, pages, ports and fault counts -/

@[simp] theorem State_modCluster_fuses (d l : Nat) (f : Core → Core) : (s.modCluster d l f).fuses = s.fuses :=
  foldl_fuses _ _ _ fun s k => State_modCore_fuses s k f

@[simp] theorem State_endBallast_fuses (k : Nat) (es : List Nat) : (s.endBallast k es).fuses = s.fuses := by
  simp [State.endBallast]

@[simp] theorem State_keepBallast_fuses (k e : Nat) : (s.keepBallast k e).fuses = s.fuses := by
  unfold State.keepBallast
  split <;> simp

@[simp] theorem State_startWake_fuses (d c : Nat) : (s.startWake d c).fuses = s.fuses := by
  simp only [State.startWake]
  split <;> simp

@[simp] theorem State_takeRun_fuses (st a n : Nat) : (s.takeRun st a n).fuses = s.fuses := by simp [State.takeRun]
@[simp] theorem State_giveRun_fuses (st a n : Nat) : (s.giveRun st a n).fuses = s.fuses := by simp [State.giveRun]

theorem State_reserve_fuses {s t : State} {d : Option Nat} {n : Nat} {p : Parcel}
    (h : s.reserve d n = some (t, p)) : t.fuses = s.fuses := by
  simp only [State.reserve, Option.bind_eq_some_iff] at h
  obtain ⟨a, _, b, _, h⟩ := h
  split at h
  · cases h; rfl
  · obtain ⟨q, _, h⟩ := Option.map_eq_some_iff.1 h
    cases h
    simp

@[simp] theorem State_wakeStacks_fuses (l : List Nat) : (s.wakeStacks l).fuses = s.fuses := by simp [State.wakeStacks]
@[simp] theorem State_freeParcel_fuses (p : Parcel) : (s.freeParcel p).fuses = s.fuses := by simp [State.freeParcel]
@[simp] theorem State_dropAt_fuses (n : Nat) : (s.dropAt n).fuses = s.fuses := by simp [State.dropAt]
@[simp] theorem State_discard_fuses (n : Nat) (w : Wire) : (s.discard n w).fuses = s.fuses := by simp [State.discard]

@[simp] theorem State_nextIv_fuses (p tsid : Nat) : (s.nextIv p tsid).1.fuses = s.fuses := by
  simp only [State.nextIv]
  split <;> simp

@[simp] theorem State_sendSeg_fuses (p addr : Nat) (h : Hdr) (body : List Byte) :
    (s.sendSeg p addr h body).fuses = s.fuses := by
  simp [State.sendSeg]

@[simp] theorem State_sendAt_fuses (p addr : Nat) (h : Hdr) (body : List Byte) :
    (s.sendAt p addr h body).fuses = s.fuses := by
  simp [State.sendAt]

@[simp] theorem State_mgmtReply_fuses (port addr tsid mop mtag status : Nat) (fields : List Byte) :
    (s.mgmtReply port addr tsid mop mtag status fields).fuses = s.fuses := by
  simp [State.mgmtReply]

@[simp] theorem State_sendPair_fuses (pop : Nat) (fields : List (Nat × Nat)) (data : List Byte) :
    (s.sendPair pop fields data).fuses = s.fuses := by
  simp [State.sendPair]

@[simp] theorem State_localFault_fuses : s.localFault.fuses = s.fuses := by simp [State.localFault]
@[simp] theorem State_countNospare_fuses : s.countNospare.fuses = s.fuses := by simp [State.countNospare]
@[simp] theorem State_countLostUnit_fuses : s.countLostUnit.fuses = s.fuses := by simp [State.countLostUnit]

@[simp] theorem State_openWord_fuses (tag bitsN : Nat) : (s.openWord tag bitsN).1.fuses = s.fuses := by
  simp [State.openWord]

/-! ### Deposits (05 R164 to R171) -/

@[simp] theorem State_addDeposit_fuses (d : Deposit) : (s.addDeposit d).fuses = s.fuses := by simp [State.addDeposit]

@[simp] theorem State_takeCredit_fuses (d w n : Nat) : (s.takeCredit d w n).fuses = s.fuses := by
  simp [State.takeCredit]

theorem creditWalk_fuses (l seen : List Deposit) (s : State) : (creditWalk l seen s).fuses = s.fuses := by
  induction l generalizing seen s with
  | nil => rfl
  | cons d r ih =>
    unfold creditWalk
    split
    · exact ih _ _
    · dsimp only
      split <;> simp [ih]

@[simp] theorem State_tryCredit_fuses (s : State) : s.tryCredit.fuses = s.fuses := creditWalk_fuses _ _ s

@[simp] theorem State_haltFlight_fuses (k fl reason detail : Nat) :
    (s.haltFlight k fl reason detail).fuses = s.fuses := by
  simp only [State.haltFlight]
  split <;> simp

@[simp] theorem State_dropDeposit_fuses (id : Nat) : (s.dropDeposit id).fuses = s.fuses := by simp [State.dropDeposit]

theorem State_landAt_fuses {s : State} {d : Deposit} {lines : List (Nat × List Byte × Nat)} {k : Nat} {t : State}
    (h : s.landAt d lines k = some t) : t.fuses = s.fuses := by
  simp only [State.landAt] at h
  split at h
  · cases h; rfl
  · split at h
    · cases h
    · cases h; simp
    · cases h; simp

theorem landAll_fuses {d : Deposit} {lines : List (Nat × List Byte × Nat)} {ks : List Nat} {s t : State}
    (h : landAll d lines ks s = some t) : t.fuses = s.fuses := by
  induction ks generalizing s with
  | nil => cases h; rfl
  | cons k r ih =>
    obtain ⟨u, hu, h⟩ := Option.bind_eq_some_iff.1 h
    exact (ih h).trans (State_landAt_fuses hu)

@[simp] theorem State_land_fuses (s : State) (d : Deposit) : (s.land d).fuses = s.fuses := by
  unfold State.land
  split
  · split
    · rfl
    · simp
    · split
      · next h => simpa using landAll_fuses h
      · rfl
  · split
    · next h => simpa using landAll_fuses h
    · rfl
  · split
    · next h => simpa using landAll_fuses h
    · rfl

@[simp] theorem State_enterSender_fuses (d : Deposit) (tm : Timing) : (s.enterSender d tm).fuses = s.fuses := by
  simp only [State.enterSender]
  split <;> simp

@[simp] theorem State_leaveSender_fuses (d : Deposit) (tm : Timing) : (s.leaveSender d tm).fuses = s.fuses := by
  simp only [State.leaveSender]
  split <;> simp

@[simp] theorem recheck_fuses (k : Nat) (l : List Deposit) (s : State) : (recheck k l s).fuses = s.fuses := by
  induction l generalizing s with
  | nil => rfl
  | cons d r ih =>
    rw [recheck, ih]
    split
    · split
      · split
        · split <;> simp
        · rfl
      · rfl
    · rfl

@[simp] theorem sendBody_keepsFuses (k : Nat) : KeepsFuses (sendBody k) := by
  intro s c f
  unfold sendBody
  dsimp only
  split
  · trivial
  · split
    · trivial
    · refine Eff_gives_bind fun _ => ?_
      split <;> simp [State.addDeposit]

@[simp] theorem emitBody_keepsFuses (k : Nat) : KeepsFuses (emitBody k) := by
  intro s c f
  unfold emitBody
  dsimp only
  split
  · trivial
  · split
    · trivial
    · split
      · trivial
      · split
        · trivial
        · exact Eff_gives_bind fun _ => by simp

/-! ### Drains (04 R124, R125) -/

theorem State_depositPartial_fuses (s : State) (k : Nat) (f : Flight) (slot m j : Nat) (last : Bool) :
    (s.depositPartial k f slot m j last).gives (fun t => t.fuses = s.fuses) := by
  refine Eff_gives_bind fun _ => Eff_gives_bind fun _ => ?_
  split
  · trivial
  · dsimp only
    split <;> simp

@[simp] theorem State_drainOn_fuses (s : State) (k e : Nat) : (s.drainOn k e).fuses = s.fuses := by
  simp only [State.drainOn]
  split
  · rfl
  · split
    · split
      · rfl
      · split <;> simp
    · split
      · split
        · rfl
        · split
          · rfl
          · simp
          · split <;> simp
      · split
        · rfl
        · split
          · rfl
          · simp
          · next hr => simpa using Eff_gives_elim hr (State_depositPartial_fuses s _ _ _ _ _ _)
      · rfl

@[simp] theorem State_drainStep_fuses (s : State) (k e : Nat) (tm : Timing) : (s.drainStep k e tm).fuses = s.fuses := by
  simp [State.drainStep]

/-! ### Repair records -/

@[simp] theorem State_addDue_fuses (d r : Nat) : (s.addDue d r).fuses = s.fuses := by simp [State.addDue]

/-! ### The Fold and its ledger -/

@[simp] theorem State_sendRecord_fuses (r : PairRecord) : (s.sendRecord r).fuses = s.fuses := by
  simp [State.sendRecord]

@[simp] theorem State_applied_fuses (n : Nat) : (s.applied n).fuses = s.fuses := by simp [State.applied]

@[simp] theorem State_await_fuses (n kind stream incarn seq : Nat) :
    (s.await n kind stream incarn seq).fuses = s.fuses := by
  simp [State.await]

@[simp] theorem State_ledgerAs_fuses (e : Entry) (code : Nat) : (s.ledgerAs e code).fuses = s.fuses := by
  simp [State.ledgerAs]

@[simp] theorem State_ledger_fuses (e : Entry) : (s.ledger e).fuses = s.fuses := by simp [State.ledger]

@[simp] theorem State_commitEntry_fuses (cseq : Nat) (f : Entry → Entry) :
    (s.commitEntry cseq f).fuses = s.fuses := by
  simp only [State.commitEntry]
  split <;> simp

@[simp] theorem State_modRefs_fuses (tenant ep : Nat) (f : Nat → Nat) : (s.modRefs tenant ep f).fuses = s.fuses := by
  simp [State.modRefs]

@[simp] theorem State_freeVersions_fuses : s.freeVersions.fuses = s.fuses := by simp [State.freeVersions]

@[simp] theorem State_takeRefs_fuses (e : Entry) : (s.takeRefs e).fuses = s.fuses := by
  simp only [State.takeRefs]
  split <;> simp

@[simp] theorem State_dropRefs_fuses (e : Entry) : (s.dropRefs e).fuses = s.fuses := by
  simp only [State.dropRefs]
  split <;> simp

@[simp] theorem State_clearFrame_fuses (cseq : Nat) : (s.clearFrame cseq).fuses = s.fuses := by
  simp only [State.clearFrame]
  split <;> simp

@[simp] theorem State_requeue_fuses (cseq order : Nat) (f : Entry → Entry) :
    (s.requeue cseq order f).fuses = s.fuses := by
  simp [State.requeue]

@[simp] theorem State_countFold_fuses (f : FoldRegs → FoldRegs) : (s.countFold f).fuses = s.fuses := by
  simp [State.countFold]

@[simp] theorem State_noteReplay_fuses (cseq : Nat) : (s.noteReplay cseq).fuses = s.fuses := by
  simp [State.noteReplay]

@[simp] theorem State_completeAs_fuses (cseq : Nat) (st : ResStatus) (wreason : Nat) (payload : List Byte) :
    (s.completeAs cseq st wreason payload).fuses = s.fuses := by
  simp only [State.completeAs]
  split <;> simp

@[simp] theorem State_admitTime_fuses (port time : Nat) : (s.admitTime port time).fuses = s.fuses := by
  simp [State.admitTime]

@[simp] theorem State_refuse_fuses (port addr tsid stream incarn seq reason detail time : Nat) :
    (s.refuse port addr tsid stream incarn seq reason detail time).fuses = s.fuses := by
  simp [State.refuse]

@[simp] theorem State_accept_fuses (port addr tsid stream incarn seq flags cseq time : Nat) :
    (s.accept port addr tsid stream incarn seq flags cseq time).fuses = s.fuses := by
  simp [State.accept]

@[simp] theorem State_noteAck_fuses (cseq p : Nat) : (s.noteAck cseq p).fuses = s.fuses := by simp [State.noteAck]
@[simp] theorem State_countDup_fuses (port : Nat) : (s.countDup port).fuses = s.fuses := by simp [State.countDup]

@[simp] theorem State_acceptDup_fuses (port addr tsid stream incarn seq time : Nat) :
    (s.acceptDup port addr tsid stream incarn seq time).fuses = s.fuses := by
  simp only [State.acceptDup]
  split <;> simp

@[simp] theorem State_doCancel_fuses (e : Entry) (tseq : Nat) : (s.doCancel e tseq).fuses = s.fuses := by
  simp only [State.doCancel]
  repeat' split
  all_goals simp

@[simp] theorem State_admitEntry_fuses (e : Entry) : (s.admitEntry e).fuses = s.fuses := by
  simp only [State.admitEntry]
  split <;> simp

@[simp] theorem State_dropCopies_fuses (stream incarn seq : Nat) :
    (s.dropCopies stream incarn seq).fuses = s.fuses := by
  simp [State.dropCopies]

@[simp] theorem State_confirm_fuses (c : Commit) (time : Nat) : (s.confirm c time).fuses = s.fuses := by
  simp [State.confirm]

@[simp] theorem State_progress_fuses (c : Commit) (time : Nat) : (s.progress c time).fuses = s.fuses := by
  simp [State.progress]

@[simp] theorem State_hubConfirms_fuses (c : Commit) (hub time : Nat) :
    (s.hubConfirms c hub time).fuses = s.fuses := by
  simp [State.hubConfirms]

@[simp] theorem State_dropHub_fuses (h : Nat) : (s.dropHub h).fuses = s.fuses := by simp [State.dropHub]
@[simp] theorem State_countStrike_fuses : s.countStrike.fuses = s.fuses := by simp [State.countStrike]

@[simp] theorem State_strike_fuses (c : Commit) (time : Nat) : (s.strike c time).fuses = s.fuses := by
  simp [State.strike]

/-! ### The routine store -/

@[simp] theorem State_moveCode_fuses (d line : Nat) : (s.moveCode d line).fuses = s.fuses := by simp [State.moveCode]

@[simp] theorem State_noteStaging_fuses (h n : Nat) : (s.noteStaging h n).fuses = s.fuses := by
  simp [State.noteStaging]

@[simp] theorem State_nextEpoch_fuses : s.nextEpoch.fuses = s.fuses := by simp [State.nextEpoch]

/-! ### Admission of WORK (11 R341 to R358) -/

@[simp] theorem State_dropParts_fuses (n : Nat) (h : Hdr) : (s.dropParts n h).fuses = s.fuses := by
  simp [State.dropParts]

@[simp] theorem State_copySeg_fuses (g : SegIn) : (s.copySeg g).fuses = s.fuses := by simp [State.copySeg]
@[simp] theorem State_storeSeg_fuses (g : SegIn) : (s.storeSeg g).fuses = s.fuses := by simp [State.storeSeg]

@[simp] theorem State_beginCommit_fuses (g : SegIn) (op : WorkOp) (ip rp : Parcel) :
    (s.beginCommit g op ip rp).fuses = s.fuses := by
  simp [State.beginCommit]

/-- A verdict that takes a state takes one with the fuses of `s`. -/
def Verdict.keepsFuses (s : State) : Verdict → Prop
  | .take t _ _ _ => t.fuses = s.fuses
  | _ => True

theorem Verdict_keepsFuses_ite {s : State} {c : Prop} [Decidable c] {v w : Verdict} (hv : v.keepsFuses s)
    (hw : w.keepsFuses s) : (if c then v else w).keepsFuses s := by
  split
  · exact hv
  · exact hw

theorem State_resources_keepsFuses (s : State) (op : WorkOp) (h : Hdr) (backlog : Nat) :
    (s.resources op h backlog).keepsFuses s := by
  refine Verdict_keepsFuses_ite trivial (Verdict_keepsFuses_ite trivial ?_)
  split
  · trivial
  · next h1 =>
    split
    · trivial
    · next h2 =>
      exact Verdict_keepsFuses_ite trivial (Verdict_keepsFuses_ite trivial
        ((State_reserve_fuses h2).trans (State_reserve_fuses h1)))

theorem Stream_admits_keepsFuses (s : State) {x : Stream} {opc : Nat} {h : Hdr} {v : Verdict}
    (hv : x.admits opc h = some v) : v.keepsFuses s := by
  cases v with
  | take t op ip rp =>
    simp only [Stream.admits] at hv
    repeat' split at hv
    all_goals simp at hv
  | _ => trivial

theorem State_tests_keepsFuses (s : State) (h : Hdr) (b : List Byte) (backlog : Nat) :
    (s.tests h b backlog).keepsFuses s := by
  unfold State.tests
  dsimp only
  split
  · trivial
  · split
    · next hv => exact Stream_admits_keepsFuses s hv
    · split
      · exact Verdict_keepsFuses_ite trivial (Verdict_keepsFuses_ite trivial trivial)
      · refine Verdict_keepsFuses_ite trivial (Verdict_keepsFuses_ite trivial ?_)
        split
        · trivial
        · exact State_resources_keepsFuses s _ h backlog

theorem State_answerFrame_fuses (s : State) (g : SegIn) {v : Verdict} (hv : v.keepsFuses s) :
    (s.answerFrame g v).fuses = s.fuses := by
  cases v with
  | take t op ip rp => exact (State_beginCommit_fuses t g op ip rp).trans hv
  | _ => simp [State.answerFrame]

@[simp] theorem State_notePort_fuses (g : SegIn) : (s.notePort g).fuses = s.fuses := by simp [State.notePort]

@[simp] theorem State_workFrame_fuses (s : State) (op : Nat) (g : SegIn) : (s.workFrame op g).fuses = s.fuses := by
  have h (t : State) (b : List Byte) : (t.answerFrame g (t.tests g.hdr b g.backlog)).fuses = t.fuses :=
    State_answerFrame_fuses t g (State_tests_keepsFuses t g.hdr b g.backlog)
  simp [State.workFrame, h]

@[simp] theorem State_dropRack_fuses (port : Nat) : (s.dropRack port).fuses = s.fuses := by simp [State.dropRack]
@[simp] theorem State_freeEntry_fuses (e : Entry) : (s.freeEntry e).fuses = s.fuses := by simp [State.freeEntry]
@[simp] theorem State_closeStream_fuses (n : Nat) : (s.closeStream n).fuses = s.fuses := by simp [State.closeStream]

@[simp] theorem State_releaseTo_fuses (stream rseq : Nat) : (s.releaseTo stream rseq).fuses = s.fuses := by
  simp [State.releaseTo]

@[simp] theorem State_resultAck_fuses (s : State) (op : Nat) (g : SegIn) {f : State → Nat → Nat → State}
    (hf : ∀ s n q, (f s n q).fuses = s.fuses) : (s.resultAck op g f).fuses = s.fuses := by
  simp [State.resultAck, hf]

/-! ### The life of a frame -/

@[simp] theorem State_makeReady_fuses (cseq : Nat) : (s.makeReady cseq).fuses = s.fuses := by
  simp only [State.makeReady]
  split <;> simp

@[simp] theorem State_failBind_fuses (cseq : Nat) (r : HaltRec) : (s.failBind cseq r).fuses = s.fuses := by
  simp [State.failBind]

@[simp] theorem State_moveProgram_fuses (cseq : Nat) : (s.moveProgram cseq).fuses = s.fuses := by
  simp [State.moveProgram]

@[simp] theorem State_bindFrame_fuses (e : Entry) (b : RunBody) : (s.bindFrame e b).fuses = s.fuses := by
  simp only [State.bindFrame]
  repeat' split
  all_goals simp

@[simp] theorem State_wakeFor_fuses (s : State) (e : Entry) : (s.wakeFor e).fuses = s.fuses := by
  refine foldl_fuses _ _ _ fun s k => ?_
  split <;> simp

@[simp] theorem State_runClusters_fuses (s : State) (e : Entry) : (s.runClusters e).fuses = s.fuses := by
  refine foldl_fuses _ _ _ fun s k => ?_
  split <;> simp

@[simp] theorem State_startFrame_fuses (s : State) (e : Entry) (ws : List (Nat × Nat × Nat)) :
    (s.startFrame e ws).fuses = s.fuses := by
  simp [State.startFrame, State.modCore, State.setCore]

@[simp] theorem State_dispatch_fuses (s : State) (e : Entry) (b : RunBody) : (s.dispatch e b).fuses = s.fuses := by
  simp only [State.dispatch]
  repeat' split
  all_goals simp

@[simp] theorem State_letRun_fuses (cseq : Nat) : (s.letRun cseq).fuses = s.fuses := by simp [State.letRun]

@[simp] theorem State_deliverInput_fuses (s : State) (e : Entry) (b : RunBody) : (s.deliverInput e b).fuses = s.fuses := by
  simp only [State.deliverInput]
  split <;> simp

@[simp] theorem State_stopAll_fuses (cseq : Nat) : (s.stopAll cseq).fuses = s.fuses :=
  foldl_fuses _ _ _ fun s k => State_modCore_fuses s k stopHere

@[simp] theorem State_doubtCore_fuses (k reason : Nat) : (s.doubtCore k reason).fuses = s.fuses := by
  simp [State.doubtCore]

@[simp] theorem State_haltRecord_fuses (k : Nat) (same : List Nat) : (s.haltRecord k same).fuses = s.fuses := by
  simp only [State.haltRecord]
  split <;> simp

@[simp] theorem State_endDone_fuses (e : Entry) (b : RunBody) : (s.endDone e b).fuses = s.fuses := by
  simp [State.endDone]

@[simp] theorem State_endHalted_fuses (e : Entry) (r : HaltRec) : (s.endHalted e r).fuses = s.fuses := by
  simp [State.endHalted]

@[simp] theorem State_queueSweeps_fuses (e : Entry) : (s.queueSweeps e).fuses = s.fuses := by simp [State.queueSweeps]

@[simp] theorem State_dualCheck_fuses (cseq : Nat) : (s.dualCheck cseq).fuses = s.fuses := by
  simp only [State.dualCheck]
  repeat' split
  all_goals simp

@[simp] theorem State_sendDigest_fuses (e : Entry) : (s.sendDigest e).fuses = s.fuses := by
  simp only [State.sendDigest]
  split <;> simp

@[simp] theorem State_complete_fuses (e : Entry) : (s.complete e).fuses = s.fuses := by
  simp only [State.complete]
  split <;> simp

@[simp] theorem State_resultWritten_fuses (e : Entry) : (s.resultWritten e).fuses = s.fuses := by
  simp only [State.resultWritten]
  split <;> simp

@[simp] theorem State_sendResult_fuses (e : Entry) (p : Nat) : (s.sendResult e p).fuses = s.fuses := by
  simp [State.sendResult]

@[simp] theorem State_transmit_fuses (s : State) (n : Nat) : (s.transmit n).fuses = s.fuses := by
  unfold State.transmit
  split
  · rfl
  · split
    · rfl
    · refine ite_fuses rfl ?_
      rw [State_modFold_fuses, State_sendResult_fuses, State_commitEntry_fuses]

@[simp] theorem State_resendAll_fuses (s : State) (l : List Entry) : (s.resendAll l).fuses = s.fuses := by
  induction l generalizing s with
  | nil => rfl
  | cons e r ih =>
    rw [State.resendAll, ih]
    split
    · rw [State_modFold_fuses, State_sendResult_fuses]
    · rfl

@[simp] theorem State_remirror_fuses (p : Parcel) (mirror : Bool) : (s.remirror p mirror).1.fuses = s.fuses := by
  simp only [State.remirror]
  repeat' split
  all_goals simp

@[simp] theorem State_countRepair_fuses : s.countRepair.fuses = s.fuses := by simp [State.countRepair]
@[simp] theorem State_countLost_fuses : s.countLost.fuses = s.fuses := by simp [State.countLost]

@[simp] theorem State_rewriteResult_fuses (e : Entry) : (s.rewriteResult e).fuses = s.fuses := by
  simp [State.rewriteResult]

@[simp] theorem State_parcelError_fuses (e : Entry) (input mirror both : Bool) :
    (s.parcelError e input mirror both).fuses = s.fuses := by
  simp [State.parcelError]

/-! ### BULK -/

@[simp] theorem State_reply_fuses (dest : Place) (bop session name : Nat) (pos : Option Nat) (status detail : Nat)
    (payload : List Byte) : (s.reply dest bop session name pos status detail payload).fuses = s.fuses := by
  simp only [State.reply]
  repeat' split
  all_goals simp

@[simp] theorem State_replyLater_fuses (l : List Nat) (name status detail : Nat) :
    (s.replyLater l name status detail).fuses = s.fuses := by
  simp [State.replyLater]

@[simp] theorem State_replyTo_fuses (b : BulkIn) (pos : Option Nat) (status detail : Nat) :
    (s.replyTo b pos status detail).fuses = s.fuses := by
  simp [State.replyTo]

@[simp] theorem State_replyHeader_fuses (b : BulkIn) : (s.replyHeader b).fuses = s.fuses := by
  simp [State.replyHeader]

@[simp] theorem State_replyNoSession_fuses (b : BulkIn) : (s.replyNoSession b).fuses = s.fuses := by
  simp [State.replyNoSession]

@[simp] theorem State_bulkFrame_fuses (s : State) (op : Nat) (b : BulkIn) {f : State → Nat → BHead → State}
    (hf : ∀ s t h, (f s t h).fuses = s.fuses) : (s.bulkFrame op b f).fuses = s.fuses := by
  simp only [State.bulkFrame]
  split
  · simp
  · split
    · rfl
    · split
      · simp
      · split
        · rfl
        · split
          · rfl
          · split
            · simp
            · split <;> simp [hf]

@[simp] theorem State_dropObj_fuses (tenant target name : Nat) : (s.dropObj tenant target name).fuses = s.fuses := by
  simp [State.dropObj]

@[simp] theorem State_openSession_fuses (b : BulkIn) (tenant : Nat) (h : BHead) :
    (s.openSession b tenant h).fuses = s.fuses := by
  simp only [State.openSession]
  split <;> simp

@[simp] theorem State_bulkOpen_fuses (b : BulkIn) (tenant : Nat) (h : BHead) :
    (s.bulkOpen b tenant h).fuses = s.fuses := by
  simp only [State.bulkOpen]
  split <;> simp

theorem State_onSession_fuses (s : State) (b : BulkIn) (tenant : Nat) (h : BHead) {f : Bulk → State}
    (hf : ∀ x, (f x).fuses = s.fuses) : (s.onSession b tenant h f).fuses = s.fuses := by
  simp only [State.onSession]
  split <;> simp [hf]

@[simp] theorem State_stage_fuses (x : Bulk) (pos : Nat) (data : List Byte) :
    (s.stage x pos data).fuses = s.fuses := by
  simp [State.stage]

@[simp] theorem State_mirrorCommit_fuses (target name : Nat) (place : List Nat) :
    (s.mirrorCommit target name place).fuses = s.fuses := by
  simp [State.mirrorCommit]

@[simp] theorem State_mirrorDone_fuses (port target name : Nat) :
    (s.mirrorDone port target name).fuses = s.fuses := by
  simp [State.mirrorDone]

@[simp] theorem State_mirrorBytes_fuses (target name pos : Nat) (data : List Byte) :
    (s.mirrorBytes target name pos data).fuses = s.fuses := by
  simp [State.mirrorBytes]

@[simp] theorem State_burst_fuses (s : State) (b : BulkIn) (tenant : Nat) (h : BHead) :
    (s.burst b tenant h).fuses = s.fuses :=
  State_onSession_fuses s b tenant h fun _ => by simp

@[simp] theorem State_closeBulk_fuses (x : Bulk) : (s.closeBulk x).fuses = s.fuses := by simp [State.closeBulk]

@[simp] theorem State_bulkIdle_fuses (session : Option Nat) (tenant target name : Nat) :
    (s.bulkIdle session tenant target name).fuses = s.fuses := by
  simp only [State.bulkIdle]
  repeat' split
  all_goals simp

/-! ### Vector rows -/

@[simp] theorem State_joinFlags_fuses (c : Core) (flags tag : Nat) : (s.joinFlags c flags tag).fuses = s.fuses := by
  simp only [State.joinFlags]
  split <;> simp

@[simp] theorem vecBody_keepsFuses (k : Nat) : KeepsFuses (vecBody k) := by
  intro s c f
  unfold vecBody
  split
  · rfl
  · exact Eff_gives_bind fun _ => by simp

@[simp] theorem State_vecRowCmd_fuses (s : State) (k : Nat) (ph : Sys2Proof.Phase) (vop : Nat) :
    (s.vecRowCmd k ph vop).fuses = s.fuses :=
  State_queued_fuses s (vecBody_keepsFuses k) k ph (isVec vop)

@[simp] theorem reduceBody_keepsFuses (k : Nat) : KeepsFuses (reduceBody k) := by
  intro s c f
  unfold reduceBody
  split
  · rfl
  · exact Eff_gives_bind fun _ => by simp

/-! ### Macro heads -/

@[simp] theorem State_startHead_fuses (k q : Nat) : (s.startHead k q).fuses = s.fuses := by
  simp only [State.startHead]
  repeat' split
  all_goals simp

@[simp] theorem State_timeoutWait_fuses (k q : Nat) : (s.timeoutWait k q).fuses = s.fuses := by
  simp only [State.timeoutWait]
  repeat' split
  all_goals simp

/-! ### The Drover -/

@[simp] theorem State_bareStep_fuses (d w : Nat) : (s.bareStep d w).fuses = s.fuses := by
  simp only [State.bareStep]
  split <;> simp

@[simp] theorem State_ownerStep_fuses (c : Core) (r : Red) : (s.ownerStep c r).fuses = s.fuses := by
  simp only [State.ownerStep]
  repeat' split
  all_goals simp

@[simp] theorem matmulBody_keepsFuses (k : Nat) : KeepsFuses (matmulBody k) := by
  intro s c f
  unfold matmulBody
  split
  · simp
  · split
    · trivial
    · simp

@[simp] theorem walkBody_keepsFuses (walk : QEntry → Placement → List DCmd) : KeepsFuses (walkBody walk) := by
  intro s c f
  unfold walkBody
  split
  · rfl
  · split
    · trivial
    · rfl

@[simp] theorem moveBody_keepsFuses (k : Nat) : KeepsFuses (moveBody k) := by
  intro s c f
  unfold moveBody
  dsimp only
  split <;> simp

@[simp] theorem State_penLoad_fuses (k : Nat) (tm : Timing) : (s.penLoad k tm).fuses = s.fuses := by
  simp only [State.penLoad]
  repeat' split
  all_goals simp

@[simp] theorem State_addEnergy_fuses (k pj : Nat) : (s.addEnergy k pj).fuses = s.fuses := by simp [State.addEnergy]

@[simp] theorem State_powerGate_fuses (k : Nat) (ms : List Member) (pj : Nat) (tm : PassTiming) :
    (s.powerGate k ms pj tm).1.fuses = s.fuses := by
  simp only [State.powerGate]
  repeat' split
  all_goals simp

theorem State_startPass_fuses (s : State) (k : Nat) (f : Flight) (g : Geo) (ms : List Member) (mt m u j slot mode half : Nat)
    (kbs : List Nat) (rest : List DCmd) (tm : PassTiming) :
    (s.startPass k f g ms mt m u j slot mode half kbs rest tm).gives (fun t => t.fuses = s.fuses) :=
  Eff_gives_bind fun _ => Eff_gives_bind fun _ => by simp

@[simp] theorem State_fencePass_fuses (k : Nat) (f : Flight) (e p : Nat) : (s.fencePass k f e p).fuses = s.fuses := by
  simp [State.fencePass]

@[simp] theorem State_issuePass_fuses (s : State) (k : Nat) (tm : PassTiming) : (s.issuePass k tm).fuses = s.fuses := by
  simp only [State.issuePass]
  split
  · rfl
  · split
    · next f ms mt m u j slot mode half kbs rest _ =>
      split
      · simp
      · next pl _ =>
        split
        · rfl
        · simp
        · simp
        · have hg := State_powerGate_fuses s k ms (passEnergy pl (f.geo pl k).x.fmt (f.geo pl k).wfmt ms.length) tm
          split
          · next h => simpa [h] using hg
          · next s1 h =>
            have hp := State_startPass_fuses s1 k f (f.geo pl k) ms mt m u j slot mode half kbs rest tm
            rw [h] at hg
            split
            · rfl
            · simpa using hg
            · next h =>
              rw [h] at hp
              simpa using hp.trans hg
    · rfl

@[simp] theorem State_completePass_fuses (k e : Nat) (errs : List ArrayErr) :
    (s.completePass k e errs).fuses = s.fuses := by
  simp only [State.completePass]
  repeat' split
  all_goals simp

theorem State_rowWrite_fuses (s : State) (k : Nat) (f : Flight) (e p kb j row : Nat) (clear : Bool) :
    (s.rowWrite k f e p kb j row clear).gives (fun t => t.fuses = s.fuses) :=
  Eff_gives_ite trivial (Eff_gives_ite trivial (Eff_gives_ite trivial (Eff_gives_bind fun _ =>
    Eff_gives_ite trivial (Eff_gives_ite rfl rfl))))

theorem State_castTile_fuses (s : State) (k : Nat) (f : Flight) (v : Mov) (ls : List (Nat × Nat × List Byte × Nat))
    (last : Bool) : (s.castTile k f v ls last).gives (fun t => t.fuses = s.fuses) := by
  unfold State.castTile
  dsimp only
  split
  · trivial
  · split
    · split
      · next h => simpa using landAll_fuses h
      · trivial
    · split <;> simp

theorem State_fieldStep_fuses (s : State) (k : Nat) (f : Flight) (r0 r1 c0 c1 : Nat) (last : Bool) :
    (s.fieldStep k f r0 r1 c0 c1 last).gives (fun t => t.fuses = s.fuses) := by
  refine Eff_gives_bind fun q => ?_
  dsimp only
  split
  · simpa using State_castTile_fuses (s.setCore k q.1) k f (f.ent.mov 2) q.2 last
  · split
    · split <;> simp
    · exact Eff_gives_bind fun _ => by simp

@[simp] theorem State_moveField_fuses (s : State) (k coalesced : Nat) (tm : Timing) :
    (s.moveField k coalesced tm).fuses = s.fuses := by
  simp only [State.moveField]
  split
  · rfl
  · split
    · split
      · rfl
      · simp
      · next hr =>
        have h : _ = s.fuses := (Eff_gives_elim hr (State_fieldStep_fuses _ _ _ _ _ _ _ _)).trans (State_enter_fuses s k tm)
        split <;> simp [h]
    · rfl

@[simp] theorem State_finishFlight_fuses (k : Nat) (f : Flight) : (s.finishFlight k f).fuses = s.fuses := by
  simp only [State.finishFlight]
  split <;> simp

/-! ### Installing models -/

@[simp] theorem State_dropObjects_fuses (tenant name : Nat) : (s.dropObjects tenant name).fuses = s.fuses := by
  simp [State.dropObjects]

@[simp] theorem State_refuseStaging_fuses (b : BulkIn) (tenant name status detail : Nat) :
    (s.refuseStaging b tenant name status detail).fuses = s.fuses := by
  simp [State.refuseStaging]

@[simp] theorem State_refuseOpenOffset_fuses (b : BulkIn) (tenant name : Nat) :
    (s.refuseOpenOffset b tenant name).fuses = s.fuses := by
  simp [State.refuseOpenOffset]

@[simp] theorem State_claim_fuses (b : BulkIn) (tenant : Nat) (pl : Placement) (late : Option (Nat × Nat)) :
    (s.claim b tenant pl late).fuses = s.fuses := by
  simp [State.claim]

@[simp] theorem State_stageImage_fuses (s : State) (b : BulkIn) (tenant : Nat) (o : Obj) (i : CommitIn) (g : Img) (f : Fmt)
    (tab reg : Option Obj) (recs : List (Nat × Nat)) : (s.stageImage b tenant o i g f tab reg recs).fuses = s.fuses := by
  unfold State.stageImage
  generalize placementOf tenant o g f i _ tab reg recs = pl
  refine ite_fuses (State_refuseStaging_fuses s b tenant o.name 8 0xC) ?_
  split
  · exact State_refuseStaging_fuses ..
  · split
    · rw [State_replyTo_fuses, State_dropObjects_fuses]
    · exact State_claim_fuses ..

@[simp] theorem State_keepKey_fuses (wkey : Nat) : (s.keepKey wkey).fuses = s.fuses := by simp [State.keepKey]

@[simp] theorem State_commitStaging_fuses (s : State) (b : BulkIn) (tenant : Nat) (o : Obj) (i : CommitIn) :
    (s.commitStaging b tenant o i).fuses = s.fuses := by
  simp only [State.commitStaging]
  generalize s.unwraps (imgOf o.data).wkey i.wkeyOk = known
  have hk : (if known = true then s.keepKey (imgOf o.data).wkey else s).fuses = s.fuses := by simp
  generalize (if known = true then s.keepKey (imgOf o.data).wkey else s) = t at hk
  rw [← hk]
  refine ite_fuses (by simp) (ite_fuses (by simp) (ite_fuses (by simp) ?_))
  split
  · simp
  · refine ite_fuses (by simp) (ite_fuses (by simp) ?_)
    split
    · simp
    · simp
    · refine ite_fuses (by simp) (ite_fuses (by simp) ?_)
      split
      · simp
      · simp
      · refine ite_fuses (by simp) (ite_fuses (by simp) ?_)
        split <;> simp

@[simp] theorem State_countRefused_fuses (mask : Nat) : (s.countRefused mask).fuses = s.fuses := by
  simp [State.countRefused]

@[simp] theorem State_commitRoutine_fuses (b : BulkIn) (tenant : Nat) (o : Obj) (i : CommitIn) :
    (s.commitRoutine b tenant o i).fuses = s.fuses := by
  simp only [State.commitRoutine]
  repeat' split
  all_goals simp

@[simp] theorem State_countCommit_fuses (old new : List Version) : (s.countCommit old new).fuses = s.fuses := by
  simp [State.countCommit]

@[simp] theorem State_routineCommit_fuses (tenant name : Nat) : (s.routineCommit tenant name).fuses = s.fuses := by
  simp only [State.routineCommit]
  repeat' split
  all_goals simp

@[simp] theorem State_commitPatch_fuses (b : BulkIn) (tenant : Nat) (o : Obj) (i : CommitIn) :
    (s.commitPatch b tenant o i).fuses = s.fuses := by
  simp only [State.commitPatch]
  repeat' split
  all_goals simp

@[simp] theorem State_commitWaiting_fuses (b : BulkIn) (o : Obj) : (s.commitWaiting b o).fuses = s.fuses := by
  simp [State.commitWaiting]

@[simp] theorem State_bulkCommit_fuses (b : BulkIn) (tenant : Nat) (h : BHead) (i : CommitIn) :
    (s.bulkCommit b tenant h i).fuses = s.fuses := by
  simp only [State.bulkCommit]
  repeat' split
  all_goals simp

@[simp] theorem State_setThresholds_fuses (keys : List (Nat × Nat × Nat)) :
    (s.setThresholds keys).fuses = s.fuses := by
  simp [State.setThresholds]

@[simp] theorem State_removeObj_fuses (b : BulkIn) (tenant : Nat) (h : BHead) :
    (s.removeObj b tenant h).fuses = s.fuses := by
  simp only [State.removeObj]
  repeat' split
  all_goals simp

@[simp] theorem State_retirePlacement_fuses (handle : Nat) : (s.retirePlacement handle).fuses = s.fuses := by
  simp only [State.retirePlacement]
  repeat' split
  all_goals simp

@[simp] theorem State_freePlacements_fuses : s.freePlacements.fuses = s.fuses := by simp [State.freePlacements]

@[simp] theorem State_planeEmpty_fuses (k e p : Nat) : (s.planeEmpty k e p).fuses = s.fuses := by
  simp only [State.planeEmpty]
  split <;> simp

/-! ### Losses of units -/

@[simp] theorem State_uncontrolled_fuses : s.uncontrolled.fuses = s.fuses := by simp [State.uncontrolled]

@[simp] theorem State_hwEnd_fuses (cseq : Nat) : (s.hwEnd cseq).fuses = s.fuses := by
  simp only [State.hwEnd]
  split <;> simp

@[simp] theorem State_hwEndOn_fuses (p : Nat → Bool) : (s.hwEndOn p).fuses = s.fuses := by simp [State.hwEndOn]

@[simp] theorem State_enterQuiet_fuses (cause : Nat) : (s.enterQuiet cause).fuses = s.fuses := by
  simp [State.enterQuiet]

@[simp] theorem State_parcelGone_fuses (cseq st : Nat) (input : Bool) :
    (s.parcelGone cseq st input).fuses = s.fuses := by
  simp only [State.parcelGone]
  split <;> simp

@[simp] theorem State_rehomeGold_fuses (st : Nat) : (s.rehomeGold st).fuses = s.fuses := by simp [State.rehomeGold]
@[simp] theorem State_shrinkPool_fuses : s.shrinkPool.fuses = s.fuses := by simp [State.shrinkPool]
@[simp] theorem State_loseStack_fuses (st : Nat) : (s.loseStack st).fuses = s.fuses := by simp [State.loseStack]
@[simp] theorem State_loseDie_fuses (d : Nat) : (s.loseDie d).fuses = s.fuses := by simp [State.loseDie]

/-! ### Spares -/

@[simp] theorem State_loseGold_fuses (l : List GoldLoss) : (s.loseGold l).fuses = s.fuses := by simp [State.loseGold]

@[simp] theorem State_modArr_fuses (k : Nat) (f : ArrayRegs → ArrayRegs) : (s.modArr k f).fuses = s.fuses := by
  simp [State.modArr]

@[simp] theorem State_setRows_fuses (x : Nat × Nat × Nat) (rows : Tbl Nat) : (s.setRows x rows).fuses = s.fuses := by
  simp [State.setRows]

@[simp] theorem State_liveAgain_fuses (x : Nat × Nat × Nat) : (s.liveAgain x).fuses = s.fuses := by
  simp [State.liveAgain]

@[simp] theorem State_goldGone_fuses (x : Nat × Nat × Nat) : (s.goldGone x).fuses = s.fuses := by
  simp [State.goldGone]

@[simp] theorem State_countReprogram_fuses (k : Nat) : (s.countReprogram k).fuses = s.fuses := by
  simp [State.countReprogram]

@[simp] theorem State_countTransientPlane_fuses (k : Nat) : (s.countTransientPlane k).fuses = s.fuses := by
  simp [State.countTransientPlane]

@[simp] theorem State_refill_fuses (x : Nat × Nat × Nat) : (s.refill x).fuses = s.fuses := by simp [State.refill]

@[simp] theorem State_rewritePlane_fuses (x : Nat × Nat × Nat) : (s.rewritePlane x).fuses = s.fuses := by
  simp [State.rewritePlane]

@[simp] theorem State_toRetest_fuses (lv : Nat) (t : Target) : (s.toRetest lv t).fuses = s.fuses := by
  simp [State.toRetest]

@[simp] theorem State_endOnUnit_fuses (lv k e : Nat) : (s.endOnUnit lv k e).fuses = s.fuses := by
  simp only [State.endOnUnit]
  split <;> simp

@[simp] theorem State_loseCluster_fuses (k : Nat) : (s.loseCluster k).fuses = s.fuses := by simp [State.loseCluster]

@[simp] theorem State_beginSubst_fuses (s : State) (n lv k e : Nat) : (s.beginSubst n lv k e).fuses = s.fuses := by
  induction n generalizing s lv e with
  | zero => rfl
  | succ n ih => simp [State.beginSubst, ih]

@[simp] theorem State_fenceEngine_fuses (k e : Nat) : (s.fenceEngine k e).fuses = s.fuses := by
  simp [State.fenceEngine]

@[simp] theorem State_beginColumns_fuses (k e : Nat) (slots : List Nat) :
    (s.beginColumns k e slots).fuses = s.fuses := by
  simp [State.beginColumns]

@[simp] theorem State_countSweepFail_fuses (k : Nat) : (s.countSweepFail k).fuses = s.fuses := by
  simp [State.countSweepFail]

/-! ### Faults -/

@[simp] theorem State_haltWaiting_fuses (path : Nat) (cores : List Nat) :
    (s.haltWaiting path cores).fuses = s.fuses := by
  simp [State.haltWaiting]

@[simp] theorem State_doubtPath_fuses (path unit : Nat) : (s.doubtPath path unit).fuses = s.fuses := by
  simp only [State.doubtPath]
  split <;> simp

@[simp] theorem State_haltReader_fuses (core : Option Nat) (detail : Nat) :
    (s.haltReader core detail).fuses = s.fuses := by
  simp only [State.haltReader]
  split <;> simp

@[simp] theorem State_badRs_fuses (die bank line : Nat) : (s.badRs die bank line).fuses = s.fuses := by
  simp [State.badRs]

@[simp] theorem State_badRd_fuses (die : Nat) (mirrorBad : Bool) : (s.badRd die mirrorBad).fuses = s.fuses := by
  simp [State.badRd]

@[simp] theorem State_badRm_fuses (h bank : Nat) (mirrorBad : Bool) : (s.badRm h bank mirrorBad).fuses = s.fuses := by
  simp [State.badRm]

@[simp] theorem State_badWord_fuses (die bank line : Nat) (mirrorBad : Bool) (core : Option Nat) :
    (s.badWord die bank line mirrorBad core).fuses = s.fuses := by
  simp only [State.badWord]
  split <;> simp

@[simp] theorem State_dsmEcc_fuses (die bank line : Nat) (dbl mirrorBad : Bool) (core : Option Nat) :
    (s.dsmEcc die bank line dbl mirrorBad core).fuses = s.fuses := by
  simp [State.dsmEcc]

@[simp] theorem State_yokeTakeover_fuses (h : Nat) : (s.yokeTakeover h).fuses = s.fuses := by
  simp [State.yokeTakeover]

@[simp] theorem State_resendSent_fuses : s.resendSent.fuses = s.fuses := by simp [State.resendSent]
@[simp] theorem State_hubFail_fuses (h : Nat) : (s.hubFail h).fuses = s.fuses := by simp [State.hubFail]

@[simp] theorem State_selfCheckFail_fuses (h : Nat) : (s.selfCheckFail h).fuses = s.fuses := by
  simp [State.selfCheckFail]

@[simp] theorem State_heartbeat_fuses (h : Nat) (bridge relay : Bool) :
    (s.heartbeat h bridge relay).fuses = s.fuses := by
  simp [State.heartbeat]

@[simp] theorem State_heartbeatLoss_fuses (h : Nat) : (s.heartbeatLoss h).fuses = s.fuses := by
  simp [State.heartbeatLoss]

@[simp] theorem State_bridgeBack_fuses (b : Nat) (logsEqual : Bool) : (s.bridgeBack b logsEqual).fuses = s.fuses := by
  simp [State.bridgeBack]

@[simp] theorem State_doubtMaster_fuses (die master : Nat) (core : Option Nat) :
    (s.doubtMaster die master core).fuses = s.fuses := by
  simp only [State.doubtMaster]
  repeat' split
  all_goals simp

@[simp] theorem State_denyAccess_fuses (die master bank line : Nat) (write : Bool) (core : Option Nat) :
    (s.denyAccess die master bank line write core).fuses = s.fuses := by
  simp [State.denyAccess]

/-! ### The Yoke -/

@[simp] theorem State_balance_fuses (t : TickPower) (n : TickCounts) (parts : List Nat) :
    (s.balance t n parts).fuses = s.fuses := by
  simp [State.balance]

@[simp] theorem State_placeBallast_fuses (d : Nat) : (s.placeBallast d).fuses = s.fuses := by
  simp [State.placeBallast]

@[simp] theorem State_runOrIdle_fuses (d c : Nat) : (s.runOrIdle d c).fuses = s.fuses := by simp [State.runOrIdle]

@[simp] theorem State_ballastFails_fuses (l : List (Nat × Nat × Nat)) : (s.ballastFails l).fuses = s.fuses := by
  simp [State.ballastFails]

@[simp] theorem State_copyYoke_fuses : s.copyYoke.fuses = s.fuses := by simp [State.copyYoke]
@[simp] theorem State_tickEnds_fuses : s.tickEnds.fuses = s.fuses := by simp [State.tickEnds]

@[simp] theorem State_tick_fuses (t : TickPower) (n : TickCounts) : (s.tick t n).fuses = s.fuses := by
  simp [State.tick]

@[simp] theorem State_voltAlarm_fuses (d : Nat) : (s.voltAlarm d).fuses = s.fuses := by
  simp [State.voltAlarm, State.modCl]

@[simp] theorem State_railRead_fuses (d volts : Nat) : (s.railRead d volts).fuses = s.fuses := by
  simp [State.railRead]

@[simp] theorem State_calibrate_fuses (i mw : Nat) : (s.calibrate i mw).fuses = s.fuses := by simp [State.calibrate]
@[simp] theorem State_checkDraw_fuses : s.checkDraw.fuses = s.fuses := by simp [State.checkDraw]

@[simp] theorem State_avs_fuses (group volts amps : Nat) : (s.avs group volts amps).fuses = s.fuses := by
  simp [State.avs]

@[simp] theorem State_newWindow_fuses (d amps : Nat) : (s.newWindow d amps).fuses = s.fuses := by
  simp [State.newWindow]

@[simp] theorem State_tempReport_fuses (die temp : Nat) : (s.tempReport die temp).fuses = s.fuses := by
  simp [State.tempReport]

@[simp] theorem State_stopClocks_fuses : s.stopClocks.fuses = s.fuses := by simp [State.stopClocks]

@[simp] theorem State_clockLoss_fuses (d c : Nat) : (s.clockLoss d c).fuses = s.fuses := by
  simp only [State.clockLoss]
  repeat' split
  all_goals simp

@[simp] theorem State_replaceCluster_fuses (d c : Nat) : (s.replaceCluster d c).fuses = s.fuses := by
  simp only [State.replaceCluster]
  split <;> simp

@[simp] theorem State_sleepDie_fuses (d : Nat) : (s.sleepDie d).fuses = s.fuses := by simp [State.sleepDie]

@[simp] theorem State_doze_fuses (d c : Nat) : (s.doze d c).fuses = s.fuses := by
  simp only [State.doze]
  split <;> simp

@[simp] theorem State_clusterOff_fuses (d c : Nat) : (s.clusterOff d c).fuses = s.fuses := by
  simp only [State.clusterOff]
  split <;> simp

@[simp] theorem State_wakeDone_fuses (d c : Nat) : (s.wakeDone d c).fuses = s.fuses := by
  simp only [State.wakeDone]
  repeat' split
  all_goals simp

/-! ### The Grazer -/

@[simp] theorem State_modTarget_fuses (t : Target) (f : Core → Core) : (s.modTarget t f).fuses = s.fuses :=
  foldl_fuses _ _ _ fun s k => State_modCore_fuses s k f

@[simp] theorem State_sliceStart_fuses (t : Target) : (s.sliceStart t).fuses = s.fuses := by simp [State.sliceStart]

@[simp] theorem State_sweepFails_fuses (k e p : Nat) : (s.sweepFails k e p).fuses = s.fuses := by
  simp [State.sweepFails]

@[simp] theorem State_sweep_fuses (k e : Nat) (vectorsOk : Bool) : (s.sweep k e vectorsOk).fuses = s.fuses := by
  simp [State.sweep]

@[simp] theorem State_unitEffect_fuses (t : Target) (p : Nat) : (s.unitEffect t p).fuses = s.fuses := by
  simp only [State.unitEffect]
  repeat' split
  all_goals simp

@[simp] theorem State_unitDone_fuses (x : Slice) (n : Nat) (good : Bool) (p : Nat) :
    (s.unitDone x n good p).fuses = s.fuses := by
  simp [State.unitDone]

@[simp] theorem State_sliceUnit_fuses (t : Target) (ok : Bool) (row : Nat) :
    (s.sliceUnit t ok row).fuses = s.fuses := by
  simp only [State.sliceUnit]
  repeat' split
  all_goals simp

@[simp] theorem State_leavePool_fuses (lv : Nat) (t : Target) : (s.leavePool lv t).fuses = s.fuses := by
  simp [State.leavePool]

@[simp] theorem State_spareFails_fuses (lv : Nat) (t : Target) : (s.spareFails lv t).fuses = s.fuses := by
  simp [State.spareFails]

@[simp] theorem State_rowLost_fuses (t : Target) (row : Nat) : (s.rowLost t row).fuses = s.fuses := by
  simp only [State.rowLost]
  repeat' split
  all_goals simp

@[simp] theorem State_mend_fuses (t : Target) : (s.mend t).fuses = s.fuses := by simp [State.mend]

@[simp] theorem State_softRepair_fuses (t : Target) (row : Nat) : (s.softRepair t row).fuses = s.fuses := by
  simp [State.softRepair]

@[simp] theorem State_rowsFail_fuses (t : Target) (rows : List Nat) : (s.rowsFail t rows).fuses = s.fuses := by
  simp [State.rowsFail]

@[simp] theorem State_sliceDoubt_fuses (x : Slice) : (s.sliceDoubt x).fuses = s.fuses := by
  simp only [State.sliceDoubt]
  repeat' split
  all_goals simp

@[simp] theorem State_coverage_fuses : s.coverage.fuses = s.fuses := by simp [State.coverage]
@[simp] theorem State_endRound_fuses : s.endRound.fuses = s.fuses := by simp [State.endRound]
@[simp] theorem State_spareRests_fuses (t : Target) : (s.spareRests t).fuses = s.fuses := by simp [State.spareRests]

@[simp] theorem State_closeSlice_fuses (x : Slice) (result : Nat) : (s.closeSlice x result).fuses = s.fuses := by
  simp [State.closeSlice]

@[simp] theorem State_failSlice_fuses (x : Slice) : (s.failSlice x).fuses = s.fuses := by simp [State.failSlice]

@[simp] theorem State_sliceEnd_fuses (t : Target) : (s.sliceEnd t).fuses = s.fuses := by
  simp only [State.sliceEnd]
  split <;> simp

@[simp] theorem State_sliceStop_fuses (t : Target) : (s.sliceStop t).fuses = s.fuses := by
  simp only [State.sliceStop]
  split <;> simp

@[simp] theorem State_marched_fuses (t : Target) (transparent : Bool) :
    (s.marched t transparent).fuses = s.fuses := by
  simp [State.marched]

@[simp] theorem State_marchEnd_fuses (t : Target) (badRows : List Nat) : (s.marchEnd t badRows).fuses = s.fuses := by
  simp only [State.marchEnd]
  split <;> simp

/-! ### Repairs -/

@[simp] theorem State_noteCells_fuses (x : Nat × Nat × Nat) (cells : List (Nat × Nat × Bool)) :
    (s.noteCells x cells).fuses = s.fuses := by
  simp [State.noteCells]

@[simp] theorem State_yieldSlices_fuses (k e : Nat) : (s.yieldSlices k e).fuses = s.fuses := by
  simp [State.yieldSlices]

@[simp] theorem State_settled_fuses (x : Nat × Nat × Nat) : (s.settled x).fuses = s.fuses := by simp [State.settled]

@[simp] theorem State_vectorsFail_fuses (x : Nat × Nat × Nat) : (s.vectorsFail x).fuses = s.fuses := by
  simp [State.vectorsFail]

@[simp] theorem State_diagnoseBare_fuses (x : Nat × Nat × Nat) (sweepOk : Bool) :
    (s.diagnoseBare x sweepOk).fuses = s.fuses := by
  simp [State.diagnoseBare]

@[simp] theorem State_diagnose_fuses (x : Nat × Nat × Nat) (sweepOk : Bool) :
    (s.diagnose x sweepOk).fuses = s.fuses := by
  simp [State.diagnose]

@[simp] theorem State_dropPatches_fuses (x : Nat × Nat × Nat) : (s.dropPatches x).fuses = s.fuses := by
  simp [State.dropPatches]

@[simp] theorem State_rewriteEngine_fuses (k e : Nat) : (s.rewriteEngine k e).fuses = s.fuses := by
  simp [State.rewriteEngine]

@[simp] theorem State_countSubst_fuses (lv us : Nat) : (s.countSubst lv us).fuses = s.fuses := by
  simp [State.countSubst]

@[simp] theorem State_endSubst_fuses (u : FaultUnit) : (s.endSubst u).fuses = s.fuses := by simp [State.endSubst]

@[simp] theorem State_columnSubst_fuses (k e slot us : Nat) (lost : List GoldLoss) :
    (s.columnSubst k e slot us lost).fuses = s.fuses := by
  simp [State.columnSubst]

@[simp] theorem State_dynTest_fuses (k e : Nat) : (s.dynTest k e).fuses = s.fuses := by simp [State.dynTest]

@[simp] theorem State_patchedPlane_fuses (x : Nat × Nat × Nat) : (s.patchedPlane x).fuses = s.fuses := by
  simp [State.patchedPlane]

@[simp] theorem State_applyPatch_fuses (p : Placement) : (s.applyPatch p).fuses = s.fuses := by
  simp [State.applyPatch]

@[simp] theorem State_redirect_fuses (e : Entry) (h : Nat) (q : Placement) : (s.redirect e h q).fuses = s.fuses := by
  simp [State.redirect]

@[simp] theorem State_fenceExpired_fuses (k : Nat) : (s.fenceExpired k).fuses = s.fuses := by
  simp only [State.fenceExpired]
  repeat' split
  all_goals simp

@[simp] theorem State_renewCore_fuses (k : Nat) : (s.renewCore k).fuses = s.fuses := by simp [State.renewCore]

@[simp] theorem State_takeSpare_fuses (u : FaultUnit) : (s.takeSpare u).fuses = s.fuses := by
  simp only [State.takeSpare]
  repeat' split
  all_goals simp

@[simp] theorem State_dropSpare_fuses (u : FaultUnit) : (s.dropSpare u).fuses = s.fuses := by
  simp only [State.dropSpare]
  split <;> simp

@[simp] theorem State_endWithin_fuses (u : FaultUnit) : (s.endWithin u).fuses = s.fuses := by simp [State.endWithin]

@[simp] theorem State_substDone_fuses (u : FaultUnit) (us : Nat) (verifyOk : Bool) (lost : List GoldLoss) :
    (s.substDone u us verifyOk lost).fuses = s.fuses := by
  simp [State.substDone]

@[simp] theorem State_countTransient_fuses : s.countTransient.fuses = s.fuses := by simp [State.countTransient]
@[simp] theorem State_clearDoubt_fuses (k : Nat) : (s.clearDoubt k).fuses = s.fuses := by simp [State.clearDoubt]

@[simp] theorem State_diagnosed_fuses (k : Nat) (faulty : Bool) : (s.diagnosed k faulty).fuses = s.fuses := by
  simp [State.diagnosed]

/-! ### Starts and the life of the package -/

@[simp] theorem State_abandon_fuses (a : Activity) : (s.abandon a).fuses = s.fuses := by simp [State.abandon]
@[simp] theorem State_wipe_fuses : s.wipe.fuses = s.fuses := by simp [State.wipe]
@[simp] theorem State_zeroisePlanes_fuses : s.zeroisePlanes.fuses = s.fuses := by simp [State.zeroisePlanes]
@[simp] theorem State_wakeDozing_fuses : s.wakeDozing.fuses = s.fuses := by simp [State.wakeDozing]
@[simp] theorem State_tamper_fuses (source : Nat) : (s.tamper source).fuses = s.fuses := by simp [State.tamper]
@[simp] theorem State_checkMod_fuses (n : Nat) : (s.checkMod n).fuses = s.fuses := by simp [State.checkMod]
@[simp] theorem State_checkMods_fuses : s.checkMods.fuses = s.fuses := by simp [State.checkMods]

@[simp] theorem State_moduleAt_fuses (n power : Nat) : (s.moduleAt n power).fuses = s.fuses := by
  simp [State.moduleAt]

@[simp] theorem State_linkTrained_fuses (n : Nat) (mka : Bool) : (s.linkTrained n mka).fuses = s.fuses := by
  simp [State.linkTrained]

@[simp] theorem State_startRow_fuses (x : Target × Nat) : (s.startRow x).fuses = s.fuses := by simp [State.startRow]

@[simp] theorem State_startColumn_fuses (x : Nat × Nat × Nat × Nat × Nat) : (s.startColumn x).fuses = s.fuses := by
  simp [State.startColumn]

@[simp] theorem State_mapClusters_fuses (d : Nat) : (s.mapClusters d).fuses = s.fuses := by simp [State.mapClusters]

@[simp] theorem State_mapCore_fuses (b : Nat × Nat × Nat × Nat × Nat) : (s.mapCore b).fuses = s.fuses := by
  simp only [State.mapCore]
  split <;> simp

@[simp] theorem State_mapEngine_fuses (b : Nat × Nat × Nat × Nat × Nat) : (s.mapEngine b).fuses = s.fuses := by
  simp only [State.mapEngine]
  split <;> simp

@[simp] theorem State_mapColumns_fuses (b : Nat × Nat × Nat × Nat × Nat) : (s.mapColumns b).fuses = s.fuses := by
  simp only [State.mapColumns]
  repeat' split
  all_goals simp

@[simp] theorem State_startCluster_fuses (d c : Nat) : (s.startCluster d c).fuses = s.fuses := by
  simp [State.startCluster]

@[simp] theorem State_assign_fuses (i : StartIn) : (s.assign i).fuses = s.fuses := by simp [State.assign]
@[simp] theorem State_coldBase_fuses (i : StartIn) : (s.coldBase i).fuses = s.fuses := by simp [State.coldBase]
@[simp] theorem State_stop_fuses (why : Nat) : (s.stop why).fuses = s.fuses := by simp [State.stop]
@[simp] theorem State_boot_fuses (n : Nat) : (s.boot n).fuses = s.fuses := by simp [State.boot]
@[simp] theorem State_identity_fuses (i : StartIn) : (s.identity i).fuses = s.fuses := by simp [State.identity]
@[simp] theorem State_units_fuses (i : StartIn) : (s.units i).fuses = s.fuses := by simp [State.units]
@[simp] theorem State_settle'_fuses : s.settle'.fuses = s.fuses := by simp [State.settle']

@[simp] theorem State_inForce_fuses (n : Nat) (p : ProfSlot) : (s.inForce n p).fuses = s.fuses := by
  simp [State.inForce]

@[simp] theorem State_startWith_fuses (i : StartIn) : (s.startWith i).fuses = s.fuses := by
  simp only [State.startWith]
  split <;> simp

@[simp] theorem State_coldStart_fuses (i : StartIn) : (s.coldStart i).fuses = s.fuses := by
  simp only [State.coldStart]
  repeat' split
  all_goals simp

@[simp] theorem State_dropEntry_fuses (e : Entry) : (s.dropEntry e).fuses = s.fuses := by simp [State.dropEntry]
@[simp] theorem State_entryGone_fuses (e : Entry) : (s.entryGone e).fuses = s.fuses := by simp [State.entryGone]

@[simp] theorem State_losesEntries_fuses (n : Nat) (s : State) : (State.losesEntries n s).fuses = s.fuses := by
  induction n generalizing s with
  | zero => rfl
  | succ n ih =>
    rw [State.losesEntries, ih]
    split <;> simp

@[simp] theorem State_compareLogs_fuses : s.compareLogs.fuses = s.fuses := by simp [State.compareLogs]
@[simp] theorem State_beginWarm_fuses : s.beginWarm.fuses = s.fuses := by simp [State.beginWarm]

@[simp] theorem State_warmBoot_fuses : s.warmBoot.fuses = s.fuses := by
  simp only [State.warmBoot]
  split <;> simp

@[simp] theorem State_takeProfile_fuses (n : Nat) (p : ProfSlot) : (s.takeProfile n p).fuses = s.fuses := by
  simp [State.takeProfile]

@[simp] theorem State_warmProfile_fuses : s.warmProfile.fuses = s.fuses := by
  simp only [State.warmProfile]
  split <;> simp

@[simp] theorem State_warmDoze_fuses : s.warmDoze.fuses = s.fuses := by simp [State.warmDoze, State.modCl]

@[simp] theorem State_endActivity_fuses (a : Activity) : (s.endActivity a).fuses = s.fuses := by
  simp [State.endActivity]

@[simp] theorem State_profileSwitch_fuses : s.profileSwitch.fuses = s.fuses := by
  simp only [State.profileSwitch]
  repeat' split
  all_goals simp

@[simp] theorem State_firmwareActivation_fuses : s.firmwareActivation.fuses = s.fuses := by
  simp only [State.firmwareActivation]
  split <;> simp

@[simp] theorem State_maintDefer_fuses (id : Nat) : (s.maintDefer id).fuses = s.fuses := by
  simp only [State.maintDefer]
  repeat' split
  all_goals simp

@[simp] theorem State_scan_fuses (tap ir drIn : Nat) : (s.scan tap ir drIn).fuses = s.fuses := by
  simp only [State.scan]
  split <;> simp

/-! ### Status registers and test access -/

@[simp] theorem State_readEffect_fuses (b : Block) (i : Nat) : (s.readEffect b i).fuses = s.fuses := by
  simp only [State.readEffect]
  split <;> simp

@[simp] theorem State_readWords_fuses (s : State) (l : List (Block × Nat)) : (s.readWords l).1.fuses = s.fuses := by
  induction l generalizing s with
  | nil => rfl
  | cons x r ih => exact (ih _).trans (State_readEffect_fuses s x.1 x.2)

@[simp] theorem State_clearAt_fuses (b : Block) (i m : Nat) : (s.clearAt b i m).fuses = s.fuses := by
  simp only [State.clearAt]
  split <;> simp

/-! ### MGMT -/

@[simp] theorem State_dropMgmt_fuses : s.dropMgmt.fuses = s.fuses := by simp [State.dropMgmt]

@[simp] theorem State_answerMgmt_fuses (m : MgmtIn) (status : Nat) (fields : List Byte) :
    (s.answerMgmt m status fields).fuses = s.fuses := by
  simp [State.answerMgmt]

@[simp] theorem State_turnAway_fuses (m : MgmtIn) (status : Nat) : (s.turnAway m status).fuses = s.fuses := by
  simp [State.turnAway]

@[simp] theorem State_request_fuses (s : State) (m : MgmtIn) (mop : Nat) (allowed own : Bool) {f : State → State}
    (hf : (f s).fuses = s.fuses) : (s.request m mop allowed own f).fuses = s.fuses := by
  simp [State.request, hf]

@[simp] theorem State_readReply_fuses (m : MgmtIn) (a n : Nat) : (s.readReply m a n).fuses = s.fuses := by
  simp only [State.readReply]
  repeat' split
  all_goals simp

@[simp] theorem State_readFrame_fuses (s : State) (m : MgmtIn) (a n : Nat) : (s.readFrame m a n).fuses = s.fuses :=
  State_request_fuses s m 1 _ _ (State_readReply_fuses s m a n)

@[simp] theorem State_recordCmd_fuses (code status : Nat) : (s.recordCmd code status).fuses = s.fuses := by
  simp [State.recordCmd]

@[simp] theorem State_countAuthFail_fuses : s.countAuthFail.fuses = s.fuses := by simp [State.countAuthFail]
@[simp] theorem State_ownerRestart_fuses : s.ownerRestart.fuses = s.fuses := by simp [State.ownerRestart]

@[simp] theorem State_queueActivity_fuses (e : Envelope) (code slot : Nat) :
    (s.queueActivity e code slot).fuses = s.fuses := by
  simp [State.queueActivity]

@[simp] theorem State_stageNvm_fuses (x : Xfer) (data : List Byte) : (s.stageNvm x data).1.fuses = s.fuses := by
  simp only [State.stageNvm]
  repeat' split
  all_goals simp

@[simp] theorem State_nvmData_fuses (offset : Nat) (data : List Byte) :
    (s.nvmData offset data).1.fuses = s.fuses := by
  simp only [State.nvmData]
  repeat' split
  all_goals simp

@[simp] theorem State_partnerGone_fuses (s : State) : s.partnerGone.fuses = s.fuses := by
  refine (foldl_fuses _ _ _ fun s r => by simp).trans (foldl_fuses _ _ _ fun s x => ?_)
  split <;> simp

@[simp] theorem State_unbind_fuses : s.unbind.fuses = s.fuses := by simp [State.unbind]
@[simp] theorem State_toColdStart_fuses : s.toColdStart.fuses = s.fuses := by simp [State.toColdStart]

@[simp] theorem State_withKeys_fuses (s : State) (x : HeldReq) {f : State → State} (hf : (f s).fuses = s.fuses) :
    (s.withKeys x f).fuses = s.fuses := by
  simp [State.withKeys, hf]

@[simp] theorem State_attest_fuses (m : MgmtIn) (nonce first nlist : Nat) :
    (s.attest m nonce first nlist).fuses = s.fuses := by
  simp [State.attest]

@[simp] theorem State_keysync_fuses (x : Session) (opened : Bool) : (s.keysync x opened).fuses = s.fuses := by
  simp [State.keysync]

@[simp] theorem State_openTsid_fuses (m : MgmtIn) (tenant : Nat) : (s.openTsid m tenant).fuses = s.fuses := by
  unfold State.openTsid
  split <;> simp

@[simp] theorem State_sessionOpen_fuses (m : MgmtIn) (tenant wskSerial : Nat) (sigOk unwrapOk : Bool) :
    (s.sessionOpen m tenant wskSerial sigOk unwrapOk).fuses = s.fuses := by
  simp [State.sessionOpen]

@[simp] theorem State_answerHeld_fuses (x : HeldReq) : (s.answerHeld x).fuses = s.fuses := by
  simp only [State.answerHeld]
  split <;> simp

/-! ### The pair -/

@[simp] theorem State_hear_fuses (netB : Bool) : (s.hear netB).fuses = s.fuses := by simp [State.hear]

@[simp] theorem State_pairFrame_fuses (s : State) (p : PairIn) (pop : Nat) (ok : Bool) {f : State → State}
    (hf : ∀ t, (f t).fuses = t.fuses) : (s.pairFrame p pop ok f).fuses = s.fuses := by
  simp [State.pairFrame, hf]

@[simp] theorem State_dropMirrored_fuses (stream incarn seq : Nat) :
    (s.dropMirrored stream incarn seq).fuses = s.fuses := by
  simp [State.dropMirrored]

@[simp] theorem State_mirrorParcels_fuses (s : State) (die : Option Nat) (pages : Nat × Nat) :
    (s.mirrorParcels die pages).1.fuses = s.fuses := by
  unfold State.mirrorParcels
  split
  · rfl
  · next h1 =>
    split
    · rfl
    · next h2 => exact (State_reserve_fuses h2).trans (State_reserve_fuses h1)

@[simp] theorem State_rerunMirrored_fuses (e : Entry) (b : RunBody) (ep : Nat) :
    (s.rerunMirrored e b ep).fuses = s.fuses := by
  simp only [State.rerunMirrored]
  split <;> simp

@[simp] theorem State_runTaken_fuses (cseq : Nat) : (s.runTaken cseq).fuses = s.fuses := by
  simp only [State.runTaken]
  repeat' split
  all_goals simp

@[simp] theorem State_fillEntry_fuses (s : State) (e : Entry) (op : WorkOp) : (s.fillEntry e op).fuses = s.fuses := by
  simp [State.fillEntry]

@[simp] theorem State_recordStream_fuses (r : PairRecord) : (s.recordStream r).fuses = s.fuses := by
  simp [State.recordStream]

@[simp] theorem State_cancelHere_fuses (s t : State) (e : Entry) (tseq : Nat) : (s.cancelHere t e tseq).fuses = s.fuses := by
  unfold State.cancelHere
  split <;> simp

@[simp] theorem State_newRecord_fuses (s : State) (r : PairRecord) (n : Nat) (st : EntrySt) :
    (s.newRecord r n st).fuses = s.fuses := by
  simp only [State.newRecord, State_runTaken_fuses]
  split
  · refine ite_fuses ?_ ?_ <;> simp
  · simp

@[simp] theorem State_followRecord_fuses (e : Entry) (r : PairRecord) (st : EntrySt) :
    (s.followRecord e r st).fuses = s.fuses := by
  simp [State.followRecord]

@[simp] theorem State_homeRecord_fuses (e : Entry) (r : PairRecord) (st : EntrySt) :
    (s.homeRecord e r st).fuses = s.fuses := by
  simp [State.homeRecord]

@[simp] theorem State_writeRecord_fuses (r : PairRecord) (n : Nat) : (s.writeRecord r n).fuses = s.fuses := by
  simp only [State.writeRecord]
  split <;> simp

@[simp] theorem State_takeRecord_fuses (r : PairRecord) : (s.takeRecord r).fuses = s.fuses := by
  simp [State.takeRecord]

@[simp] theorem State_runMirrored_fuses (s : State) : s.runMirrored.fuses = s.fuses := by
  refine ite_fuses (foldl_fuses _ _ _ fun s e => ?_) rfl
  split <;> simp

@[simp] theorem State_becomePaired_fuses (rejoin : Bool) : (s.becomePaired rejoin).fuses = s.fuses := by
  simp [State.becomePaired]

@[simp] theorem State_tryJoin_fuses : s.tryJoin.fuses = s.fuses := by
  simp only [State.tryJoin]
  split <;> simp

@[simp] theorem State_takeRecords_fuses (recs : List PairRecord) : (s.takeRecords recs).fuses = s.fuses := by
  simp [State.takeRecords]

@[simp] theorem State_numberCommit_fuses (id : List Nat) (n time : Nat) :
    (s.numberCommit id n time).fuses = s.fuses := by
  simp only [State.numberCommit]
  split <;> simp

@[simp] theorem State_ackSession_fuses (t : Nat) : (s.ackSession t).fuses = s.fuses := by
  simp only [State.ackSession]
  repeat' split
  all_goals simp

@[simp] theorem State_takeConfirm_fuses (highest assigned time : Nat) :
    (s.takeConfirm highest assigned time).fuses = s.fuses := by
  simp only [State.takeConfirm]
  repeat' split
  all_goals simp

@[simp] theorem State_takeSegment_fuses (h : Hdr) (body : List Byte) : (s.takeSegment h body).fuses = s.fuses := by
  simp only [State.takeSegment]
  split <;> simp

@[simp] theorem State_takeParcel_fuses (cseq off : Nat) (data : List Byte) :
    (s.takeParcel cseq off data).fuses = s.fuses := by
  simp only [State.takeParcel]
  split <;> simp

@[simp] theorem State_takeObject_fuses (tenant target name off : Nat) (data : List Byte) :
    (s.takeObject tenant target name off data).fuses = s.fuses := by
  simp only [State.takeObject]
  split <;> simp

@[simp] theorem State_takeObjcommit_fuses (tenant target name status : Nat) (o : CommitIn) :
    (s.takeObjcommit tenant target name status o).fuses = s.fuses := by
  simp only [State.takeObjcommit]
  split <;> simp

@[simp] theorem State_takeDigest_fuses (cseq run digest : Nat) : (s.takeDigest cseq run digest).fuses = s.fuses := by
  simp [State.takeDigest]

@[simp] theorem State_takeStrike_fuses (e : Entry) : (s.takeStrike e).fuses = s.fuses := by simp [State.takeStrike]

@[simp] theorem State_takeKeysync_fuses (tsid tenant key : Nat) (opened : Bool) :
    (s.takeKeysync tsid tenant key opened).fuses = s.fuses := by
  simp [State.takeKeysync]

@[simp] theorem State_takeOver_fuses (e : Entry) : (s.takeOver e).fuses = s.fuses := by
  simp only [State.takeOver]
  repeat' split
  all_goals simp

@[simp] theorem State_declareLost_fuses : s.declareLost.fuses = s.fuses := by simp [State.declareLost]
@[simp] theorem State_miss_fuses : s.miss.fuses = s.fuses := by simp [State.miss]
@[simp] theorem State_diverged_fuses : s.diverged.fuses = s.fuses := by simp [State.diverged]
@[simp] theorem State_discardFold_fuses : s.discardFold.fuses = s.fuses := by simp [State.discardFold]

@[simp] theorem State_sendParcel_fuses (e : Entry) : (s.sendParcel e).fuses = s.fuses := by
  simp only [State.sendParcel]
  split <;> simp

@[simp] theorem State_sendObject_fuses (x : SnapObj) : (s.sendObject x).fuses = s.fuses := by simp [State.sendObject]
@[simp] theorem State_snapshot_fuses : s.snapshot.fuses = s.fuses := by simp [State.snapshot]

@[simp] theorem State_pairBeat_fuses (pst lead quiet last : Nat) :
    (s.pairBeat pst lead quiet last).fuses = s.fuses := by
  simp only [State.pairBeat]
  split <;> simp

/-! ### Verification of an installation -/

@[simp] theorem State_writeSpans_fuses (p : Placement) : (s.writeSpans p).fuses = s.fuses := by
  simp [State.writeSpans]

@[simp] theorem State_planesLive_fuses (keys : List (Nat × Nat × Nat)) : (s.planesLive keys).fuses = s.fuses := by
  simp [State.planesLive]

@[simp] theorem State_unshare_fuses (x : Nat × Nat × Nat) : (s.unshare x).fuses = s.fuses := by simp [State.unshare]

@[simp] theorem State_undoInstall_fuses (i : Install) : (s.undoInstall i).fuses = s.fuses := by
  simp [State.undoInstall]

@[simp] theorem State_commitInstall_fuses (i : Install) : (s.commitInstall i).fuses = s.fuses := by
  simp [State.commitInstall]

@[simp] theorem State_failInstall_fuses (i : Install) (status detail : Nat) :
    (s.failInstall i status detail).fuses = s.fuses := by
  simp [State.failInstall]

@[simp] theorem State_repairPlane_fuses (h : Nat) (x : Nat × Nat × Nat) (slots : List Nat) (sweep : Bool) :
    (s.repairPlane h x slots sweep).fuses = s.fuses := by
  simp [State.repairPlane]

@[simp] theorem State_installDone_fuses (handle : Nat) (sweepFail : Option Nat) :
    (s.installDone handle sweepFail).fuses = s.fuses := by
  simp only [State.installDone]
  repeat' split
  all_goals simp

end

/-! ### Commands of MGMT that burn none (R541 to R547) -/

@[simp] theorem State_clearAll_fuses (s : State) (pairs : List (Nat × Nat)) : (s.clearAll pairs).st.fuses = s.fuses := by
  unfold State.clearAll
  split
  · rfl
  · split
    · rfl
    · split
      · rfl
      · refine foldl_fuses _ _ _ fun s p => ?_
        split <;> simp

@[simp] theorem State_useProfile_fuses (s : State) (e : Envelope) (slot : Nat) :
    (s.useProfile e slot).st.fuses = s.fuses := by
  unfold State.useProfile
  split
  · rfl
  · split
    · split
      · rfl
      · simp [done]
    · simp

@[simp] theorem State_nvmBegin_fuses (s : State) (target len digest : Nat) :
    (s.nvmBegin target len digest).st.fuses = s.fuses := by
  unfold State.nvmBegin
  split
  · rfl
  · split
    · rfl
    · split <;> rfl

/-- What a command burns is what its effect burns (R541 to R543). -/
theorem State_command_fuses {α : Type} (g : Fuses → α) {s : State} {f : State → CmdOut} {after : State → State}
    (hf : g (f s).st.fuses = g s.fuses) (hafter : ∀ t, (after t).fuses = t.fuses) (e : Envelope) (code : Nat)
    (states : List Nat) (q : QCol) (signer : Option Nat) (own : Bool) :
    g (s.command e code states q signer own f after).fuses = g s.fuses := by
  by_cases hlen : e.lenOk = true <;> cases own <;>
    simp [State.command, State.request, hafter, hlen, refused, apply_ite g, hf]

/-! ### Every command -/

section
variable {s t u : State}

theorem fuses_of_next (h : (.next u : Host.Outcome State Fault Refusal) = .next t) (hu : u.fuses = s.fuses) :
    t.fuses = s.fuses := by
  cases h
  exact hu

theorem fuses_of_answer {ok : Bool} (h : answer ok u = .next t) (hu : u.fuses = s.fuses) : t.fuses = s.fuses := by
  obtain ⟨_, rfl⟩ := answer_next.1 h
  exact hu

end

section
variable {s t : State}

theorem execInstructionComplete_fuses {k id : Nat} (h : execInstructionComplete k id s = .next t) : t.fuses = s.fuses := by
  refine fuses_of_answer h (ite_fuses rfl ?_)
  split
  · exact ite_fuses (State_finishFlight_fuses ..) rfl
  · rfl

theorem execStopTimeout_fuses {cseq : Nat} (h : execStopTimeout cseq s = .next t) : t.fuses = s.fuses := by
  refine fuses_of_next h ?_
  split <;> simp

theorem execDynamicRowWrite_fuses {k : Nat} {tm : Timing} (h : execDynamicRowWrite k tm s = .next t) :
    t.fuses = s.fuses := by
  refine fuses_of_answer h (ite_fuses rfl ?_)
  split
  · split
    · simp
    · dsimp only
      split
      · rfl
      · simp
      · next hr => simpa using Eff_gives_elim hr (State_rowWrite_fuses _ _ _ _ _ _ _ _ _)
  · rfl

theorem execDepositLand_fuses {x : LandIn} (h : execDepositLand x s = .next t) : t.fuses = s.fuses := by
  refine fuses_of_next h ?_
  split <;> simp

theorem execCreditTimeout_fuses {id : Nat} (h : execCreditTimeout id s = .next t) : t.fuses = s.fuses := by
  refine fuses_of_next h ?_
  split
  · refine ite_fuses rfl ?_
    split
    · simp
    · simp
    · split <;> simp
  · rfl

theorem execHubInputDelivery_fuses {cseq : Nat} (h : execHubInputDelivery cseq s = .next t) : t.fuses = s.fuses := by
  refine fuses_of_next h ?_
  split
  · split <;> simp
  · rfl

theorem execFrameStart_fuses {cseq k : Nat} (h : execFrameStart cseq k s = .next t) : t.fuses = s.fuses := by
  refine fuses_of_answer h ?_
  split
  · split <;> simp
  · rfl

theorem execFrameBind_fuses {cseq : Nat} (h : execFrameBind cseq s = .next t) : t.fuses = s.fuses := by
  refine fuses_of_next h ?_
  split
  · split <;> simp
  · rfl

theorem execSegmentTimeout_fuses {hub : Nat} {x : Hdr} (h : execSegmentTimeout hub x s = .next t) : t.fuses = s.fuses := by
  refine fuses_of_answer h ?_
  split <;> simp

theorem execLedgerConfirm_fuses {x : CommitTime} {hub : Nat} (h : execLedgerConfirm x hub s = .next t) :
    t.fuses = s.fuses := by
  refine fuses_of_answer h ?_
  split <;> simp

theorem execCommitDeadline_fuses {x : CommitTime} (h : execCommitDeadline x s = .next t) : t.fuses = s.fuses := by
  refine fuses_of_next h ?_
  split <;> simp

theorem execDispatch_fuses {cseq : Nat} (h : execDispatch cseq s = .next t) : t.fuses = s.fuses := by
  refine fuses_of_next h ?_
  split
  · split <;> simp
  · rfl

theorem execFrameEnd_fuses {cseq : Nat} (h : execFrameEnd cseq s = .next t) : t.fuses = s.fuses := by
  refine fuses_of_next h ?_
  split
  · split
    · refine ite_fuses rfl ?_
      split <;> simp
    · rfl
  · rfl

theorem execResultParcelWritten_fuses {cseq : Nat} (h : execResultParcelWritten cseq s = .next t) : t.fuses = s.fuses := by
  refine fuses_of_next h ?_
  split <;> simp

theorem execParcelReadError_fuses {cseq : Nat} {p : ParcelCopy} {both : Bool}
    (h : execParcelReadError cseq p both s = .next t) : t.fuses = s.fuses := by
  refine fuses_of_next h ?_
  split <;> simp

theorem execInputParcelWritten_fuses {cseq : Nat} (h : execInputParcelWritten cseq s = .next t) : t.fuses = s.fuses := by
  refine fuses_of_next h ?_
  split <;> simp

theorem execBulkClose_fuses {b : BulkIn} (h : execBulkClose b s = .next t) : t.fuses = s.fuses :=
  fuses_of_answer h (State_bulkFrame_fuses s 3 b fun s t h => State_onSession_fuses s b t h fun x => by simp)

theorem execAbort_fuses {b : BulkIn} (h : execAbort b s = .next t) : t.fuses = s.fuses :=
  fuses_of_answer h (State_bulkFrame_fuses s 4 b fun s t h => State_onSession_fuses s b t h fun x => by simp)

theorem execQuery_fuses {b : BulkIn} (h : execQuery b s = .next t) : t.fuses = s.fuses := by
  refine fuses_of_answer h (State_bulkFrame_fuses s 5 b fun s t h => ?_)
  split <;> simp

theorem execNotes_fuses {b : BulkIn} (h : execNotes b s = .next t) : t.fuses = s.fuses := by
  refine fuses_of_answer h (State_bulkFrame_fuses s 8 b fun s t h => ?_)
  split <;> simp

theorem execPatchApply_fuses {handle : Nat} (h : execPatchApply handle s = .next t) : t.fuses = s.fuses := by
  refine fuses_of_next h ?_
  split
  · refine ite_fuses rfl ?_
    split <;> simp
  · rfl

theorem execPairStrike_fuses {p : PairIn} {cseq stream incarn seq : Nat}
    (h : execPairStrike p cseq stream incarn seq s = .next t) : t.fuses = s.fuses := by
  refine fuses_of_answer h (State_pairFrame_fuses s p 10 _ fun s => ?_)
  split <;> simp

theorem execClear_fuses {e : Envelope} {pairs : List (Nat × Nat)} (h : execClear e pairs s = .next t) :
    t.fuses = s.fuses := by
  refine fuses_of_answer h (State_command_fuses id ?_ (fun _ => rfl) ..)
  exact State_clearAll_fuses s pairs

theorem execWarmRestart_fuses {e : Envelope} (h : execWarmRestart e s = .next t) : t.fuses = s.fuses :=
  fuses_of_answer h (State_command_fuses id rfl State_ownerRestart_fuses ..)

theorem execUseProfile_fuses {e : Envelope} {slot : Nat} (h : execUseProfile e slot s = .next t) :
    t.fuses = s.fuses := by
  refine fuses_of_answer h (State_command_fuses id ?_ (fun _ => rfl) ..)
  exact State_useProfile_fuses s e slot

theorem execActivateFirmware_fuses {e : Envelope} {slot : Nat} (h : execActivateFirmware e slot s = .next t) :
    t.fuses = s.fuses := by
  refine fuses_of_answer h (State_command_fuses id ?_ (fun _ => rfl) ..)
  split <;> simp [refused]

theorem execNvmBegin_fuses {e : Envelope} {target len digest : Nat} (h : execNvmBegin e target len digest s = .next t) :
    t.fuses = s.fuses := by
  refine fuses_of_answer h (State_command_fuses id ?_ (fun _ => rfl) ..)
  exact State_nvmBegin_fuses s target len digest

theorem execPairUnbind_fuses {e : Envelope} (h : execPairUnbind e s = .next t) : t.fuses = s.fuses := by
  refine fuses_of_answer h (State_command_fuses id ?_ (fun _ => rfl) ..)
  split <;> simp [refused, done]

end

/-- The commands that may burn a fuse (R492 to R495, R499, R501, R544, R547). -/
def mayBurn : Instr → Bool
  | .pairBind .. | .takeOwnership .. | .rotateOwner .. | .returnPkg .. | .retire .. | .raiseSvn .. | .readyAssert => true
  | _ => false

/-- Every other command leaves the fuses as they are. -/
theorem exec_fuses {c : Instr} {s t : State} (h : exec c s = .next t) (hc : mayBurn c = false) : t.fuses = s.fuses := by
  cases c
  case instructionComplete => exact execInstructionComplete_fuses h
  case stopTimeout => exact execStopTimeout_fuses h
  case dynamicRowWrite => exact execDynamicRowWrite_fuses h
  case depositLand => exact execDepositLand_fuses h
  case creditTimeout => exact execCreditTimeout_fuses h
  case hubInputDelivery => exact execHubInputDelivery_fuses h
  case frameStart => exact execFrameStart_fuses h
  case frameBind => exact execFrameBind_fuses h
  case segmentTimeout => exact execSegmentTimeout_fuses h
  case ledgerConfirm => exact execLedgerConfirm_fuses h
  case commitDeadline => exact execCommitDeadline_fuses h
  case dispatch => exact execDispatch_fuses h
  case frameEnd => exact execFrameEnd_fuses h
  case resultParcelWritten => exact execResultParcelWritten_fuses h
  case parcelReadError => exact execParcelReadError_fuses h
  case inputParcelWritten => exact execInputParcelWritten_fuses h
  case bulkClose => exact execBulkClose_fuses h
  case abort => exact execAbort_fuses h
  case query => exact execQuery_fuses h
  case notes => exact execNotes_fuses h
  case patchApply => exact execPatchApply_fuses h
  case pairStrike => exact execPairStrike_fuses h
  case clear => exact execClear_fuses h
  case warmRestart => exact execWarmRestart_fuses h
  case useProfile => exact execUseProfile_fuses h
  case activateFirmware => exact execActivateFirmware_fuses h
  case nvmBegin => exact execNvmBegin_fuses h
  case pairUnbind => exact execPairUnbind_fuses h
  case pairBind | takeOwnership | rotateOwner | returnPkg | retire | raiseSvn | readyAssert => cases hc
  case resultTransmit | installDone | routineCommit | placementRetire | bulkIdle | digestExchange | faultPulseEnd |
      yokeTick | envHold | roundOverrun | secureWipeDone | profileSwitch | firmwareActivation | maintDefer | tamper |
      coldStart | bootReportTimeout | porstAssert | wrstPin | warmRestartDoze | nvmProgramDone | pairHeartbeatTimer |
      pairHeartbeatMiss => exact fuses_of_next h (by simp)
  all_goals exact fuses_of_answer h (by simp)

end Sys2Proof.Machine
end

/-! ## Ownership and the life cycle (16 R494, R495) -/

section
namespace Sys2Proof.Machine
open Sys2Proof

/-! ### Commands of the owner and the vendor (R541 to R544) -/

section
variable {s : State} {e : Envelope} {code : Nat} {states : List Nat} {q : QCol} {signer : Option Nat}

theorem State_requested_request {m : MgmtIn} {mop : Nat} (h : s.requested m mop) (hmop : mopDefined mop = true)
    (own : Bool) (f : State → State) : s.request m mop true own f = if own then f s else s := by
  obtain ⟨_, htakes, hkind, rfl, hauth, hbusy, hvalid⟩ := h
  have hdir : (m.mdir == 1) = false := by
    simp only [MgmtIn.valid, Bool.and_eq_true, beq_iff_eq] at hvalid
    simp [hvalid]
  simp [State.request, htakes, hkind, hmop, hauth, hbusy, hvalid, hdir]

/-- A command that passes the checks 1 to 5 of R541. -/
theorem State_command_of_commanded (h : s.commanded e code states q signer) (hcode : cmdDefined code = true) (own : Bool)
    (f : State → CmdOut) (after : State → State) :
    s.command e code states q signer own f after =
      if own then
        let o := f s
        let t := if o.later then o.st.recordCmd code o.status else o.st.answered e code o.status o.fields
        if o.status = 0 then after t else t
      else s := by
  obtain ⟨hreq, hsess, rfl, hstates, hq, hser, hchal, hsigner, hsig, hlen⟩ := h
  have hpast := State_requested_request hreq rfl true
  simp only [State.command, hsess, hpast]
  cases own <;> simp [hcode, hstates, hq, hser, hchal, hsigner, hsig, hlen, State.answered, -List.contains_eq_mem]

theorem State_command_other (h : s.commanded e code states q signer) (hcode : cmdDefined code = true)
    (f : State → CmdOut) (after : State → State) : s.command e code states q signer false f after = s := by
  rw [State_command_of_commanded h hcode]
  rfl

theorem State_command_done (h : s.commanded e code states q signer) (hcode : cmdDefined code = true) {f : State → CmdOut}
    (after : State → State) {t : State} {fields : List Byte} (hf : f s = done t fields) :
    s.command e code states q signer true f after = after (t.answered e code 0 fields) := by
  rw [State_command_of_commanded h hcode, hf]
  rfl

theorem State_command_refused (h : s.commanded e code states q signer) (hcode : cmdDefined code = true) {f : State → CmdOut}
    (after : State → State) {t : State} {status field : Nat} (hf : f s = refused t status field) (hstatus : status ≠ 0) :
    s.command e code states q signer true f after = t.answered e code status (errField status field) := by
  rw [State_command_of_commanded h hcode, hf]
  exact if_neg hstatus

end

/-! ### What a transition of the life cycle leaves (R494, R495) -/

/-- A frame of one segment changes what leaves the package and the IV counters, nothing else. -/
theorem State_sendAt_keeps {β : Type} {g : State → β} (hout : ∀ t o, g (State.emitOut t o) = g t)
    (hiv : ∀ t : State, ∀ l, g { t with secure := { t.secure with ivs := l } } = g t) (s : State) (p addr : Nat) (h : Hdr)
    (body : List Byte) : g (s.sendAt p addr h body) = g s := by
  have hnext : g (s.nextIv p h.tsid).1 = g s := by
    unfold State.nextIv
    split
    · rfl
    · exact hiv s _
  unfold State.sendAt
  split
  · exact (hout _ _).trans hnext
  · rfl

theorem State_sendAt_trust (s : State) (p addr : Nat) (h : Hdr) (body : List Byte) :
    (s.sendAt p addr h body).trust = s.trust :=
  State_sendAt_keeps (fun _ _ => rfl) (fun _ _ => rfl) s p addr h body

@[simp] theorem State_modCluster_trust (s : State) (d l : Nat) (f : Core → Core) : (s.modCluster d l f).trust = s.trust :=
  foldl_keeps State.trust (fun s k => State_modCore_trust s k f) _ s

@[simp] theorem State_startWake_trust (s : State) (d c : Nat) : (s.startWake d c).trust = s.trust := by
  simp only [State.startWake]
  split <;> simp

@[simp] theorem State_wakeDone_trust (s : State) (d c : Nat) : (s.wakeDone d c).trust = s.trust := by
  simp only [State.wakeDone]
  split
  · rfl
  · split <;> simp

theorem State_wakeDozing_trust (s : State) : s.wakeDozing.trust = s.trust := by
  refine foldl_keeps State.trust (fun s i => ?_) _ s
  split <;> simp

theorem State_abandon_trust (s : State) (a : Activity) : (s.abandon a).trust = s.trust := by
  rw [State.abandon, State.mgmtReply, State_sendAt_trust]

theorem State_wipe_trust (s : State) : s.wipe.trust = s.trust :=
  foldl_keeps State.trust State_abandon_trust _ s

theorem State_zeroisePlanes_trust (s : State) : s.zeroisePlanes.trust = s.trust := rfl

theorem State_burnCycle_fuses (s : State) (f : Fuses → Fuses) : (s.burnCycle f).fuses = f s.fuses := by
  rw [State.burnCycle, State_wipe_fuses]
  dsimp only
  rw [State_zeroisePlanes_fuses, State_wakeDozing_fuses]

theorem State_burnCycle_lcCount (s : State) (f : Fuses → Fuses) :
    (s.burnCycle f).trust.lcCount = s.trust.lcCount + 1 := by
  rw [State.burnCycle, State_wipe_trust]
  dsimp only
  rw [State_zeroisePlanes_trust, State_wakeDozing_trust, inc]

theorem Tbl_get_map {α β : Type} (f : α → β) (t : Tbl α) (k : Nat) :
    Tbl.get (t.map fun p => (p.1, f p.2)) k = (Tbl.get t k).map f := by
  induction t with
  | nil => rfl
  | cons p r ih =>
    rw [List.map_cons, Tbl_get_cons, Tbl_get_cons, ih]
    split <;> rfl

/-- An engine once its clock has stopped (R563). -/
def Engine.stopped (g : Engine) : Engine := { Engine.fresh with stuck := g.stuck }

/-- A core once its clock has stopped (R563). -/
def Core.stopped (c : Core) : Core := { Core.fresh with engines := c.engines.map (fun g => (g.1, g.2.stopped)) }

theorem State_stopClocks_core (s : State) (k : Nat) :
    s.stopClocks.core k = ((Tbl.get s.cores k).map Core.stopped).getD Core.fresh :=
  congrArg (·.getD Core.fresh) (Tbl_get_map Core.stopped s.cores k)

theorem Core_stopped_engine (c : Core) (i : Nat) :
    c.stopped.engine i = ((Tbl.get c.engines i).map Engine.stopped).getD Engine.fresh :=
  congrArg (·.getD Engine.fresh) (Tbl_get_map Engine.stopped c.engines i)

theorem State_stopClocks_plane (s : State) (k i p : Nat) : ((s.stopClocks.core k).engine i).plane p = Plane.fresh := by
  rw [State_stopClocks_core]
  cases Tbl.get s.cores k with
  | none => rfl
  | some c =>
    rw [Option.map_some, Option.getD_some, Core_stopped_engine]
    cases Tbl.get c.engines i <;> rfl

theorem State_toColdStart_plane (s : State) (k i p : Nat) : ((s.toColdStart.core k).engine i).plane p = Plane.fresh :=
  State_stopClocks_plane s k i p

theorem State_toColdStart_trust (s : State) : s.toColdStart.trust = s.trust := rfl
theorem State_toColdStart_secure (s : State) : s.toColdStart.secure = s.secure := rfl

section
variable (s : State) (e : Envelope) (code status : Nat) (fields : List Byte)

theorem State_answered_fuses : (s.answered e code status fields).fuses = s.fuses := by
  rw [State.answered, State_answerMgmt_fuses, State_recordCmd_fuses]

theorem State_answered_trust : (s.answered e code status fields).trust = s.trust :=
  State_sendAt_trust (s.recordCmd code status) _ _ _ _

theorem State_answered_sessions : (s.answered e code status fields).secure.sessions = s.secure.sessions :=
  State_sendAt_keeps (g := fun t => t.secure.sessions) (fun _ _ => rfl) (fun _ _ => rfl) (s.recordCmd code status) ..

theorem State_answered_dwrap : (s.answered e code status fields).secure.dwrap = s.secure.dwrap :=
  State_sendAt_keeps (g := fun t => t.secure.dwrap) (fun _ _ => rfl) (fun _ _ => rfl) (s.recordCmd code status) ..

end

/-- `t` is what a transition of the life cycle that burns `f` leaves of `s`: secure part and planes wiped, the Fold empty,
the clocks stopped for a cold start (R494, R495). -/
def State.cycledTo (s t : State) (f : Fuses) : Prop :=
  t.fuses = f ∧ t.pkg.phase = .down ∧ t.secure.sessions = [] ∧ t.secure.dwrap = false ∧ t.placements = [] ∧
    (∀ k i p, ((t.core k).engine i).plane p = Plane.fresh) ∧ t.trust.lcCount = s.trust.lcCount + 1 ∧ t.entries = []

theorem State_cycledTo_toColdStart (s : State) (e : Envelope) (code : Nat) (f : Fuses → Fuses) :
    s.cycledTo (((s.burnCycle f).answered e code 0 []).toColdStart) (f s.fuses) := by
  refine ⟨?_, rfl, ?_, ?_, rfl, State_toColdStart_plane _, ?_, rfl⟩
  · rw [State_toColdStart_fuses, State_answered_fuses, State_burnCycle_fuses]
  · rw [State_toColdStart_secure, State_answered_sessions]
    rfl
  · rw [State_toColdStart_secure, State_answered_dwrap]
    rfl
  · rw [State_toColdStart_trust, State_answered_trust, State_burnCycle_lcCount]

theorem State_leaveOwned_done {s : State} (lcs : Nat) (hpair : s.pair.st = .unpaired) (hentries : s.entries = [])
    (hstreams : s.streamsLive = false) : s.leaveOwned lcs = done (s.burnCycle (fun x => { x with lcs := lcs })) [] := by
  simp [State.leaveOwned, State.leaveFails, hpair, hentries, hstreams]

theorem State_leaveOwned_paired {s : State} (lcs : Nat) (hpair : s.pair.st ≠ .unpaired) :
    s.leaveOwned lcs = refused s 0x0C 1 := by
  simp [State.leaveOwned, State.leaveFails, hpair]

theorem State_leaveOwned_busy {s : State} (lcs : Nat) (hpair : s.pair.st = .unpaired)
    (hbusy : s.entries ≠ [] ∨ s.streamsLive = true) : s.leaveOwned lcs = refused s 0x0C 2 := by
  simp [State.leaveOwned, State.leaveFails, hpair, hbusy]

theorem answer_commanded {s : State} {e : Envelope} {code : Nat} {states : List Nat} {q : QCol} {signer : Option Nat}
    (h : s.commanded e code states q signer) (t : State) : answer (portOk e.req.port) t = .next t :=
  answer_next.2 ⟨h.1.1, rfl⟩

theorem takeOwnership_commanded {s : State} {e : Envelope} (h : s.commanded e 0x40 [1] qNo (some e.signer)) :
    (∃ t : State, exec (.takeOwnership e true) s = .next t ∧
      s.cycledTo t { s.fuses with lcs := 3, owner := some e.signer }) ∧
    exec (.takeOwnership e false) s = .next (s.countAuthFail.answered e 0x40 2 []) := by
  refine ⟨⟨_, (answer_commanded h _).trans (congrArg _ (State_command_done h rfl _ rfl)), ?_⟩,
    (answer_commanded h _).trans (congrArg _ (State_command_refused h rfl _ rfl (by decide)))⟩
  exact State_cycledTo_toColdStart s e 0x40 (fun x => { x with lcs := 3, owner := some e.signer })

theorem rotateOwner_commanded {s : State} {e : Envelope} (h : s.commanded e 0x41 [3] qNo s.fuses.owner) :
    (∀ x, x ≠ beAt e.args 0 64 → exec (.rotateOwner e x) s = .next s) ∧
    (s.fuses.rotations < 32 → exec (.rotateOwner e (beAt e.args 0 64)) s = .next (({ s with fuses := { s.fuses with
      owner := some (beAt e.args 0 64), prevOwner := s.fuses.owner, rotations := s.fuses.rotations + 1 } } : State).answered
        e 0x41 0 [])) ∧
    (32 ≤ s.fuses.rotations →
      exec (.rotateOwner e (beAt e.args 0 64)) s = .next (s.answered e 0x41 0x0D (beBytes 4 0))) := by
  have hown (d : Nat) (f : State → CmdOut) (after : State → State) (own : Bool) (hd : (d == beAt e.args 0 64) = own) :
      s.ownerCmd e 0x41 qNo (d == beAt e.args 0 64) f after = s.command e 0x41 [3] qNo s.fuses.owner own f after := by
    rw [hd]; rfl
  refine ⟨fun x hx => ?_, fun hfew => ?_, fun hmany => ?_⟩
  · refine (answer_commanded h _).trans (congrArg _ ?_)
    rw [hown _ _ _ false (beq_false_of_ne hx), State_command_other h rfl]
  · refine (answer_commanded h _).trans (congrArg _ ?_)
    rw [hown _ _ _ true (beq_self_eq_true _)]
    exact State_command_done h rfl _ (if_neg (Nat.not_le.2 hfew))
  · refine (answer_commanded h _).trans (congrArg _ ?_)
    rw [hown _ _ _ true (beq_self_eq_true _)]
    exact State_command_refused h rfl _ (if_pos hmany) (by decide)

section
variable {s : State} {e : Envelope} {code lcs : Nat} {states : List Nat} {signer : Option Nat}
  (h : s.commanded e code states qNo signer) (hcode : cmdDefined code = true)
include h hcode

/-- A command out of OWNED (R494): done for an UNPAIRED package whose Fold is empty, and for no other one. -/
theorem leaveOwned_commanded :
    (s.pair.st = .unpaired → s.entries = [] → s.streamsLive = false → s.cycledTo
      (s.command e code states qNo signer true (fun s => s.leaveOwned lcs) State.toColdStart) { s.fuses with lcs := lcs }) ∧
    (s.pair.st ≠ .unpaired → s.command e code states qNo signer true (fun s => s.leaveOwned lcs) State.toColdStart =
      s.answered e code 0x0C (beBytes 4 1)) ∧
    (s.pair.st = .unpaired → (s.entries ≠ [] ∨ s.streamsLive = true) →
      s.command e code states qNo signer true (fun s => s.leaveOwned lcs) State.toColdStart =
        s.answered e code 0x0C (beBytes 4 2)) := by
  refine ⟨fun hpair hentries hstreams => ?_, fun hpair => ?_, fun hpair hbusy => ?_⟩
  · rw [State_command_done h hcode _ (State_leaveOwned_done lcs hpair hentries hstreams)]
    exact State_cycledTo_toColdStart s e code (fun x => { x with lcs := lcs })
  · exact State_command_refused h hcode _ (State_leaveOwned_paired lcs hpair) (by decide)
  · exact State_command_refused h hcode _ (State_leaveOwned_busy lcs hpair hbusy) (by decide)

end

/-- Settles O49: a command that passes the checks of R541 is done or refused by the tests of R494, and what it then leaves
is `State.cycledTo`. -/
theorem ownershipChanges : Obligations.OwnershipChanges := by
  refine fun s e => ⟨takeOwnership_commanded, rotateOwner_commanded, fun h => ?_, fun h hlcs => ?_, fun h hlcs => ?_⟩
  · obtain ⟨hdone, hpaired, hbusy⟩ := leaveOwned_commanded (lcs := 7) h rfl
    refine ⟨fun h1 h2 h3 => ⟨_, answer_commanded h _, hdone h1 h2 h3⟩, fun h1 => ?_, fun h1 h2 => ?_⟩
    · exact (answer_commanded h _).trans (congrArg _ (hpaired h1))
    · exact (answer_commanded h _).trans (congrArg _ (hbusy h1 h2))
  · have hexec : exec (.retire e) s = .next (s.command e 0x43 [3, 7] qNo s.fuses.owner true (fun s => s.leaveOwned 15)
        State.toColdStart) := (answer_commanded h _).trans (congrArg _ (if_neg (by rw [hlcs]; decide)))
    obtain ⟨hdone, hpaired, hbusy⟩ := leaveOwned_commanded (lcs := 15) h rfl
    refine ⟨fun h1 h2 h3 => ⟨_, hexec, hdone h1 h2 h3⟩, fun h1 => ?_, fun h1 h2 => ?_⟩
    · rw [hexec, hpaired h1]
    · rw [hexec, hbusy h1 h2]
  · refine ⟨_, (answer_commanded h _).trans (congrArg _ ((if_pos hlcs).trans (State_command_done h rfl _ rfl))), ?_⟩
    exact State_cycledTo_toColdStart s e 0x43 (fun x => { x with lcs := 15 })

end Sys2Proof.Machine
end

/-! ## The SVN floor (16 R501) -/

section
namespace Sys2Proof.Machine
open Sys2Proof

/-! ### READY keeps the profile in force while it compares the ledger's copies (R424, R527) -/

@[simp] theorem State_giveRun_profile (s : State) (st a n : Nat) : (s.giveRun st a n).profile = s.profile := by
  unfold State.giveRun
  split <;> rfl

@[simp] theorem State_freeParcel_profile (s : State) (p : Parcel) : (s.freeParcel p).profile = s.profile := by
  unfold State.freeParcel
  split <;> simp

@[simp] theorem State_dropRefs_profile (s : State) (e : Entry) : (s.dropRefs e).profile = s.profile := by
  unfold State.dropRefs
  split <;> rfl

@[simp] theorem State_dropEntry_profile (s : State) (e : Entry) : (s.dropEntry e).profile = s.profile := by
  simp only [State.dropEntry]
  split <;> simp

@[simp] theorem State_entryGone_profile (s : State) (e : Entry) : (s.entryGone e).profile = s.profile :=
  foldl_keeps State.profile State_dropEntry_profile _ s

@[simp] theorem State_losesEntries_profile (n : Nat) (s : State) : (State.losesEntries n s).profile = s.profile := by
  induction n generalizing s with
  | zero => rfl
  | succ n ih =>
    rw [State.losesEntries, ih]
    split
    · exact State_entryGone_profile _ _
    · rfl

@[simp] theorem State_compareLogs_profile (s : State) : s.compareLogs.profile = s.profile := by
  simp only [State.compareLogs]
  split
  · rfl
  · exact State_losesEntries_profile _ _

/-! ### What raises the SVN floor (R501) -/

theorem State_raiseFloor_svnFloor (s : State) : s.raiseFloor.fuses.svnFloor =
    if s.profile.work.svnAuto then max s.fuses.svnFloor s.pkg.fwSvn else s.fuses.svnFloor := by
  unfold State.raiseFloor
  by_cases hauto : s.profile.work.svnAuto = true
  · by_cases hlt : s.fuses.svnFloor < s.pkg.fwSvn
    · rw [if_pos ⟨hauto, hlt⟩, if_pos hauto, Nat.max_eq_right (Nat.le_of_lt hlt)]
    · rw [if_neg (fun h => hlt h.2), if_pos hauto, Nat.max_eq_left (Nat.not_lt.1 hlt)]
  · rw [if_neg (fun h => hauto h.1), if_neg hauto]

theorem State_raiseFloor_of_manual {s : State} (h : s.profile.work.svnAuto = false) : s.raiseFloor = s :=
  if_neg fun hauto => Bool.false_ne_true (h.symm.trans hauto.1)

theorem State_readyCold_manual {s : State} (h : s.profile.work.svnAuto = false) : s.readyCold.fuses = s.fuses := by
  unfold State.readyCold
  dsimp only
  split
  · rfl
  · rw [State_raiseFloor_of_manual (by exact h)]

theorem ite_raiseFloor_manual {s t : State} {p : Prop} [Decidable p] (hprofile : t.profile = s.profile)
    (hfuses : t.fuses = s.fuses) (h : s.profile.work.svnAuto = false) : (if p then t.raiseFloor else t).fuses = s.fuses := by
  rw [State_raiseFloor_of_manual (by rw [hprofile]; exact h), ite_self, hfuses]

theorem State_readyWarm_manual {s : State} (h : s.profile.work.svnAuto = false) : s.readyWarm.fuses = s.fuses :=
  ite_raiseFloor_manual (by simp [apply_ite State.profile]) (by simp) h

theorem execReadyAssert_manual {s t : State} (h : execReadyAssert s = .next t) (hauto : s.profile.work.svnAuto = false) :
    t.fuses = s.fuses := by
  refine fuses_of_next h ?_
  split
  · exact State_readyCold_manual hauto
  · exact State_readyWarm_manual hauto
  · rfl

/-! ### Other commands that burn fuses leave the floor -/

theorem State_pairBind_svnFloor (s : State) (partner : List Nat) (wseed : Nat) (unwrapOk : Bool) :
    (s.pairBind partner wseed unwrapOk).st.fuses.svnFloor = s.fuses.svnFloor := by
  simp only [State.pairBind]
  split
  · rfl
  · split
    · rfl
    · split
      · rfl
      · split
        · rfl
        · split <;> rfl

@[simp] theorem done_st (s : State) (fields : List Byte) : (done s fields).st = s := rfl

theorem State_leaveOwned_svnFloor (s : State) (lcs : Nat) : (s.leaveOwned lcs).st.fuses.svnFloor = s.fuses.svnFloor := by
  unfold State.leaveOwned
  split
  · rfl
  · rw [done_st, State_burnCycle_fuses]

theorem svnFloor_of_answer {s t u : State} {ok : Bool} (h : answer ok u = .next t)
    (hu : u.fuses.svnFloor = s.fuses.svnFloor) : t.fuses.svnFloor = s.fuses.svnFloor := by
  obtain ⟨_, rfl⟩ := answer_next.1 h
  exact hu

section
variable {s t : State} {e : Envelope}

theorem execPairBind_svnFloor {partner : List Nat} {wseed : Nat} {unwrapOk : Bool}
    (h : execPairBind e partner wseed unwrapOk s = .next t) : t.fuses.svnFloor = s.fuses.svnFloor := by
  refine svnFloor_of_answer h (State_command_fuses Fuses.svnFloor ?_ (fun _ => rfl) ..)
  exact State_pairBind_svnFloor s partner wseed unwrapOk

theorem execTakeOwnership_svnFloor {voucherOk : Bool} (h : execTakeOwnership e voucherOk s = .next t) :
    t.fuses.svnFloor = s.fuses.svnFloor := by
  refine svnFloor_of_answer h (State_command_fuses Fuses.svnFloor ?_ State_toColdStart_fuses ..)
  split
  · rfl
  · rw [done_st, State_burnCycle_fuses]

theorem execRotateOwner_svnFloor {d : Nat} (h : execRotateOwner e d s = .next t) :
    t.fuses.svnFloor = s.fuses.svnFloor := by
  refine svnFloor_of_answer h (State_command_fuses Fuses.svnFloor ?_ (fun _ => rfl) ..)
  split <;> rfl

theorem execReturnPkg_svnFloor (h : execReturnPkg e s = .next t) : t.fuses.svnFloor = s.fuses.svnFloor := by
  refine svnFloor_of_answer h (State_command_fuses Fuses.svnFloor ?_ State_toColdStart_fuses ..)
  exact State_leaveOwned_svnFloor s 7

theorem execRetire_svnFloor (h : execRetire e s = .next t) : t.fuses.svnFloor = s.fuses.svnFloor := by
  refine svnFloor_of_answer h ?_
  split
  · refine State_command_fuses Fuses.svnFloor ?_ State_toColdStart_fuses ..
    rw [done_st, State_burnCycle_fuses]
  · refine State_command_fuses Fuses.svnFloor ?_ State_toColdStart_fuses ..
    exact State_leaveOwned_svnFloor s 15

end

/-- With `SVN_AUTO` 0 no command but RAISE-SVN changes the floor. -/
theorem exec_svnFloor {c : Instr} {s t : State} (h : exec c s = .next t) (hauto : s.profile.work.svnAuto = false)
    (hc : ∀ e n, c ≠ .raiseSvn e n) : t.fuses.svnFloor = s.fuses.svnFloor := by
  cases hburn : mayBurn c with
  | false => exact congrArg Fuses.svnFloor (exec_fuses h hburn)
  | true =>
    cases c
    case pairBind => exact execPairBind_svnFloor h
    case takeOwnership => exact execTakeOwnership_svnFloor h
    case rotateOwner => exact execRotateOwner_svnFloor h
    case returnPkg => exact execReturnPkg_svnFloor h
    case retire => exact execRetire_svnFloor h
    case readyAssert => exact congrArg Fuses.svnFloor (execReadyAssert_manual h hauto)
    case raiseSvn e n => exact absurd rfl (hc e n)
    all_goals cases hburn

theorem State_raiseFloor_pkg (s : State) : s.raiseFloor.pkg = s.pkg := by
  unfold State.raiseFloor
  split <;> rfl

theorem State_readyCold_readyPin {s : State} (hquiet : s.pkg.quiet = 0) : s.readyCold.readyPin = true := by
  unfold State.readyCold
  rw [if_neg (not_not_intro hquiet), State.readyPin, State_raiseFloor_pkg]
  simp [hquiet]

theorem State_readyCold_svnFloor {s : State} (hquiet : s.pkg.quiet = 0) : s.readyCold.fuses.svnFloor =
    if s.profile.work.svnAuto then max s.fuses.svnFloor s.pkg.fwSvn else s.fuses.svnFloor := by
  unfold State.readyCold
  rw [if_neg (not_not_intro hquiet)]
  exact State_raiseFloor_svnFloor _

theorem execReadyAssert_starting {s : State} (hphase : s.pkg.phase = .starting) :
    execReadyAssert s = .next s.readyCold := by
  unfold execReadyAssert
  rw [hphase]
  rfl

theorem raiseSvn_commanded {s : State} {e : Envelope} (h : s.commanded e 0x13 [3] qNo s.fuses.owner) :
    (s.pkg.fwSvn < beAt e.args 0 1 → exec (.raiseSvn e (beAt e.args 0 1)) s = .next (s.answered e 0x13 0x0C (beBytes 4 1))) ∧
    (beAt e.args 0 1 ≤ s.pkg.fwSvn → ∃ t : State, exec (.raiseSvn e (beAt e.args 0 1)) s = .next t ∧
      t.fuses = { s.fuses with svnFloor := max s.fuses.svnFloor (beAt e.args 0 1) }) := by
  have hexec : exec (.raiseSvn e (beAt e.args 0 1)) s = .next (s.command e 0x13 [3] qNo s.fuses.owner true
      (fun s => if s.pkg.fwSvn < beAt e.args 0 1 then refused s 0x0C 1
        else done { s with fuses := { s.fuses with svnFloor := max s.fuses.svnFloor (beAt e.args 0 1) } } []) id) := by
    rw [← beq_self_eq_true (beAt e.args 0 1)]
    exact answer_commanded h _
  refine ⟨fun hover => ?_, fun hle => ⟨_, hexec, ?_⟩⟩
  · rw [hexec, State_command_refused h rfl _ (if_pos hover) (by decide)]
    rfl
  · rw [State_command_done h rfl _ (if_neg (Nat.not_lt.2 hle))]
    exact State_answered_fuses _ e 0x13 0 []

/-- Settles O58: of the commands that may burn a fuse at all (`exec_fuses`), only READY and RAISE-SVN touch the floor, and
READY only where `SVN_AUTO` is 1. -/
theorem svnFloorRises : Obligations.SvnFloorRises := by
  refine ⟨rfl, fun s hphase hquiet => ?_, ?_, fun c s t h hauto hne => ?_⟩
  · exact ⟨s.readyCold, execReadyAssert_starting hphase, State_readyCold_readyPin hquiet, State_readyCold_svnFloor hquiet⟩
  · rintro s e _ h rfl
    exact raiseSvn_commanded h
  · exact Classical.byContradiction fun hc => hne (exec_svnFloor h hauto fun e n hcn => hc ⟨e, n, hcn⟩)

end Sys2Proof.Machine
end

/-! ## Steps and commands (01 R13; 15 R472, R492; 16 R499 to R501) -/

section
namespace Sys2Proof.Machine
open Sys2Proof

/-! ### What a command answers (R13) -/

/-- A command answers by whether the units it names exist (R13). -/
theorem exec_eq_answer (c : Instr) (s : State) : ∃ t, exec c s = answer (WellFormed c) t := by
  cases c <;> exact ⟨_, rfl⟩

/-- Settles O55: every row of the table answers by whether the units that its command names exist. -/
theorem commandsComplete : Obligations.CommandsComplete := by
  refine ⟨fun c s => ?_, fun s hidle => by rw [step, hidle]⟩
  obtain ⟨t, ht⟩ := exec_eq_answer c s
  exact ⟨fun hwf => ⟨t, by rw [ht, hwf]; rfl⟩, fun hwf => by rw [ht, hwf]; rfl⟩

/-- Settles O54: taking the command at the front is what a step is. -/
theorem stepRunsTheFront : Obligations.StepRunsTheFront := fun _ _ _ => rfl

/-! ### What a step burns (R472, R492, R499 to R501) -/

/-- What a step may make of the fuses `a`: they are burned as the rules allow, and a legal code stays legal. -/
def Fuses.moves (a b : Fuses) : Prop := a.burned b ∧ (a.legal = true → b.legal = true)

theorem Fuses_moves_refl (a : Fuses) : a.moves a :=
  ⟨⟨.inl rfl, Nat.le_refl _, Nat.le_refl _, Nat.le_refl _, rfl, rfl, rfl, .inl rfl, .inl rfl⟩, id⟩

/-- The life cycle takes a step of R492, from OWNED on without another owner. -/
theorem Fuses_moves_lcs {a : Fuses} {n : Nat} (h : (a.lcs, n) ∈ lifeCycle) : a.moves { a with lcs := n } := by
  refine ⟨⟨.inr h, Nat.le_refl _, Nat.le_refl _, Nat.le_refl _, rfl, rfl, rfl, .inl rfl, .inl rfl⟩, fun _ => ?_⟩
  simp only [lifeCycle, List.mem_cons, Prod.mk.injEq, List.not_mem_nil, or_false] at h
  rcases h with ⟨_, rfl⟩ | ⟨_, rfl⟩ | ⟨_, rfl⟩ | ⟨_, rfl⟩ <;> rfl

theorem Fuses_moves_owned {a : Fuses} {o : Option Nat} (h : a.lcs = 1) : a.moves { a with lcs := 3, owner := o } :=
  ⟨⟨.inr (h ▸ List.mem_cons_self), Nat.le_refl _, Nat.le_refl _, Nat.le_refl _, rfl, rfl, rfl, .inr (.inr ⟨h, rfl⟩), .inl rfl⟩,
    fun _ => rfl⟩

theorem Fuses_moves_rotated (a : Fuses) (o p : Option Nat) :
    a.moves { a with owner := o, prevOwner := p, rotations := a.rotations + 1 } :=
  ⟨⟨.inl rfl, Nat.le_succ _, Nat.le_refl _, Nat.le_refl _, rfl, rfl, rfl, .inr (.inl (Nat.lt_succ_self _)), .inl rfl⟩, id⟩

theorem Fuses_moves_bound (a : Fuses) (seed : Option Nat) : a.moves { a with pairSeed := seed, bindings := a.bindings + 1 } :=
  ⟨⟨.inl rfl, Nat.le_refl _, Nat.le_succ _, Nat.le_refl _, rfl, rfl, rfl, .inl rfl, .inr (Nat.lt_succ_self _)⟩, id⟩

theorem Fuses_moves_floor {a : Fuses} {n : Nat} (h : a.svnFloor ≤ n) : a.moves { a with svnFloor := n } :=
  ⟨⟨.inl rfl, Nat.le_refl _, Nat.le_refl _, h, rfl, rfl, rfl, .inl rfl, .inl rfl⟩, id⟩

/-- A command moves the fuses as its effect does where the life cycle allows it (R541 to R543). -/
theorem State_command_moves {s : State} {f : State → CmdOut} {after : State → State} {states : List Nat}
    (hf : states.contains s.fuses.lcs = true → s.fuses.moves (f s).st.fuses)
    (hafter : ∀ t, (after t).fuses = t.fuses) (e : Envelope) (code : Nat) (q : QCol) (signer : Option Nat) (own : Bool) :
    s.fuses.moves (s.command e code states q signer own f after).fuses := by
  have hs := Fuses_moves_refl s.fuses
  by_cases hlcs : states.contains s.fuses.lcs = true
  · by_cases hlen : e.lenOk = true <;> cases own <;>
      simp [State.command, State.request, hafter, hlen, refused, apply_ite s.fuses.moves, hs, hf hlcs,
        -List.contains_eq_mem]
  · simp [State.command, State.request, hlcs, hs, -List.contains_eq_mem]

theorem State_pairBind_moves (s : State) (partner : List Nat) (wseed : Nat) (unwrapOk : Bool) :
    s.fuses.moves (s.pairBind partner wseed unwrapOk).st.fuses := by
  have hs := Fuses_moves_refl s.fuses
  simp only [State.pairBind]
  split
  · exact hs
  · split
    · exact hs
    · split
      · exact hs
      · split
        · exact hs
        · split
          · exact Fuses_moves_bound ..
          · exact Fuses_moves_bound ..

theorem State_leaveOwned_moves {s : State} {lcs : Nat} (h : (s.fuses.lcs, lcs) ∈ lifeCycle) :
    s.fuses.moves (s.leaveOwned lcs).st.fuses := by
  unfold State.leaveOwned
  split
  · exact Fuses_moves_refl _
  · rw [done_st, State_burnCycle_fuses]
    exact Fuses_moves_lcs h

theorem State_raiseFloor_moves {s t : State} (h : t.fuses = s.fuses) : s.fuses.moves t.raiseFloor.fuses := by
  rw [← h]
  unfold State.raiseFloor
  split
  · next h => exact Fuses_moves_floor (Nat.le_of_lt h.2)
  · exact Fuses_moves_refl _

theorem State_readyCold_moves (s : State) : s.fuses.moves s.readyCold.fuses := by
  simp only [State.readyCold]
  split
  · exact Fuses_moves_refl _
  · exact State_raiseFloor_moves rfl

theorem ite_raiseFloor_moves {s t : State} {p : Prop} [Decidable p] (h : t.fuses = s.fuses) :
    s.fuses.moves (if p then t.raiseFloor else t).fuses := by
  split
  · exact State_raiseFloor_moves h
  · exact h ▸ Fuses_moves_refl _

theorem State_readyWarm_moves (s : State) : s.fuses.moves s.readyWarm.fuses :=
  ite_raiseFloor_moves (by simp)

section
variable {s t : State}

theorem moves_of_answer {ok : Bool} {u : State} (h : answer ok u = .next t) (hu : s.fuses.moves u.fuses) :
    s.fuses.moves t.fuses := by
  obtain ⟨_, rfl⟩ := answer_next.1 h
  exact hu

theorem execReadyAssert_moves (h : execReadyAssert s = .next t) : s.fuses.moves t.fuses := by
  refine moves_of_answer h ?_
  split
  · exact State_readyCold_moves s
  · exact State_readyWarm_moves s
  · exact Fuses_moves_refl _

variable {e : Envelope}

theorem execPairBind_moves {partner : List Nat} {wseed : Nat} {unwrapOk : Bool}
    (h : execPairBind e partner wseed unwrapOk s = .next t) : s.fuses.moves t.fuses :=
  moves_of_answer h (State_command_moves (fun _ => State_pairBind_moves s partner wseed unwrapOk) (fun _ => rfl) ..)

theorem execTakeOwnership_moves {voucherOk : Bool} (h : execTakeOwnership e voucherOk s = .next t) :
    s.fuses.moves t.fuses := by
  refine moves_of_answer h (State_command_moves (fun hlcs => ?_) State_toColdStart_fuses ..)
  split
  · exact Fuses_moves_refl _
  · rw [done_st, State_burnCycle_fuses]
    exact Fuses_moves_owned (by simpa using hlcs)

theorem execRotateOwner_moves {d : Nat} (h : execRotateOwner e d s = .next t) : s.fuses.moves t.fuses := by
  refine moves_of_answer h (State_command_moves (fun _ => ?_) (fun _ => rfl) ..)
  split
  · exact Fuses_moves_refl _
  · exact Fuses_moves_rotated ..

theorem execRaiseSvn_moves {n : Nat} (h : execRaiseSvn e n s = .next t) : s.fuses.moves t.fuses := by
  refine moves_of_answer h (State_command_moves (fun _ => ?_) (fun _ => rfl) ..)
  split
  · exact Fuses_moves_refl _
  · exact Fuses_moves_floor (Nat.le_max_left ..)

theorem execReturnPkg_moves (h : execReturnPkg e s = .next t) : s.fuses.moves t.fuses := by
  refine moves_of_answer h (State_command_moves (fun hlcs => State_leaveOwned_moves ?_) State_toColdStart_fuses ..)
  simp only [List.contains_cons, List.contains_nil, Bool.or_false, beq_iff_eq] at hlcs
  rw [hlcs]
  decide

theorem execRetire_moves (h : execRetire e s = .next t) : s.fuses.moves t.fuses := by
  refine moves_of_answer h ?_
  split
  · next hlcs =>
    refine State_command_moves (fun _ => ?_) State_toColdStart_fuses ..
    rw [done_st, State_burnCycle_fuses]
    exact Fuses_moves_lcs (by rw [hlcs]; decide)
  · next hne =>
    refine State_command_moves (fun hlcs => State_leaveOwned_moves ?_) State_toColdStart_fuses ..
    have howned : s.fuses.lcs = 3 := by simpa [hne] using hlcs
    rw [howned]
    decide

end

/-- Every command moves the fuses as the rules allow. -/
theorem exec_moves {c : Instr} {s t : State} (h : exec c s = .next t) : s.fuses.moves t.fuses := by
  cases hburn : mayBurn c with
  | false => rw [exec_fuses h hburn]; exact Fuses_moves_refl _
  | true =>
    cases c
    case pairBind => exact execPairBind_moves h
    case takeOwnership => exact execTakeOwnership_moves h
    case rotateOwner => exact execRotateOwner_moves h
    case returnPkg => exact execReturnPkg_moves h
    case retire => exact execRetire_moves h
    case raiseSvn => exact execRaiseSvn_moves h
    case readyAssert => exact execReadyAssert_moves h
    all_goals cases hburn

theorem step_moves {s t : State} (h : step s = .next t) : s.fuses.moves t.fuses := by
  unfold step at h
  split at h
  · cases h
    exact Fuses_moves_refl _
  · next c rest _ => exact exec_moves (s := { s with pending := rest }) h

/-- Settles O57: every command that may burn a fuse burns it as R492 and R499 to R501 allow (`exec_moves`), and every other
one burns none (`exec_fuses`). -/
theorem fusesOnlyBurn : Obligations.FusesOnlyBurn := by
  refine ⟨fun s t h => step_moves h, fun c s t h hne => ?_⟩
  have hburn : mayBurn c = true := by
    cases hburn : mayBurn c with
    | false => exact absurd (exec_fuses h hburn) hne
    | true => rfl
  cases c <;> cases hburn <;> simp

end Sys2Proof.Machine
end

/-! ## The queue of commands is its own (01; log 15)

Only `step` takes from the queue: every operation of the model leaves it as it is. One lemma per operation, in the order of
the model, each from those of the operations it calls; then every command (`exec_pending`). -/

section
namespace Sys2Proof.Machine
open Sys2Proof

@[simp] theorem foldl_pending {α : Type} (f : State → α → State) (l : List α) (s : State)
    (hf : ∀ s a, (f s a).pending = s.pending) : (l.foldl f s).pending = s.pending :=
  foldl_keeps State.pending hf l s

@[simp] theorem pending_ite (p : Prop) [Decidable p] (a b : State) :
    (if p then a else b).pending = if p then a.pending else b.pending :=
  apply_ite State.pending p a b

theorem ite_pending {c : Prop} [Decidable c] {a b : State} {x : List Instr} (ha : a.pending = x) (hb : b.pending = x) :
    (if c then a else b).pending = x := by
  split
  · exact ha
  · exact hb

/-! ### Effects of queued rows -/

/-- A body of a queued row leaves the commands that wait. -/
def KeepsPending (body : State → Core → Flight → Eff (State × List DCmd)) : Prop :=
  ∀ s c f, (body s c f).gives (fun r => r.1.pending = s.pending)

section
variable (s : State)

/-! ### Halting a core and stepping its counters -/

@[simp] theorem State_modPlane_pending (k e p : Nat) (f : Plane → Plane) : (s.modPlane k e p f).pending = s.pending := by
  simp [State.modPlane]

@[simp] theorem State_drew_pending : s.drew.pending = s.pending := by simp [State.drew]

@[simp] theorem State_haltCore_pending (k ctx idx depth reason detail : Nat) :
    (s.haltCore k ctx idx depth reason detail).pending = s.pending := by
  simp [State.haltCore]

@[simp] theorem State_haltDue_pending (k reason detail : Nat) : (s.haltDue k reason detail).pending = s.pending := by
  simp [State.haltDue]

@[simp] theorem State_haltEntry_pending (k : Nat) (q : QEntry) (reason detail : Nat) :
    (s.haltEntry k q reason detail).pending = s.pending := by
  simp [State.haltEntry]

@[simp] theorem State_signal_pending (k i n ctx idx depth : Nat) : (s.signal k i n ctx idx depth).pending = s.pending := by
  simp [State.signal]

@[simp] theorem State_depositStep_pending (k i : Nat) : (s.depositStep k i).pending = s.pending := by
  simp [State.depositStep]

/-! ### Issue -/

@[simp] theorem State_meetStop_pending (k : Nat) : (s.meetStop k).pending = s.pending := by
  simp only [State.meetStop]
  split <;> simp

@[simp] theorem State_settle_pending (k : Nat) : (s.settle k).pending = s.pending := by simp [State.settle]

@[simp] theorem State_issued_pending (k : Nat) (i : MInstr) (c0 c1 : Core) : (s.issued k i c0 c1).pending = s.pending := by
  simp [State.issued]

@[simp] theorem State_ccIssue_pending (k : Nat) (isOp : MInstr → Bool) (body : MInstr → Core → Core) :
    (s.ccIssue k isOp body).pending = s.pending := by
  simp only [State.ccIssue]
  repeat' split
  all_goals simp

@[simp] theorem State_drewWakes_pending (s t : State) (k : Nat) : (s.drewWakes t k).pending = s.pending := by
  simp [State.drewWakes]

@[simp] theorem State_windowIssue_pending (k : Nat) (undo : Bool) (body : MInstr → Core → Core) :
    (s.windowIssue k undo body).pending = s.pending := by
  simp only [State.windowIssue]
  repeat' split
  all_goals simp

/-! ### The engine queues (07 R242 to R244) -/

@[simp] theorem State_push_pending (k : Nat) (isOp : MInstr → Bool) : (s.push k isOp).pending = s.pending := by
  simp [State.push]

@[simp] theorem State_enter_pending (k : Nat) (tm : Timing) : (s.enter k tm).pending = s.pending := by simp [State.enter]

@[simp] theorem State_timed_pending (k : Nat) (cls : Option Nat) (tm : Timing) :
    (s.timed k cls tm).pending = s.pending := by
  simp only [State.timed]
  repeat' split
  all_goals simp

theorem State_runQueued_pending (s : State) {body : State → Core → Flight → Eff (State × List DCmd)}
    (hb : KeepsPending body) (k : Nat) (isOp : MInstr → Bool) (tm : Timing) : (s.runQueued k isOp tm body).pending = s.pending := by
  unfold State.runQueued
  split
  · rfl
  · split
    · rfl
    · next f _ =>
      dsimp only
      split
      · simp
      · have h := hb (s.enter k tm) ((s.enter k tm).core k) f
        split
        · rfl
        · simp
        · next hr =>
          rw [hr] at h
          simpa using h

@[simp] theorem State_queued_pending (s : State) {body : State → Core → Flight → Eff (State × List DCmd)}
    (hb : KeepsPending body) (k : Nat) (ph : Sys2Proof.Phase) (isOp : MInstr → Bool) : (s.queued k ph isOp body).pending = s.pending := by
  cases ph with
  | issue => exact State_push_pending s k isOp
  | run tm => exact State_runQueued_pending s hb k isOp tm

@[simp] theorem coreBody_keepsPending (k : Nat) (f : State → Core → Flight → Eff Core) : KeepsPending (coreBody k f) :=
  fun _ _ _ => Eff_gives_bind fun _ => rfl

/-! ### Units of the package, pages, ports and fault counts -/

@[simp] theorem State_modCluster_pending (d l : Nat) (f : Core → Core) : (s.modCluster d l f).pending = s.pending :=
  foldl_pending _ _ _ fun s k => State_modCore_pending s k f

@[simp] theorem State_endBallast_pending (k : Nat) (es : List Nat) : (s.endBallast k es).pending = s.pending := by
  simp [State.endBallast]

@[simp] theorem State_keepBallast_pending (k e : Nat) : (s.keepBallast k e).pending = s.pending := by
  unfold State.keepBallast
  split <;> simp

@[simp] theorem State_startWake_pending (d c : Nat) : (s.startWake d c).pending = s.pending := by
  simp only [State.startWake]
  split <;> simp

@[simp] theorem State_takeRun_pending (st a n : Nat) : (s.takeRun st a n).pending = s.pending := by simp [State.takeRun]
@[simp] theorem State_giveRun_pending (st a n : Nat) : (s.giveRun st a n).pending = s.pending := by simp [State.giveRun]

theorem State_reserve_pending {s t : State} {d : Option Nat} {n : Nat} {p : Parcel}
    (h : s.reserve d n = some (t, p)) : t.pending = s.pending := by
  simp only [State.reserve, Option.bind_eq_some_iff] at h
  obtain ⟨a, _, b, _, h⟩ := h
  split at h
  · cases h; rfl
  · obtain ⟨q, _, h⟩ := Option.map_eq_some_iff.1 h
    cases h
    simp

@[simp] theorem State_wakeStacks_pending (l : List Nat) : (s.wakeStacks l).pending = s.pending := by simp [State.wakeStacks]
@[simp] theorem State_freeParcel_pending (p : Parcel) : (s.freeParcel p).pending = s.pending := by simp [State.freeParcel]
@[simp] theorem State_dropAt_pending (n : Nat) : (s.dropAt n).pending = s.pending := by simp [State.dropAt]
@[simp] theorem State_discard_pending (n : Nat) (w : Wire) : (s.discard n w).pending = s.pending := by simp [State.discard]

@[simp] theorem State_nextIv_pending (p tsid : Nat) : (s.nextIv p tsid).1.pending = s.pending := by
  simp only [State.nextIv]
  split <;> simp

@[simp] theorem State_sendSeg_pending (p addr : Nat) (h : Hdr) (body : List Byte) :
    (s.sendSeg p addr h body).pending = s.pending := by
  simp [State.sendSeg]

@[simp] theorem State_sendAt_pending (p addr : Nat) (h : Hdr) (body : List Byte) :
    (s.sendAt p addr h body).pending = s.pending := by
  simp [State.sendAt]

@[simp] theorem State_mgmtReply_pending (port addr tsid mop mtag status : Nat) (fields : List Byte) :
    (s.mgmtReply port addr tsid mop mtag status fields).pending = s.pending := by
  simp [State.mgmtReply]

@[simp] theorem State_sendPair_pending (pop : Nat) (fields : List (Nat × Nat)) (data : List Byte) :
    (s.sendPair pop fields data).pending = s.pending := by
  simp [State.sendPair]

@[simp] theorem State_localFault_pending : s.localFault.pending = s.pending := by simp [State.localFault]
@[simp] theorem State_countNospare_pending : s.countNospare.pending = s.pending := by simp [State.countNospare]
@[simp] theorem State_countLostUnit_pending : s.countLostUnit.pending = s.pending := by simp [State.countLostUnit]

@[simp] theorem State_openWord_pending (tag bitsN : Nat) : (s.openWord tag bitsN).1.pending = s.pending := by
  simp [State.openWord]

/-! ### Deposits (05 R164 to R171) -/

@[simp] theorem State_addDeposit_pending (d : Deposit) : (s.addDeposit d).pending = s.pending := by simp [State.addDeposit]

@[simp] theorem State_takeCredit_pending (d w n : Nat) : (s.takeCredit d w n).pending = s.pending := by
  simp [State.takeCredit]

theorem creditWalk_pending (l seen : List Deposit) (s : State) : (creditWalk l seen s).pending = s.pending := by
  induction l generalizing seen s with
  | nil => rfl
  | cons d r ih =>
    unfold creditWalk
    split
    · exact ih _ _
    · dsimp only
      split <;> simp [ih]

@[simp] theorem State_tryCredit_pending (s : State) : s.tryCredit.pending = s.pending := creditWalk_pending _ _ s

@[simp] theorem State_haltFlight_pending (k fl reason detail : Nat) :
    (s.haltFlight k fl reason detail).pending = s.pending := by
  simp only [State.haltFlight]
  split <;> simp

@[simp] theorem State_dropDeposit_pending (id : Nat) : (s.dropDeposit id).pending = s.pending := by simp [State.dropDeposit]

theorem State_landAt_pending {s : State} {d : Deposit} {lines : List (Nat × List Byte × Nat)} {k : Nat} {t : State}
    (h : s.landAt d lines k = some t) : t.pending = s.pending := by
  simp only [State.landAt] at h
  split at h
  · cases h; rfl
  · split at h
    · cases h
    · cases h; simp
    · cases h; simp

theorem landAll_pending {d : Deposit} {lines : List (Nat × List Byte × Nat)} {ks : List Nat} {s t : State}
    (h : landAll d lines ks s = some t) : t.pending = s.pending := by
  induction ks generalizing s with
  | nil => cases h; rfl
  | cons k r ih =>
    obtain ⟨u, hu, h⟩ := Option.bind_eq_some_iff.1 h
    exact (ih h).trans (State_landAt_pending hu)

@[simp] theorem State_land_pending (s : State) (d : Deposit) : (s.land d).pending = s.pending := by
  unfold State.land
  split
  · split
    · rfl
    · simp
    · split
      · next h => simpa using landAll_pending h
      · rfl
  · split
    · next h => simpa using landAll_pending h
    · rfl
  · split
    · next h => simpa using landAll_pending h
    · rfl

@[simp] theorem State_enterSender_pending (d : Deposit) (tm : Timing) : (s.enterSender d tm).pending = s.pending := by
  simp only [State.enterSender]
  split <;> simp

@[simp] theorem State_leaveSender_pending (d : Deposit) (tm : Timing) : (s.leaveSender d tm).pending = s.pending := by
  simp only [State.leaveSender]
  split <;> simp

@[simp] theorem recheck_pending (k : Nat) (l : List Deposit) (s : State) : (recheck k l s).pending = s.pending := by
  induction l generalizing s with
  | nil => rfl
  | cons d r ih =>
    rw [recheck, ih]
    split
    · split
      · split
        · split <;> simp
        · rfl
      · rfl
    · rfl

@[simp] theorem sendBody_keepsPending (k : Nat) : KeepsPending (sendBody k) := by
  intro s c f
  unfold sendBody
  dsimp only
  split
  · trivial
  · split
    · trivial
    · refine Eff_gives_bind fun _ => ?_
      split <;> simp [State.addDeposit]

@[simp] theorem emitBody_keepsPending (k : Nat) : KeepsPending (emitBody k) := by
  intro s c f
  unfold emitBody
  dsimp only
  split
  · trivial
  · split
    · trivial
    · split
      · trivial
      · split
        · trivial
        · exact Eff_gives_bind fun _ => by simp

/-! ### Drains (04 R124, R125) -/

theorem State_depositPartial_pending (s : State) (k : Nat) (f : Flight) (slot m j : Nat) (last : Bool) :
    (s.depositPartial k f slot m j last).gives (fun t => t.pending = s.pending) := by
  refine Eff_gives_bind fun _ => Eff_gives_bind fun _ => ?_
  split
  · trivial
  · dsimp only
    split <;> simp

@[simp] theorem State_drainOn_pending (s : State) (k e : Nat) : (s.drainOn k e).pending = s.pending := by
  simp only [State.drainOn]
  split
  · rfl
  · split
    · split
      · rfl
      · split <;> simp
    · split
      · split
        · rfl
        · split
          · rfl
          · simp
          · split <;> simp
      · split
        · rfl
        · split
          · rfl
          · simp
          · next hr => simpa using Eff_gives_elim hr (State_depositPartial_pending s _ _ _ _ _ _)
      · rfl

@[simp] theorem State_drainStep_pending (s : State) (k e : Nat) (tm : Timing) : (s.drainStep k e tm).pending = s.pending := by
  simp [State.drainStep]

/-! ### Repair records -/

@[simp] theorem State_addDue_pending (d r : Nat) : (s.addDue d r).pending = s.pending := by simp [State.addDue]

/-! ### The Fold and its ledger -/

@[simp] theorem State_sendRecord_pending (r : PairRecord) : (s.sendRecord r).pending = s.pending := by
  simp [State.sendRecord]

@[simp] theorem State_applied_pending (n : Nat) : (s.applied n).pending = s.pending := by simp [State.applied]

@[simp] theorem State_await_pending (n kind stream incarn seq : Nat) :
    (s.await n kind stream incarn seq).pending = s.pending := by
  simp [State.await]

@[simp] theorem State_ledgerAs_pending (e : Entry) (code : Nat) : (s.ledgerAs e code).pending = s.pending := by
  simp [State.ledgerAs]

@[simp] theorem State_ledger_pending (e : Entry) : (s.ledger e).pending = s.pending := by simp [State.ledger]

@[simp] theorem State_commitEntry_pending (cseq : Nat) (f : Entry → Entry) :
    (s.commitEntry cseq f).pending = s.pending := by
  simp only [State.commitEntry]
  split <;> simp

@[simp] theorem State_modRefs_pending (tenant ep : Nat) (f : Nat → Nat) : (s.modRefs tenant ep f).pending = s.pending := by
  simp [State.modRefs]

@[simp] theorem State_freeVersions_pending : s.freeVersions.pending = s.pending := by simp [State.freeVersions]

@[simp] theorem State_takeRefs_pending (e : Entry) : (s.takeRefs e).pending = s.pending := by
  simp only [State.takeRefs]
  split <;> simp

@[simp] theorem State_dropRefs_pending (e : Entry) : (s.dropRefs e).pending = s.pending := by
  simp only [State.dropRefs]
  split <;> simp

@[simp] theorem State_clearFrame_pending (cseq : Nat) : (s.clearFrame cseq).pending = s.pending := by
  simp only [State.clearFrame]
  split <;> simp

@[simp] theorem State_requeue_pending (cseq order : Nat) (f : Entry → Entry) :
    (s.requeue cseq order f).pending = s.pending := by
  simp [State.requeue]

@[simp] theorem State_countFold_pending (f : FoldRegs → FoldRegs) : (s.countFold f).pending = s.pending := by
  simp [State.countFold]

@[simp] theorem State_noteReplay_pending (cseq : Nat) : (s.noteReplay cseq).pending = s.pending := by
  simp [State.noteReplay]

@[simp] theorem State_completeAs_pending (cseq : Nat) (st : ResStatus) (wreason : Nat) (payload : List Byte) :
    (s.completeAs cseq st wreason payload).pending = s.pending := by
  simp only [State.completeAs]
  split <;> simp

@[simp] theorem State_admitTime_pending (port time : Nat) : (s.admitTime port time).pending = s.pending := by
  simp [State.admitTime]

@[simp] theorem State_refuse_pending (port addr tsid stream incarn seq reason detail time : Nat) :
    (s.refuse port addr tsid stream incarn seq reason detail time).pending = s.pending := by
  simp [State.refuse]

@[simp] theorem State_accept_pending (port addr tsid stream incarn seq flags cseq time : Nat) :
    (s.accept port addr tsid stream incarn seq flags cseq time).pending = s.pending := by
  simp [State.accept]

@[simp] theorem State_noteAck_pending (cseq p : Nat) : (s.noteAck cseq p).pending = s.pending := by simp [State.noteAck]
@[simp] theorem State_countDup_pending (port : Nat) : (s.countDup port).pending = s.pending := by simp [State.countDup]

@[simp] theorem State_acceptDup_pending (port addr tsid stream incarn seq time : Nat) :
    (s.acceptDup port addr tsid stream incarn seq time).pending = s.pending := by
  simp only [State.acceptDup]
  split <;> simp

@[simp] theorem State_doCancel_pending (e : Entry) (tseq : Nat) : (s.doCancel e tseq).pending = s.pending := by
  simp only [State.doCancel]
  repeat' split
  all_goals simp

@[simp] theorem State_admitEntry_pending (e : Entry) : (s.admitEntry e).pending = s.pending := by
  simp only [State.admitEntry]
  split <;> simp

@[simp] theorem State_dropCopies_pending (stream incarn seq : Nat) :
    (s.dropCopies stream incarn seq).pending = s.pending := by
  simp [State.dropCopies]

@[simp] theorem State_confirm_pending (c : Commit) (time : Nat) : (s.confirm c time).pending = s.pending := by
  simp [State.confirm]

@[simp] theorem State_progress_pending (c : Commit) (time : Nat) : (s.progress c time).pending = s.pending := by
  simp [State.progress]

@[simp] theorem State_hubConfirms_pending (c : Commit) (hub time : Nat) :
    (s.hubConfirms c hub time).pending = s.pending := by
  simp [State.hubConfirms]

@[simp] theorem State_dropHub_pending (h : Nat) : (s.dropHub h).pending = s.pending := by simp [State.dropHub]
@[simp] theorem State_countStrike_pending : s.countStrike.pending = s.pending := by simp [State.countStrike]

@[simp] theorem State_strike_pending (c : Commit) (time : Nat) : (s.strike c time).pending = s.pending := by
  simp [State.strike]

/-! ### The routine store -/

@[simp] theorem State_moveCode_pending (d line : Nat) : (s.moveCode d line).pending = s.pending := by simp [State.moveCode]

@[simp] theorem State_noteStaging_pending (h n : Nat) : (s.noteStaging h n).pending = s.pending := by
  simp [State.noteStaging]

@[simp] theorem State_nextEpoch_pending : s.nextEpoch.pending = s.pending := by simp [State.nextEpoch]

/-! ### Admission of WORK (11 R341 to R358) -/

@[simp] theorem State_dropParts_pending (n : Nat) (h : Hdr) : (s.dropParts n h).pending = s.pending := by
  simp [State.dropParts]

@[simp] theorem State_copySeg_pending (g : SegIn) : (s.copySeg g).pending = s.pending := by simp [State.copySeg]
@[simp] theorem State_storeSeg_pending (g : SegIn) : (s.storeSeg g).pending = s.pending := by simp [State.storeSeg]

@[simp] theorem State_beginCommit_pending (g : SegIn) (op : WorkOp) (ip rp : Parcel) :
    (s.beginCommit g op ip rp).pending = s.pending := by
  simp [State.beginCommit]

/-- A verdict that takes a state takes one with the fuses of `s`. -/
def Verdict.keepsPending (s : State) : Verdict → Prop
  | .take t _ _ _ => t.pending = s.pending
  | _ => True

theorem Verdict_keepsPending_ite {s : State} {c : Prop} [Decidable c] {v w : Verdict} (hv : v.keepsPending s)
    (hw : w.keepsPending s) : (if c then v else w).keepsPending s := by
  split
  · exact hv
  · exact hw

theorem State_resources_keepsPending (s : State) (op : WorkOp) (h : Hdr) (backlog : Nat) :
    (s.resources op h backlog).keepsPending s := by
  refine Verdict_keepsPending_ite trivial (Verdict_keepsPending_ite trivial ?_)
  split
  · trivial
  · next h1 =>
    split
    · trivial
    · next h2 =>
      exact Verdict_keepsPending_ite trivial (Verdict_keepsPending_ite trivial
        ((State_reserve_pending h2).trans (State_reserve_pending h1)))

theorem Stream_admits_keepsPending (s : State) {x : Stream} {opc : Nat} {h : Hdr} {v : Verdict}
    (hv : x.admits opc h = some v) : v.keepsPending s := by
  cases v with
  | take t op ip rp =>
    simp only [Stream.admits] at hv
    repeat' split at hv
    all_goals simp at hv
  | _ => trivial

theorem State_tests_keepsPending (s : State) (h : Hdr) (b : List Byte) (backlog : Nat) :
    (s.tests h b backlog).keepsPending s := by
  unfold State.tests
  dsimp only
  split
  · trivial
  · split
    · next hv => exact Stream_admits_keepsPending s hv
    · split
      · exact Verdict_keepsPending_ite trivial (Verdict_keepsPending_ite trivial trivial)
      · refine Verdict_keepsPending_ite trivial (Verdict_keepsPending_ite trivial ?_)
        split
        · trivial
        · exact State_resources_keepsPending s _ h backlog

theorem State_answerFrame_pending (s : State) (g : SegIn) {v : Verdict} (hv : v.keepsPending s) :
    (s.answerFrame g v).pending = s.pending := by
  cases v with
  | take t op ip rp => exact (State_beginCommit_pending t g op ip rp).trans hv
  | _ => simp [State.answerFrame]

@[simp] theorem State_notePort_pending (g : SegIn) : (s.notePort g).pending = s.pending := by simp [State.notePort]

@[simp] theorem State_workFrame_pending (s : State) (op : Nat) (g : SegIn) : (s.workFrame op g).pending = s.pending := by
  have h (t : State) (b : List Byte) : (t.answerFrame g (t.tests g.hdr b g.backlog)).pending = t.pending :=
    State_answerFrame_pending t g (State_tests_keepsPending t g.hdr b g.backlog)
  simp [State.workFrame, h]

@[simp] theorem State_dropRack_pending (port : Nat) : (s.dropRack port).pending = s.pending := by simp [State.dropRack]
@[simp] theorem State_freeEntry_pending (e : Entry) : (s.freeEntry e).pending = s.pending := by simp [State.freeEntry]
@[simp] theorem State_closeStream_pending (n : Nat) : (s.closeStream n).pending = s.pending := by simp [State.closeStream]

@[simp] theorem State_releaseTo_pending (stream rseq : Nat) : (s.releaseTo stream rseq).pending = s.pending := by
  simp [State.releaseTo]

@[simp] theorem State_resultAck_pending (s : State) (op : Nat) (g : SegIn) {f : State → Nat → Nat → State}
    (hf : ∀ s n q, (f s n q).pending = s.pending) : (s.resultAck op g f).pending = s.pending := by
  simp [State.resultAck, hf]

/-! ### The life of a frame -/

@[simp] theorem State_makeReady_pending (cseq : Nat) : (s.makeReady cseq).pending = s.pending := by
  simp only [State.makeReady]
  split <;> simp

@[simp] theorem State_failBind_pending (cseq : Nat) (r : HaltRec) : (s.failBind cseq r).pending = s.pending := by
  simp [State.failBind]

@[simp] theorem State_moveProgram_pending (cseq : Nat) : (s.moveProgram cseq).pending = s.pending := by
  simp [State.moveProgram]

@[simp] theorem State_bindFrame_pending (e : Entry) (b : RunBody) : (s.bindFrame e b).pending = s.pending := by
  simp only [State.bindFrame]
  repeat' split
  all_goals simp

@[simp] theorem State_wakeFor_pending (s : State) (e : Entry) : (s.wakeFor e).pending = s.pending := by
  refine foldl_pending _ _ _ fun s k => ?_
  split <;> simp

@[simp] theorem State_runClusters_pending (s : State) (e : Entry) : (s.runClusters e).pending = s.pending := by
  refine foldl_pending _ _ _ fun s k => ?_
  split <;> simp

@[simp] theorem State_startFrame_pending (s : State) (e : Entry) (ws : List (Nat × Nat × Nat)) :
    (s.startFrame e ws).pending = s.pending := by
  simp [State.startFrame, State.modCore, State.setCore]

@[simp] theorem State_dispatch_pending (s : State) (e : Entry) (b : RunBody) : (s.dispatch e b).pending = s.pending := by
  simp only [State.dispatch]
  repeat' split
  all_goals simp

@[simp] theorem State_letRun_pending (cseq : Nat) : (s.letRun cseq).pending = s.pending := by simp [State.letRun]

@[simp] theorem State_deliverInput_pending (s : State) (e : Entry) (b : RunBody) : (s.deliverInput e b).pending = s.pending := by
  simp only [State.deliverInput]
  split <;> simp

@[simp] theorem State_stopAll_pending (cseq : Nat) : (s.stopAll cseq).pending = s.pending :=
  foldl_pending _ _ _ fun s k => State_modCore_pending s k stopHere

@[simp] theorem State_doubtCore_pending (k reason : Nat) : (s.doubtCore k reason).pending = s.pending := by
  simp [State.doubtCore]

@[simp] theorem State_haltRecord_pending (k : Nat) (same : List Nat) : (s.haltRecord k same).pending = s.pending := by
  simp only [State.haltRecord]
  split <;> simp

@[simp] theorem State_endDone_pending (e : Entry) (b : RunBody) : (s.endDone e b).pending = s.pending := by
  simp [State.endDone]

@[simp] theorem State_endHalted_pending (e : Entry) (r : HaltRec) : (s.endHalted e r).pending = s.pending := by
  simp [State.endHalted]

@[simp] theorem State_queueSweeps_pending (e : Entry) : (s.queueSweeps e).pending = s.pending := by simp [State.queueSweeps]

@[simp] theorem State_dualCheck_pending (cseq : Nat) : (s.dualCheck cseq).pending = s.pending := by
  simp only [State.dualCheck]
  repeat' split
  all_goals simp

@[simp] theorem State_sendDigest_pending (e : Entry) : (s.sendDigest e).pending = s.pending := by
  simp only [State.sendDigest]
  split <;> simp

@[simp] theorem State_complete_pending (e : Entry) : (s.complete e).pending = s.pending := by
  simp only [State.complete]
  split <;> simp

@[simp] theorem State_resultWritten_pending (e : Entry) : (s.resultWritten e).pending = s.pending := by
  simp only [State.resultWritten]
  split <;> simp

@[simp] theorem State_sendResult_pending (e : Entry) (p : Nat) : (s.sendResult e p).pending = s.pending := by
  simp [State.sendResult]

@[simp] theorem State_transmit_pending (s : State) (n : Nat) : (s.transmit n).pending = s.pending := by
  unfold State.transmit
  split
  · rfl
  · split
    · rfl
    · refine ite_pending rfl ?_
      rw [State_modFold_pending, State_sendResult_pending, State_commitEntry_pending]

@[simp] theorem State_resendAll_pending (s : State) (l : List Entry) : (s.resendAll l).pending = s.pending := by
  induction l generalizing s with
  | nil => rfl
  | cons e r ih =>
    rw [State.resendAll, ih]
    split
    · rw [State_modFold_pending, State_sendResult_pending]
    · rfl

@[simp] theorem State_remirror_pending (p : Parcel) (mirror : Bool) : (s.remirror p mirror).1.pending = s.pending := by
  simp only [State.remirror]
  repeat' split
  all_goals simp

@[simp] theorem State_countRepair_pending : s.countRepair.pending = s.pending := by simp [State.countRepair]
@[simp] theorem State_countLost_pending : s.countLost.pending = s.pending := by simp [State.countLost]

@[simp] theorem State_rewriteResult_pending (e : Entry) : (s.rewriteResult e).pending = s.pending := by
  simp [State.rewriteResult]

@[simp] theorem State_parcelError_pending (e : Entry) (input mirror both : Bool) :
    (s.parcelError e input mirror both).pending = s.pending := by
  simp [State.parcelError]

/-! ### BULK -/

@[simp] theorem State_reply_pending (dest : Place) (bop session name : Nat) (pos : Option Nat) (status detail : Nat)
    (payload : List Byte) : (s.reply dest bop session name pos status detail payload).pending = s.pending := by
  simp only [State.reply]
  repeat' split
  all_goals simp

@[simp] theorem State_replyLater_pending (l : List Nat) (name status detail : Nat) :
    (s.replyLater l name status detail).pending = s.pending := by
  simp [State.replyLater]

@[simp] theorem State_replyTo_pending (b : BulkIn) (pos : Option Nat) (status detail : Nat) :
    (s.replyTo b pos status detail).pending = s.pending := by
  simp [State.replyTo]

@[simp] theorem State_replyHeader_pending (b : BulkIn) : (s.replyHeader b).pending = s.pending := by
  simp [State.replyHeader]

@[simp] theorem State_replyNoSession_pending (b : BulkIn) : (s.replyNoSession b).pending = s.pending := by
  simp [State.replyNoSession]

@[simp] theorem State_bulkFrame_pending (s : State) (op : Nat) (b : BulkIn) {f : State → Nat → BHead → State}
    (hf : ∀ s t h, (f s t h).pending = s.pending) : (s.bulkFrame op b f).pending = s.pending := by
  simp only [State.bulkFrame]
  split
  · simp
  · split
    · rfl
    · split
      · simp
      · split
        · rfl
        · split
          · rfl
          · split
            · simp
            · split <;> simp [hf]

@[simp] theorem State_dropObj_pending (tenant target name : Nat) : (s.dropObj tenant target name).pending = s.pending := by
  simp [State.dropObj]

@[simp] theorem State_openSession_pending (b : BulkIn) (tenant : Nat) (h : BHead) :
    (s.openSession b tenant h).pending = s.pending := by
  simp only [State.openSession]
  split <;> simp

@[simp] theorem State_bulkOpen_pending (b : BulkIn) (tenant : Nat) (h : BHead) :
    (s.bulkOpen b tenant h).pending = s.pending := by
  simp only [State.bulkOpen]
  split <;> simp

theorem State_onSession_pending (s : State) (b : BulkIn) (tenant : Nat) (h : BHead) {f : Bulk → State}
    (hf : ∀ x, (f x).pending = s.pending) : (s.onSession b tenant h f).pending = s.pending := by
  simp only [State.onSession]
  split <;> simp [hf]

@[simp] theorem State_stage_pending (x : Bulk) (pos : Nat) (data : List Byte) :
    (s.stage x pos data).pending = s.pending := by
  simp [State.stage]

@[simp] theorem State_mirrorCommit_pending (target name : Nat) (place : List Nat) :
    (s.mirrorCommit target name place).pending = s.pending := by
  simp [State.mirrorCommit]

@[simp] theorem State_mirrorDone_pending (port target name : Nat) :
    (s.mirrorDone port target name).pending = s.pending := by
  simp [State.mirrorDone]

@[simp] theorem State_mirrorBytes_pending (target name pos : Nat) (data : List Byte) :
    (s.mirrorBytes target name pos data).pending = s.pending := by
  simp [State.mirrorBytes]

@[simp] theorem State_burst_pending (s : State) (b : BulkIn) (tenant : Nat) (h : BHead) :
    (s.burst b tenant h).pending = s.pending :=
  State_onSession_pending s b tenant h fun _ => by simp

@[simp] theorem State_closeBulk_pending (x : Bulk) : (s.closeBulk x).pending = s.pending := by simp [State.closeBulk]

@[simp] theorem State_bulkIdle_pending (session : Option Nat) (tenant target name : Nat) :
    (s.bulkIdle session tenant target name).pending = s.pending := by
  simp only [State.bulkIdle]
  repeat' split
  all_goals simp

/-! ### Vector rows -/

@[simp] theorem State_joinFlags_pending (c : Core) (flags tag : Nat) : (s.joinFlags c flags tag).pending = s.pending := by
  simp only [State.joinFlags]
  split <;> simp

@[simp] theorem vecBody_keepsPending (k : Nat) : KeepsPending (vecBody k) := by
  intro s c f
  unfold vecBody
  split
  · rfl
  · exact Eff_gives_bind fun _ => by simp

@[simp] theorem State_vecRowCmd_pending (s : State) (k : Nat) (ph : Sys2Proof.Phase) (vop : Nat) :
    (s.vecRowCmd k ph vop).pending = s.pending :=
  State_queued_pending s (vecBody_keepsPending k) k ph (isVec vop)

@[simp] theorem reduceBody_keepsPending (k : Nat) : KeepsPending (reduceBody k) := by
  intro s c f
  unfold reduceBody
  split
  · rfl
  · exact Eff_gives_bind fun _ => by simp

/-! ### Heads of queues -/

@[simp] theorem State_startHead_pending (k q : Nat) : (s.startHead k q).pending = s.pending := by
  simp only [State.startHead]
  repeat' split
  all_goals simp

@[simp] theorem State_timeoutWait_pending (k q : Nat) : (s.timeoutWait k q).pending = s.pending := by
  simp only [State.timeoutWait]
  repeat' split
  all_goals simp

/-! ### The Drover -/

@[simp] theorem State_bareStep_pending (d w : Nat) : (s.bareStep d w).pending = s.pending := by
  simp only [State.bareStep]
  split <;> simp

@[simp] theorem State_ownerStep_pending (c : Core) (r : Red) : (s.ownerStep c r).pending = s.pending := by
  simp only [State.ownerStep]
  repeat' split
  all_goals simp

@[simp] theorem matmulBody_keepsPending (k : Nat) : KeepsPending (matmulBody k) := by
  intro s c f
  unfold matmulBody
  split
  · simp
  · split
    · trivial
    · simp

@[simp] theorem walkBody_keepsPending (walk : QEntry → Placement → List DCmd) : KeepsPending (walkBody walk) := by
  intro s c f
  unfold walkBody
  split
  · rfl
  · split
    · trivial
    · rfl

@[simp] theorem moveBody_keepsPending (k : Nat) : KeepsPending (moveBody k) := by
  intro s c f
  unfold moveBody
  dsimp only
  split <;> simp

@[simp] theorem State_penLoad_pending (k : Nat) (tm : Timing) : (s.penLoad k tm).pending = s.pending := by
  simp only [State.penLoad]
  repeat' split
  all_goals simp

@[simp] theorem State_addEnergy_pending (k pj : Nat) : (s.addEnergy k pj).pending = s.pending := by simp [State.addEnergy]

@[simp] theorem State_powerGate_pending (k : Nat) (ms : List Member) (pj : Nat) (tm : PassTiming) :
    (s.powerGate k ms pj tm).1.pending = s.pending := by
  simp only [State.powerGate]
  repeat' split
  all_goals simp

theorem State_startPass_pending (s : State) (k : Nat) (f : Flight) (g : Geo) (ms : List Member) (mt m u j slot mode half : Nat)
    (kbs : List Nat) (rest : List DCmd) (tm : PassTiming) :
    (s.startPass k f g ms mt m u j slot mode half kbs rest tm).gives (fun t => t.pending = s.pending) :=
  Eff_gives_bind fun _ => Eff_gives_bind fun _ => by simp

@[simp] theorem State_fencePass_pending (k : Nat) (f : Flight) (e p : Nat) : (s.fencePass k f e p).pending = s.pending := by
  simp [State.fencePass]

@[simp] theorem State_issuePass_pending (s : State) (k : Nat) (tm : PassTiming) : (s.issuePass k tm).pending = s.pending := by
  simp only [State.issuePass]
  split
  · rfl
  · split
    · next f ms mt m u j slot mode half kbs rest _ =>
      split
      · simp
      · next pl _ =>
        split
        · rfl
        · simp
        · simp
        · have hg := State_powerGate_pending s k ms (passEnergy pl (f.geo pl k).x.fmt (f.geo pl k).wfmt ms.length) tm
          split
          · next h => simpa [h] using hg
          · next s1 h =>
            have hp := State_startPass_pending s1 k f (f.geo pl k) ms mt m u j slot mode half kbs rest tm
            rw [h] at hg
            split
            · rfl
            · simpa using hg
            · next h =>
              rw [h] at hp
              simpa using hp.trans hg
    · rfl

@[simp] theorem State_completePass_pending (k e : Nat) (errs : List ArrayErr) :
    (s.completePass k e errs).pending = s.pending := by
  simp only [State.completePass]
  repeat' split
  all_goals simp

theorem State_rowWrite_pending (s : State) (k : Nat) (f : Flight) (e p kb j row : Nat) (clear : Bool) :
    (s.rowWrite k f e p kb j row clear).gives (fun t => t.pending = s.pending) :=
  Eff_gives_ite trivial (Eff_gives_ite trivial (Eff_gives_ite trivial (Eff_gives_bind fun _ =>
    Eff_gives_ite trivial (Eff_gives_ite rfl rfl))))

theorem State_castTile_pending (s : State) (k : Nat) (f : Flight) (v : Mov) (ls : List (Nat × Nat × List Byte × Nat))
    (last : Bool) : (s.castTile k f v ls last).gives (fun t => t.pending = s.pending) := by
  unfold State.castTile
  dsimp only
  split
  · trivial
  · split
    · split
      · next h => simpa using landAll_pending h
      · trivial
    · split <;> simp

theorem State_fieldStep_pending (s : State) (k : Nat) (f : Flight) (r0 r1 c0 c1 : Nat) (last : Bool) :
    (s.fieldStep k f r0 r1 c0 c1 last).gives (fun t => t.pending = s.pending) := by
  refine Eff_gives_bind fun q => ?_
  dsimp only
  split
  · simpa using State_castTile_pending (s.setCore k q.1) k f (f.ent.mov 2) q.2 last
  · split
    · split <;> simp
    · exact Eff_gives_bind fun _ => by simp

@[simp] theorem State_moveField_pending (s : State) (k coalesced : Nat) (tm : Timing) :
    (s.moveField k coalesced tm).pending = s.pending := by
  simp only [State.moveField]
  split
  · rfl
  · split
    · split
      · rfl
      · simp
      · next hr =>
        have h : _ = s.pending := (Eff_gives_elim hr (State_fieldStep_pending _ _ _ _ _ _ _ _)).trans (State_enter_pending s k tm)
        split <;> simp [h]
    · rfl

@[simp] theorem State_finishFlight_pending (k : Nat) (f : Flight) : (s.finishFlight k f).pending = s.pending := by
  simp only [State.finishFlight]
  split <;> simp

/-! ### Installing models -/

@[simp] theorem State_dropObjects_pending (tenant name : Nat) : (s.dropObjects tenant name).pending = s.pending := by
  simp [State.dropObjects]

@[simp] theorem State_refuseStaging_pending (b : BulkIn) (tenant name status detail : Nat) :
    (s.refuseStaging b tenant name status detail).pending = s.pending := by
  simp [State.refuseStaging]

@[simp] theorem State_refuseOpenOffset_pending (b : BulkIn) (tenant name : Nat) :
    (s.refuseOpenOffset b tenant name).pending = s.pending := by
  simp [State.refuseOpenOffset]

@[simp] theorem State_claim_pending (b : BulkIn) (tenant : Nat) (pl : Placement) (late : Option (Nat × Nat)) :
    (s.claim b tenant pl late).pending = s.pending := by
  simp [State.claim]

@[simp] theorem State_stageImage_pending (s : State) (b : BulkIn) (tenant : Nat) (o : Obj) (i : CommitIn) (g : Img) (f : Fmt)
    (tab reg : Option Obj) (recs : List (Nat × Nat)) : (s.stageImage b tenant o i g f tab reg recs).pending = s.pending := by
  unfold State.stageImage
  generalize placementOf tenant o g f i _ tab reg recs = pl
  refine ite_pending (State_refuseStaging_pending s b tenant o.name 8 0xC) ?_
  split
  · exact State_refuseStaging_pending ..
  · split
    · rw [State_replyTo_pending, State_dropObjects_pending]
    · exact State_claim_pending ..

@[simp] theorem State_keepKey_pending (wkey : Nat) : (s.keepKey wkey).pending = s.pending := by simp [State.keepKey]

@[simp] theorem State_commitStaging_pending (s : State) (b : BulkIn) (tenant : Nat) (o : Obj) (i : CommitIn) :
    (s.commitStaging b tenant o i).pending = s.pending := by
  simp only [State.commitStaging]
  generalize s.unwraps (imgOf o.data).wkey i.wkeyOk = known
  have hk : (if known = true then s.keepKey (imgOf o.data).wkey else s).pending = s.pending := by simp
  generalize (if known = true then s.keepKey (imgOf o.data).wkey else s) = t at hk
  rw [← hk]
  refine ite_pending (by simp) (ite_pending (by simp) (ite_pending (by simp) ?_))
  split
  · simp
  · refine ite_pending (by simp) (ite_pending (by simp) ?_)
    split
    · simp
    · simp
    · refine ite_pending (by simp) (ite_pending (by simp) ?_)
      split
      · simp
      · simp
      · refine ite_pending (by simp) (ite_pending (by simp) ?_)
        split <;> simp

@[simp] theorem State_countRefused_pending (mask : Nat) : (s.countRefused mask).pending = s.pending := by
  simp [State.countRefused]

@[simp] theorem State_commitRoutine_pending (b : BulkIn) (tenant : Nat) (o : Obj) (i : CommitIn) :
    (s.commitRoutine b tenant o i).pending = s.pending := by
  simp only [State.commitRoutine]
  repeat' split
  all_goals simp

@[simp] theorem State_countCommit_pending (old new : List Version) : (s.countCommit old new).pending = s.pending := by
  simp [State.countCommit]

@[simp] theorem State_routineCommit_pending (tenant name : Nat) : (s.routineCommit tenant name).pending = s.pending := by
  simp only [State.routineCommit]
  repeat' split
  all_goals simp

@[simp] theorem State_commitPatch_pending (b : BulkIn) (tenant : Nat) (o : Obj) (i : CommitIn) :
    (s.commitPatch b tenant o i).pending = s.pending := by
  simp only [State.commitPatch]
  repeat' split
  all_goals simp

@[simp] theorem State_commitWaiting_pending (b : BulkIn) (o : Obj) : (s.commitWaiting b o).pending = s.pending := by
  simp [State.commitWaiting]

@[simp] theorem State_bulkCommit_pending (b : BulkIn) (tenant : Nat) (h : BHead) (i : CommitIn) :
    (s.bulkCommit b tenant h i).pending = s.pending := by
  simp only [State.bulkCommit]
  repeat' split
  all_goals simp

@[simp] theorem State_setThresholds_pending (keys : List (Nat × Nat × Nat)) :
    (s.setThresholds keys).pending = s.pending := by
  simp [State.setThresholds]

@[simp] theorem State_removeObj_pending (b : BulkIn) (tenant : Nat) (h : BHead) :
    (s.removeObj b tenant h).pending = s.pending := by
  simp only [State.removeObj]
  repeat' split
  all_goals simp

@[simp] theorem State_retirePlacement_pending (handle : Nat) : (s.retirePlacement handle).pending = s.pending := by
  simp only [State.retirePlacement]
  repeat' split
  all_goals simp

@[simp] theorem State_freePlacements_pending : s.freePlacements.pending = s.pending := by simp [State.freePlacements]

@[simp] theorem State_planeEmpty_pending (k e p : Nat) : (s.planeEmpty k e p).pending = s.pending := by
  simp only [State.planeEmpty]
  split <;> simp

/-! ### Losses of units -/

@[simp] theorem State_uncontrolled_pending : s.uncontrolled.pending = s.pending := by simp [State.uncontrolled]

@[simp] theorem State_hwEnd_pending (cseq : Nat) : (s.hwEnd cseq).pending = s.pending := by
  simp only [State.hwEnd]
  split <;> simp

@[simp] theorem State_hwEndOn_pending (p : Nat → Bool) : (s.hwEndOn p).pending = s.pending := by simp [State.hwEndOn]

@[simp] theorem State_enterQuiet_pending (cause : Nat) : (s.enterQuiet cause).pending = s.pending := by
  simp [State.enterQuiet]

@[simp] theorem State_parcelGone_pending (cseq st : Nat) (input : Bool) :
    (s.parcelGone cseq st input).pending = s.pending := by
  simp only [State.parcelGone]
  split <;> simp

@[simp] theorem State_rehomeGold_pending (st : Nat) : (s.rehomeGold st).pending = s.pending := by simp [State.rehomeGold]
@[simp] theorem State_shrinkPool_pending : s.shrinkPool.pending = s.pending := by simp [State.shrinkPool]
@[simp] theorem State_loseStack_pending (st : Nat) : (s.loseStack st).pending = s.pending := by simp [State.loseStack]
@[simp] theorem State_loseDie_pending (d : Nat) : (s.loseDie d).pending = s.pending := by simp [State.loseDie]

/-! ### Spares -/

@[simp] theorem State_loseGold_pending (l : List GoldLoss) : (s.loseGold l).pending = s.pending := by simp [State.loseGold]

@[simp] theorem State_modArr_pending (k : Nat) (f : ArrayRegs → ArrayRegs) : (s.modArr k f).pending = s.pending := by
  simp [State.modArr]

@[simp] theorem State_setRows_pending (x : Nat × Nat × Nat) (rows : Tbl Nat) : (s.setRows x rows).pending = s.pending := by
  simp [State.setRows]

@[simp] theorem State_liveAgain_pending (x : Nat × Nat × Nat) : (s.liveAgain x).pending = s.pending := by
  simp [State.liveAgain]

@[simp] theorem State_goldGone_pending (x : Nat × Nat × Nat) : (s.goldGone x).pending = s.pending := by
  simp [State.goldGone]

@[simp] theorem State_countReprogram_pending (k : Nat) : (s.countReprogram k).pending = s.pending := by
  simp [State.countReprogram]

@[simp] theorem State_countTransientPlane_pending (k : Nat) : (s.countTransientPlane k).pending = s.pending := by
  simp [State.countTransientPlane]

@[simp] theorem State_refill_pending (x : Nat × Nat × Nat) : (s.refill x).pending = s.pending := by simp [State.refill]

@[simp] theorem State_rewritePlane_pending (x : Nat × Nat × Nat) : (s.rewritePlane x).pending = s.pending := by
  simp [State.rewritePlane]

@[simp] theorem State_toRetest_pending (lv : Nat) (t : Target) : (s.toRetest lv t).pending = s.pending := by
  simp [State.toRetest]

@[simp] theorem State_endOnUnit_pending (lv k e : Nat) : (s.endOnUnit lv k e).pending = s.pending := by
  simp only [State.endOnUnit]
  split <;> simp

@[simp] theorem State_loseCluster_pending (k : Nat) : (s.loseCluster k).pending = s.pending := by simp [State.loseCluster]

@[simp] theorem State_beginSubst_pending (s : State) (n lv k e : Nat) : (s.beginSubst n lv k e).pending = s.pending := by
  induction n generalizing s lv e with
  | zero => rfl
  | succ n ih => simp [State.beginSubst, ih]

@[simp] theorem State_fenceEngine_pending (k e : Nat) : (s.fenceEngine k e).pending = s.pending := by
  simp [State.fenceEngine]

@[simp] theorem State_beginColumns_pending (k e : Nat) (slots : List Nat) :
    (s.beginColumns k e slots).pending = s.pending := by
  simp [State.beginColumns]

@[simp] theorem State_countSweepFail_pending (k : Nat) : (s.countSweepFail k).pending = s.pending := by
  simp [State.countSweepFail]

/-! ### Faults -/

@[simp] theorem State_haltWaiting_pending (path : Nat) (cores : List Nat) :
    (s.haltWaiting path cores).pending = s.pending := by
  simp [State.haltWaiting]

@[simp] theorem State_doubtPath_pending (path unit : Nat) : (s.doubtPath path unit).pending = s.pending := by
  simp only [State.doubtPath]
  split <;> simp

@[simp] theorem State_haltReader_pending (core : Option Nat) (detail : Nat) :
    (s.haltReader core detail).pending = s.pending := by
  simp only [State.haltReader]
  split <;> simp

@[simp] theorem State_badRs_pending (die bank line : Nat) : (s.badRs die bank line).pending = s.pending := by
  simp [State.badRs]

@[simp] theorem State_badRd_pending (die : Nat) (mirrorBad : Bool) : (s.badRd die mirrorBad).pending = s.pending := by
  simp [State.badRd]

@[simp] theorem State_badRm_pending (h bank : Nat) (mirrorBad : Bool) : (s.badRm h bank mirrorBad).pending = s.pending := by
  simp [State.badRm]

@[simp] theorem State_badWord_pending (die bank line : Nat) (mirrorBad : Bool) (core : Option Nat) :
    (s.badWord die bank line mirrorBad core).pending = s.pending := by
  simp only [State.badWord]
  split <;> simp

@[simp] theorem State_dsmEcc_pending (die bank line : Nat) (dbl mirrorBad : Bool) (core : Option Nat) :
    (s.dsmEcc die bank line dbl mirrorBad core).pending = s.pending := by
  simp [State.dsmEcc]

@[simp] theorem State_yokeTakeover_pending (h : Nat) : (s.yokeTakeover h).pending = s.pending := by
  simp [State.yokeTakeover]

@[simp] theorem State_resendSent_pending : s.resendSent.pending = s.pending := by simp [State.resendSent]
@[simp] theorem State_hubFail_pending (h : Nat) : (s.hubFail h).pending = s.pending := by simp [State.hubFail]

@[simp] theorem State_selfCheckFail_pending (h : Nat) : (s.selfCheckFail h).pending = s.pending := by
  simp [State.selfCheckFail]

@[simp] theorem State_heartbeat_pending (h : Nat) (bridge relay : Bool) :
    (s.heartbeat h bridge relay).pending = s.pending := by
  simp [State.heartbeat]

@[simp] theorem State_heartbeatLoss_pending (h : Nat) : (s.heartbeatLoss h).pending = s.pending := by
  simp [State.heartbeatLoss]

@[simp] theorem State_bridgeBack_pending (b : Nat) (logsEqual : Bool) : (s.bridgeBack b logsEqual).pending = s.pending := by
  simp [State.bridgeBack]

@[simp] theorem State_doubtMaster_pending (die master : Nat) (core : Option Nat) :
    (s.doubtMaster die master core).pending = s.pending := by
  simp only [State.doubtMaster]
  repeat' split
  all_goals simp

@[simp] theorem State_denyAccess_pending (die master bank line : Nat) (write : Bool) (core : Option Nat) :
    (s.denyAccess die master bank line write core).pending = s.pending := by
  simp [State.denyAccess]

/-! ### The Yoke -/

@[simp] theorem State_balance_pending (t : TickPower) (n : TickCounts) (parts : List Nat) :
    (s.balance t n parts).pending = s.pending := by
  simp [State.balance]

@[simp] theorem State_placeBallast_pending (d : Nat) : (s.placeBallast d).pending = s.pending := by
  simp [State.placeBallast]

@[simp] theorem State_runOrIdle_pending (d c : Nat) : (s.runOrIdle d c).pending = s.pending := by simp [State.runOrIdle]

@[simp] theorem State_ballastFails_pending (l : List (Nat × Nat × Nat)) : (s.ballastFails l).pending = s.pending := by
  simp [State.ballastFails]

@[simp] theorem State_copyYoke_pending : s.copyYoke.pending = s.pending := by simp [State.copyYoke]
@[simp] theorem State_tickEnds_pending : s.tickEnds.pending = s.pending := by simp [State.tickEnds]

@[simp] theorem State_tick_pending (t : TickPower) (n : TickCounts) : (s.tick t n).pending = s.pending := by
  simp [State.tick]

@[simp] theorem State_voltAlarm_pending (d : Nat) : (s.voltAlarm d).pending = s.pending := by
  simp [State.voltAlarm, State.modCl]

@[simp] theorem State_railRead_pending (d volts : Nat) : (s.railRead d volts).pending = s.pending := by
  simp [State.railRead]

@[simp] theorem State_calibrate_pending (i mw : Nat) : (s.calibrate i mw).pending = s.pending := by simp [State.calibrate]
@[simp] theorem State_checkDraw_pending : s.checkDraw.pending = s.pending := by simp [State.checkDraw]

@[simp] theorem State_avs_pending (group volts amps : Nat) : (s.avs group volts amps).pending = s.pending := by
  simp [State.avs]

@[simp] theorem State_newWindow_pending (d amps : Nat) : (s.newWindow d amps).pending = s.pending := by
  simp [State.newWindow]

@[simp] theorem State_tempReport_pending (die temp : Nat) : (s.tempReport die temp).pending = s.pending := by
  simp [State.tempReport]

@[simp] theorem State_stopClocks_pending : s.stopClocks.pending = s.pending := by simp [State.stopClocks]

@[simp] theorem State_clockLoss_pending (d c : Nat) : (s.clockLoss d c).pending = s.pending := by
  simp only [State.clockLoss]
  repeat' split
  all_goals simp

@[simp] theorem State_replaceCluster_pending (d c : Nat) : (s.replaceCluster d c).pending = s.pending := by
  simp only [State.replaceCluster]
  split <;> simp

@[simp] theorem State_sleepDie_pending (d : Nat) : (s.sleepDie d).pending = s.pending := by simp [State.sleepDie]

@[simp] theorem State_doze_pending (d c : Nat) : (s.doze d c).pending = s.pending := by
  simp only [State.doze]
  split <;> simp

@[simp] theorem State_clusterOff_pending (d c : Nat) : (s.clusterOff d c).pending = s.pending := by
  simp only [State.clusterOff]
  split <;> simp

@[simp] theorem State_wakeDone_pending (d c : Nat) : (s.wakeDone d c).pending = s.pending := by
  simp only [State.wakeDone]
  repeat' split
  all_goals simp

/-! ### The Grazer -/

@[simp] theorem State_modTarget_pending (t : Target) (f : Core → Core) : (s.modTarget t f).pending = s.pending :=
  foldl_pending _ _ _ fun s k => State_modCore_pending s k f

@[simp] theorem State_sliceStart_pending (t : Target) : (s.sliceStart t).pending = s.pending := by simp [State.sliceStart]

@[simp] theorem State_sweepFails_pending (k e p : Nat) : (s.sweepFails k e p).pending = s.pending := by
  simp [State.sweepFails]

@[simp] theorem State_sweep_pending (k e : Nat) (vectorsOk : Bool) : (s.sweep k e vectorsOk).pending = s.pending := by
  simp [State.sweep]

@[simp] theorem State_unitEffect_pending (t : Target) (p : Nat) : (s.unitEffect t p).pending = s.pending := by
  simp only [State.unitEffect]
  repeat' split
  all_goals simp

@[simp] theorem State_unitDone_pending (x : Slice) (n : Nat) (good : Bool) (p : Nat) :
    (s.unitDone x n good p).pending = s.pending := by
  simp [State.unitDone]

@[simp] theorem State_sliceUnit_pending (t : Target) (ok : Bool) (row : Nat) :
    (s.sliceUnit t ok row).pending = s.pending := by
  simp only [State.sliceUnit]
  repeat' split
  all_goals simp

@[simp] theorem State_leavePool_pending (lv : Nat) (t : Target) : (s.leavePool lv t).pending = s.pending := by
  simp [State.leavePool]

@[simp] theorem State_spareFails_pending (lv : Nat) (t : Target) : (s.spareFails lv t).pending = s.pending := by
  simp [State.spareFails]

@[simp] theorem State_rowLost_pending (t : Target) (row : Nat) : (s.rowLost t row).pending = s.pending := by
  simp only [State.rowLost]
  repeat' split
  all_goals simp

@[simp] theorem State_mend_pending (t : Target) : (s.mend t).pending = s.pending := by simp [State.mend]

@[simp] theorem State_softRepair_pending (t : Target) (row : Nat) : (s.softRepair t row).pending = s.pending := by
  simp [State.softRepair]

@[simp] theorem State_rowsFail_pending (t : Target) (rows : List Nat) : (s.rowsFail t rows).pending = s.pending := by
  simp [State.rowsFail]

@[simp] theorem State_sliceDoubt_pending (x : Slice) : (s.sliceDoubt x).pending = s.pending := by
  simp only [State.sliceDoubt]
  repeat' split
  all_goals simp

@[simp] theorem State_coverage_pending : s.coverage.pending = s.pending := by simp [State.coverage]
@[simp] theorem State_endRound_pending : s.endRound.pending = s.pending := by simp [State.endRound]
@[simp] theorem State_spareRests_pending (t : Target) : (s.spareRests t).pending = s.pending := by simp [State.spareRests]

@[simp] theorem State_closeSlice_pending (x : Slice) (result : Nat) : (s.closeSlice x result).pending = s.pending := by
  simp [State.closeSlice]

@[simp] theorem State_failSlice_pending (x : Slice) : (s.failSlice x).pending = s.pending := by simp [State.failSlice]

@[simp] theorem State_sliceEnd_pending (t : Target) : (s.sliceEnd t).pending = s.pending := by
  simp only [State.sliceEnd]
  split <;> simp

@[simp] theorem State_sliceStop_pending (t : Target) : (s.sliceStop t).pending = s.pending := by
  simp only [State.sliceStop]
  split <;> simp

@[simp] theorem State_marched_pending (t : Target) (transparent : Bool) :
    (s.marched t transparent).pending = s.pending := by
  simp [State.marched]

@[simp] theorem State_marchEnd_pending (t : Target) (badRows : List Nat) : (s.marchEnd t badRows).pending = s.pending := by
  simp only [State.marchEnd]
  split <;> simp

/-! ### Repairs -/

@[simp] theorem State_noteCells_pending (x : Nat × Nat × Nat) (cells : List (Nat × Nat × Bool)) :
    (s.noteCells x cells).pending = s.pending := by
  simp [State.noteCells]

@[simp] theorem State_yieldSlices_pending (k e : Nat) : (s.yieldSlices k e).pending = s.pending := by
  simp [State.yieldSlices]

@[simp] theorem State_settled_pending (x : Nat × Nat × Nat) : (s.settled x).pending = s.pending := by simp [State.settled]

@[simp] theorem State_vectorsFail_pending (x : Nat × Nat × Nat) : (s.vectorsFail x).pending = s.pending := by
  simp [State.vectorsFail]

@[simp] theorem State_diagnoseBare_pending (x : Nat × Nat × Nat) (sweepOk : Bool) :
    (s.diagnoseBare x sweepOk).pending = s.pending := by
  simp [State.diagnoseBare]

@[simp] theorem State_diagnose_pending (x : Nat × Nat × Nat) (sweepOk : Bool) :
    (s.diagnose x sweepOk).pending = s.pending := by
  simp [State.diagnose]

@[simp] theorem State_dropPatches_pending (x : Nat × Nat × Nat) : (s.dropPatches x).pending = s.pending := by
  simp [State.dropPatches]

@[simp] theorem State_rewriteEngine_pending (k e : Nat) : (s.rewriteEngine k e).pending = s.pending := by
  simp [State.rewriteEngine]

@[simp] theorem State_countSubst_pending (lv us : Nat) : (s.countSubst lv us).pending = s.pending := by
  simp [State.countSubst]

@[simp] theorem State_endSubst_pending (u : FaultUnit) : (s.endSubst u).pending = s.pending := by simp [State.endSubst]

@[simp] theorem State_columnSubst_pending (k e slot us : Nat) (lost : List GoldLoss) :
    (s.columnSubst k e slot us lost).pending = s.pending := by
  simp [State.columnSubst]

@[simp] theorem State_dynTest_pending (k e : Nat) : (s.dynTest k e).pending = s.pending := by simp [State.dynTest]

@[simp] theorem State_patchedPlane_pending (x : Nat × Nat × Nat) : (s.patchedPlane x).pending = s.pending := by
  simp [State.patchedPlane]

@[simp] theorem State_applyPatch_pending (p : Placement) : (s.applyPatch p).pending = s.pending := by
  simp [State.applyPatch]

@[simp] theorem State_redirect_pending (e : Entry) (h : Nat) (q : Placement) : (s.redirect e h q).pending = s.pending := by
  simp [State.redirect]

@[simp] theorem State_fenceExpired_pending (k : Nat) : (s.fenceExpired k).pending = s.pending := by
  simp only [State.fenceExpired]
  repeat' split
  all_goals simp

@[simp] theorem State_renewCore_pending (k : Nat) : (s.renewCore k).pending = s.pending := by simp [State.renewCore]

@[simp] theorem State_takeSpare_pending (u : FaultUnit) : (s.takeSpare u).pending = s.pending := by
  simp only [State.takeSpare]
  repeat' split
  all_goals simp

@[simp] theorem State_dropSpare_pending (u : FaultUnit) : (s.dropSpare u).pending = s.pending := by
  simp only [State.dropSpare]
  split <;> simp

@[simp] theorem State_endWithin_pending (u : FaultUnit) : (s.endWithin u).pending = s.pending := by simp [State.endWithin]

@[simp] theorem State_substDone_pending (u : FaultUnit) (us : Nat) (verifyOk : Bool) (lost : List GoldLoss) :
    (s.substDone u us verifyOk lost).pending = s.pending := by
  simp [State.substDone]

@[simp] theorem State_countTransient_pending : s.countTransient.pending = s.pending := by simp [State.countTransient]
@[simp] theorem State_clearDoubt_pending (k : Nat) : (s.clearDoubt k).pending = s.pending := by simp [State.clearDoubt]

@[simp] theorem State_diagnosed_pending (k : Nat) (faulty : Bool) : (s.diagnosed k faulty).pending = s.pending := by
  simp [State.diagnosed]

/-! ### Starts and the life of the package -/

@[simp] theorem State_abandon_pending (a : Activity) : (s.abandon a).pending = s.pending := by simp [State.abandon]
@[simp] theorem State_wipe_pending : s.wipe.pending = s.pending := by simp [State.wipe]
@[simp] theorem State_zeroisePlanes_pending : s.zeroisePlanes.pending = s.pending := by simp [State.zeroisePlanes]
@[simp] theorem State_wakeDozing_pending : s.wakeDozing.pending = s.pending := by simp [State.wakeDozing]
@[simp] theorem State_tamper_pending (source : Nat) : (s.tamper source).pending = s.pending := by simp [State.tamper]
@[simp] theorem State_checkMod_pending (n : Nat) : (s.checkMod n).pending = s.pending := by simp [State.checkMod]
@[simp] theorem State_checkMods_pending : s.checkMods.pending = s.pending := by simp [State.checkMods]

@[simp] theorem State_moduleAt_pending (n power : Nat) : (s.moduleAt n power).pending = s.pending := by
  simp [State.moduleAt]

@[simp] theorem State_linkTrained_pending (n : Nat) (mka : Bool) : (s.linkTrained n mka).pending = s.pending := by
  simp [State.linkTrained]

@[simp] theorem State_startRow_pending (x : Target × Nat) : (s.startRow x).pending = s.pending := by simp [State.startRow]

@[simp] theorem State_startColumn_pending (x : Nat × Nat × Nat × Nat × Nat) : (s.startColumn x).pending = s.pending := by
  simp [State.startColumn]

@[simp] theorem State_mapClusters_pending (d : Nat) : (s.mapClusters d).pending = s.pending := by simp [State.mapClusters]

@[simp] theorem State_mapCore_pending (b : Nat × Nat × Nat × Nat × Nat) : (s.mapCore b).pending = s.pending := by
  simp only [State.mapCore]
  split <;> simp

@[simp] theorem State_mapEngine_pending (b : Nat × Nat × Nat × Nat × Nat) : (s.mapEngine b).pending = s.pending := by
  simp only [State.mapEngine]
  split <;> simp

@[simp] theorem State_mapColumns_pending (b : Nat × Nat × Nat × Nat × Nat) : (s.mapColumns b).pending = s.pending := by
  simp only [State.mapColumns]
  repeat' split
  all_goals simp

@[simp] theorem State_startCluster_pending (d c : Nat) : (s.startCluster d c).pending = s.pending := by
  simp [State.startCluster]

@[simp] theorem State_assign_pending (i : StartIn) : (s.assign i).pending = s.pending := by simp [State.assign]
@[simp] theorem State_coldBase_pending (i : StartIn) : (s.coldBase i).pending = s.pending := by simp [State.coldBase]
@[simp] theorem State_stop_pending (why : Nat) : (s.stop why).pending = s.pending := by simp [State.stop]
@[simp] theorem State_boot_pending (n : Nat) : (s.boot n).pending = s.pending := by simp [State.boot]
@[simp] theorem State_identity_pending (i : StartIn) : (s.identity i).pending = s.pending := by simp [State.identity]
@[simp] theorem State_units_pending (i : StartIn) : (s.units i).pending = s.pending := by simp [State.units]
@[simp] theorem State_settle'_pending : s.settle'.pending = s.pending := by simp [State.settle']

@[simp] theorem State_inForce_pending (n : Nat) (p : ProfSlot) : (s.inForce n p).pending = s.pending := by
  simp [State.inForce]

@[simp] theorem State_startWith_pending (i : StartIn) : (s.startWith i).pending = s.pending := by
  simp only [State.startWith]
  split <;> simp

@[simp] theorem State_coldStart_pending (i : StartIn) : (s.coldStart i).pending = s.pending := by
  simp only [State.coldStart]
  repeat' split
  all_goals simp

@[simp] theorem State_dropEntry_pending (e : Entry) : (s.dropEntry e).pending = s.pending := by simp [State.dropEntry]
@[simp] theorem State_entryGone_pending (e : Entry) : (s.entryGone e).pending = s.pending := by simp [State.entryGone]

@[simp] theorem State_losesEntries_pending (n : Nat) (s : State) : (State.losesEntries n s).pending = s.pending := by
  induction n generalizing s with
  | zero => rfl
  | succ n ih =>
    rw [State.losesEntries, ih]
    split <;> simp

@[simp] theorem State_compareLogs_pending : s.compareLogs.pending = s.pending := by simp [State.compareLogs]
@[simp] theorem State_beginWarm_pending : s.beginWarm.pending = s.pending := by simp [State.beginWarm]

@[simp] theorem State_warmBoot_pending : s.warmBoot.pending = s.pending := by
  simp only [State.warmBoot]
  split <;> simp

@[simp] theorem State_takeProfile_pending (n : Nat) (p : ProfSlot) : (s.takeProfile n p).pending = s.pending := by
  simp [State.takeProfile]

@[simp] theorem State_warmProfile_pending : s.warmProfile.pending = s.pending := by
  simp only [State.warmProfile]
  split <;> simp

@[simp] theorem State_warmDoze_pending : s.warmDoze.pending = s.pending := by simp [State.warmDoze, State.modCl]

@[simp] theorem State_endActivity_pending (a : Activity) : (s.endActivity a).pending = s.pending := by
  simp [State.endActivity]

@[simp] theorem State_profileSwitch_pending : s.profileSwitch.pending = s.pending := by
  simp only [State.profileSwitch]
  repeat' split
  all_goals simp

@[simp] theorem State_firmwareActivation_pending : s.firmwareActivation.pending = s.pending := by
  simp only [State.firmwareActivation]
  split <;> simp

@[simp] theorem State_maintDefer_pending (id : Nat) : (s.maintDefer id).pending = s.pending := by
  simp only [State.maintDefer]
  repeat' split
  all_goals simp

@[simp] theorem State_scan_pending (tap ir drIn : Nat) : (s.scan tap ir drIn).pending = s.pending := by
  simp only [State.scan]
  split <;> simp

/-! ### Status registers and test access -/

@[simp] theorem State_readEffect_pending (b : Block) (i : Nat) : (s.readEffect b i).pending = s.pending := by
  simp only [State.readEffect]
  split <;> simp

@[simp] theorem State_readWords_pending (s : State) (l : List (Block × Nat)) : (s.readWords l).1.pending = s.pending := by
  induction l generalizing s with
  | nil => rfl
  | cons x r ih => exact (ih _).trans (State_readEffect_pending s x.1 x.2)

@[simp] theorem State_clearAt_pending (b : Block) (i m : Nat) : (s.clearAt b i m).pending = s.pending := by
  simp only [State.clearAt]
  split <;> simp

/-! ### MGMT -/

@[simp] theorem State_dropMgmt_pending : s.dropMgmt.pending = s.pending := by simp [State.dropMgmt]

@[simp] theorem State_answerMgmt_pending (m : MgmtIn) (status : Nat) (fields : List Byte) :
    (s.answerMgmt m status fields).pending = s.pending := by
  simp [State.answerMgmt]

@[simp] theorem State_turnAway_pending (m : MgmtIn) (status : Nat) : (s.turnAway m status).pending = s.pending := by
  simp [State.turnAway]

@[simp] theorem State_request_pending (s : State) (m : MgmtIn) (mop : Nat) (allowed own : Bool) {f : State → State}
    (hf : (f s).pending = s.pending) : (s.request m mop allowed own f).pending = s.pending := by
  simp [State.request, hf]

@[simp] theorem State_readReply_pending (m : MgmtIn) (a n : Nat) : (s.readReply m a n).pending = s.pending := by
  simp only [State.readReply]
  repeat' split
  all_goals simp

@[simp] theorem State_readFrame_pending (s : State) (m : MgmtIn) (a n : Nat) : (s.readFrame m a n).pending = s.pending :=
  State_request_pending s m 1 _ _ (State_readReply_pending s m a n)

@[simp] theorem State_recordCmd_pending (code status : Nat) : (s.recordCmd code status).pending = s.pending := by
  simp [State.recordCmd]

@[simp] theorem State_countAuthFail_pending : s.countAuthFail.pending = s.pending := by simp [State.countAuthFail]
@[simp] theorem State_ownerRestart_pending : s.ownerRestart.pending = s.pending := by simp [State.ownerRestart]

@[simp] theorem State_queueActivity_pending (e : Envelope) (code slot : Nat) :
    (s.queueActivity e code slot).pending = s.pending := by
  simp [State.queueActivity]

@[simp] theorem State_stageNvm_pending (x : Xfer) (data : List Byte) : (s.stageNvm x data).1.pending = s.pending := by
  simp only [State.stageNvm]
  repeat' split
  all_goals simp

@[simp] theorem State_nvmData_pending (offset : Nat) (data : List Byte) :
    (s.nvmData offset data).1.pending = s.pending := by
  simp only [State.nvmData]
  repeat' split
  all_goals simp

@[simp] theorem State_partnerGone_pending (s : State) : s.partnerGone.pending = s.pending := by
  refine (foldl_pending _ _ _ fun s r => by simp).trans (foldl_pending _ _ _ fun s x => ?_)
  split <;> simp

@[simp] theorem State_unbind_pending : s.unbind.pending = s.pending := by simp [State.unbind]
@[simp] theorem State_toColdStart_pending : s.toColdStart.pending = s.pending := by simp [State.toColdStart]

@[simp] theorem State_withKeys_pending (s : State) (x : HeldReq) {f : State → State} (hf : (f s).pending = s.pending) :
    (s.withKeys x f).pending = s.pending := by
  simp [State.withKeys, hf]

@[simp] theorem State_attest_pending (m : MgmtIn) (nonce first nlist : Nat) :
    (s.attest m nonce first nlist).pending = s.pending := by
  simp [State.attest]

@[simp] theorem State_keysync_pending (x : Session) (opened : Bool) : (s.keysync x opened).pending = s.pending := by
  simp [State.keysync]

@[simp] theorem State_openTsid_pending (m : MgmtIn) (tenant : Nat) : (s.openTsid m tenant).pending = s.pending := by
  unfold State.openTsid
  split <;> simp

@[simp] theorem State_sessionOpen_pending (m : MgmtIn) (tenant wskSerial : Nat) (sigOk unwrapOk : Bool) :
    (s.sessionOpen m tenant wskSerial sigOk unwrapOk).pending = s.pending := by
  simp [State.sessionOpen]

@[simp] theorem State_answerHeld_pending (x : HeldReq) : (s.answerHeld x).pending = s.pending := by
  simp only [State.answerHeld]
  split <;> simp

/-! ### The pair -/

@[simp] theorem State_hear_pending (netB : Bool) : (s.hear netB).pending = s.pending := by simp [State.hear]

@[simp] theorem State_pairFrame_pending (s : State) (p : PairIn) (pop : Nat) (ok : Bool) {f : State → State}
    (hf : ∀ t, (f t).pending = t.pending) : (s.pairFrame p pop ok f).pending = s.pending := by
  simp [State.pairFrame, hf]

@[simp] theorem State_dropMirrored_pending (stream incarn seq : Nat) :
    (s.dropMirrored stream incarn seq).pending = s.pending := by
  simp [State.dropMirrored]

@[simp] theorem State_mirrorParcels_pending (s : State) (die : Option Nat) (pages : Nat × Nat) :
    (s.mirrorParcels die pages).1.pending = s.pending := by
  unfold State.mirrorParcels
  split
  · rfl
  · next h1 =>
    split
    · rfl
    · next h2 => exact (State_reserve_pending h2).trans (State_reserve_pending h1)

@[simp] theorem State_rerunMirrored_pending (e : Entry) (b : RunBody) (ep : Nat) :
    (s.rerunMirrored e b ep).pending = s.pending := by
  simp only [State.rerunMirrored]
  split <;> simp

@[simp] theorem State_runTaken_pending (cseq : Nat) : (s.runTaken cseq).pending = s.pending := by
  simp only [State.runTaken]
  repeat' split
  all_goals simp

@[simp] theorem State_fillEntry_pending (s : State) (e : Entry) (op : WorkOp) : (s.fillEntry e op).pending = s.pending := by
  simp [State.fillEntry]

@[simp] theorem State_recordStream_pending (r : PairRecord) : (s.recordStream r).pending = s.pending := by
  simp [State.recordStream]

@[simp] theorem State_cancelHere_pending (s t : State) (e : Entry) (tseq : Nat) : (s.cancelHere t e tseq).pending = s.pending := by
  unfold State.cancelHere
  split <;> simp

@[simp] theorem State_newRecord_pending (s : State) (r : PairRecord) (n : Nat) (st : EntrySt) :
    (s.newRecord r n st).pending = s.pending := by
  simp only [State.newRecord, State_runTaken_pending]
  split
  · refine ite_pending ?_ ?_ <;> simp
  · simp

@[simp] theorem State_followRecord_pending (e : Entry) (r : PairRecord) (st : EntrySt) :
    (s.followRecord e r st).pending = s.pending := by
  simp [State.followRecord]

@[simp] theorem State_homeRecord_pending (e : Entry) (r : PairRecord) (st : EntrySt) :
    (s.homeRecord e r st).pending = s.pending := by
  simp [State.homeRecord]

@[simp] theorem State_writeRecord_pending (r : PairRecord) (n : Nat) : (s.writeRecord r n).pending = s.pending := by
  simp only [State.writeRecord]
  split <;> simp

@[simp] theorem State_takeRecord_pending (r : PairRecord) : (s.takeRecord r).pending = s.pending := by
  simp [State.takeRecord]

@[simp] theorem State_runMirrored_pending (s : State) : s.runMirrored.pending = s.pending := by
  refine ite_pending (foldl_pending _ _ _ fun s e => ?_) rfl
  split <;> simp

@[simp] theorem State_becomePaired_pending (rejoin : Bool) : (s.becomePaired rejoin).pending = s.pending := by
  simp [State.becomePaired]

@[simp] theorem State_tryJoin_pending : s.tryJoin.pending = s.pending := by
  simp only [State.tryJoin]
  split <;> simp

@[simp] theorem State_takeRecords_pending (recs : List PairRecord) : (s.takeRecords recs).pending = s.pending := by
  simp [State.takeRecords]

@[simp] theorem State_numberCommit_pending (id : List Nat) (n time : Nat) :
    (s.numberCommit id n time).pending = s.pending := by
  simp only [State.numberCommit]
  split <;> simp

@[simp] theorem State_ackSession_pending (t : Nat) : (s.ackSession t).pending = s.pending := by
  simp only [State.ackSession]
  repeat' split
  all_goals simp

@[simp] theorem State_takeConfirm_pending (highest assigned time : Nat) :
    (s.takeConfirm highest assigned time).pending = s.pending := by
  simp only [State.takeConfirm]
  repeat' split
  all_goals simp

@[simp] theorem State_takeSegment_pending (h : Hdr) (body : List Byte) : (s.takeSegment h body).pending = s.pending := by
  simp only [State.takeSegment]
  split <;> simp

@[simp] theorem State_takeParcel_pending (cseq off : Nat) (data : List Byte) :
    (s.takeParcel cseq off data).pending = s.pending := by
  simp only [State.takeParcel]
  split <;> simp

@[simp] theorem State_takeObject_pending (tenant target name off : Nat) (data : List Byte) :
    (s.takeObject tenant target name off data).pending = s.pending := by
  simp only [State.takeObject]
  split <;> simp

@[simp] theorem State_takeObjcommit_pending (tenant target name status : Nat) (o : CommitIn) :
    (s.takeObjcommit tenant target name status o).pending = s.pending := by
  simp only [State.takeObjcommit]
  split <;> simp

@[simp] theorem State_takeDigest_pending (cseq run digest : Nat) : (s.takeDigest cseq run digest).pending = s.pending := by
  simp [State.takeDigest]

@[simp] theorem State_takeStrike_pending (e : Entry) : (s.takeStrike e).pending = s.pending := by simp [State.takeStrike]

@[simp] theorem State_takeKeysync_pending (tsid tenant key : Nat) (opened : Bool) :
    (s.takeKeysync tsid tenant key opened).pending = s.pending := by
  simp [State.takeKeysync]

@[simp] theorem State_takeOver_pending (e : Entry) : (s.takeOver e).pending = s.pending := by
  simp only [State.takeOver]
  repeat' split
  all_goals simp

@[simp] theorem State_declareLost_pending : s.declareLost.pending = s.pending := by simp [State.declareLost]
@[simp] theorem State_miss_pending : s.miss.pending = s.pending := by simp [State.miss]
@[simp] theorem State_diverged_pending : s.diverged.pending = s.pending := by simp [State.diverged]
@[simp] theorem State_discardFold_pending : s.discardFold.pending = s.pending := by simp [State.discardFold]

@[simp] theorem State_sendParcel_pending (e : Entry) : (s.sendParcel e).pending = s.pending := by
  simp only [State.sendParcel]
  split <;> simp

@[simp] theorem State_sendObject_pending (x : SnapObj) : (s.sendObject x).pending = s.pending := by simp [State.sendObject]
@[simp] theorem State_snapshot_pending : s.snapshot.pending = s.pending := by simp [State.snapshot]

@[simp] theorem State_pairBeat_pending (pst lead quiet last : Nat) :
    (s.pairBeat pst lead quiet last).pending = s.pending := by
  simp only [State.pairBeat]
  split <;> simp

/-! ### Verification of an installation -/

@[simp] theorem State_writeSpans_pending (p : Placement) : (s.writeSpans p).pending = s.pending := by
  simp [State.writeSpans]

@[simp] theorem State_planesLive_pending (keys : List (Nat × Nat × Nat)) : (s.planesLive keys).pending = s.pending := by
  simp [State.planesLive]

@[simp] theorem State_unshare_pending (x : Nat × Nat × Nat) : (s.unshare x).pending = s.pending := by simp [State.unshare]

@[simp] theorem State_undoInstall_pending (i : Install) : (s.undoInstall i).pending = s.pending := by
  simp [State.undoInstall]

@[simp] theorem State_commitInstall_pending (i : Install) : (s.commitInstall i).pending = s.pending := by
  simp [State.commitInstall]

@[simp] theorem State_failInstall_pending (i : Install) (status detail : Nat) :
    (s.failInstall i status detail).pending = s.pending := by
  simp [State.failInstall]

@[simp] theorem State_repairPlane_pending (h : Nat) (x : Nat × Nat × Nat) (slots : List Nat) (sweep : Bool) :
    (s.repairPlane h x slots sweep).pending = s.pending := by
  simp [State.repairPlane]

@[simp] theorem State_installDone_pending (handle : Nat) (sweepFail : Option Nat) :
    (s.installDone handle sweepFail).pending = s.pending := by
  simp only [State.installDone]
  repeat' split
  all_goals simp

end

/-! ### Effects of commands of MGMT (R541 to R547) -/

@[simp] theorem State_clearAll_pending (s : State) (pairs : List (Nat × Nat)) : (s.clearAll pairs).st.pending = s.pending := by
  unfold State.clearAll
  split
  · rfl
  · split
    · rfl
    · split
      · rfl
      · refine foldl_pending _ _ _ fun s p => ?_
        split <;> simp

@[simp] theorem State_useProfile_pending (s : State) (e : Envelope) (slot : Nat) :
    (s.useProfile e slot).st.pending = s.pending := by
  unfold State.useProfile
  split
  · rfl
  · split
    · split
      · rfl
      · simp [done]
    · simp

@[simp] theorem State_nvmBegin_pending (s : State) (target len digest : Nat) :
    (s.nvmBegin target len digest).st.pending = s.pending := by
  unfold State.nvmBegin
  split
  · rfl
  · split
    · rfl
    · split <;> rfl

@[simp] theorem done_pending (s : State) (fields : List Byte) : (done s fields).st.pending = s.pending := rfl

@[simp] theorem refused_pending (s : State) (status field : Nat) : (refused s status field).st.pending = s.pending := rfl

@[simp] theorem State_burnCycle_pending (s : State) (f : Fuses → Fuses) : (s.burnCycle f).pending = s.pending := by
  simp [State.burnCycle]

@[simp] theorem State_leaveOwned_pending (s : State) (lcs : Nat) : (s.leaveOwned lcs).st.pending = s.pending := by
  unfold State.leaveOwned
  split <;> simp

@[simp] theorem State_pairBind_pending (s : State) (partner : List Nat) (wseed : Nat) (unwrapOk : Bool) :
    (s.pairBind partner wseed unwrapOk).st.pending = s.pending := by
  simp only [State.pairBind]
  repeat' split
  all_goals rfl

theorem State_command_pending {s : State} {f : State → CmdOut} {after : State → State}
    (hf : (f s).st.pending = s.pending) (hafter : ∀ t, (after t).pending = t.pending) (e : Envelope) (code : Nat)
    (states : List Nat) (q : QCol) (signer : Option Nat) (own : Bool) :
    (s.command e code states q signer own f after).pending = s.pending := by
  by_cases hlen : e.lenOk = true <;> cases own <;>
    simp [State.command, State.request, hafter, hlen, hf]

/-! ### READY (R501, R528) -/

@[simp] theorem State_raiseFloor_pending (s : State) : s.raiseFloor.pending = s.pending := by simp [State.raiseFloor]

@[simp] theorem State_readyCold_pending (s : State) : s.readyCold.pending = s.pending := by simp [State.readyCold]

@[simp] theorem State_readyWarm_pending (s : State) : s.readyWarm.pending = s.pending :=
  ite_pending (by simp) (by simp)

/-! ### Every command -/

section
variable {s t u : State}

theorem pending_of_next (h : (.next u : Host.Outcome State Fault Refusal) = .next t) (hu : u.pending = s.pending) :
    t.pending = s.pending := by
  cases h
  exact hu

theorem pending_of_answer {ok : Bool} (h : answer ok u = .next t) (hu : u.pending = s.pending) : t.pending = s.pending := by
  obtain ⟨_, rfl⟩ := answer_next.1 h
  exact hu

end

section
variable {s t : State}

theorem execInstructionComplete_pending {k id : Nat} (h : execInstructionComplete k id s = .next t) : t.pending = s.pending := by
  refine pending_of_answer h (ite_pending rfl ?_)
  split
  · exact ite_pending (State_finishFlight_pending ..) rfl
  · rfl

theorem execStopTimeout_pending {cseq : Nat} (h : execStopTimeout cseq s = .next t) : t.pending = s.pending := by
  refine pending_of_next h ?_
  split <;> simp

theorem execDynamicRowWrite_pending {k : Nat} {tm : Timing} (h : execDynamicRowWrite k tm s = .next t) :
    t.pending = s.pending := by
  refine pending_of_answer h (ite_pending rfl ?_)
  split
  · split
    · simp
    · dsimp only
      split
      · rfl
      · simp
      · next hr => simpa using Eff_gives_elim hr (State_rowWrite_pending _ _ _ _ _ _ _ _ _)
  · rfl

theorem execDepositLand_pending {x : LandIn} (h : execDepositLand x s = .next t) : t.pending = s.pending := by
  refine pending_of_next h ?_
  split <;> simp

theorem execCreditTimeout_pending {id : Nat} (h : execCreditTimeout id s = .next t) : t.pending = s.pending := by
  refine pending_of_next h ?_
  split
  · refine ite_pending rfl ?_
    split
    · simp
    · simp
    · split <;> simp
  · rfl

theorem execHubInputDelivery_pending {cseq : Nat} (h : execHubInputDelivery cseq s = .next t) : t.pending = s.pending := by
  refine pending_of_next h ?_
  split
  · split <;> simp
  · rfl

theorem execFrameStart_pending {cseq k : Nat} (h : execFrameStart cseq k s = .next t) : t.pending = s.pending := by
  refine pending_of_answer h ?_
  split
  · split <;> simp
  · rfl

theorem execFrameBind_pending {cseq : Nat} (h : execFrameBind cseq s = .next t) : t.pending = s.pending := by
  refine pending_of_next h ?_
  split
  · split <;> simp
  · rfl

theorem execSegmentTimeout_pending {hub : Nat} {x : Hdr} (h : execSegmentTimeout hub x s = .next t) : t.pending = s.pending := by
  refine pending_of_answer h ?_
  split <;> simp

theorem execLedgerConfirm_pending {x : CommitTime} {hub : Nat} (h : execLedgerConfirm x hub s = .next t) :
    t.pending = s.pending := by
  refine pending_of_answer h ?_
  split <;> simp

theorem execCommitDeadline_pending {x : CommitTime} (h : execCommitDeadline x s = .next t) : t.pending = s.pending := by
  refine pending_of_next h ?_
  split <;> simp

theorem execDispatch_pending {cseq : Nat} (h : execDispatch cseq s = .next t) : t.pending = s.pending := by
  refine pending_of_next h ?_
  split
  · split <;> simp
  · rfl

theorem execFrameEnd_pending {cseq : Nat} (h : execFrameEnd cseq s = .next t) : t.pending = s.pending := by
  refine pending_of_next h ?_
  split
  · split
    · refine ite_pending rfl ?_
      split <;> simp
    · rfl
  · rfl

theorem execResultParcelWritten_pending {cseq : Nat} (h : execResultParcelWritten cseq s = .next t) : t.pending = s.pending := by
  refine pending_of_next h ?_
  split <;> simp

theorem execParcelReadError_pending {cseq : Nat} {p : ParcelCopy} {both : Bool}
    (h : execParcelReadError cseq p both s = .next t) : t.pending = s.pending := by
  refine pending_of_next h ?_
  split <;> simp

theorem execInputParcelWritten_pending {cseq : Nat} (h : execInputParcelWritten cseq s = .next t) : t.pending = s.pending := by
  refine pending_of_next h ?_
  split <;> simp

theorem execBulkClose_pending {b : BulkIn} (h : execBulkClose b s = .next t) : t.pending = s.pending :=
  pending_of_answer h (State_bulkFrame_pending s 3 b fun s t h => State_onSession_pending s b t h fun x => by simp)

theorem execAbort_pending {b : BulkIn} (h : execAbort b s = .next t) : t.pending = s.pending :=
  pending_of_answer h (State_bulkFrame_pending s 4 b fun s t h => State_onSession_pending s b t h fun x => by simp)

theorem execQuery_pending {b : BulkIn} (h : execQuery b s = .next t) : t.pending = s.pending := by
  refine pending_of_answer h (State_bulkFrame_pending s 5 b fun s t h => ?_)
  split <;> simp

theorem execNotes_pending {b : BulkIn} (h : execNotes b s = .next t) : t.pending = s.pending := by
  refine pending_of_answer h (State_bulkFrame_pending s 8 b fun s t h => ?_)
  split <;> simp

theorem execPatchApply_pending {handle : Nat} (h : execPatchApply handle s = .next t) : t.pending = s.pending := by
  refine pending_of_next h ?_
  split
  · refine ite_pending rfl ?_
    split <;> simp
  · rfl

theorem execPairStrike_pending {p : PairIn} {cseq stream incarn seq : Nat}
    (h : execPairStrike p cseq stream incarn seq s = .next t) : t.pending = s.pending := by
  refine pending_of_answer h (State_pairFrame_pending s p 10 _ fun s => ?_)
  split <;> simp

theorem execClear_pending {e : Envelope} {pairs : List (Nat × Nat)} (h : execClear e pairs s = .next t) :
    t.pending = s.pending := by
  refine pending_of_answer h (State_command_pending ?_ (fun _ => rfl) ..)
  exact State_clearAll_pending s pairs

theorem execWarmRestart_pending {e : Envelope} (h : execWarmRestart e s = .next t) : t.pending = s.pending :=
  pending_of_answer h (State_command_pending rfl State_ownerRestart_pending ..)

theorem execUseProfile_pending {e : Envelope} {slot : Nat} (h : execUseProfile e slot s = .next t) :
    t.pending = s.pending := by
  refine pending_of_answer h (State_command_pending ?_ (fun _ => rfl) ..)
  exact State_useProfile_pending s e slot

theorem execActivateFirmware_pending {e : Envelope} {slot : Nat} (h : execActivateFirmware e slot s = .next t) :
    t.pending = s.pending := by
  refine pending_of_answer h (State_command_pending ?_ (fun _ => rfl) ..)
  split <;> simp

theorem execNvmBegin_pending {e : Envelope} {target len digest : Nat} (h : execNvmBegin e target len digest s = .next t) :
    t.pending = s.pending := by
  refine pending_of_answer h (State_command_pending ?_ (fun _ => rfl) ..)
  exact State_nvmBegin_pending s target len digest

theorem execPairUnbind_pending {e : Envelope} (h : execPairUnbind e s = .next t) : t.pending = s.pending := by
  refine pending_of_answer h (State_command_pending ?_ (fun _ => rfl) ..)
  split <;> simp

theorem execPairBind_pending {e : Envelope} {partner : List Nat} {wseed : Nat} {unwrapOk : Bool}
    (h : execPairBind e partner wseed unwrapOk s = .next t) : t.pending = s.pending :=
  pending_of_answer h (State_command_pending (State_pairBind_pending s partner wseed unwrapOk) (fun _ => rfl) ..)

theorem execTakeOwnership_pending {e : Envelope} {voucherOk : Bool} (h : execTakeOwnership e voucherOk s = .next t) :
    t.pending = s.pending := by
  refine pending_of_answer h (State_command_pending ?_ State_toColdStart_pending ..)
  split <;> simp

theorem execRotateOwner_pending {e : Envelope} {d : Nat} (h : execRotateOwner e d s = .next t) : t.pending = s.pending := by
  refine pending_of_answer h (State_command_pending ?_ (fun _ => rfl) ..)
  split <;> simp

theorem execReturnPkg_pending {e : Envelope} (h : execReturnPkg e s = .next t) : t.pending = s.pending :=
  pending_of_answer h (State_command_pending (State_leaveOwned_pending s 7) State_toColdStart_pending ..)

theorem execRetire_pending {e : Envelope} (h : execRetire e s = .next t) : t.pending = s.pending := by
  refine pending_of_answer h (ite_pending ?_ ?_)
  · exact State_command_pending (by simp) State_toColdStart_pending ..
  · exact State_command_pending (State_leaveOwned_pending s 15) State_toColdStart_pending ..

theorem execRaiseSvn_pending {e : Envelope} {n : Nat} (h : execRaiseSvn e n s = .next t) : t.pending = s.pending := by
  refine pending_of_answer h (State_command_pending ?_ (fun _ => rfl) ..)
  split <;> simp

theorem execReadyAssert_pending (h : execReadyAssert s = .next t) : t.pending = s.pending := by
  refine pending_of_next h ?_
  split <;> simp

end

theorem exec_pending {c : Instr} {s t : State} (h : exec c s = .next t) : t.pending = s.pending := by
  cases c
  case instructionComplete => exact execInstructionComplete_pending h
  case stopTimeout => exact execStopTimeout_pending h
  case dynamicRowWrite => exact execDynamicRowWrite_pending h
  case depositLand => exact execDepositLand_pending h
  case creditTimeout => exact execCreditTimeout_pending h
  case hubInputDelivery => exact execHubInputDelivery_pending h
  case frameStart => exact execFrameStart_pending h
  case frameBind => exact execFrameBind_pending h
  case segmentTimeout => exact execSegmentTimeout_pending h
  case ledgerConfirm => exact execLedgerConfirm_pending h
  case commitDeadline => exact execCommitDeadline_pending h
  case dispatch => exact execDispatch_pending h
  case frameEnd => exact execFrameEnd_pending h
  case resultParcelWritten => exact execResultParcelWritten_pending h
  case parcelReadError => exact execParcelReadError_pending h
  case inputParcelWritten => exact execInputParcelWritten_pending h
  case bulkClose => exact execBulkClose_pending h
  case abort => exact execAbort_pending h
  case query => exact execQuery_pending h
  case notes => exact execNotes_pending h
  case patchApply => exact execPatchApply_pending h
  case pairStrike => exact execPairStrike_pending h
  case clear => exact execClear_pending h
  case warmRestart => exact execWarmRestart_pending h
  case useProfile => exact execUseProfile_pending h
  case activateFirmware => exact execActivateFirmware_pending h
  case nvmBegin => exact execNvmBegin_pending h
  case pairUnbind => exact execPairUnbind_pending h
  case pairBind => exact execPairBind_pending h
  case takeOwnership => exact execTakeOwnership_pending h
  case rotateOwner => exact execRotateOwner_pending h
  case returnPkg => exact execReturnPkg_pending h
  case retire => exact execRetire_pending h
  case raiseSvn => exact execRaiseSvn_pending h
  case readyAssert => exact execReadyAssert_pending h
  case resultTransmit | installDone | routineCommit | placementRetire | bulkIdle | digestExchange | faultPulseEnd |
      yokeTick | envHold | roundOverrun | secureWipeDone | profileSwitch | firmwareActivation | maintDefer | tamper |
      coldStart | bootReportTimeout | porstAssert | wrstPin | warmRestartDoze | nvmProgramDone | pairHeartbeatTimer |
      pairHeartbeatMiss => exact pending_of_next h (by simp)
  all_goals exact pending_of_answer h (by simp)

/-- Settles O56: no row's effect reaches the queue (`exec_pending`). -/
theorem commandsLeaveTheQueue : Obligations.CommandsLeaveTheQueue := fun _ _ _ h => exec_pending h

end Sys2Proof.Machine
end

/-! ## The control core: values, branches, signals and waits (07 R214 to R217, R222, R229 to R240) -/

section
namespace Sys2Proof.Machine
open Sys2Proof

/-! ### The scalar instructions (R229) -/

/-- The value of an `n`-bit field in two's complement is that of its bit vector. -/
theorem signedVal_eq_toInt {n : Nat} (hn : 0 < n) (w : Nat) : signedVal n w = (BitVec.ofNat n w).toInt := by
  obtain ⟨m, rfl⟩ : ∃ m, n = m + 1 := ⟨n - 1, by omega⟩
  rw [signedVal, BitVec.toInt_eq_toNat_cond, BitVec.toNat_ofNat, Nat.add_sub_cancel]
  have hpow : 2 ^ (m + 1) = 2 * 2 ^ m := by rw [Nat.pow_succ, Nat.mul_comm]
  by_cases h : w % 2 ^ (m + 1) < 2 ^ m
  · rw [if_pos h, if_pos (by omega)]
  · rw [if_neg h, if_neg (by omega)]

theorem valMadd_eq (i : MInstr) (c : Core) :
    valMadd i c = c.a i.sRA + c.a i.sRB * (BitVec.ofNat 16 i.sIMM).signExtend 32 := by
  rw [valMadd, signedVal_eq_toInt (by decide)]
  rfl

theorem valMin_eq (i : MInstr) (c : Core) :
    valMin i c = if (c.second i).slt (c.a i.sRA) then c.second i else c.a i.sRA := by
  simp [valMin, BitVec.slt]

theorem valMax_eq (i : MInstr) (c : Core) :
    valMax i c = if (c.a i.sRA).slt (c.second i) then c.second i else c.a i.sRA := by
  simp [valMax, BitVec.slt]

/-- A scalar row that issues writes its value and goes on. -/
theorem answer_scalar_issuing {s : State} {k n : Nat} {i : MInstr} {c : Core} (h : s.issuing k i c) (ho : i.op = n)
    (f : MInstr → Core → Word) : answer (coreOk k) (s.ccIssue k (hasOp n) (scalar f)) =
      .next (s.issued k i (s.core k) (c.setA i.sRD (f i c)).nextPc) :=
  answer_ccIssue_issuing h (hasOp_of_op ho)

/-- Settles O1: each scalar row issues with the value that the model computes for it. -/
theorem scalarResults : Obligations.ScalarResults := by
  intro s k i c h
  refine ⟨exec_nop_issuing h, fun ho => answer_scalar_issuing h ho valLdi, fun ho => answer_scalar_issuing h ho valAdd,
    fun ho => answer_scalar_issuing h ho valSub, fun ho => answer_scalar_issuing h ho valShl,
    fun ho => answer_scalar_issuing h ho valShr, fun ho => answer_scalar_issuing h ho valSra, ?madd, ?min, ?max,
    fun ho => answer_scalar_issuing h ho valAnd, fun ho => answer_scalar_issuing h ho valSmov,
    fun ho => answer_scalar_issuing h ho valQdepth, fun ho => answer_ccIssue_issuing h (hasOp_of_op ho),
    fun ho => answer_ccIssue_issuing h (hasOp_of_op ho)⟩
  case madd =>
    intro ho
    rw [← valMadd_eq]
    exact answer_scalar_issuing h ho valMadd
  case min =>
    intro ho
    have hval := valMin_eq i c
    exact hval ▸ answer_scalar_issuing h ho valMin
  case max =>
    intro ho
    have hval := valMax_eq i c
    exact hval ▸ answer_scalar_issuing h ho valMax

/-! ### Branches (R237, R238) -/

/-- The comparison that `SUB` names holds of `x` and `y` (R237). -/
def branchTaken (sub : Nat) (x y : Word) : Prop :=
  match sub with
  | 0 => True
  | 1 => x = y
  | 2 => x ≠ y
  | 3 => x.toInt < y.toInt
  | 4 => y.toInt ≤ x.toInt
  | 5 => x.toNat < y.toNat
  | 6 => y.toNat ≤ x.toNat
  | 7 => fp32Shape.lt x.toNat y.toNat = true
  | 8 => fp32Shape.lt y.toNat x.toNat = true ∨ fp32Shape.eq x.toNat y.toNat = true
  | _ => False

theorem signedVal_toNat (x : Word) : signedVal 32 x.toNat = x.toInt := by
  rw [signedVal_eq_toInt (by decide), BitVec.ofNat_toNat, BitVec.setWidth_eq]

theorem branchCond_iff (sub : Nat) (x y : Word) : branchCond sub x.toNat y.toNat = true ↔ branchTaken sub x y := by
  unfold branchCond branchTaken
  split <;> simp [signedVal_toNat, BitVec.toNat_inj]

/-- The first source of BR: S[`RA`] or A[`RA`] (R222). -/
def Core.first (c : Core) (i : MInstr) : Word := if i.sAS then c.sr (i.sRA % 8) else c.a i.sRA

/-- The index that BR names. -/
def branchTarget (i : MInstr) (c : Core) : Int := (c.ctl.pc : Int) + (BitVec.ofNat 32 i.sOFF).toInt

/-- BR by its comparison and the innermost loop of the routine. -/
theorem brBody_eq (n : Nat) (i : MInstr) (c : Core) :
    brBody n i c =
      if branchCond i.sSUB (c.first i).toNat (c.second i).toNat then
        match c.ownLoop with
        | some lv =>
          if (lv.first : Int) ≤ branchTarget i c ∧ branchTarget i c ≤ (lv.last : Int) + 1 then c.jump (branchTarget i c).toNat
          else c.haltHere 0x0B 0x40000000
        | none =>
          if 0 ≤ branchTarget i c ∧ branchTarget i c < (n : Int) then c.jump (branchTarget i c).toNat
          else c.haltHere 0x08 (pattern 32 (branchTarget i c))
      else c.nextPc := by
  simp only [brBody, branchTarget, ← signedVal_eq_toInt (n := 32) (by decide)]
  rfl

section
variable {n : Nat} {i : MInstr} {c : Core}

theorem brBody_not_taken (h : ¬ branchTaken i.sSUB (c.first i) (c.second i)) : brBody n i c = c.nextPc := by
  rw [brBody_eq, if_neg (mt (branchCond_iff _ _ _).1 h)]

variable (h : branchTaken i.sSUB (c.first i) (c.second i))
include h

theorem brBody_loop_inside {lv : LoopLv} (hown : c.ownLoop = some lv) (hlo : (lv.first : Int) ≤ branchTarget i c)
    (hhi : branchTarget i c ≤ (lv.last : Int) + 1) : brBody n i c = c.jump (branchTarget i c).toNat := by
  rw [brBody_eq, if_pos ((branchCond_iff _ _ _).2 h), hown]
  exact if_pos ⟨hlo, hhi⟩

theorem brBody_loop_outside {lv : LoopLv} (hown : c.ownLoop = some lv)
    (hout : branchTarget i c < (lv.first : Int) ∨ (lv.last : Int) + 1 < branchTarget i c) :
    brBody n i c = c.haltHere 0x0B 0x40000000 := by
  rw [brBody_eq, if_pos ((branchCond_iff _ _ _).2 h), hown]
  exact if_neg fun hin => hout.elim (Int.not_lt.2 hin.1) (Int.not_lt.2 hin.2)

theorem brBody_image_inside (hown : c.ownLoop = none) (hlo : 0 ≤ branchTarget i c) (hhi : branchTarget i c < (n : Int)) :
    brBody n i c = c.jump (branchTarget i c).toNat := by
  rw [brBody_eq, if_pos ((branchCond_iff _ _ _).2 h), hown]
  exact if_pos ⟨hlo, hhi⟩

theorem brBody_image_outside (hown : c.ownLoop = none) (hout : branchTarget i c < 0 ∨ (n : Int) ≤ branchTarget i c) :
    brBody n i c = c.haltHere 0x08 (pattern 32 (branchTarget i c)) := by
  rw [brBody_eq, if_pos ((branchCond_iff _ _ _).2 h), hown]
  exact if_neg fun hin => hout.elim (Int.not_lt.2 hin.1) (Int.not_le.2 hin.2)

end

theorem exec_br_issuing {s : State} {k : Nat} {i : MInstr} {c : Core} (h : s.issuing k i c) (ho : i.op = 0x12) :
    exec (.br k) s =
      .next (s.issued k i (s.core k) (brBody (s.code (s.core k) (s.core k).ctl.ctx).length i c)) :=
  answer_ccIssue_issuing h (hasOp_of_op ho)

/-! ### CALL and RET (R194, R239) -/

/-- The frame of the core has a version of the routine `name` at its bound commit number. -/
def State.hasRoutine (s : State) (c : Core) (name : Nat) : Bool :=
  match s.frameOf c with
  | some e => (s.routineFor e name).isSome
  | none => false

theorem hasRoutine_of_frame {s : State} {c : Core} {e : Entry} (h : s.frameOf c = some e) (name : Nat) :
    s.hasRoutine c name = (s.routineFor e name).isSome := by
  simp only [State.hasRoutine, h]

theorem exec_call_rebuilding {s : State} {k : Nat} (hk : coreOk k = true)
    (hrebuild : (at' s.dsm (k / 128) (Dsm.fresh false)).rebuild = true) : exec (.call k) s = .next s :=
  answer_next.2 ⟨hk, (if_pos hrebuild).symm⟩

theorem exec_call_issuing {s : State} {k : Nat} {i : MInstr} {c : Core} (h : s.issuing k i c) (ho : i.op = 0x13)
    (hrebuild : (at' s.dsm (k / 128) (Dsm.fresh false)).rebuild = false) :
    exec (.call k) s = .next (s.issued k i (s.core k) (callBody (s.hasRoutine (s.core k)) i c)) := by
  refine answer_next.2 ⟨h.1, ?_⟩
  rw [if_neg (by rw [hrebuild]; decide)]
  exact (ccIssue_issuing s c h (hasOp_of_op ho)).symm

theorem exec_ret_issuing {s : State} {k : Nat} {i : MInstr} {c : Core} (h : s.issuing k i c) (ho : i.op = 0x14) :
    exec (.ret k) s = .next (s.issued k i (s.core k) (retBody i c)) :=
  answer_ccIssue_issuing h (hasOp_of_op ho)

section
variable {found : Nat → Bool} {i : MInstr} {c : Core}

theorem callBody_deep (h : 8 ≤ c.ctl.calls.length) : callBody found i c = c.haltHere 0x0C 0x10000000 := if_pos h

theorem callBody_missing (h : c.ctl.calls.length < 8) (hfound : found i.sIMM = false) :
    callBody found i c = c.haltHere 0x0F i.sIMM := by
  rw [callBody, if_neg (Nat.not_le.2 h), hfound]
  rfl

theorem callBody_enters (h : c.ctl.calls.length < 8) (hfound : found i.sIMM = true) :
    callBody found i c = { c with ctl := { c.ctl with
      calls := ⟨c.ctl.ctx, c.ctl.pc, c.ctl.loops.length⟩ :: c.ctl.calls
      ctx := i.sIMM
      pc := 0 } } := by
  unfold callBody
  exact (if_neg (Nat.not_le.2 h)).trans (if_neg (by rw [hfound]; decide))

theorem retBody_top (h : c.ctl.calls = []) : retBody i c = c.haltHere 0x0C 0x20000000 := by
  simp only [retBody, h] <;> rfl

theorem retBody_called {r : RetPt} {rest : List RetPt} (h : c.ctl.calls = r :: rest) :
    retBody i c = if r.loops < c.ctl.loops.length then c.haltHere 0x0B 0x50000000
      else { c with ctl := { c.ctl with calls := rest, ctx := r.ctx, pc := r.pc + 1 } } := by
  simp only [retBody, h] <;> rfl

end

theorem exec_halt_issuing {s : State} {k : Nat} {i : MInstr} {c : Core} (h : s.issuing k i c) (ho : i.op = 0x15) :
    exec (.halt k) s = .next ((s.issued k i (s.core k) { c with st := .draining }).settle k) := by
  refine answer_next.2 ⟨h.1, ?_⟩
  rw [ccIssue_issuing s c h (hasOp_of_op ho)]
  rfl

/-- Settles O3: BR by its comparison and target, CALL and RET by the calls in progress. -/
theorem branchesAndCalls : Obligations.BranchesAndCalls := by
  refine ⟨fun s k i c h ho => ?br, fun s k i c h => ?calls, fun s c hst => if_neg hst⟩
  case br =>
    refine ⟨fun hno => ?_, fun htaken lv hown hlo hhi => ?_, fun htaken lv hown hout => ?_, fun htaken hown hlo hhi => ?_,
      fun htaken hown hout => ?_⟩
    · rw [exec_br_issuing h ho, brBody_not_taken hno]
    · rw [exec_br_issuing h ho, brBody_loop_inside htaken hown hlo hhi]
      rfl
    · rw [exec_br_issuing h ho, brBody_loop_outside htaken hown hout]
    · rw [exec_br_issuing h ho, brBody_image_inside htaken hown hlo hhi]
      rfl
    · rw [exec_br_issuing h ho, brBody_image_outside htaken hown hout]
      rfl
  case calls =>
    refine ⟨fun _ hrebuild => exec_call_rebuilding h.1 hrebuild, fun ho hrebuild hfew e he hnone => ?_,
      fun ho hrebuild hfew e v he hv => ?_, fun ho hrebuild hdeep => ?_, fun ho r rest hcalls hloops => ?_,
      fun ho r rest hcalls hloops => ?_, fun ho hcalls => ?_, exec_halt_issuing h⟩
    · rw [exec_call_issuing h ho hrebuild, callBody_missing hfew (by rw [hasRoutine_of_frame he, hnone]; rfl)]
    · rw [exec_call_issuing h ho hrebuild, callBody_enters hfew (by rw [hasRoutine_of_frame he, hv]; rfl)]
    · rw [exec_call_issuing h ho hrebuild, callBody_deep hdeep]
    · rw [exec_ret_issuing h ho, retBody_called hcalls, if_neg (Nat.not_lt.2 hloops)]
    · rw [exec_ret_issuing h ho, retBody_called hcalls, if_pos hloops]
    · rw [exec_ret_issuing h ho, retBody_top hcalls]

/-! ### Signals (R215, R216) and what follows an issue (R235, R238) -/

/-- The instruction `i` makes a signal at its issue (R215). -/
def MInstr.signals (i : MInstr) : Bool := i.se && queueOf i.op == 0

theorem Core_live_of_run {c : Core} (h : c.st = .run) : c.live = true := by rw [Core.live, h]

theorem issued_of_run (s : State) (k : Nat) (i : MInstr) (c0 : Core) {c1 : Core} (h : c1.st = .run) :
    s.issued k i c0 c1 =
      let s2 := if i.signals then
        (s.setCore k c1).signal k i.sctr (i.sinc + 1) c0.ctl.ctx c0.ctl.pc c0.ctl.calls.length else s.setCore k c1
      if (s2.core k).st = .run then
        let c3 := s2.advance (s2.core k)
        if c3.st = .halted then { s2.setCore k c3 with deposits := dropDeposits k s2.deposits } else s2.setCore k c3
      else s2 := by
  rw [State.issued, h]
  rfl

theorem signal_overflow {s : State} {k j n ctx idx depth : Nat} (hlive : (s.core k).live = true)
    (hover : 65535 < (s.core k).ctr j + n) :
    s.signal k j n ctx idx depth = s.haltCore k ctx idx depth 0x17 (j * 2 ^ 26) := by
  simp [State.signal, hlive, Core.overflows, hover]

theorem signal_steps {s : State} {k j n ctx idx depth : Nat} (hlive : (s.core k).live = true)
    (hfits : (s.core k).ctr j + n ≤ 65535) :
    s.signal k j n ctx idx depth = s.setCore k ((s.core k).setCtr j ((s.core k).ctr j + n)) := by
  simp [State.signal, hlive, Core.overflows, Nat.not_lt.2 hfits]

theorem haltCore_st {s : State} {k : Nat} (hlive : (s.core k).live = true) (ctx idx depth reason detail : Nat) :
    ((s.haltCore k ctx idx depth reason detail).core k).st = .halted := by
  simp only [State.haltCore, hlive, if_true]
  exact congrArg Core.st (State_core_setCore_same s _ k)

/-- A core whose next instruction ends no loop body closes none. -/
theorem loopEnds_none {c : Core} (h : ∀ lv, c.ownLoop = some lv → c.ctl.pc ≠ lv.last + 1) (n : Nat) :
    Core.loopEnds n c = c := by
  cases n with
  | zero => rfl
  | succ n =>
    rw [Core.loopEnds]
    split
    · next lv hown => exact if_neg (h lv hown)
    · rfl

theorem advance_plain {s : State} {c : Core} (h : s.plain c) : s.advance c = c := by
  obtain ⟨_, hends, hin⟩ := h
  have hsame := loopEnds_none hends 5
  rw [advance_within (by rw [hsame]; exact hin), hsame]

theorem issued_overflow {s : State} {k : Nat} {i : MInstr} {c0 c1 : Core} (hrun : c1.st = .run) (hsignal : i.signals = true)
    (hover : 65535 < c1.ctr i.sctr + (i.sinc + 1)) :
    s.issued k i c0 c1 =
      (s.setCore k c1).haltCore k c0.ctl.ctx c0.ctl.pc c0.ctl.calls.length 0x17 (i.sctr * 2 ^ 26) := by
  have hlive : ((s.setCore k c1).core k).live = true := by
    rw [State_core_setCore_same]
    exact Core_live_of_run hrun
  rw [issued_of_run s k i c0 hrun, if_pos hsignal, signal_overflow hlive (by rwa [State_core_setCore_same])]
  exact if_neg (by rw [haltCore_st hlive]; decide)

/-- The core after its signal, when the signal fits (R215). -/
def Core.signalled (c : Core) (i : MInstr) : Core :=
  if i.signals then c.setCtr i.sctr (c.ctr i.sctr + (i.sinc + 1)) else c

theorem Core_signalled_st (c : Core) (i : MInstr) : (c.signalled i).st = c.st := by
  unfold Core.signalled
  split <;> rfl

theorem issued_plain {s : State} {k : Nat} {i : MInstr} {c0 c1 : Core} (hrun : c1.st = .run)
    (hfits : i.signals = true → c1.ctr i.sctr + (i.sinc + 1) ≤ 65535) (hplain : s.plain (c1.signalled i)) :
    s.issued k i c0 c1 = s.setCore k (c1.signalled i) := by
  have hs2 : (if i.signals then (s.setCore k c1).signal k i.sctr (i.sinc + 1) c0.ctl.ctx c0.ctl.pc c0.ctl.calls.length
      else s.setCore k c1) = s.setCore k (c1.signalled i) := by
    unfold Core.signalled
    split
    · next hsignal =>
      rw [signal_steps (by rw [State_core_setCore_same]; exact Core_live_of_run hrun)
        (by rw [State_core_setCore_same]; exact hfits hsignal), State_core_setCore_same, State_setCore_setCore]
    · rfl
  have hadv : (s.setCore k (c1.signalled i)).advance (c1.signalled i) = c1.signalled i := advance_plain hplain
  have hst : (c1.signalled i).st = .run := (Core_signalled_st c1 i).trans hrun
  rw [issued_of_run s k i c0 hrun, hs2]
  simp [hadv, hst]

/-! ### A wait that is not satisfied (R214) -/

/-- `s` with the control core of `k` stalled at the wait of `i`. -/
def State.stalls (s : State) (k : Nat) (i : MInstr) : State :=
  s.setCore k { s.core k with ctl := { (s.core k).ctl with stall := some (.wait i.wctr i.wval) } }

/-- The instruction `i` of core `k` is due, and its wait is not satisfied. -/
structure State.waitsFor (s : State) (k : Nat) (i : MInstr) : Prop where
  ok : coreOk k = true
  due : s.due (s.core k) = some i
  fresh : (s.core k).ctl.stall = none
  onward : s.atStop (s.core k) ≠ some ((s.core k).ctl.stopSeen + 1)
  waits : i.we = true
  short : (s.core k).ctr i.wctr < i.wval

theorem due_run {s : State} {c : Core} {i : MInstr} (h : s.due c = some i) : c.st = .run := by
  unfold State.due at h
  split at h
  · assumption
  · cases h

theorem settle_of_run {s : State} {k : Nat} (h : (s.core k).st = .run) : s.settle k = s := by
  simp [State.settle, h]

section
variable {s : State} {k : Nat} {i : MInstr} (h : s.waitsFor k i)
include h

theorem ccIssue_stalls {isOp : MInstr → Bool} (body : MInstr → Core → Core) (ho : isOp i = true) (hq : queueOf i.op = 0) :
    s.ccIssue k isOp body = s.stalls k i := by
  simp [State.ccIssue, h.due, h.fresh, h.onward, h.waits, hq, ho, Core.waitOk, Nat.not_le.2 h.short, State.stalls]

theorem stalls_run : ((s.stalls k i).core k).st = .run := by
  rw [State.stalls, State_core_setCore_same]
  exact due_run h.due

/-- A row of the control core whose instruction waits stalls, by the rule that gives the row its meaning. -/
theorem answer_ccIssue_stalls {n : Nat} (body : MInstr → Core → Core) (ho : i.op = n) (hn : queueOf n = 0) :
    answer (coreOk k) (s.ccIssue k (hasOp n) body) = .next (s.stalls k i) :=
  answer_next.2 ⟨h.ok, (ccIssue_stalls h body (hasOp_of_op ho) (ho ▸ hn)).symm⟩

theorem exec_halt_stalls (ho : i.op = 0x15) : exec (.halt k) s = .next (s.stalls k i) := by
  refine answer_next.2 ⟨h.ok, ?_⟩
  rw [ccIssue_stalls h _ (hasOp_of_op ho) (by rw [ho]; rfl), settle_of_run (stalls_run h)]

theorem exec_sheets_stalls (ho : i.op = 0x16) : exec (.sheets k) s = .next (s.stalls k i) := by
  refine answer_next.2 ⟨h.ok, ?_⟩
  rw [ccIssue_stalls h _ (hasOp_of_op ho) (by rw [ho]; rfl)]
  exact (if_pos (by rw [State.stalls, State_core_setCore_same])).symm

theorem exec_call_stalls (ho : i.op = 0x13) (hrebuild : (at' s.dsm (k / 128) (Dsm.fresh false)).rebuild = false) :
    exec (.call k) s = .next (s.stalls k i) := by
  refine answer_next.2 ⟨h.ok, ?_⟩
  rw [if_neg (by rw [hrebuild]; decide), ccIssue_stalls h _ (hasOp_of_op ho) (by rw [ho]; rfl)]

theorem controlRows_stall : ∀ p ∈ controlRows, i.op = p.1 → exec (p.2 k) s = .next (s.stalls k i) := by
  have row {n : Nat} (body : MInstr → Core → Core) (hn : queueOf n = 0) (ho : i.op = n) :
      answer (coreOk k) (s.ccIssue k (hasOp n) body) = .next (s.stalls k i) := answer_ccIssue_stalls h body ho hn
  simp only [controlRows, List.forall_mem_cons]
  exact ⟨row _ rfl, row _ rfl, row _ rfl, row _ rfl, row _ rfl, row _ rfl, row _ rfl, row _ rfl, row _ rfl, row _ rfl,
    row _ rfl, row _ rfl, row _ rfl, row _ rfl, row _ rfl, row _ rfl, row _ rfl, row _ rfl, row _ rfl, exec_halt_stalls h,
    exec_sheets_stalls h, nofun⟩

end

/-- Settles O5: a signal that fits or overflows, and a wait that stalls each row by the one function they share. -/
theorem issueAndWait : Obligations.IssueAndWait := by
  refine ⟨fun s k i c0 c1 hrun => ⟨fun hsignal hover => issued_overflow hrun hsignal hover, fun hfits hplain => ?_⟩, ?_⟩
  · exact issued_plain hrun hfits hplain
  · intro s k i hk hdue hstall hstop hwe hshort
    have h : s.waitsFor k i := ⟨hk, hdue, hstall, hstop, hwe, hshort⟩
    exact ⟨controlRows_stall h, exec_call_stalls h⟩

/-! ### What a control-core instruction leaves (R229, R247, R251) -/

/-- Of the core `c` the core `d` has all but the state, the halt record, the control registers, the queues and the counters
of R254, and it goes on as `c` or has halted. -/
structure Core.controls (c d : Core) : Prop where
  frame : d = { c with st := d.st, haltRec := d.haltRec, ctl := d.ctl, prog := d.prog, q := d.q }
  goes : d.st = c.st ∨ d.st = .halted

theorem Core_controls_refl (c : Core) : c.controls c := ⟨rfl, .inl rfl⟩

theorem Core_controls_ctl (c : Core) (x : CtlRegs) : c.controls { c with ctl := x } := ⟨rfl, .inl rfl⟩

theorem Core_controls_haltHere (c : Core) (reason detail : Nat) : c.controls (c.haltHere reason detail) := ⟨rfl, .inr rfl⟩

theorem Core.controls.trans {c d e : Core} (h : c.controls d) (g : d.controls e) : c.controls e := by
  refine ⟨?_, ?_⟩
  · rw [g.frame, h.frame]
  · rcases g.goes with hg | hg
    · rw [hg]
      exact h.goes
    · exact .inr hg

theorem loopEnds_controls (n : Nat) (c : Core) : c.controls (Core.loopEnds n c) := by
  induction n generalizing c with
  | zero => exact Core_controls_refl c
  | succ n ih =>
    rw [Core.loopEnds]
    split
    · split
      · split
        · exact Core_controls_ctl c _
        · exact (Core_controls_ctl c _).trans (ih _)
      · exact Core_controls_refl c
    · exact Core_controls_refl c

theorem advance_controls (s : State) (c : Core) : c.controls (s.advance c) := by
  simp only [State.advance]
  split
  · exact (loopEnds_controls 5 c).trans (Core_controls_haltHere _ _ _)
  · exact loopEnds_controls 5 c

theorem countStop_controls (s : State) (c : Core) : c.controls (s.countStop c) := by
  unfold State.countStop
  split
  · exact Core_controls_ctl c _
  · exact Core_controls_refl c

/-! ### The bodies of the rows -/

/-- A body of a control-core row changes what such a row may. -/
def Controls (body : MInstr → Core → Core) : Prop := ∀ (i : MInstr) (c : Core), c.controls (body i c)

theorem scalar_controls (f : MInstr → Core → Word) : Controls (scalar f) := fun _ c => Core_controls_ctl c _

theorem Core_controls_ite {c a b : Core} {p : Prop} [Decidable p] (ha : c.controls a) (hb : c.controls b) :
    c.controls (if p then a else b) := by
  split
  · exact ha
  · exact hb

theorem loopBody_controls : Controls loopBody := fun _ c =>
  Core_controls_ite (Core_controls_haltHere ..) (Core_controls_ite (Core_controls_haltHere ..)
    (Core_controls_ite (Core_controls_ctl c _) (Core_controls_ite (Core_controls_haltHere ..) (Core_controls_ctl c _))))

theorem lbrkBody_controls : Controls lbrkBody := by
  intro i c
  unfold lbrkBody
  split
  · exact Core_controls_ctl c _
  · exact Core_controls_haltHere ..

theorem brBody_controls (n : Nat) : Controls (brBody n) := by
  intro i c
  refine Core_controls_ite ?_ (Core_controls_ctl c _)
  split
  · exact Core_controls_ite (Core_controls_ctl c _) (Core_controls_haltHere ..)
  · exact Core_controls_ite (Core_controls_ctl c _) (Core_controls_haltHere ..)

theorem callBody_controls (found : Nat → Bool) : Controls (callBody found) := fun _ c =>
  Core_controls_ite (Core_controls_haltHere ..) (Core_controls_ite (Core_controls_haltHere ..) (Core_controls_ctl c _))

theorem retBody_controls : Controls retBody := by
  intro i c
  unfold retBody
  split
  · exact Core_controls_haltHere ..
  · exact Core_controls_ite (Core_controls_haltHere ..) (Core_controls_ctl c _)

/-! ### The state around the core -/

/-- From `s` to `t` only core `k` and deposits change, the core as a control-core row may change it. -/
structure State.controls (s t : State) (k : Nat) : Prop where
  rest : t = { s with cores := t.cores, deposits := t.deposits }
  others : ∀ j, j ≠ k → t.core j = s.core j
  own : (s.core k).controls (t.core k)

theorem State_controls_refl (s : State) (k : Nat) : s.controls s k := ⟨rfl, fun _ _ => rfl, Core_controls_refl _⟩

theorem State.controls.trans {s t u : State} {k : Nat} (h : s.controls t k) (g : t.controls u k) : s.controls u k :=
  ⟨by rw [g.rest, h.rest], fun j hj => (g.others j hj).trans (h.others j hj), h.own.trans g.own⟩

theorem State_controls_setCore {s : State} {k : Nat} {c : Core} (h : (s.core k).controls c) : s.controls (s.setCore k c) k :=
  ⟨rfl, fun _ hj => State_core_setCore_ne s c hj, by rwa [State_core_setCore_same]⟩

/-- A core that halts takes deposits with it (R171). -/
theorem State_controls_setCore_deposits {s : State} {k : Nat} {c : Core} (h : (s.core k).controls c) (ds : List Deposit) :
    s.controls { s.setCore k c with deposits := ds } k :=
  ⟨rfl, fun _ hj => State_core_setCore_ne s c hj, by
    show (s.core k).controls ((s.setCore k c).core k)
    rwa [State_core_setCore_same]⟩

theorem haltCore_controls (s : State) (k ctx idx depth reason detail : Nat) :
    s.controls (s.haltCore k ctx idx depth reason detail) k := by
  simp only [State.haltCore]
  split
  · exact State_controls_setCore_deposits ⟨rfl, .inr rfl⟩ _
  · exact State_controls_refl s k

theorem signal_controls (s : State) (k j n ctx idx depth : Nat) : s.controls (s.signal k j n ctx idx depth) k := by
  simp only [State.signal]
  split
  · split
    · exact haltCore_controls ..
    · exact State_controls_setCore (Core_controls_ctl _ _)
  · exact State_controls_refl s k

theorem issued_controls {s : State} {k : Nat} {c1 : Core} (h : (s.core k).controls c1) (i : MInstr) (c0 : Core) :
    s.controls (s.issued k i c0 c1) k := by
  simp only [State.issued]
  split
  · exact State_controls_setCore_deposits h _
  · have hsig : s.controls (if i.se && queueOf i.op == 0 then
        (s.setCore k c1).signal k i.sctr (i.sinc + 1) c0.ctl.ctx c0.ctl.pc c0.ctl.calls.length else s.setCore k c1) k := by
      split
      · exact (State_controls_setCore h).trans (signal_controls ..)
      · exact State_controls_setCore h
    revert hsig
    generalize (if i.se && queueOf i.op == 0 then
        (s.setCore k c1).signal k i.sctr (i.sinc + 1) c0.ctl.ctx c0.ctl.pc c0.ctl.calls.length else s.setCore k c1) = s2
    intro hsig
    split
    · split
      · exact hsig.trans (State_controls_setCore_deposits (advance_controls _ _) _)
      · exact hsig.trans (State_controls_setCore (advance_controls _ _))
    · exact hsig

/-- The core meets its stop, and stops at once when nothing that it issued is left (R251). -/
def State.stops (s : State) (k : Nat) : State := (s.meetStop k).settle k

/-- What a row of the control core does: the core goes on or halts, or it meets its stop. -/
theorem ccIssue_controls (s : State) (k : Nat) (isOp : MInstr → Bool) {body : MInstr → Core → Core} (hbody : Controls body) :
    s.controls (s.ccIssue k isOp body) k ∨ (s.core k).st = .run ∧ s.ccIssue k isOp body = s.stops k := by
  have hissue (i : MInstr) (c : Core) (h : (s.core k).controls c) :
      s.controls (s.issued k i (s.core k) (body i (s.countStop c))) k :=
    issued_controls ((h.trans (countStop_controls s c)).trans (hbody i _)) i _
  cases hdue : s.due (s.core k) with
  | none => exact .inl (by simpa only [State.ccIssue, hdue] using State_controls_refl s k)
  | some i =>
    simp only [State.ccIssue, hdue]
    split
    · exact .inl (State_controls_refl s k)
    · split
      · exact .inl (State_controls_refl s k)
      · exact .inl (hissue i _ (Core_controls_ctl _ _))
      · exact .inl (hissue i _ (Core_controls_ctl _ _))
      · split
        · exact .inr ⟨due_run hdue, rfl⟩
        · split
          · split
            · exact .inl (hissue i _ (Core_controls_ctl _ _))
            · exact .inl (State_controls_setCore (Core_controls_ctl _ _))
          · exact .inl (hissue i _ (Core_controls_refl _))

/-! ### The frame (R229) -/

/-- An entry once the core that runs it as `c` has met its stop (R251). -/
def Entry.stopsOn (e : Entry) (c : Core) : Entry :=
  if c.entry = some e.cseq then { e with frame := { e.frame with stopped := c.rank :: e.frame.stopped } } else e

theorem meetStop_eq (s : State) (k : Nat) : s.meetStop k =
    { s.setCore k { s.core k with st := .stopping, ctl := { (s.core k).ctl with stall := none } } with
      entries := s.entries.map (fun e => e.stopsOn (s.core k)) } := by
  cases hentry : (s.core k).entry with
  | none =>
    simp only [State.meetStop, hentry, Entry.stopsOn, reduceCtorEq, if_false, List.map_id']
    rfl
  | some q =>
    simp only [State.meetStop, hentry, Entry.stopsOn, Option.some.injEq, State.modEntry]
    congr 2
    funext e
    by_cases h : e.cseq = q
    · simp [h]
    · simp [h, Ne.symm h]

theorem meetStop_core (s : State) (k : Nat) :
    (s.meetStop k).core k = { s.core k with st := .stopping, ctl := { (s.core k).ctl with stall := none } } := by
  rw [meetStop_eq]
  exact State_core_setCore_same s _ k

/-- What `settle` makes of a core that stops. -/
theorem settle_stopping {s : State} {k : Nat} (h : (s.core k).st = .stopping) :
    s.settle k = s ∨ s.settle k = s.setCore k { s.core k with
      st := .stopped, prog := { (s.core k).prog with stopCount := inc (s.core k).prog.stopCount } } := by
  simp only [State.settle, h]
  split
  · exact .inr rfl
  · exact .inl rfl

/-- What `ControlCoreFrame` says of the states before and after an instruction of core `k`. -/
def State.controlFrame (s t : State) (k : Nat) : Prop :=
  t = { s with cores := t.cores, entries := t.entries, deposits := t.deposits } ∧
  (∀ j, j ≠ k → t.core j = s.core j) ∧
  t.core k = { s.core k with
    st := (t.core k).st, haltRec := (t.core k).haltRec, ctl := (t.core k).ctl, prog := (t.core k).prog, q := (t.core k).q } ∧
  t.entries = s.entries.map (fun e =>
    if (s.core k).st = .run ∧ (s.core k).entry = some e.cseq ∧ ((t.core k).st = .stopping ∨ (t.core k).st = .stopped) then
      { e with frame := { e.frame with stopped := (s.core k).rank :: e.frame.stopped } } else e)

theorem controlFrame_of_controls {s t : State} {k : Nat} (h : s.controls t k) : s.controlFrame t k := by
  have hentries : t.entries = s.entries := by rw [h.rest]
  refine ⟨?_, h.others, h.own.frame, ?_⟩
  · rw [h.rest]
  · have hno : ∀ e : Entry, ¬ ((s.core k).st = .run ∧ (s.core k).entry = some e.cseq ∧
        ((t.core k).st = .stopping ∨ (t.core k).st = .stopped)) := by
      rintro e ⟨hrun, _, hst⟩
      rcases h.own.goes with hgo | hgo <;> rw [hgo] at hst
      · rw [hrun] at hst
        simp at hst
      · simp at hst
    simp only [hno, if_false, List.map_id', hentries]

theorem controlFrame_stops {s : State} {k : Nat} (hrun : (s.core k).st = .run) : s.controlFrame (s.stops k) k := by
  have hcore := meetStop_core s k
  have hst : ((s.meetStop k).core k).st = .stopping := by rw [hcore]
  have hothers (j : Nat) (hj : j ≠ k) : (s.meetStop k).core j = s.core j := by
    rw [meetStop_eq]
    exact State_core_setCore_ne s _ hj
  have hentries : (s.meetStop k).entries = s.entries.map (fun e => e.stopsOn (s.core k)) := by rw [meetStop_eq]
  rcases settle_stopping hst with hs | hs <;> rw [State.stops, hs]
  · refine ⟨by rw [meetStop_eq]; rfl, hothers, by rw [hcore], ?_⟩
    rw [hentries]
    simp [Entry.stopsOn, hrun, hst]
  · refine ⟨by rw [meetStop_eq]; rfl, fun j hj => ?_, ?_, ?_⟩
    · rw [State_core_setCore_ne _ _ hj, hothers j hj]
    · rw [State_core_setCore_same, hcore]
    · rw [State_setCore_entries, hentries]
      simp [Entry.stopsOn, hrun]

/-- A row of the control core, its body changing what such a row may, leaves the frame. -/
theorem controlFrame_of_answer {s t : State} {k : Nat} {isOp : MInstr → Bool} {body : MInstr → Core → Core}
    (hbody : Controls body) (h : answer (coreOk k) (s.ccIssue k isOp body) = .next t) : s.controlFrame t k := by
  obtain ⟨_, rfl⟩ := answer_next.1 h
  rcases ccIssue_controls s k isOp hbody with hc | ⟨hrun, hc⟩
  · exact controlFrame_of_controls hc
  · rw [hc]
    exact controlFrame_stops hrun

theorem execCall_controlFrame {s t : State} {k : Nat} (h : exec (.call k) s = .next t) : s.controlFrame t k := by
  obtain ⟨hk, ht⟩ := answer_next.1 h
  by_cases hrebuild : (at' s.dsm (k / 128) (Dsm.fresh false)).rebuild = true
  · rw [if_pos hrebuild] at ht
    rw [ht]
    exact controlFrame_of_controls (State_controls_refl s k)
  · rw [if_neg hrebuild] at ht
    exact controlFrame_of_answer (callBody_controls _) (answer_next.2 ⟨hk, ht⟩)

/-- Settles O6: every row of the control core changes the core as its body does, or meets its stop (`ccIssue_controls`). -/
theorem controlCoreFrame : Obligations.ControlCoreFrame := by
  intro s t k c hc h
  have value (f : MInstr → Core → Word) {isOp : MInstr → Bool}
      (h : answer (coreOk k) (s.ccIssue k isOp (scalar f)) = .next t) : s.controlFrame t k :=
    controlFrame_of_answer (scalar_controls f) h
  have plain {body : MInstr → Core → Core} (hbody : Controls body) {isOp : MInstr → Bool}
      (h : answer (coreOk k) (s.ccIssue k isOp body) = .next t) : s.controlFrame t k := controlFrame_of_answer hbody h
  rcases hc with rfl | rfl | rfl | rfl | rfl | rfl | rfl | rfl | rfl | rfl | rfl | rfl | rfl | rfl | rfl | rfl | rfl | rfl |
    rfl | rfl
  · exact plain (fun _ c => Core_controls_ctl c _) h
  · exact value valLdi h
  · exact value valAdd h
  · exact value valSub h
  · exact value valShl h
  · exact value valShr h
  · exact value valSra h
  · exact value valMadd h
  · exact value valMin h
  · exact value valMax h
  · exact value valAnd h
  · exact value valSmov h
  · exact value valQdepth h
  · exact plain (fun _ c => Core_controls_ctl c _) h
  · exact plain (fun _ c => Core_controls_ctl c _) h
  · exact plain loopBody_controls h
  · exact plain lbrkBody_controls h
  · exact plain (brBody_controls _) h
  · exact execCall_controlFrame h
  · exact plain retBody_controls h

end Sys2Proof.Machine
end

/-! ## Queued instructions: their effects at run (07 R243; 03, 04, 05) -/

section
namespace Sys2Proof.Machine
open Sys2Proof

/-! ### A started instruction that has its effect (R153, R243) -/

@[simp] theorem Eff_bind_ok {α β : Type} (a : α) (f : α → Eff β) : (Eff.ok a).bind f = f a := rfl

@[simp] theorem Eff_bind_stop {α β : Type} (c : Core) (r d : Nat) (f : α → Eff β) : (Eff.stop c r d).bind f = .stop c r d := rfl

@[simp] theorem Eff_bind_wait {α β : Type} (f : α → Eff β) : (Eff.wait : Eff α).bind f = .wait := rfl

section
variable {s : State} {k : Nat} {tm : Timing} {isOp : MInstr → Bool} {f : Flight}
  {body : State → Core → Flight → Eff (State × List DCmd)}

theorem runQueued_effective (h : s.effective k tm isOp f) :
    s.runQueued k isOp tm body = match body (s.enter k tm) ((s.enter k tm).core k) f with
      | .wait => s
      | .stop c1 r d => (s.enter k tm).haltsFor k f c1 r d tm
      | .ok (s1, todo) => s1.afterEffect k f todo tm := by
  obtain ⟨_, hlive, hpending, hconflict⟩ := h
  simp only [State.runQueued, hlive, hpending, hconflict]
  rfl

theorem queued_ok (h : s.effective k tm isOp f) {s1 : State} {todo : List DCmd}
    (hb : body (s.enter k tm) ((s.enter k tm).core k) f = .ok (s1, todo)) :
    answer (coreOk k) (s.queued k (.run tm) isOp body) = .next (s1.afterEffect k f todo tm) := by
  refine answer_next.2 ⟨h.1, ?_⟩
  rw [State.queued, runQueued_effective h, hb]

theorem queued_stop (h : s.effective k tm isOp f) {c1 : Core} {r d : Nat}
    (hb : body (s.enter k tm) ((s.enter k tm).core k) f = .stop c1 r d) :
    answer (coreOk k) (s.queued k (.run tm) isOp body) = .next ((s.enter k tm).haltsFor k f c1 r d tm) := by
  refine answer_next.2 ⟨h.1, ?_⟩
  rw [State.queued, runQueued_effective h, hb]

/-! A body that changes only the core: -/

variable {coreEff : State → Core → Flight → Eff Core}

theorem queued_core_ok (h : s.effective k tm isOp f) {c1 : Core}
    (hb : coreEff (s.enter k tm) ((s.enter k tm).core k) f = .ok c1) :
    answer (coreOk k) (s.queued k (.run tm) isOp (coreBody k coreEff)) =
      .next (((s.enter k tm).setCore k c1).afterEffect k f [] tm) :=
  queued_ok h (by rw [coreBody, hb, Eff_bind_ok])

theorem queued_core_stop (h : s.effective k tm isOp f) {c1 : Core} {r d : Nat}
    (hb : coreEff (s.enter k tm) ((s.enter k tm).core k) f = .stop c1 r d) :
    answer (coreOk k) (s.queued k (.run tm) isOp (coreBody k coreEff)) =
      .next ((s.enter k tm).haltsFor k f c1 r d tm) :=
  queued_stop h (by rw [coreBody, hb, Eff_bind_stop])

end

/-! ### CFG (R98 to R101, R227) -/

theorem mem_enginesOf {mask e : Nat} : e ∈ enginesOf mask ↔ (decide (e < 32) && bitAt mask e) = true := by
  simp [enginesOf]

theorem nodup_enginesOf (mask : Nat) : (enginesOf mask).Nodup := List.nodup_range.filter _

theorem Core_modUnits_frame (c : Core) (f : NearUnit → NearUnit) (es : List Nat) :
    c.modUnits f es = { c with engines := (c.modUnits f es).engines } := by
  induction es generalizing c with
  | nil => rfl
  | cons e r ih =>
    rw [Core.modUnits, ih]
    rfl

theorem Core_modUnits_engine (f : NearUnit → NearUnit) {es : List Nat} (hes : es.Nodup) (c : Core) (e : Nat) :
    (c.modUnits f es).engine e = if e ∈ es then { c.engine e with nu := f (c.engine e).nu } else c.engine e := by
  induction es generalizing c with
  | nil => simp [Core.modUnits]
  | cons x r ih =>
    obtain ⟨hx, hr⟩ := List.nodup_cons.1 hes
    rw [Core.modUnits, ih hr]
    by_cases he : e = x
    · subst he
      simp [hx]
    · simp [he, Core_engine_setEngine_ne]

/-- The units of the mask as CFG leaves them, and no other engine changed. -/
theorem Core_modUnits_enginesOf (c : Core) (f : NearUnit → NearUnit) (mask e : Nat) :
    (c.modUnits f (enginesOf mask)).engine e =
      if (decide (e < 32) && bitAt mask e) = true then { c.engine e with nu := f (c.engine e).nu } else c.engine e := by
  rw [Core_modUnits_engine f (nodup_enginesOf mask)]
  simp only [mem_enginesOf]

theorem loadFault_active {us : List NearUnit} {item : Nat} (es : List Nat) (hitem : item = 5 ∨ item = 6)
    (hact : ∃ u ∈ us, u.bankB = decide (item = 6)) : loadFault us item es = some (0x16, item - 5) := by
  refine if_pos (List.any_eq_true.2 ?_)
  obtain ⟨u, hu, hbank⟩ := hact
  refine ⟨u, hu, ?_⟩
  rcases hitem with rfl | rfl <;> simpa [bankFault] using hbank

section
variable {s : State} {c : Core} {f : Flight}

theorem cfgBody_act (h : f.ent.ins.gITEM = 2) : cfgBody s c f =
    .ok (c.modUnits (fun u => { u with act := word f.ent.ins.gWORD }) (enginesOf f.ent.ins.gEMASK)) := if_pos h

theorem cfgBody_outctl (h : f.ent.ins.gITEM = 8) : cfgBody s c f =
    .ok (c.modUnits (fun u => { u with outctl := word f.ent.ins.gWORD }) (enginesOf f.ent.ins.gEMASK)) := by
  simp only [cfgBody, h]
  rfl

section
variable {pl : Placement} {t : Table} (h2 : f.ent.ins.gITEM ≠ 2) (h8 : f.ent.ins.gITEM ≠ 8)
  (hpl : s.namedPlacement c f.ent.ins.gHANDLE = .ok pl)
  (ht : pl.tables.find? (fun t => t.tidx == f.ent.ins.gTIDX) = some t) (hkind : t.kind = f.ent.ins.gITEM)
include h2 h8 hpl ht hkind

theorem cfgBody_table
    (hgood : loadFault ((enginesOf f.ent.ins.gEMASK).map (fun e => (c.engine e).nu)) f.ent.ins.gITEM t.entries = none) :
    cfgBody s c f = .ok (c.modUnits (fun u => loadTable u f.ent.ins.gITEM t.entries) (enginesOf f.ent.ins.gEMASK)) := by
  simp only [cfgBody, if_neg h2, if_neg h8, hpl, ht, hkind, ne_eq, not_true_eq_false, if_false, hgood]

theorem cfgBody_table_fault {r x : Nat}
    (hfault : loadFault ((enginesOf f.ent.ins.gEMASK).map (fun e => (c.engine e).nu)) f.ent.ins.gITEM t.entries = some (r, x)) :
    cfgBody s c f = .stop c r x := by
  simp only [cfgBody, if_neg h2, if_neg h8, hpl, ht, hkind, ne_eq, not_true_eq_false, if_false, hfault]

end

end

/-- Settles O8: each row by its body, CFG engine by engine. -/
theorem regionAndConfiguration : Obligations.RegionAndConfiguration := by
  refine ⟨fun s k tm f => ⟨?_, ?_, ?_, ?_, ?_⟩, fun s k tm f h => ⟨?_, ?_⟩⟩
  · exact fun h hv => queued_core_ok h (if_neg (Nat.not_lt.2 hv))
  · exact fun h hv => queued_core_stop h (if_pos hv)
  · exact fun h => queued_core_ok h rfl
  · exact fun h hv => queued_core_ok h (if_neg (Nat.not_lt.2 hv))
  · exact fun h hv => queued_core_stop h (if_pos hv)
  · rintro (hitem | hitem)
    · refine ⟨_, queued_core_ok h (cfgBody_act hitem), Core_modUnits_frame _ _ _, fun e => ?_⟩
      rw [if_pos hitem]
      exact Core_modUnits_enginesOf _ _ _ e
    · refine ⟨_, queued_core_ok h (cfgBody_outctl hitem), Core_modUnits_frame _ _ _, fun e => ?_⟩
      have hitem2 : f.ent.ins.gITEM ≠ 2 := by rw [hitem]; decide
      simp only [hitem2, if_false]
      exact Core_modUnits_enginesOf _ _ _ e
  · intro h2 h8 pl t hpl ht hkind
    refine ⟨fun hnone => ?_, fun r x hfault => ?_, fun hitem hact => ?_⟩
    · exact ⟨_, queued_core_ok h (cfgBody_table h2 h8 hpl ht hkind hnone), Core_modUnits_frame _ _ _,
        fun e => Core_modUnits_enginesOf _ _ _ e⟩
    · exact queued_core_stop h (cfgBody_table_fault h2 h8 hpl ht hkind hfault)
    · exact queued_core_stop h (cfgBody_table_fault h2 h8 hpl ht hkind (loadFault_active _ hitem hact))

/-! ### Tables of numbers and tabulated bytes -/

@[simp] theorem length_tabulate {α : Type} (n : Nat) (f : Nat → α) : (tabulate n f).length = n := by simp [tabulate]

@[simp] theorem getElem_tabulate {α : Type} {n i : Nat} (f : Nat → α) (h : i < (tabulate n f).length) :
    (tabulate n f)[i] = f i := by
  simp [tabulate]

@[simp] theorem length_spBytes (c : Core) (a n : Nat) : (c.spBytes a n).length = n := length_tabulate _ _

@[simp] theorem length_readBytes (m : Mem) (a n : Nat) : (Mem.readBytes m a n).length = n := length_tabulate _ _

theorem Tbl_num_setNum (t : Tbl Nat) (k v x : Nat) : Tbl.num (Tbl.setNum t k v) x = if x = k then v else Tbl.num t x := by
  unfold Tbl.num Tbl.setNum
  by_cases hx : x = k
  · subst hx
    split
    · next hv => simp [hv]
    · simp
  · rw [if_neg hx]
    split
    · rw [Tbl_get_erase_ne t hx]
    · rw [Tbl_get_set_ne t v hx]

/-- A write that covers exactly the unit `r` gives that unit its tag. -/
theorem unitTags_whole {size : Nat} (hsize : 0 < size) (tags : Tbl Nat) (r v : Nat) :
    unitTags size tags (8 * size * r) (8 * size) v = Tbl.setNum tags r v := by
  have hpos : 0 < 8 * size := by omega
  have hfirst : 8 * size * r / (8 * size) = r := Nat.mul_div_cancel_left _ hpos
  have hlast : (8 * size * r + 8 * size - 1) / (8 * size) = r := by
    have hsum : 8 * size * r + 8 * size - 1 = 8 * size * r + (8 * size - 1) := by omega
    rw [hsum, Nat.mul_add_div hpos, Nat.div_eq_of_lt (by omega), Nat.add_zero]
  simp only [unitTags, unitTagsBy, if_neg (Nat.pos_iff_ne_zero.1 hpos), hfirst, hlast, Nat.sub_self]
  simp only [Nat.zero_add, List.range_one, List.foldl_cons, List.foldl_nil, Nat.add_zero]
  rw [if_pos ⟨Nat.le_of_eq (Nat.mul_comm ..), by rw [Nat.add_mul, Nat.mul_comm r]; omega⟩]

/-! ### Reads and writes that meet no fault (R147, R155, R173, R178) -/

theorem sheetsOk_on {c : Core} (cause : Nat) {l : List Nat} (h : ∀ m ∈ l, c.sheet m = .on) : c.sheetsOk cause l = .ok () := by
  induction l with
  | nil => rfl
  | cons n r ih =>
    rw [Core.sheetsOk, h n List.mem_cons_self]
    exact ih fun m hm => h m (List.mem_cons_of_mem _ hm)

theorem spRange_within (c : Core) {a n : Nat} (h : a + n ≤ 2097152) (last : Nat) : c.spRange a n last = .ok () :=
  if_neg (Nat.not_lt.2 h)

section
variable {c : Core} {a n : Nat} (h : c.clean a n)
include h

theorem eccRead_clean : c.eccRead a n = .ok c := by
  have hnone : c.mem.spadBad.filter (fun w => decide (a < w.1 * 8 + 8) && decide (w.1 * 8 < a + n)) = [] := by
    refine List.filter_eq_nil_iff.2 fun w hw => ?_
    have hword := h.2.2 w hw
    simp only [Bool.and_eq_true, decide_eq_true_eq]
    omega
  simp only [Core.eccRead, hnone]
  rfl

theorem spRead_clean : c.spRead a n = .ok (c, c.spBytes a n) := by
  rw [Core.spRead, Core.spReadAs, spRange_within c h.1, Eff_bind_ok, sheetsOk_on 1 h.2.1, Eff_bind_ok, eccRead_clean h,
    Eff_bind_ok]

end

theorem spWrite_on {c : Core} {a : Nat} {b : List Byte} (hfit : a + b.length ≤ 2097152)
    (hon : ∀ m ∈ sheetsOf a b.length, c.sheet m = .on) (cause : Nat) (tag : Option Nat) :
    c.spWrite cause a b tag = .ok (c.spStore a b tag) := by
  rw [Core.spWrite, spRange_within c hfit, Eff_bind_ok, sheetsOk_on cause hon, Eff_bind_ok]

theorem trRead_good {c : Core} {t row off n : Nat} (h : c.parityBad (tregAddr t row + off) n = []) :
    c.trRead t row off n = .ok (Mem.readBytes c.mem.treg (tregAddr t row + off) n) := by
  simp only [Core.trRead, Core.parityOk, h]
  rfl

theorem tregRange_within (c : Core) {t row n : Nat} (ht : t < 16) (hrows : row + n ≤ 64) (hn : 0 < n) :
    c.tregRange t row n = .ok () := by
  rw [Core.tregRange, if_neg (by omega), if_neg (by omega), if_neg (by omega)]

/-! ### Rows of tile registers (R175, R177, R232) -/

theorem tregAddr_eq (t row : Nat) : tregAddr t row = 512 * (t * 64 + row) := by
  unfold tregAddr
  omega

/-- A whole row written takes its tag, and leaves every other row tag. -/
theorem trWrite_row_tags (c : Core) (t row : Nat) {b : List Byte} (hb : b.length = 512) (v x : Nat) :
    Tbl.num (c.trWrite t row 0 b v).mem.rowTag x = if x = t * 64 + row then v else Tbl.num c.mem.rowTag x := by
  have haddr : 8 * (tregAddr t row + 0) = 8 * 512 * (t * 64 + row) := by rw [tregAddr_eq]; omega
  rw [Core.trWrite, Core.trStore, hb, haddr, unitTags_whole (by decide), Tbl_num_setNum]

theorem trWrite_treg (c : Core) (t row v : Nat) (b : List Byte) :
    (c.trWrite t row 0 b v).mem.treg = Mem.writeBytes c.mem.treg (tregAddr t row) b := by
  rw [Core.trWrite, Nat.add_zero]
  rfl

theorem trWrite_read_in (c : Core) (t row v : Nat) {b : List Byte} {i : Nat} (hi : i < b.length) :
    Mem.read (c.trWrite t row 0 b v).mem.treg (tregAddr t row + i) = b[i] := by
  rw [trWrite_treg, Mem_read_writeBytes_in _ _ _ _ hi]

theorem trWrite_read_out (c : Core) (t row v : Nat) {b : List Byte} {x : Nat}
    (hx : x < tregAddr t row ∨ tregAddr t row + b.length ≤ x) :
    Mem.read (c.trWrite t row 0 b v).mem.treg x = Mem.read c.mem.treg x := by
  rw [trWrite_treg, Mem_read_writeBytes_out _ _ _ _ hx]

@[simp] theorem trWrite_clean (c : Core) (t row off : Nat) (b : List Byte) (v a n : Nat) :
    (c.trWrite t row off b v).clean a n ↔ c.clean a n := by
  unfold Core.clean
  exact Iff.rfl

@[simp] theorem spStore_sheet (c : Core) (a : Nat) (b : List Byte) (v : Option Nat) (m : Nat) :
    (c.spStore a b v).sheet m = c.sheet m := rfl

@[simp] theorem spStore_parityBad (c : Core) (a : Nat) (b : List Byte) (v : Option Nat) (x n : Nat) :
    (c.spStore a b v).parityBad x n = c.parityBad x n := rfl

theorem spStore_read_in (c : Core) (a : Nat) {b : List Byte} (v : Option Nat) {i : Nat} (hi : i < b.length) :
    Mem.read (c.spStore a b v).mem.spad (a + i) = b[i] :=
  Mem_read_writeBytes_in b c.mem.spad a i hi

theorem spStore_read_out (c : Core) (a : Nat) {b : List Byte} (v : Option Nat) {x : Nat} (hx : x < a ∨ a + b.length ≤ x) :
    Mem.read (c.spStore a b v).mem.spad x = Mem.read c.mem.spad x :=
  Mem_read_writeBytes_out b c.mem.spad a x hx

/-! ### TXFER and VXFER into a tile register (R232) -/

/-- Rows `row + j` to `row + j + n − 1` of register `t` are those of `c` from byte `a + 64 j stride` on, in `c1`; nothing
else of the core is changed. -/
structure RowsIn (a stride t row tag j n : Nat) (c c1 : Core) : Prop where
  frame : c1 = { c with mem := { c.mem with
    treg := c1.mem.treg, rowTag := c1.mem.rowTag, tregBad := c1.mem.tregBad, tagBad := c1.mem.tagBad } }
  bytes : ∀ x b, j ≤ x → x < j + n → b < 512 →
    Mem.read c1.mem.treg (tregAddr t (row + x) + b) = c.spByte (a + 64 * x * stride + b)
  rest : ∀ y, (y < tregAddr t (row + j) ∨ tregAddr t (row + j + n) ≤ y) → Mem.read c1.mem.treg y = Mem.read c.mem.treg y
  tags : ∀ x, j ≤ x → x < j + n → c1.rowTag t (row + x) = c.lineTags (a + 64 * x * stride) 512 ||| tag
  otherTags : ∀ r, r < t * 64 + row + j → Tbl.num c1.mem.rowTag r = Tbl.num c.mem.rowTag r

theorem xferIn_succ {a stride t row tag n j : Nat} {c : Core} (h : c.clean (a + 64 * j * stride) 512) :
    xferIn a stride t row tag (n + 1) j c = xferIn a stride t row tag n (j + 1)
      (c.trWrite t (row + j) 0 (c.spBytes (a + 64 * j * stride) 512) (c.lineTags (a + 64 * j * stride) 512 ||| tag)) := by
  simp only [xferIn, spRead_clean h, Eff_bind_ok]

/-- One row moved, and then those behind it. -/
theorem RowsIn.cons {a stride t row tag j n v : Nat} {c c1 : Core} {b : List Byte} (hlen : b.length = 512)
    (hb : ∀ (i : Nat) (h : i < b.length), b[i] = c.spByte (a + 64 * j * stride + i))
    (hv : v = c.lineTags (a + 64 * j * stride) 512 ||| tag)
    (h : RowsIn a stride t row tag (j + 1) n (c.trWrite t (row + j) 0 b v) c1) : RowsIn a stride t row tag j (n + 1) c c1 := by
  refine ⟨h.frame, fun x y hx hx' hy => ?_, fun y hy => ?_, fun x hx hx' => ?_, fun r hr => ?_⟩
  · by_cases hxj : x = j
    · subst hxj
      rw [h.rest _ (by left; simp only [tregAddr_eq]; omega), trWrite_read_in c t (row + x) v (by omega), hb]
    · exact h.bytes x y (by omega) (by omega) hy
  · have hout : y < tregAddr t (row + (j + 1)) ∨ tregAddr t (row + (j + 1) + n) ≤ y := by
      simp only [tregAddr_eq] at hy ⊢
      omega
    rw [h.rest y hout, trWrite_read_out _ _ _ _ (by simp only [tregAddr_eq] at hy ⊢; omega)]
  · by_cases hxj : x = j
    · subst hxj
      rw [Core.rowTag, h.otherTags _ (by omega), trWrite_row_tags c t (row + x) hlen, if_pos rfl, hv]
    · exact h.tags x (by omega) (by omega)
  · rw [h.otherTags r (by omega), trWrite_row_tags c t (row + j) hlen, if_neg (by omega)]

theorem xferIn_clean (a stride t row tag : Nat) (n : Nat) : ∀ (j : Nat) (c : Core),
    (∀ x, j ≤ x → x < j + n → c.clean (a + 64 * x * stride) 512) →
    ∃ c1, xferIn a stride t row tag n j c = .ok c1 ∧ RowsIn a stride t row tag j n c c1 := by
  induction n with
  | zero =>
    intro j c _
    exact ⟨c, rfl, rfl, fun x b hx hx' => absurd hx (by omega), fun _ _ => rfl, fun x hx hx' => absurd hx (by omega),
      fun _ _ => rfl⟩
  | succ n ih =>
    intro j c hclean
    obtain ⟨c1, hrun, h⟩ := ih (j + 1) (c.trWrite t (row + j) 0 (c.spBytes (a + 64 * j * stride) 512)
      (c.lineTags (a + 64 * j * stride) 512 ||| tag)) (fun x hx hx' => (trWrite_clean ..).2 (hclean x (by omega) (by omega)))
    refine ⟨c1, ?_, h.cons (length_spBytes ..) (fun i hi => getElem_tabulate _ hi) rfl⟩
    rw [xferIn_succ (hclean j (by omega) (by omega)), hrun]

/-! ### TXFER and VXFER out of a tile register (R232) -/

/-- Bytes of the scratchpad of `c1` are those of the rows `row + j` to `row + j + n − 1` of `c`, the later row where two
overlap; only what a store to the scratchpad touches is changed. -/
structure RowsOut (a stride t row j n : Nat) (c c1 : Core) : Prop where
  frame : c1 = { c with mem := { c.mem with
    spad := c1.mem.spad, lineTag := c1.mem.lineTag, prior := c1.mem.prior, spadBad := c1.mem.spadBad } }
  bytes : ∀ x b, j ≤ x → x < j + n → b < 512 →
    (∀ x', x < x' → x' < j + n → a + 64 * x * stride + b < a + 64 * x' * stride ∨
      a + 64 * x' * stride + 512 ≤ a + 64 * x * stride + b) →
    Mem.read c1.mem.spad (a + 64 * x * stride + b) = Mem.read c.mem.treg (tregAddr t (row + x) + b)
  rest : ∀ y, (∀ x, j ≤ x → x < j + n → y < a + 64 * x * stride ∨ a + 64 * x * stride + 512 ≤ y) →
    Mem.read c1.mem.spad y = Mem.read c.mem.spad y

/-- No word and no tag of the bytes from `a` on fails a parity check. -/
theorem parityBad_nil {c : Core} {a n : Nat} (hwords : ∀ w ∈ c.mem.tregBad, w * 4 + 4 ≤ a ∨ a + n ≤ w * 4)
    (htags : ∀ r ∈ c.mem.tagBad, r * 512 + 512 ≤ a ∨ a + n ≤ r * 512) : c.parityBad a n = [] := by
  have hw : c.mem.tregBad.filter (fun w => decide (a < w * 4 + 4) && decide (w * 4 < a + n)) = [] := by
    refine List.filter_eq_nil_iff.2 fun w hw => ?_
    have hword := hwords w hw
    simp only [Bool.and_eq_true, decide_eq_true_eq]
    omega
  have ht : c.mem.tagBad.filter (fun r => decide (a < r * 512 + 512) && decide (r * 512 < a + n)) = [] := by
    refine List.filter_eq_nil_iff.2 fun r hr => ?_
    have htag := htags r hr
    simp only [Bool.and_eq_true, decide_eq_true_eq]
    omega
  rw [Core.parityBad, hw, ht]
  rfl

/-- One row moved, and then those behind it. -/
theorem RowsOut.cons {a stride t row j n : Nat} {c c1 : Core} {b : List Byte} {v : Option Nat} (hlen : b.length = 512)
    (hb : ∀ (i : Nat) (h : i < b.length), b[i] = Mem.read c.mem.treg (tregAddr t (row + j) + i))
    (h : RowsOut a stride t row (j + 1) n (c.spStore (a + 64 * j * stride) b v) c1) : RowsOut a stride t row j (n + 1) c c1 := by
  refine ⟨h.frame, fun x y hx hx' hy hlater => ?_, fun y hy => ?_⟩
  · by_cases hxj : x = j
    · subst hxj
      rw [h.rest _ fun x' hx' hx'' => hlater x' (by omega) (by omega), spStore_read_in c _ v (by omega), hb]
    · exact h.bytes x y (by omega) (by omega) hy fun x' hlt hx'' => hlater x' hlt (by omega)
  · rw [h.rest y fun x hx hx' => hy x (by omega) (by omega),
      spStore_read_out _ _ _ (by rw [hlen]; exact hy j (by omega) (by omega))]

theorem xferOut_succ {a stride t row n j : Nat} {c : Core} (hfit : a + 64 * j * stride + 512 ≤ 2097152)
    (hon : ∀ m ∈ sheetsOf (a + 64 * j * stride) 512, c.sheet m = .on)
    (hparity : c.parityBad (tregAddr t (row + j)) 512 = []) :
    xferOut a stride t row (n + 1) j c = xferOut a stride t row n (j + 1) (c.spStore (a + 64 * j * stride)
      (Mem.readBytes c.mem.treg (tregAddr t (row + j)) 512) (some (c.rowTag t (row + j)))) := by
  rw [xferOut, trRead_good (by rwa [Nat.add_zero]), Eff_bind_ok, Nat.add_zero,
    spWrite_on (by rwa [length_readBytes]) (by rwa [length_readBytes]), Eff_bind_ok]

theorem xferOut_clean (a stride t row : Nat) (n : Nat) : ∀ (j : Nat) (c : Core),
    (∀ x, j ≤ x → x < j + n → a + 64 * x * stride + 512 ≤ 2097152 ∧
      ∀ m ∈ sheetsOf (a + 64 * x * stride) 512, c.sheet m = .on) →
    (∀ x, j ≤ x → x < j + n → c.parityBad (tregAddr t (row + x)) 512 = []) →
    ∃ c1, xferOut a stride t row n j c = .ok c1 ∧ RowsOut a stride t row j n c c1 := by
  induction n with
  | zero =>
    intro j c _ _
    exact ⟨c, rfl, rfl, fun x b hx hx' => absurd hx (by omega), fun _ _ => rfl⟩
  | succ n ih =>
    intro j c hon hparity
    obtain ⟨hfit, hsheets⟩ := hon j (by omega) (by omega)
    obtain ⟨c1, hrun, h⟩ := ih (j + 1) (c.spStore (a + 64 * j * stride) (Mem.readBytes c.mem.treg (tregAddr t (row + j)) 512)
      (some (c.rowTag t (row + j))))
      (fun x hx hx' => ⟨(hon x (by omega) (by omega)).1, fun m hm => (spStore_sheet ..).trans ((hon x (by omega) (by omega)).2 m hm)⟩)
      (fun x hx hx' => (spStore_parityBad ..).trans (hparity x (by omega) (by omega)))
    refine ⟨c1, ?_, h.cons (length_readBytes ..) (fun i hi => getElem_tabulate _ hi)⟩
    rw [xferOut_succ hfit hsheets (hparity j (by omega) (by omega)), hrun]

/-! ### The two rows -/

theorem MInstr_xTREG_lt (i : MInstr) : i.xTREG < 16 := Nat.mod_lt _ (by decide)

theorem MInstr_xNROWS_pos (i : MInstr) : 0 < i.xNROWS := Nat.succ_pos _

/-- The two rows that move tile rows have their effect by `xferBody`. -/
theorem transferRows_answer {s : State} {k : Nat} {tm : Timing} {p : Nat × Instr}
    (hp : p ∈ [(0x24, Instr.txfer k (.run tm)), (0x40, Instr.vxfer k (.run tm))]) :
    exec p.2 s = answer (coreOk k) (s.queued k (.run tm) (hasOp p.1) (coreBody k xferBody)) := by
  simp only [List.mem_cons, List.not_mem_nil, or_false] at hp
  rcases hp with rfl | rfl
  · rfl
  · rfl

theorem xferBody_good {s : State} {c : Core} {f : Flight} (ha : f.ent.reg f.ent.ins.xRA % 64 = 0)
    (hslt : ¬ (f.ent.ins.xSLT = true ∧ f.ent.ins.xDIR = true)) (hrows : f.ent.ins.xROW + f.ent.ins.xNROWS ≤ 64) :
    xferBody s c f = if f.ent.ins.xDIR then
        xferOut (f.ent.reg f.ent.ins.xRA) f.ent.ins.xSTRIDE f.ent.ins.xTREG f.ent.ins.xROW f.ent.ins.xNROWS 0 c
      else xferIn (f.ent.reg f.ent.ins.xRA) f.ent.ins.xSTRIDE f.ent.ins.xTREG f.ent.ins.xROW
        (if f.ent.ins.xSLT then c.slotTagOf f.ent.ins.xSLOT else 0) f.ent.ins.xNROWS 0 c := by
  simp only [xferBody, ha, ne_eq, not_true_eq_false, if_false, if_neg hslt,
    tregRange_within c (MInstr_xTREG_lt _) hrows (MInstr_xNROWS_pos _), Eff_bind_ok]

/-- Settles O9: row by row, in both directions (`xferIn_clean`, `xferOut_clean`). -/
theorem transfers : Obligations.Transfers := by
  intro s k tm f s0 c i a at_ p hp h
  have hexec := transferRows_answer (s := s) hp
  refine ⟨fun ha => ?_, fun ha hslt hdir => ?_, fun hdir ha hrows hclean => ?_, fun hdir hslt ha hrows hclean hwords htags => ?_⟩
  · exact hexec.trans (queued_core_stop h (if_pos ha))
  · exact hexec.trans (queued_core_stop h ((if_neg (not_not_intro ha)).trans (if_pos ⟨hslt, hdir⟩)))
  · obtain ⟨c1, hrun, hmoved⟩ := xferIn_clean a i.xSTRIDE i.xTREG i.xROW (if i.xSLT then c.slotTagOf i.xSLOT else 0)
      i.xNROWS 0 c (fun x _ hx => hclean x (by omega))
    have hbody : xferBody s0 c f = .ok c1 := by
      rw [xferBody_good ha (fun hb => Bool.false_ne_true (hdir.symm.trans hb.2)) hrows, if_neg (by rw [hdir]; decide)]
      exact hrun
    have hf := hmoved.frame
    refine ⟨c1, hexec.trans (queued_core_ok h hbody), by rw [hf], by rw [hf], by rw [hf], by rw [hf], by rw [hf],
      fun j b hj hb => hmoved.bytes j b (Nat.zero_le _) (by omega) hb, fun x hx => hmoved.rest x hx,
      fun j hj => hmoved.tags j (Nat.zero_le _) (by omega)⟩
  · obtain ⟨c1, hrun, hmoved⟩ := xferOut_clean a i.xSTRIDE i.xTREG i.xROW i.xNROWS 0 c
      (fun x _ hx => ⟨(hclean x (by omega)).1, (hclean x (by omega)).2.1⟩) (fun x _ hx => parityBad_nil
        (fun w hw => by
          have hword := hwords w hw
          simp only [tregAddr_eq] at hword ⊢
          omega)
        (fun r hr => by
          have htag := htags r hr
          simp only [tregAddr_eq]
          omega))
    have hbody : xferBody s0 c f = .ok c1 := by
      rw [xferBody_good ha (fun hb => Bool.false_ne_true (hslt.symm.trans hb.1)) hrows, if_pos hdir]
      exact hrun
    have hf := hmoved.frame
    refine ⟨c1, hexec.trans (queued_core_ok h hbody), by rw [hf], by rw [hf], by rw [hf], by rw [hf], by rw [hf],
      fun j b hj hb hlater => hmoved.bytes j b (Nat.zero_le _) (by omega) hb fun x hlt hx => hlater x hlt (by omega),
      fun x hx => hmoved.rest x fun y _ hy => hx y (by omega)⟩

/-! ### Elements of the scratchpad (R161) -/

theorem tabulate_add {α : Type} (n m : Nat) (f : Nat → α) :
    tabulate (n + m) f = tabulate n f ++ tabulate m (fun i => f (n + i)) := by
  rw [tabulate, List.range_add, List.map_append, List.map_map]
  rfl

theorem tabulate_congr {α : Type} {n : Nat} {f g : Nat → α} (h : ∀ i, i < n → f i = g i) : tabulate n f = tabulate n g :=
  List.map_congr_left fun i hi => h i (List.mem_range.1 hi)

theorem at'_tabulate {α : Type} {n i : Nat} (f : Nat → α) (d : α) (h : i < n) : at' (tabulate n f) i d = f i := by
  simp [at', tabulate, h]

/-- A number of `n` bytes from byte `a` of the scratchpad, as a read returns them. -/
def Core.spNum (c : Core) (a n : Nat) : Nat := leNat (c.spBytes a n)

/-- Element `i` of `w` bits of the region at `a`, as a read returns it. -/
def Core.spElem (c : Core) (a w i : Nat) : Nat :=
  if w < 8 then (c.spByte (a + i * w / 8)).toNat / 2 ^ (i * w % 8) % 2 ^ w else c.spNum (a + i * w / 8) (w / 8)

theorem slice_tabulate {n off len : Nat} (f : Nat → Byte) (h : off + len ≤ n) :
    slice (tabulate n f) off len = tabulate len (fun i => f (off + i)) := by
  obtain ⟨m, rfl⟩ := Nat.exists_eq_add_of_le h
  rw [Nat.add_assoc, tabulate_add, tabulate_add, slice, List.drop_left' (length_tabulate off f),
    List.take_left' (length_tabulate len _)]

theorem elem_byte_lt {w i n : Nat} (hw : 0 < w) (hi : i < n) : i * w / 8 < rowBytes n w := by
  have hle : (i + 1) * w ≤ n * w := Nat.mul_le_mul_right w hi
  rw [Nat.add_mul, Nat.one_mul] at hle
  unfold rowBytes ceilDiv
  omega

theorem elem_bytes_le {w i n : Nat} (hw : w % 8 = 0) (hi : i < n) : i * w / 8 + w / 8 ≤ rowBytes n w := by
  have hle : (i + 1) * w ≤ n * w := Nat.mul_le_mul_right w hi
  rw [Nat.add_mul, Nat.one_mul] at hle
  unfold rowBytes ceilDiv
  omega

/-- The elements of a read are those of the region that it reads. -/
theorem elems_spBytes (c : Core) (a : Nat) {w n : Nat} (hw : 0 < w) (hbytes : w < 8 ∨ w % 8 = 0) :
    elems (c.spBytes a (rowBytes n w)) w n = tabulate n (c.spElem a w) := by
  refine tabulate_congr fun i hi => ?_
  unfold getElem' Core.spElem
  by_cases hsmall : w < 8
  · rw [if_pos hsmall, if_pos hsmall, Core.spBytes, at'_tabulate _ _ (elem_byte_lt hw hi)]
  · rw [if_neg hsmall, if_neg hsmall, leAt, Core.spBytes,
      slice_tabulate _ (elem_bytes_le (hbytes.resolve_left hsmall) hi), Core.spNum, Core.spBytes]
    simp only [Nat.add_assoc]

/-- Elements from a whole byte on. -/
theorem spElem_from (c : Core) (a : Nat) {w i : Nat} (h : i * w % 8 = 0) (j : Nat) :
    c.spElem (a + i * w / 8) w j = c.spElem a w (i + j) := by
  have hdiv : (i + j) * w / 8 = i * w / 8 + j * w / 8 := by rw [Nat.add_mul]; omega
  have hmod : (i + j) * w % 8 = j * w % 8 := by rw [Nat.add_mul]; omega
  simp only [Core.spElem, hdiv, hmod, Nat.add_assoc]

theorem mem_sheetsOf {a n m : Nat} : m ∈ sheetsOf a n ↔ 0 < n ∧ a / 65536 ≤ m ∧ m ≤ (a + n - 1) / 65536 := by
  unfold sheetsOf
  split
  · simp; omega
  · simp only [tabulate, List.mem_map, List.mem_range]
    constructor
    · rintro ⟨i, hi, rfl⟩
      omega
    · rintro ⟨_, hlo, hhi⟩
      exact ⟨m - a / 65536, by omega, by omega⟩

/-- A part of bytes that can be read can be read. -/
theorem Core.clean.sub {c : Core} {a n b m : Nat} (h : c.clean a n) (hlo : a ≤ b) (hhi : b + m ≤ a + n) : c.clean b m := by
  obtain ⟨hfit, hon, hgood⟩ := h
  refine ⟨by omega, fun x hx => hon x ?_, fun w hw => ?_⟩
  · rw [mem_sheetsOf] at hx ⊢
    omega
  · have hword := hgood w hw
    omega

/-! ### CCOUNT (R161 to R163) -/

theorem Fmt_width_cases {f : Fmt} (h : f ≠ .bfp12) : f.width = 2 ∨ f.width = 4 ∨ f.width = 8 ∨ f.width = 16 ∨ f.width = 32 := by
  cases f <;> simp [Fmt.width] at h ⊢

/-- How many of `n` elements from element `i` on stand in the relation `rel` to `v`. -/
def Core.countElems (c : Core) (a : Nat) (f : Fmt) (rel v i n : Nat) : Nat :=
  ((tabulate n (fun j => c.spElem a f.width (i + j))).filter (fun w => compareCodes f rel w v)).length

theorem countElems_add (c : Core) (a : Nat) (f : Fmt) (rel v i n m : Nat) :
    c.countElems a f rel v i (n + m) = c.countElems a f rel v i n + c.countElems a f rel v (i + n) m := by
  simp only [Core.countElems, tabulate_add, List.filter_append, List.length_append, Nat.add_assoc]

/-- What is left behind the part of a region that lies in one row of 2,048 bytes of a sheet: one run less of the loop, and
it begins at a line. -/
theorem chunk_rest {a i w left fuel : Nat} (hw : w = 2 ∨ w = 4 ∨ w = 8 ∨ w = 16 ∨ w = 32) (ha : a % 64 = 0)
    (hline : i * w % 512 = 0) (hfuel : left * w ≤ 512 * (fuel + 1)) :
    (left - min left ((2048 - (a + i * w / 8) % 2048) * 8 / w)) * w ≤ 512 * fuel ∧
      (left - min left ((2048 - (a + i * w / 8) % 2048) * 8 / w) = 0 ∨
        (i + min left ((2048 - (a + i * w / 8) % 2048) * 8 / w)) * w % 512 = 0) := by
  rcases hw with rfl | rfl | rfl | rfl | rfl <;> constructor <;> omega

theorem chunk_within {a i n w total : Nat} (hw : w = 2 ∨ w = 4 ∨ w = 8 ∨ w = 16 ∨ w = 32) (hn : i + n ≤ total)
    (hline : i * w % 512 = 0) : a + i * w / 8 + rowBytes n w ≤ a + rowLines total w * 64 := by
  unfold rowBytes rowLines ceilDiv
  rcases hw with rfl | rfl | rfl | rfl | rfl <;> omega

theorem countFrom_clean {a : Nat} {f : Fmt} {rel v : Nat} {c : Core} (hf : f ≠ .bfp12) (ha : a % 64 = 0) {total : Nat}
    (hclean : c.clean a (rowLines total f.width * 64)) :
    ∀ (fuel i left acc : Nat), i + left = total → left * f.width ≤ 512 * fuel → (left = 0 ∨ i * f.width % 512 = 0) →
      countFrom a f rel v fuel i left c acc = .ok (c, acc + c.countElems a f rel v i left) := by
  have hw := Fmt_width_cases hf
  have hpos : 0 < f.width := by omega
  intro fuel
  induction fuel with
  | zero =>
    intro i left acc _ hfuel _
    have hleft : left = 0 := by
      rcases Nat.mul_eq_zero.1 (Nat.le_zero.1 hfuel) with h | h <;> omega
    rw [hleft]
    rfl
  | succ fuel ih =>
    intro i left acc htotal hfuel hline
    by_cases hleft : left = 0
    · rw [hleft]
      rfl
    · have hstart := hline.resolve_left hleft
      obtain ⟨hfuel', hline'⟩ := chunk_rest hw ha hstart hfuel
      rw [countFrom, if_neg hleft]
      dsimp only
      generalize hn : min left ((2048 - (a + i * f.width / 8) % 2048) * 8 / f.width) = n at hfuel' hline' ⊢
      have hnleft : n ≤ left := hn ▸ Nat.min_le_left _ _
      rw [spRead_clean (hclean.sub (Nat.le_add_right _ _) (chunk_within hw (by omega) hstart)), Eff_bind_ok,
        elems_spBytes c _ hpos (by omega), ih (i + n) (left - n) _ (by omega) hfuel' hline']
      have hsum : c.countElems a f rel v i left = c.countElems a f rel v i n + c.countElems a f rel v (i + n) (left - n) := by
        rw [← countElems_add, Nat.add_sub_cancel' hnleft]
      rw [hsum, ← Nat.add_assoc]
      have hbyte : i * f.width % 8 = 0 := by omega
      simp only [Core.countElems, ← spElem_from c a hbyte]

/-- A format that CCOUNT does not take (R161). -/
theorem ccountBody_format {s : State} {c : Core} {f : Flight} (ha : f.ent.reg f.ent.ins.cRA % 64 = 0)
    (hfm : Fmt.ofCode f.ent.ins.cFMT = none ∨ Fmt.ofCode f.ent.ins.cFMT = some .bfp12) :
    ccountBody s c f = .stop c 0x02 (fieldDetail 0 54) := by
  rcases hfm with hfm | hfm <;>
    simp only [ccountBody, ha, hfm, ne_eq, not_true_eq_false, if_false, if_true]

theorem ccountBody_region {s : State} {c : Core} {f : Flight} {fm : Fmt} (ha : f.ent.reg f.ent.ins.cRA % 64 = 0)
    (hfm : Fmt.ofCode f.ent.ins.cFMT = some fm) (hbfp : fm ≠ .bfp12) :
    ccountBody s c f = if f.ent.ins.cE = 0 then .ok (c.setS f.ent.ins.cSD 0)
      else (c.spRange (f.ent.reg f.ent.ins.cRA) (rowLines f.ent.ins.cE fm.width * 64)
          (f.ent.reg f.ent.ins.cRA + rowLines f.ent.ins.cE fm.width * 64 - 1)).bind fun _ =>
        (countFrom (f.ent.reg f.ent.ins.cRA) fm f.ent.ins.cREL (f.ent.ins.cVALUE % 2 ^ fm.width)
          (rowLines f.ent.ins.cE fm.width + 1) 0 f.ent.ins.cE c 0).bind fun r => .ok (r.1.setS f.ent.ins.cSD (word r.2)) := by
  simp only [ccountBody, ha, hfm, hbfp, ne_eq, not_true_eq_false, if_false]

/-- Settles O10: the count goes chunk by chunk over the region (`countFrom_clean`). -/
theorem compareAndCount : Obligations.CompareAndCount := by
  intro s k tm f h s0 c i a done bad
  refine ⟨fun ha => queued_core_stop h (if_pos ha), fun ha hfm => queued_core_stop h (ccountBody_format ha (.inl hfm)),
    fun fm hfm ha => ⟨fun hbfp hzero => queued_core_ok h ?_, fun hbfp hpos hclean => ?_, fun hbfp => queued_core_stop h (ccountBody_format ha (.inr (hfm.trans (congrArg some hbfp))))⟩⟩
  · rw [ccountBody_region ha hfm hbfp, if_pos hzero]
    rfl
  · have hw := Fmt_width_cases hbfp
    have hcount := countFrom_clean (rel := i.cREL) (v := i.cVALUE % 2 ^ fm.width) hbfp ha hclean (rowLines i.cE fm.width + 1)
      0 i.cE 0 (Nat.zero_add _) (by unfold rowLines ceilDiv; omega) (.inr (by rw [Nat.zero_mul]))
    have hbody : ccountBody s0 c f = .ok (c.setS i.cSD (word (c.countElems a fm i.cREL (i.cVALUE % 2 ^ fm.width) 0 i.cE))) := by
      rw [ccountBody_region ha hfm hbfp, if_neg (Nat.pos_iff_ne_zero.1 hpos), spRange_within c hclean.1, Eff_bind_ok, hcount,
        Eff_bind_ok, Nat.zero_add]
    rw [elems_spBytes c a (by omega) (by omega)]
    refine (queued_core_ok h hbody).trans ?_
    simp only [Core.countElems, Nat.zero_add]
    rfl

/-! ### Runs of elements of a tile register without a parity error (R178, R292) -/

/-- No word and no row tag of the tile registers fails a parity check. -/
def Core.noParity (c : Core) : Prop := c.mem.tregBad = [] ∧ c.mem.tagBad = []

section
variable {c : Core} (h : c.noParity)
include h

theorem parityOk_good (t row off n : Nat) : c.parityOk t row off n = .ok () := by
  have hnil : c.parityBad (tregAddr t row + off) n = [] := by
    rw [Core.parityBad, h.1, h.2]
    rfl
  simp only [Core.parityOk, hnil]
  rfl

/-- A run of elements is read; the tag that comes with it is the rows'. -/
theorem readRun_good (v : View) (i c0 n : Nat) :
    ∃ t, c.readRun v i c0 n = .ok (tabulate n (fun j => Mem.elem c.mem.treg (v.row i) v.w (c0 + j)), t) := by
  by_cases hn : n = 0
  · subst hn
    exact ⟨0, rfl⟩
  · simp only [Core.readRun, if_neg hn, parityOk_good h, Eff_bind_ok]
    exact ⟨_, rfl⟩

end

/-- The row of a tensor that is read for row `i` (R292). -/
def Ten.rowFor (t : Ten) (i : Nat) : Nat := if t.maxr = 1 then 0 else i

/-- The codes of that row, as far as `n` columns need it. -/
def Core.rowCodes (c : Core) (t : Ten) (i n : Nat) : List Nat :=
  tabulate (if t.maxc = 1 then min n 1 else n) (fun j => Mem.elem c.mem.treg (t.view.row (t.rowFor i)) t.view.w (0 + j))

theorem vecRow_good {c : Core} (h : c.noParity) (t : Ten) (i n : Nat) :
    c.vecRow t i n = .ok (c.rowCodes t i n, t.rowFor i) := by
  obtain ⟨tag, hrun⟩ := readRun_good h t.view (t.rowFor i) 0 (if t.maxc = 1 then min n 1 else n)
  rw [Ten.rowFor] at hrun
  simp only [Core.vecRow, hrun, Eff_bind_ok]
  rfl

theorem vecRows_good {c : Core} (h : c.noParity) (i n : Nat) (ts : List Ten) :
    c.vecRows i n ts = .ok (ts.map (fun t => (t, c.rowCodes t i n, t.rowFor i))) := by
  induction ts with
  | nil => rfl
  | cons t r ih => rw [Core.vecRows, vecRow_good h, Eff_bind_ok, ih, Eff_bind_ok, List.map_cons]

/-- The element of a source for column `x`. -/
theorem at'_rowCodes (c : Core) (t : Ten) {i n x : Nat} (hx : x < n) :
    at' (c.rowCodes t i n) (t.col x) 0 = Mem.elem c.mem.treg (t.view.row (t.rowFor i)) t.view.w (t.col x) := by
  have hcol : t.col x < if t.maxc = 1 then min n 1 else n := by
    unfold Ten.col
    split <;> omega
  rw [Core.rowCodes, at'_tabulate _ _ hcol, Nat.zero_add]

/-! ### A row of VEC (R292, R300, R310, R312, R313) -/

/-- The operations that read their destination (R300). -/
def readsDest (vop : Nat) : Bool := vop == 0x03 || vop == 0x0E

/-- The destination as a source: every row and column of it is its own. -/
def Ten.asSource (t : Ten) : Ten := { t with maxr := t.maxr + 2, maxc := t.maxc + 2 }

theorem Ten_asSource_row (t : Ten) (i : Nat) : t.asSource.rowFor i = i := if_neg (by simp [Ten.asSource])

theorem Ten_asSource_col (t : Ten) (x : Nat) : t.asSource.col x = x := if_neg (by simp [Ten.asSource])

/-- The columns of row `i` that neither mask clears. -/
def Core.lanesOn (c : Core) (i n : Nat) : List Nat := if c.mem.rowOn i then (List.range n).filter c.mem.elemOn else []

theorem lt_of_mem_lanesOn {c : Core} {i n x : Nat} (h : x ∈ c.lanesOn i n) : x < n := by
  unfold Core.lanesOn at h
  split at h
  · exact List.mem_range.1 (List.mem_filter.1 h).1
  · cases h

/-- The element that a lane takes from a source. -/
def Core.lanesrc (c : Core) (t : Ten) (i x : Nat) : Nat := Mem.elem c.mem.treg (t.view.row (t.rowFor i)) t.view.w (t.col x)

/-- The previous element of the destination, where the operation reads it. -/
def Core.lanedst (c : Core) (vop : Nat) (dst : Ten) (i x : Nat) : Nat :=
  if readsDest vop then Mem.elem c.mem.treg (dst.view.row i) dst.view.w x else 0

/-- The lane of column `x` in row `i`. -/
def Core.laneAt (c : Core) (vop : Nat) (a : Ten) (ob : Option Ten) (dst : Ten) (i x : Nat) : Lane :=
  laneOp vop a.fmt dst.fmt (c.lanesrc a i x) ((ob.map (fun b => c.lanesrc b i x)).getD 0) (c.lanedst vop dst i x)

/-- The tags that the lane of column `x` reads. -/
def Core.laneReads (c : Core) (vop : Nat) (a : Ten) (ob : Option Ten) (dst : Ten) (i x : Nat) : Nat :=
  (a :: ob.toList).foldl (fun t v => t ||| c.laneTag v.view (v.rowFor i) (v.col x)) 0 |||
    (if readsDest vop then c.laneTag dst.view i x else 0)

/-- The sources of a row step, and the destination behind them where the operation reads it. -/
def stepSources (vop : Nat) (srcs : List Ten) (dst : Ten) : List Ten :=
  if readsDest vop then srcs ++ [dst.asSource] else srcs

theorem stepSources_tags (c : Core) (vop : Nat) (a : Ten) (ob : Option Ten) (dst : Ten) (i x : Nat) :
    (stepSources vop (a :: ob.toList) dst).foldl (fun t v => t ||| c.laneTag v.view (v.rowFor i) (v.col x)) 0 =
      c.laneReads vop a ob dst i x := by
  rw [stepSources, Core.laneReads]
  by_cases hd : readsDest vop = true
  · rw [if_pos hd, if_pos hd, List.foldl_append, List.foldl_cons, List.foldl_nil, Ten_asSource_row, Ten_asSource_col]
    rfl
  · rw [if_neg hd, if_neg hd, Nat.or_zero]

/-- Argument `q` of the lane of column `x`: the element of source `q`. -/
def stepArg (rows : List (Ten × List Nat × Nat)) (q x : Nat) : Nat :=
  match rows[q]? with
  | some r => at' r.2.1 (r.1.col x) 0
  | none => 0

theorem stepArg_map (c : Core) (ts : List Ten) {i n q x : Nat} (hx : x < n) :
    stepArg (ts.map (fun t => (t, c.rowCodes t i n, t.rowFor i))) q x = ((ts[q]?).map (fun t => c.lanesrc t i x)).getD 0 := by
  unfold stepArg
  rw [List.getElem?_map]
  cases ts[q]? with
  | none => rfl
  | some t => exact at'_rowCodes c t hx

theorem vecStep_def (c : Core) (vop : Nat) (srcs : List Ten) (dst : Ten) (i n : Nat) : c.vecStep vop srcs dst i n =
    (c.vecRows i n (stepSources vop srcs dst)).bind fun rows =>
      if (c.lanesOn i n).isEmpty then .ok (c, 0)
      else
        let res := (c.lanesOn i n).map (fun x => (x, laneOp vop (((srcs.head?).map (·.fmt)).getD .int8) dst.fmt
          (stepArg rows 0 x) (stepArg rows 1 x) (if readsDest vop then stepArg rows srcs.length x else 0)))
        .ok (c.writeLanes dst.view i n (res.map (fun r => (r.1, r.2.code))) (res.foldl (fun t r => t ||| r.2.tag |||
          codeTag dst.fmt r.2.code ||| rows.foldl (fun t q => t ||| c.laneTag q.1.view q.2.2 (q.1.col r.1)) 0) 0),
          res.foldl (fun f r => f ||| r.2.flags) 0) := rfl

section
variable {c : Core} {vop : Nat} {a : Ten} {ob : Option Ten} {dst : Ten} {i n : Nat}

/-- The lane of column `x` from the sources of the step. -/
theorem stepLane_eq (hob : readsDest vop = true → ob.isSome = true) {x : Nat} (hx : x < n) :
    laneOp vop a.fmt dst.fmt (stepArg ((stepSources vop (a :: ob.toList) dst).map (fun t => (t, c.rowCodes t i n, t.rowFor i))) 0 x)
      (stepArg ((stepSources vop (a :: ob.toList) dst).map (fun t => (t, c.rowCodes t i n, t.rowFor i))) 1 x)
      (if readsDest vop then
        stepArg ((stepSources vop (a :: ob.toList) dst).map (fun t => (t, c.rowCodes t i n, t.rowFor i))) (a :: ob.toList).length x else 0) =
      c.laneAt vop a ob dst i x := by
  simp only [stepArg_map c _ hx, Core.laneAt, Core.lanedst, stepSources]
  by_cases hd : readsDest vop = true
  · obtain ⟨b, rfl⟩ := Option.isSome_iff_exists.1 (hob hd)
    simp only [hd, if_true]
    simp [Core.lanesrc, Ten_asSource_row, Ten_asSource_col]
    rfl
  · simp only [if_neg hd]
    cases ob <;> rfl

theorem vecStep_eq (h : c.noParity) (hob : readsDest vop = true → ob.isSome = true) :
    c.vecStep vop (a :: ob.toList) dst i n = .ok
      (if c.lanesOn i n = [] then c else
        c.writeLanes dst.view i n ((c.lanesOn i n).map (fun x => (x, (c.laneAt vop a ob dst i x).code)))
          ((c.lanesOn i n).foldl (fun t x => t ||| (c.laneAt vop a ob dst i x).tag |||
            codeTag dst.fmt (c.laneAt vop a ob dst i x).code ||| c.laneReads vop a ob dst i x) 0),
        ((c.lanesOn i n).map (fun x => (c.laneAt vop a ob dst i x).flags)).foldl (· ||| ·) 0) := by
  have hrows := vecRows_good h i n (stepSources vop (a :: ob.toList) dst)
  have hres : (c.lanesOn i n).map (fun x => (x, laneOp vop a.fmt dst.fmt
      (stepArg ((stepSources vop (a :: ob.toList) dst).map (fun t => (t, c.rowCodes t i n, t.rowFor i))) 0 x)
      (stepArg ((stepSources vop (a :: ob.toList) dst).map (fun t => (t, c.rowCodes t i n, t.rowFor i))) 1 x)
      (if readsDest vop then stepArg ((stepSources vop (a :: ob.toList) dst).map (fun t => (t, c.rowCodes t i n, t.rowFor i)))
        (a :: ob.toList).length x else 0))) = (c.lanesOn i n).map (fun x => (x, c.laneAt vop a ob dst i x)) :=
    List.map_congr_left fun x hx => by rw [stepLane_eq hob (lt_of_mem_lanesOn hx)]
  rw [vecStep_def, hrows, Eff_bind_ok]
  by_cases hon : c.lanesOn i n = []
  · rw [if_pos (List.isEmpty_iff.2 hon), if_pos hon, hon]
    rfl
  · rw [if_neg (mt List.isEmpty_iff.1 hon), if_neg hon]
    dsimp only [List.head?_cons, Option.map_some, Option.getD_some]
    rw [hres]
    simp only [List.map_map, List.foldl_map, stepSources_tags]
    rfl

end

/-! ### The rows of VEC (R292, R300) -/

/-- Of the core `c` the core `d` differs in tile registers, row tags and parity marks alone, and no parity mark is left. -/
structure Core.lanes (c d : Core) : Prop where
  frame : d = { c with mem := { c.mem with
    treg := d.mem.treg, rowTag := d.mem.rowTag, tregBad := d.mem.tregBad, tagBad := d.mem.tagBad } }
  good : d.noParity

theorem Core.lanes.trans {c d e : Core} (h : c.lanes d) (g : d.lanes e) : c.lanes e :=
  ⟨by rw [g.frame, h.frame], g.good⟩

theorem Core_lanes_refl {c : Core} (h : c.noParity) : c.lanes c := ⟨rfl, h⟩

theorem writeLanes_lanes {c : Core} (h : c.noParity) (v : View) (i n : Nat) (l : List (Nat × Nat)) (tag : Nat) :
    c.lanes (c.writeLanes v i n l tag) := by
  refine ⟨rfl, ?_, ?_⟩
  · simp [Core.writeLanes, h.1]
  · simp [Core.writeLanes, h.2]

theorem vecStep_lanes {c : Core} (h : c.noParity) (vop : Nat) (srcs : List Ten) (dst : Ten) (i n : Nat) :
    ∃ c1 fl, c.vecStep vop srcs dst i n = .ok (c1, fl) ∧ c.lanes c1 := by
  rw [vecStep_def, vecRows_good h, Eff_bind_ok]
  split
  · exact ⟨c, 0, rfl, Core_lanes_refl h⟩
  · exact ⟨_, _, rfl, writeLanes_lanes h ..⟩

theorem vecLoop_lanes (vop : Nat) (srcs : List Ten) (dst : Ten) (n k : Nat) : ∀ (i : Nat) {c : Core} (fl : Nat), c.noParity →
    ∃ c1 fl1, vecLoop vop srcs dst n k i c fl = .ok (c1, fl1) ∧ c.lanes c1 := by
  induction k with
  | zero => exact fun i c fl h => ⟨c, fl, rfl, Core_lanes_refl h⟩
  | succ k ih =>
    intro i c fl h
    obtain ⟨c1, fl1, hstep, h1⟩ := vecStep_lanes h vop srcs dst i n
    obtain ⟨c2, fl2, hloop, h2⟩ := ih (i + 1) (fl ||| fl1) h1.good
    exact ⟨c2, fl2, by rw [vecLoop, hstep, Eff_bind_ok, hloop], h1.trans h2⟩

/-- The instruction of a started VEC names its operation. -/
theorem effective_isOp {s : State} {k : Nat} {tm : Timing} {isOp : MInstr → Bool} {f : Flight}
    (h : s.effective k tm isOp f) : isOp f.ent.ins = true := by
  obtain ⟨_, _, hpending, _⟩ := h
  have hfound := List.find?_some hpending
  simp only [Bool.and_eq_true] at hfound
  exact hfound.2

theorem mVOP_of_isVec {vop : Nat} {i : MInstr} (h : isVec vop i = true) : i.mVOP = vop := by
  simp only [isVec, Bool.and_eq_true, beq_iff_eq] at h
  exact h.2

/-- A row of VEC that computes in lanes has its effect by `vecBody`. -/
theorem vecRows_answer (s : State) (k : Nat) (tm : Timing) : ∀ p ∈ vecRows,
    exec (p.1 k (.run tm)) s = answer (coreOk k) (s.queued k (.run tm) (isVec p.2) (vecBody k)) := by
  simp only [vecRows, List.forall_mem_cons]
  exact ⟨rfl, rfl, rfl, rfl, rfl, rfl, rfl, rfl, rfl, rfl, rfl, rfl, rfl, rfl, rfl, rfl, nofun⟩

/-- Settles O11: the rows one by one (`vecLoop_lanes`), and one row lane by lane (`vecStep_eq`). -/
theorem vectorRowsComplete : Obligations.VectorRowsComplete := by
  intro p hp s k tm f h s0 c ts dst
  have hexec := vecRows_answer s k tm p hp
  refine ⟨fun hzero => ?_, fun hzero htreg htag => ?_, fun c0 dst a ob i n htreg htag hob => ?_⟩
  · exact hexec.trans (queued_ok h (if_pos hzero))
  · obtain ⟨c1, fl, hloop, hlanes⟩ := vecLoop_lanes p.2 ts.dropLast dst (colsOf ts) (rowsOf ts) 0 (c := c) 0 ⟨htreg, htag⟩
    have hbody : vecBody k s0 c f = .ok ((s0.setCore k (c1.countIssue (issueCycles ts))).joinFlags c fl 0, []) := by
      rw [vecBody, if_neg (by rw [hzero]; decide), mVOP_of_isVec (effective_isOp h)]
      exact congrArg (Eff.bind · _) hloop
    have hf := hlanes.frame
    exact ⟨c1, fl, hloop, hexec.trans (queued_ok h hbody), by rw [hf], by rw [hf], by rw [hf], by rw [hf], by rw [hf]⟩
  · refine (vecStep_eq ⟨htreg, htag⟩ fun hd => hob ?_).trans ?_
    · simpa [readsDest] using hd
    · cases ob <;> rfl

/-! ### Masks (R310) -/

/-- The number that `maskBits` counts up over the first `n` positions. -/
def maskSum (p : Nat → Bool) (n : Nat) : Nat := (List.range n).foldl (fun a i => if p i then a + 2 ^ i else a) 0

theorem maskSum_succ (p : Nat → Bool) (n : Nat) :
    maskSum p (n + 1) = if p n then maskSum p n + 2 ^ n else maskSum p n := by
  simp only [maskSum, List.range_succ, List.foldl_append, List.foldl_cons, List.foldl_nil]

theorem maskSum_lt (p : Nat → Bool) (n : Nat) : maskSum p n < 2 ^ n := by
  induction n with
  | zero => exact Nat.one_pos
  | succ n ih =>
    rw [maskSum_succ, Nat.pow_succ]
    split <;> omega

theorem testBit_maskSum (p : Nat → Bool) (n i : Nat) : (maskSum p n).testBit i = (decide (i < n) && p i) := by
  induction n with
  | zero => simp [maskSum]
  | succ n ih =>
    have hlt := maskSum_lt p n
    have hor : maskSum p n + 2 ^ n = 2 ^ n ||| maskSum p n := by
      have h := Nat.two_pow_add_eq_or_of_lt hlt 1
      rw [Nat.mul_one] at h
      rw [← h, Nat.add_comm]
    rw [maskSum_succ]
    by_cases hp : p n = true
    · rw [if_pos hp, hor, Nat.testBit_or, Nat.testBit_two_pow, ih]
      by_cases hi : i = n
      · subst hi
        simp [hp]
      · have hiff : i < n + 1 ↔ i < n := by omega
        simp [Ne.symm hi, hiff]
    · rw [if_neg hp, ih]
      by_cases hi : i = n
      · subst hi
        simp [hp]
      · have hiff : i < n + 1 ↔ i < n := by omega
        simp [hiff]

theorem getLsbD_maskBits (w : Nat) (p : Nat → Bool) {n : Nat} (hn : n < w) : (maskBits w p).getLsbD n = p n := by
  rw [maskBits, BitVec.getLsbD_ofNat]
  exact (congrArg (_ && ·) (testBit_maskSum p w n)).trans (by simp [hn])

theorem tabulate_one {α : Type} (f : Nat → α) : tabulate 1 f = [f 0] := rfl

theorem readCol_good {c : Core} (h : c.noParity) (t : Ten) (n : Nat) : ∀ i, c.readCol t n i =
    .ok (tabulate n (fun j => Mem.elem c.mem.treg (t.view.row (i + j)) t.view.w 0)) := by
  induction n with
  | zero => exact fun _ => rfl
  | succ n ih =>
    intro i
    obtain ⟨tag, hrun⟩ := readRun_good h t.view i 0 1
    rw [Core.readCol, hrun, Eff_bind_ok, ih, Eff_bind_ok, Nat.add_comm n 1, tabulate_add]
    simp only [tabulate_one, Nat.add_assoc, Nat.add_zero]

theorem at'_masked {n i : Nat} (f : Nat → Nat) :
    (decide (i < n) && at' (tabulate n f) i 0 != 0) = (decide (i < n) && f i != 0) := by
  by_cases hi : i < n
  · rw [at'_tabulate f 0 hi]
  · simp [hi]

section
variable {s : State} {c : Core} {f : Flight} (h : c.noParity) (hzero : f.zero = false)
include h hzero

theorem emaskBody_good : emaskBody s c f = .ok ({ c with mem := { c.mem with elemMask := maskBits 512 (fun i =>
    decide (i < colsOf f.ent.tens) &&
      Mem.elem c.mem.treg ((f.ent.ten 1).view.row 0) (f.ent.ten 1).view.w i != 0) } }.countIssue (issueCycles f.ent.tens)) := by
  obtain ⟨tag, hrun⟩ := readRun_good h (f.ent.ten 1).view 0 0 (colsOf f.ent.tens)
  simp only [emaskBody, hzero, hrun, Eff_bind_ok, at'_masked, Nat.zero_add]
  rfl

theorem rmaskBody_good : rmaskBody s c f = .ok ({ c with mem := { c.mem with rowMask := maskBits 64 (fun i =>
    decide (i < rowsOf f.ent.tens) &&
      Mem.elem c.mem.treg ((f.ent.ten 1).view.row i) (f.ent.ten 1).view.w 0 != 0) } }.countIssue (issueCycles f.ent.tens)) := by
  simp only [rmaskBody, hzero, readCol_good h, Eff_bind_ok, at'_masked, Nat.zero_add]
  rfl

end

/-- A mask operation of an instruction of no element changes nothing (R264). -/
theorem maskRows_zero {s : State} {k : Nat} {tm : Timing} {f : Flight} (hzero : f.zero = true) :
    ∀ p ∈ [(0x18, Instr.emask), (0x19, .rmask), (0x1A, .maskall)], s.effective k tm (isVec p.1) f →
      exec (p.2 k (.run tm)) s = .next (((s.enter k tm).setCore k ((s.enter k tm).core k)).afterEffect k f [] tm) := by
  simp only [List.forall_mem_cons]
  exact ⟨fun h => queued_core_ok (coreEff := emaskBody) h (if_pos hzero),
    fun h => queued_core_ok (coreEff := rmaskBody) h (if_pos hzero),
    fun h => queued_core_ok (coreEff := maskallBody) h (if_pos hzero), nofun⟩

/-! ### REDUCE (R305, R306, R309) -/

theorem partRows_good {c : Core} (h : c.noParity) (t : Ten) (n m : Nat) : ∀ i, ∃ rows, c.partRows t n m i = .ok rows := by
  induction m with
  | zero => exact fun _ => ⟨[], rfl⟩
  | succ m ih =>
    intro i
    obtain ⟨tag, hrun⟩ := readRun_good h t.view i 0 n
    obtain ⟨rows, hrows⟩ := ih (i + 1)
    simp only [Core.partRows, Core.partRow, hrun, Eff_bind_ok, hrows]
    exact ⟨_, rfl⟩

theorem foldl_writeLanes_lanes {v : View} {i n : Nat → Nat} {l : Nat → List (Nat × Nat)} {tag : Nat → Nat} (rs : List Nat) :
    ∀ {c : Core}, c.noParity → c.lanes (rs.foldl (fun c r => c.writeLanes v (i r) (n r) (l r) (tag r)) c) := by
  induction rs with
  | nil => exact Core_lanes_refl
  | cons r rs ih =>
    intro c h
    have hfirst := writeLanes_lanes h v (i r) (n r) (l r) (tag r)
    exact hfirst.trans (ih hfirst.good)

@[simp] theorem State_joinFlags_core (s : State) (c : Core) (flags tag j : Nat) :
    (s.joinFlags c flags tag).core j = s.core j := by
  unfold State.joinFlags
  split <;> rfl

/-- The code that a reduction writes for an element: TOP1 along one axis writes indices (R309). -/
def RedElem.written (e : RedElem) (rax rop : Nat) : Nat := if rop = 4 ∧ rax ≠ 2 then e.out.index else e.out.code

/-- The tag of row `r` of the result. -/
def rowTagOf (fd : Fmt) (rax rop : Nat) (es : List RedElem) (r : Nat) : Nat :=
  (es.filter (fun e => e.row == r)).foldl (fun t e => t ||| e.tag ||| codeTag fd (e.written rax rop)) 0

/-- The core once the elements `es` are written to their rows. -/
def Core.writeElems (c : Core) (v : View) (fd : Fmt) (rax rop n : Nat) (es : List RedElem) : Core :=
  ((es.map (·.row)).eraseDups).foldl (fun c r => c.writeLanes v r (if rax = 1 then n else 1)
    ((es.filter (fun e => e.row == r)).map (fun e => (e.col, e.written rax rop))) (rowTagOf fd rax rop es r)) c

/-- The S registers that a reduction along both axes writes (R306, R309). -/
def Core.writeSreg (c : Core) (vop : Nat) (es : List RedElem) : Core :=
  match vop / 64, es with
  | 2, e :: _ =>
    if vop / 8 % 8 = 4 then (c.setS (vop % 8) (word e.out.sval)).setS (vop % 8 + 1) (word e.out.index)
    else c.setS (vop % 8) (word e.out.sval)
  | _, _ => c

theorem Core_writeSreg_frame (c : Core) (vop : Nat) (es : List RedElem) :
    c.writeSreg vop es = { c with ctl := { c.ctl with sreg := (c.writeSreg vop es).ctl.sreg } } := by
  unfold Core.writeSreg
  split
  · split <;> rfl
  · rfl

theorem Core_sr_setS_same {c : Core} {r : Nat} (h : r < c.ctl.sreg.length) (v : Word) : (c.setS r v).sr r = v := by
  simp [Core.sr, Core.setS, at', h]

theorem Core_sr_setS_ne {c : Core} {r q : Nat} (h : q ≠ r) (v : Word) : (c.setS r v).sr q = c.sr q := by
  simp [Core.sr, Core.setS, at', Ne.symm h]

theorem Core_writeSreg_value {c : Core} {vop : Nat} {e : RedElem} {es : List RedElem} (hrax : vop / 64 = 2)
    (hreg : vop % 8 < c.ctl.sreg.length) : (c.writeSreg vop (e :: es)).sr (vop % 8) = word e.out.sval := by
  simp only [Core.writeSreg, hrax]
  split
  · rw [Core_sr_setS_ne (by omega), Core_sr_setS_same hreg]
  · exact Core_sr_setS_same hreg _

theorem Core_writeSreg_index {c : Core} {vop : Nat} {e : RedElem} {es : List RedElem} (hrax : vop / 64 = 2)
    (hrop : vop / 8 % 8 = 4) (hreg : vop % 8 + 1 < c.ctl.sreg.length) :
    (c.writeSreg vop (e :: es)).sr (vop % 8 + 1) = word e.out.index := by
  simp only [Core.writeSreg, hrax, hrop, if_true]
  exact Core_sr_setS_same (by simpa [Core.setS] using hreg) _

/-- REDUCE by the elements of its result. -/
theorem reduceBody_rows {s : State} {k : Nat} {c : Core} {f : Flight} {rows : List (List (Nat × Nat × Nat))} {rop : Nat}
    (hzero : f.zero = false) (hrop : f.ent.ins.mVOP / 8 % 8 = rop)
    (hrows : c.partRows (f.ent.ten 1) (colsOf f.ent.tens) (rowsOf f.ent.tens) 0 = .ok rows) :
    ∃ flags tag, reduceBody k s c f = .ok ((s.setCore k
      (((c.writeElems (f.ent.ten 2).view (f.ent.ten 2).fmt (f.ent.ins.mVOP / 64) rop (colsOf f.ent.tens)
        (redElems c (f.ent.ins.mVOP / 64) rop (colsOf f.ent.tens) (f.ent.ten 1).fmt (f.ent.ten 2).fmt rows)).countIssue
          (issueCycles f.ent.tens)).writeSreg f.ent.ins.mVOP
            (redElems c (f.ent.ins.mVOP / 64) rop (colsOf f.ent.tens) (f.ent.ten 1).fmt (f.ent.ten 2).fmt rows))).joinFlags
              c flags tag, []) := by
  subst hrop
  refine ⟨(redElems c (f.ent.ins.mVOP / 64) (f.ent.ins.mVOP / 8 % 8) (colsOf f.ent.tens) (f.ent.ten 1).fmt
      (f.ent.ten 2).fmt rows).foldl (fun a e => a ||| e.out.flags) 0,
    if f.ent.ins.mVOP / 64 = 2 then rowTagOf (f.ent.ten 2).fmt (f.ent.ins.mVOP / 64) (f.ent.ins.mVOP / 8 % 8)
      (redElems c (f.ent.ins.mVOP / 64) (f.ent.ins.mVOP / 8 % 8) (colsOf f.ent.tens) (f.ent.ten 1).fmt (f.ent.ten 2).fmt rows) 0
    else 0, ?_⟩
  rw [reduceBody, if_neg (by rw [hzero]; decide)]
  exact (congrArg (Eff.bind · _) hrows).trans rfl

theorem writeElems_lanes {c : Core} (h : c.noParity) (v : View) (fd : Fmt) (rax rop n : Nat) (es : List RedElem) :
    c.lanes (c.writeElems v fd rax rop n es) := foldl_writeLanes_lanes _ h

/-- The element that a reduction along both axes gives. -/
theorem redElems_both (c : Core) {rax : Nat} (hrax : rax = 2) (rop n : Nat) (fa fd : Fmt)
    (rows : List (List (Nat × Nat × Nat))) : ∃ tag, redElems c rax rop n fa fd rows =
      [⟨0, 0, reduceGroups rop fa fd (rows.mapIdx (fun r l => l.map (fun x => (r * n + x.1, x.2.1)))), tag⟩] := by
  subst hrax
  exact ⟨_, rfl⟩

theorem rop_of_isRed {rop : Nat} {i : MInstr} (h : isRed rop i = true) : i.mVOP / 8 % 8 = rop := by
  simp only [isRed, Bool.and_eq_true, beq_iff_eq] at h
  exact h.2

/-- A row of REDUCE has its effect by `reduceBody`. -/
theorem reduceRows_answer (s : State) (k : Nat) (tm : Timing) : ∀ p ∈ reduceRows,
    exec (p.1 k (.run tm)) s = answer (coreOk k) (s.queued k (.run tm) (isRed p.2) (reduceBody k)) := by
  simp only [reduceRows, List.forall_mem_cons]
  exact ⟨rfl, rfl, rfl, rfl, rfl, nofun⟩

/-- Settles O12: masks bit by bit (`getLsbD_maskBits`), REDUCE by the elements of its result (`reduceBody_rows`). -/
theorem masksAndReductions : Obligations.MasksAndReductions := by
  refine ⟨fun p hp s k tm f h hzero => maskRows_zero hzero p hp h, ?masks, ?reduces⟩
  case masks =>
    intro s k tm f hzero s0 c htreg htag t done
    have hgood : c.noParity := ⟨htreg, htag⟩
    exact ⟨fun h => ⟨_, queued_core_ok h (emaskBody_good hgood hzero), fun n hn => getLsbD_maskBits 512 _ hn⟩,
      fun h => ⟨_, queued_core_ok h (rmaskBody_good hgood hzero), fun n hn => getLsbD_maskBits 64 _ hn⟩,
      fun h => queued_core_ok h (if_neg (by rw [hzero]; decide))⟩
  case reduces =>
    intro p hp s k tm f h s0 c
    refine ⟨fun hzero => (reduceRows_answer s k tm p hp).trans (queued_ok h (if_pos hzero)), ?_⟩
    intro hzero htreg htag vop n
    have hgood : c.noParity := ⟨htreg, htag⟩
    have hrop := rop_of_isRed (effective_isOp h)
    obtain ⟨rows, hrows⟩ := partRows_good hgood (f.ent.ten 1) n (rowsOf f.ent.tens) 0
    obtain ⟨flags, tag, hbody⟩ := reduceBody_rows (s := s0) (k := k) hzero hrop hrows
    refine ⟨_, rows, (reduceRows_answer s k tm p hp).trans (queued_ok h hbody), hrows, ?_⟩
    generalize hes : redElems c (f.ent.ins.mVOP / 64) p.2 (colsOf f.ent.tens) (f.ent.ten 1).fmt (f.ent.ten 2).fmt rows = es
    have hlanes := (writeElems_lanes hgood (f.ent.ten 2).view (f.ent.ten 2).fmt (f.ent.ins.mVOP / 64) p.2 n es).frame
    have hsreg := Core_writeSreg_frame
      ((c.writeElems (f.ent.ten 2).view (f.ent.ten 2).fmt (f.ent.ins.mVOP / 64) p.2 n es).countIssue (issueCycles f.ent.tens))
      f.ent.ins.mVOP es
    have hlen : (c.writeElems (f.ent.ten 2).view (f.ent.ten 2).fmt (f.ent.ins.mVOP / 64) p.2 n es).ctl.sreg.length =
        c.ctl.sreg.length := by rw [hlanes]
    simp only [State_joinFlags_core, State_core_setCore_same]
    refine ⟨?_, ?_, ?_, fun j hj => ?_, fun hrax hreg => ?_, fun hrax hp4 hreg => ?_⟩
    · rw [hsreg, hlanes]
      rfl
    · rw [hsreg, hlanes]
      rfl
    · rw [hsreg, hlanes]
      rfl
    · rw [State_core_setCore_ne _ _ hj]
      exact State_core_modCore_ne s _ hj
    · obtain ⟨etag, hboth⟩ := redElems_both c hrax p.2 n (f.ent.ten 1).fmt (f.ent.ten 2).fmt rows
      rw [← hes, hboth]
      exact Core_writeSreg_value hrax (by
        rw [← hes, hboth] at hlen
        exact hlen ▸ hreg)
    · obtain ⟨etag, hboth⟩ := redElems_both c hrax p.2 n (f.ent.ten 1).fmt (f.ent.ten 2).fmt rows
      rw [← hes, hboth]
      exact Core_writeSreg_index hrax (hrop.trans hp4) (by
        rw [← hes, hboth] at hlen
        exact hlen ▸ hreg)

end Sys2Proof.Machine
end

/-! ## Queued instructions beyond the core: SEND, EMIT, the matrix instructions (07, 08) -/

section
namespace Sys2Proof.Machine
open Sys2Proof

/-! ### SEND and EMIT (R164, R167, R245, R246) -/

theorem State_enter_core_entry (s : State) (k d : Nat) (tm : Timing) : ((s.enter k tm).core d).entry = (s.core d).entry := by
  by_cases hd : d = k
  · subst hd
    rw [State.enter, State_core_modCore_same]
    rfl
  · rw [State.enter, State_core_modCore_ne _ _ hd]

theorem depositFault_other_frame {s : State} {k d : Nat} (w off lines : Nat) (h : (s.core d).entry ≠ (s.core k).entry) :
    s.depositFault k d w off lines = some (0x07, deniedDetail 0xFFFF 0 0 5) := if_pos h

section
variable {s : State} {k d : Nat} {c : Core} {f : Flight} (ha : f.ent.reg f.ent.ins.dRA % 64 = 0)
  (hd : s.coreOfRank c f.ent.ins.dDRANK = some d) (hfit : f.ent.reg f.ent.ins.dRA + f.ent.ins.dLEN * 64 ≤ 2097152)
include ha hd hfit

theorem sendBody_deposits (hsub : s.substOn d none = none)
    (hok : s.depositFault k d f.ent.ins.dWIN f.ent.ins.dWOFF f.ent.ins.dLEN = none) :
    sendBody k s c f = .ok ((s.addDeposit ⟨0, .core k f.id, [d], f.ent.ins.dWIN, f.ent.ins.dWOFF, f.ent.ins.dLEN,
      some (f.ent.reg f.ent.ins.dRA), [], false, true⟩).tryCredit, []) := by
  simp only [sendBody, ha, hd, ne_eq, not_true_eq_false, if_false, spRange_within c hfit, Eff_bind_ok, hsub, hok]

theorem sendBody_substituted {lv : Nat} (hsub : s.substOn d none = some lv) :
    sendBody k s c f = .stop c 0x41 (lv * 2 ^ 28) := by
  simp only [sendBody, ha, hd, ne_eq, not_true_eq_false, if_false, spRange_within c hfit, Eff_bind_ok, hsub]

theorem sendBody_refused (hsub : s.substOn d none = none) {r x : Nat}
    (hfault : s.depositFault k d f.ent.ins.dWIN f.ent.ins.dWOFF f.ent.ins.dLEN = some (r, x)) :
    sendBody k s c f = .stop c r x := by
  simp only [sendBody, ha, hd, ne_eq, not_true_eq_false, if_false, spRange_within c hfit, Eff_bind_ok, hsub, hfault]

end

section
variable {s : State} {k : Nat} {c : Core} {f : Flight} {e : Entry} {b : RunBody} (he : s.frameOf c = some e)
  (hop : e.op = .run b) (ha : f.ent.reg f.ent.ins.eRA % 64 = 0) (ho : f.ent.reg f.ent.ins.eRB % 64 = 0)
include he hop ha ho

theorem emitBody_copies (hfree : ∀ l ∈ tabulate f.ent.ins.eLEN (fun j => f.ent.reg f.ent.ins.eRB / 64 + j),
      l * 64 + 64 ≤ b.rlen ∧ l ∉ e.frame.emitted)
    (hclean : c.clean (f.ent.reg f.ent.ins.eRA) (f.ent.ins.eLEN * 64)) :
    emitBody k s c f = .ok ((s.setCore k c).modEntry e.cseq (fun e => { e with frame := { e.frame with
      result := Mem.writeBytes e.frame.result (f.ent.reg f.ent.ins.eRB)
        (c.spBytes (f.ent.reg f.ent.ins.eRA) (f.ent.ins.eLEN * 64))
      emitted := tabulate f.ent.ins.eLEN (fun j => f.ent.reg f.ent.ins.eRB / 64 + j) ++ e.frame.emitted
      rtag := e.frame.rtag ||| c.lineTags (f.ent.reg f.ent.ins.eRA) (f.ent.ins.eLEN * 64) } }), []) := by
  have hnone : (tabulate f.ent.ins.eLEN (fun j => f.ent.reg f.ent.ins.eRB / 64 + j)).find?
      (fun l => decide (b.rlen < l * 64 + 64) || e.frame.emitted.contains l) = none := by
    refine List.find?_eq_none.2 fun l hl => ?_
    obtain ⟨hin, hnew⟩ := hfree l hl
    simp [hnew, Nat.not_lt.2 hin]
  simp only [emitBody, he, hop, ha, ho, ne_eq, not_true_eq_false, if_false, hnone, spRead_clean hclean, Eff_bind_ok]

theorem emitBody_refused {l : Nat} (hl : (tabulate f.ent.ins.eLEN (fun j => f.ent.reg f.ent.ins.eRB / 64 + j)).find?
      (fun l => decide (b.rlen < l * 64 + 64) || e.frame.emitted.contains l) = some l) :
    emitBody k s c f = .stop c 0x18 ((if b.rlen < l * 64 + 64 then 1 else 2) * 2 ^ 28 + l % 2 ^ 28) := by
  simp only [emitBody, he, hop, ha, ho, ne_eq, not_true_eq_false, if_false, hl]

end

/-- Settles O13: the bodies of SEND and EMIT, branch by branch. -/
theorem sendsAndEmits : Obligations.SendsAndEmits := by
  refine ⟨fun s k d tm f h => ?_, fun s k tm f e b h => ?_⟩
  · intro s0 c i a ha hd hfit
    refine ⟨fun hsub hok => ?_, fun lv hsub => ?_, fun hsub r x hfault => ?_, fun hsub hother => ?_⟩
    · exact queued_ok h (sendBody_deposits ha hd hfit hsub hok)
    · exact queued_stop h (sendBody_substituted ha hd hfit hsub)
    · exact queued_stop h (sendBody_refused ha hd hfit hsub hfault)
    · refine queued_stop h (sendBody_refused ha hd hfit hsub (depositFault_other_frame _ _ _ ?_))
      rw [State_enter_core_entry]
      exact hother
  · intro s0 c i a o lines he hop ha ho
    exact ⟨fun hfree hclean => queued_ok h (emitBody_copies he hop ha ho hfree hclean),
      fun l hl => queued_stop h (emitBody_refused (s := s0) (c := c) he hop ha ho hl)⟩

/-! ### The matrix and move instructions (R243, R277 to R291) -/

section
variable {s : State} {k : Nat} {c : Core} {f : Flight}

theorem matmulBody_zero (h : f.zero = true) : matmulBody k s c f = .ok (s.ownerStep c (f.ent.red 3), []) := by
  simp only [matmulBody, h, if_true]

theorem walkBody_zero {walk : QEntry → Placement → List DCmd} (h : f.zero = true) : walkBody walk s c f = .ok (s, []) := by
  simp only [walkBody, h, if_true]

theorem combineBody_zero (h : f.zero = true) : combineBody k s c f = .ok c := by simp only [combineBody, h, if_true]

theorem moveBody_zero (h : f.zero = true) : moveBody k s c f =
    .ok ((mcastCores k (f.ent.mov 2).mcast).foldl (fun s d => s.bareStep d (f.ent.mov 2).dwin) s, []) := by
  simp only [moveBody, h, if_true]

theorem moveBody_walk (h : f.zero = false) : moveBody k s c f = .ok (s, walkMove f.ent) := by
  simp only [moveBody, h, Bool.false_eq_true, if_false]

/-- A command that deposits a partial (R283). -/
def DCmd.isPart : DCmd → Bool
  | .part _ _ _ _ _ => true
  | _ => false

section
variable {pl : Placement} (hzero : f.zero = false) (hpl : s.namedPlacement c f.ent.handle = .ok pl)
include hzero hpl

theorem walkBody_walk (walk : QEntry → Placement → List DCmd) : walkBody walk s c f = .ok (s, walk f.ent pl) := by
  simp only [walkBody, hzero, Bool.false_eq_true, if_false, hpl]

theorem matmulBody_walk : matmulBody k s c f = .ok
    (if (walkMatmul f.ent pl k).any DCmd.isPart then s else s.ownerStep c (f.ent.red 3), walkMatmul f.ent pl k) := by
  simp only [matmulBody, hzero, Bool.false_eq_true, if_false, hpl]
  rfl

section
variable (hout : outAllowed (f.ent.red 2).pfp f.plan.yfmt = true)
include hout

theorem combineBody_adds {v : Window} (hwin : c.window (f.ent.red 2).win = some v) :
    combineBody k s c f = combineAll f pl k v ((combineUnits f.ent pl k).flatMap (fun q =>
      (List.range (actualLen f.plan.rowLen none f.plan.pm)).map (fun m => (q.1, q.2, m)))) c := by
  simp only [combineBody, hzero, Bool.false_eq_true, if_false, hpl, hout, Bool.not_true, hwin]

theorem combineBody_no_window (hwin : c.window (f.ent.red 2).win = none) :
    combineBody k s c f = .stop c 0x04 (4 * 2 ^ 28) := by
  simp only [combineBody, hzero, Bool.false_eq_true, if_false, hpl, hout, Bool.not_true, hwin]

end
end

theorem ownerStep_whole (s : State) (c : Core) {r : Red} (h : r.split = false) : s.ownerStep c r = s := by
  simp only [State.ownerStep, h, Bool.false_eq_true, if_false]

end

/-- Settles O14: the bodies of the matrix instructions; a MATMUL that is not split owes no step. -/
theorem matrixMacros : Obligations.MatrixMacros := by
  refine ⟨fun s k tm f pl => ?_, fun s k tm f pl h hz => ?_⟩
  · intro s0 c part
    refine ⟨fun h hz hpl => ⟨fun hor => ?_, fun hnone => ?_⟩, fun h hz hpl => ?_, fun h hz hpl => ?_, fun h hz => ?_, fun h hz => ?_,
      fun h hz => ?_, fun h hz => ?_, fun h hz => ?_, fun h hz => ?_⟩
    · refine queued_ok h ((matmulBody_walk hz hpl).trans ?_)
      have hsame : (if (walkMatmul f.ent pl k).any DCmd.isPart then s0 else s0.ownerStep c (f.ent.red 3)) = s0 := by
        rcases hor with hsplit | hpart
        · rw [ownerStep_whole _ _ hsplit, ite_self]
        · exact if_pos hpart
      exact congrArg (fun x => Eff.ok (x, walkMatmul f.ent pl k)) hsame
    · refine queued_ok h ((matmulBody_walk hz hpl).trans ?_)
      have hstep : (if (walkMatmul f.ent pl k).any DCmd.isPart then s0 else s0.ownerStep c (f.ent.red 3)) =
          s0.ownerStep c (f.ent.red 3) := if_neg (by rw [show (walkMatmul f.ent pl k).any DCmd.isPart = false from hnone]; decide)
      exact congrArg (fun x => Eff.ok (x, walkMatmul f.ent pl k)) hstep
    · exact queued_ok h (walkBody_walk hz hpl _)
    · exact queued_ok h (walkBody_walk hz hpl _)
    · exact queued_ok h (moveBody_walk hz)
    · exact queued_ok h (matmulBody_zero hz)
    · exact queued_ok h (walkBody_zero hz)
    · exact queued_ok h (walkBody_zero hz)
    · exact queued_core_ok h (combineBody_zero hz)
    · exact queued_ok h (moveBody_zero hz)
  · intro s0 c p hpl hout
    exact ⟨fun v c1 hwin hall => queued_core_ok h ((combineBody_adds hz hpl hout hwin).trans hall),
      fun hwin => queued_core_stop h (combineBody_no_window hz hpl hout hwin)⟩

theorem answer_eq_next {g : Bool} {t u : State} (hg : g = true) (h : t = u) : answer g t = .next u :=
  answer_next.2 ⟨hg, h.symm⟩

/-! ### Heads of queues and completion (R126, R214 to R216, R243, R264) -/

section
variable {s : State} {k q : Nat} {e : QEntry} (hlive : (s.core k).live = true) (he : (s.core k).headEntry q = some e)
include hlive he

theorem startHead_waits (hwe : e.ins.we = true) (hwait : (s.core k).ctr e.ins.wctr < e.ins.wval ∨
    (e.ins.wval ≠ 0 ∧ (s.core k).waiterBefore q e.ins.wctr = true)) : s.startHead k q = s := by
  have hor : e.ins.we ∧ (!((s.core k).waitOk e.ins.wctr e.ins.wval) ∨
      (e.ins.wval ≠ 0 ∧ (s.core k).waiterBefore q e.ins.wctr)) := by
    refine ⟨hwe, hwait.imp_left fun h => ?_⟩
    simp [Core.waitOk, h]
  simp only [State.startHead, hlive, he, if_pos hor]
  rfl

/-- The head of the queue starts: the core `c1` has consumed its threshold. -/
theorem startHead_starts (hok : e.ins.we = true → e.ins.wval ≤ (s.core k).ctr e.ins.wctr ∧
      (e.ins.wval = 0 ∨ (s.core k).waiterBefore q e.ins.wctr = false)) {c1 : Core}
    (hc1 : c1 = if e.ins.we then (s.core k).consume e.ins.wctr e.ins.wval else s.core k) :
    (isMacro e.ins.op = false →
      s.startHead k q = (s.setCore k c1).setCore k ((c1.setQueue q (c1.queue q).tail).addFlight q e false)) ∧
    (isMacro e.ins.op = true → ∀ zero, (s.setCore k c1).macroChecks c1 k e = (none, zero) →
      s.startHead k q = (s.setCore k c1).setCore k (c1.addFlight q e zero)) ∧
    (isMacro e.ins.op = true → ∀ r x z, (s.setCore k c1).macroChecks c1 k e = (some (r, x), z) →
      s.startHead k q = (s.setCore k c1).haltEntry k e r x) := by
  have hgo : ¬ (e.ins.we ∧ (!((s.core k).waitOk e.ins.wctr e.ins.wval) ∨
      (e.ins.wval ≠ 0 ∧ (s.core k).waiterBefore q e.ins.wctr))) := by
    rintro ⟨hwe, hbad⟩
    obtain ⟨hle, hfirst⟩ := hok hwe
    rcases hbad with hbad | ⟨hne, hbefore⟩
    · simp [Core.waitOk, hle] at hbad
    · rcases hfirst with hzero | hnone
      · exact hne hzero
      · simp [hnone] at hbefore
  refine ⟨fun hm => ?_, fun hm zero hchk => ?_, fun hm r x z hchk => ?_⟩
  · simp only [State.startHead, hlive, he, if_neg hgo, hm, ← hc1]
    rfl
  · simp only [State.startHead, hlive, he, if_neg hgo, hm, ← hc1, hchk]
    rfl
  · simp only [State.startHead, hlive, he, if_neg hgo, hm, ← hc1, hchk]
    rfl

end

section
variable {s : State} {k : Nat} {f : Flight} {c1 : Core}

theorem finishFlight_closed (hclose : closeRuns ((s.core k).acc.runs.filter (fun r => r.flight == f.id)) (s.core k) = .ok c1)
    {s1 : State} (hs1 : s1 = s.setCore k { c1 with
      q := { c1.q with flights := c1.q.flights.filter (fun g => g.id != f.id) }
      acc := { c1.acc with opens := c1.acc.opens.filter (fun x => x.flight != f.id) }
      prog := countMacro f c1.prog }) :
    s.finishFlight k f = (if f.ent.ins.se then
      s1.signal k f.ent.ins.sctr (f.ent.ins.sinc + 1) f.ent.ctx f.ent.pc f.ent.depth else s1).settle k := by
  subst hs1
  simp only [State.finishFlight, hclose]

theorem exec_instructionComplete (hk : coreOk k = true) (hlive : (s.core k).live = true)
    (hfind : (s.core k).q.flights.find? (fun g => g.id == f.id) = some f) (hdone : s.flightDone k (s.core k) f = true) :
    exec (.instructionComplete k f.id) s = .next (s.finishFlight k f) := by
  refine answer_next.2 ⟨hk, ?_⟩
  simp only [hlive, hfind, hdone, Bool.not_true, Bool.false_eq_true, if_false, if_true]

end

/-- Settles O15: a head that may start, with the threshold consumed; and the runs of a flight that is done. -/
theorem queueHeadsAndCompletions : Obligations.QueueHeadsAndCompletions := by
  refine ⟨fun s k q e hk hq1 hq4 hlive he => ?_, fun s k f c1 hk hlive hfind hdone hclose => ?_⟩
  · intro c c1 s1 start
    have hguard : (coreOk k && decide (1 ≤ q) && decide (q ≤ 4)) = true := by simp [hk, hq1, hq4]
    refine ⟨fun hwe hwait => answer_eq_next hguard (startHead_waits hlive he hwe hwait), fun hok => ?_⟩
    obtain ⟨hplain, hmacro, hbad⟩ := startHead_starts hlive he hok (c1 := c1) rfl
    exact ⟨fun hm => answer_eq_next hguard (hplain hm), fun hm zero hchk => answer_eq_next hguard (hmacro hm zero hchk),
      fun hm r x z hchk => answer_eq_next hguard (hbad hm r x z hchk)⟩
  · intro s1
    have hfinish := finishFlight_closed hclose (s1 := s1) rfl
    refine ⟨fun hse => ?_, fun hse => ?_⟩ <;> rw [exec_instructionComplete hk hlive hfind hdone, hfinish, hse] <;> rfl

/-! ### Waits and halts (R214, R217, R241, R247) -/

theorem inRun_iff (c : Core) : c.inRun = true ↔ c.st = .run ∨ c.st = .draining ∨ c.st = .stopping := by
  unfold Core.inRun
  cases c.st <;> simp

theorem counts_iff (s : State) (k : Nat) : s.counts k = true ↔
    ((s.core k).st = .run ∨ (s.core k).st = .draining ∨ (s.core k).st = .stopping) ∧ (∀ x ∈ s.yoke.held, x / 32 ≠ k) ∧
      (∀ f ∈ (s.core k).q.flights, f.fence = none) ∧
      ∀ u ∈ s.maps.subst, if u.level = 4 then u.k / 16 ≠ k / 16 else u.k ≠ k := by
  have hheld : (!(s.yoke.held.any (fun x => x / 32 == k))) = true ↔ ∀ x ∈ s.yoke.held, x / 32 ≠ k := by simp
  have hfence : (!((s.core k).q.flights.any (fun f => f.fence.isSome))) = true ↔
      ∀ f ∈ (s.core k).q.flights, f.fence = none := by simp
  have hsubst : (!(s.maps.subst.any (fun u => if u.level = 4 then u.k / 16 == k / 16 else u.k == k))) = true ↔
      ∀ u ∈ s.maps.subst, if u.level = 4 then u.k / 16 ≠ k / 16 else u.k ≠ k := by
    rw [Bool.not_eq_true', List.any_eq_false]
    refine forall₂_congr fun u _ => ?_
    split <;> simp
  simp only [State.counts, Bool.and_eq_true, inRun_iff, hheld, hfence, hsubst, and_assoc]

section
variable {s : State} {k i v : Nat}

theorem satisfyWait_met {c : Core} (hstall : c.ctl.stall = some (.wait i v)) (hmet : v ≤ c.ctr i) :
    satisfyWait c = { c.consume i v with ctl := { (c.consume i v).ctl with stall := some .ready } } := by
  simp only [satisfyWait, hstall, Core.waitOk, hmet, decide_true, if_true]

theorem timeoutWait_uncounted (q : Nat) (h : s.counts k = false) : s.timeoutWait k q = s := by
  simp only [State.timeoutWait, h, Bool.not_false, if_true]

section
variable (hcounts : s.counts k = true)
include hcounts

theorem timeoutWait_control (hstall : (s.core k).ctl.stall = some (.wait i v)) (hunmet : (s.core k).ctr i < v) :
    s.timeoutWait k 0 = s.haltDue k 0x0D (waitDetail i v) := by
  simp only [State.timeoutWait, hcounts, hstall, Core.waitOk, Nat.not_le.2 hunmet, decide_false]
  rfl

theorem timeoutWait_queue {q : Nat} (hq : q ≠ 0) {e : QEntry} (he : (s.core k).headEntry q = some e) (hwe : e.ins.we = true)
    (hunmet : (s.core k).ctr e.ins.wctr < e.ins.wval) :
    s.timeoutWait k q = s.haltEntry k e 0x0D (waitDetail e.ins.wctr e.ins.wval) := by
  simp only [State.timeoutWait, hcounts, hq, if_false, he, hwe, Core.waitOk, Nat.not_le.2 hunmet, decide_false, Bool.not_true,
    Bool.false_eq_true, Bool.not_false, and_self, if_true]

end

theorem haltCore_of_live (hlive : (s.core k).live = true) (ctx idx depth reason detail : Nat) :
    s.haltCore k ctx idx depth reason detail =
      { s.setCore k ((s.core k).halt ctx idx depth reason detail) with deposits := dropDeposits k s.deposits } := if_pos hlive

theorem halt_queue (c : Core) (ctx idx depth reason detail q : Nat) : (c.halt ctx idx depth reason detail).queue q = [] := by
  match q with
  | 0 | 1 | 2 | 3 | _ + 4 => rfl

theorem dropDeposits_dests {l : List Deposit} {d : Deposit} (h : d ∈ dropDeposits k l) : k ∉ d.dests := by
  obtain ⟨x, -, hx⟩ := List.mem_filterMap.1 h
  split at hx
  · split at hx
    · cases hx
    · cases hx
      simp
  · next hk =>
    cases hx
    simpa using hk

end

/-- Settles O16: waits and the run limit by their branches, and what a halt leaves. -/
theorem waitsAndHalts : Obligations.WaitsAndHalts := by
  refine ⟨fun s k i v hk => ?_, fun s k ctx idx depth reason detail hlive => ?_⟩
  · intro c c1 detail
    refine ⟨fun hstall hmet => ?_, fun hstall hunmet hcounts => ?_, fun q e hq1 hq4 he hwe hctr hval hunmet hcounts => ?_,
      fun hcounts => ?_, fun hcounts => ⟨?_, fun q hq => ?_⟩, counts_iff s k⟩
    · exact answer_eq_next hk (congrArg (s.setCore k) (satisfyWait_met hstall hmet))
    · exact answer_eq_next (by simp [hk]) (timeoutWait_control hcounts hstall hunmet)
    · subst hctr hval
      exact answer_eq_next (by simp [hk, hq4]) (timeoutWait_queue hcounts (by omega) he hwe hunmet)
    · exact answer_eq_next hk (if_pos hcounts)
    · exact answer_eq_next hk (by rw [hcounts]; rfl)
    · exact answer_eq_next (by simp [hk, hq]) (timeoutWait_uncounted q hcounts)
  · intro t
    have ht : t = _ := haltCore_of_live hlive ctx idx depth reason detail
    have hcore : t.core k = (s.core k).halt ctx idx depth reason detail := by rw [ht]; exact State_core_setCore_same ..
    refine ⟨by rw [hcore]; rfl, by rw [hcore]; rfl, fun q => by rw [hcore, halt_queue], by rw [hcore]; rfl, fun j hj => ?_,
      by rw [ht]; rfl, by rw [ht]; rfl, by rw [ht]; rfl, fun d hd => ?_⟩
    · rw [ht]
      exact State_core_setCore_ne s _ hj
    · rw [ht] at hd
      exact dropDeposits_dests hd

/-! ### Passes start or wait (R44, R89, R120, R336, R387, R392) -/

theorem Eff_bind_eq_ok {α β : Type} {e : Eff α} {f : α → Eff β} {b : β} :
    e.bind f = .ok b ↔ ∃ a, e = .ok a ∧ f a = .ok b := by
  cases e <;> simp

/-- `c1` differs from `c` only in the runs carried and in what is written of the scratchpad. -/
def Core.slotsOnly (c c1 : Core) : Prop :=
  c1 = { c with
    acc := { c.acc with runs := c1.acc.runs }
    mem := { c.mem with spad := c1.mem.spad, lineTag := c1.mem.lineTag, prior := c1.mem.prior, spadBad := c1.mem.spadBad } }

theorem Core.slotsOnly.refl (c : Core) : c.slotsOnly c := rfl

theorem Core.slotsOnly.trans {a b c : Core} (hab : a.slotsOnly b) (hbc : b.slotsOnly c) : a.slotsOnly c := by
  unfold Core.slotsOnly at *
  rw [hab] at hbc
  exact hbc

theorem spWrite_slotsOnly {c c1 : Core} {cause a : Nat} {b : List Byte} {tag : Option Nat}
    (h : c.spWrite cause a b tag = .ok c1) : c.slotsOnly c1 := by
  obtain ⟨_, -, h⟩ := Eff_bind_eq_ok.1 h
  obtain ⟨_, -, h⟩ := Eff_bind_eq_ok.1 h
  cases h
  rfl

theorem closeRun_slotsOnly {c c1 : Core} {r : Run} (h : c.closeRun r = .ok c1) : c.slotsOnly c1 := by
  obtain ⟨x, hx, h⟩ := Eff_bind_eq_ok.1 h
  cases h
  exact (spWrite_slotsOnly hx).trans rfl

theorem closeRuns_slotsOnly {l : List Run} {c c1 : Core} (h : closeRuns l c = .ok c1) : c.slotsOnly c1 := by
  induction l generalizing c with
  | nil =>
    cases h
    rfl
  | cons r l ih =>
    obtain ⟨x, hx, h⟩ := Eff_bind_eq_ok.1 h
    exact (closeRun_slotsOnly hx).trans (ih h)

@[simp] theorem releaseHead_acc (c : Core) (id : Nat) : (c.releaseHead id).acc = c.acc := by
  unfold Core.releaseHead
  split
  · split <;> rfl
  · rfl

@[simp] theorem releaseHead_mem (c : Core) (id : Nat) : (c.releaseHead id).mem = c.mem := by
  unfold Core.releaseHead
  split
  · split <;> rfl
  · rfl

@[simp] theorem popTodo_acc (c : Core) (id : Nat) (rest : List DCmd) : (c.popTodo id rest).acc = c.acc := releaseHead_acc _ _

@[simp] theorem popTodo_mem (c : Core) (id : Nat) (rest : List DCmd) : (c.popTodo id rest).mem = c.mem := releaseHead_mem _ _

/-- What naming a run leaves: the passes in flight, the region in force and the tile registers. -/
theorem nameRun_keeps {c : Core} {grp : List Nat} {slot mode fl : Nat} {q : Core × Nat}
    (h : c.nameRun grp slot mode fl = .ok q) : q.1.acc.passes = c.acc.passes ∧ q.1.acc.accBase = c.acc.accBase ∧
      q.1.acc.accStride = c.acc.accStride ∧ q.1.mem.treg = c.mem.treg := by
  obtain ⟨c2, hc2, h⟩ := Eff_bind_eq_ok.1 h
  cases h
  have hkeep := closeRuns_slotsOnly hc2
  exact ⟨congrArg (·.acc.passes) hkeep, congrArg (·.acc.accBase) hkeep, congrArg (·.acc.accStride) hkeep,
    congrArg (·.mem.treg) hkeep⟩

theorem memberVec_member {c : Core} {f : Flight} {x : Ten} {m half : Nat} {kbs : List Nat} {kk : Nat} {mb : Member}
    {a : (Member × List Int × List Nat) × Nat} (h : c.memberVec f x m half kbs kk mb = .ok a) : a.1.1 = mb := by
  simp only [Core.memberVec] at h
  split at h
  · cases h
    rfl
  · obtain ⟨r, -, h⟩ := Eff_bind_eq_ok.1 h
    cases h
    rfl

theorem memberVecs_members {c : Core} {f : Flight} {x : Ten} {m half : Nat} {kbs : List Nat} {kk : Nat} {ms : List Member}
    {v : List (Member × List Int × List Nat) × Nat} (h : c.memberVecs f x m half kbs kk ms = .ok v) : v.1.map (·.1) = ms := by
  induction ms generalizing v with
  | nil =>
    cases h
    rfl
  | cons mb l ih =>
    obtain ⟨a, ha, h⟩ := Eff_bind_eq_ok.1 h
    obtain ⟨b, hb, h⟩ := Eff_bind_eq_ok.1 h
    cases h
    rw [List.map_cons, memberVec_member ha, ih hb]

/-- The pass that a start leaves in flight. -/
theorem startPass_pass {s s2 : State} {k : Nat} {f : Flight} {g : Geo} {ms : List Member} {mt m u j slot mode half : Nat}
    {kbs : List Nat} {rest : List DCmd} {tm : PassTiming}
    (h : s.startPass k f g ms mt m u j slot mode half kbs rest tm = .ok s2) :
    ∃ p : PassRun, (s2.core k).acc.passes = (s.core k).acc.passes ++ [p] ∧ p.lead = ((ms.head?).map (·.e)).getD 0 ∧
      p.members.map (·.1) = ms ∧ p.res.slot = slot ∧ p.res.mode = mode ∧ p.res.base = (s.core k).acc.accBase ∧
      p.res.stride = (s.core k).acc.accStride ∧ p.res.flight = f.id ∧ (s2.core k).mem.treg = (s.core k).mem.treg := by
  obtain ⟨q, hq, h⟩ := Eff_bind_eq_ok.1 h
  obtain ⟨v, hv, h⟩ := Eff_bind_eq_ok.1 h
  obtain ⟨hpasses, hbase, hstride, htreg⟩ := nameRun_keeps hq
  cases h
  simp only [State_core_setCore_same, popTodo_acc, popTodo_mem]
  exact ⟨_, congrArg (· ++ _) hpasses, rfl, memberVecs_members hv, rfl, rfl, hbase, hstride, rfl, htreg⟩

theorem powerGate_cores (s : State) (k : Nat) (ms : List Member) (pj : Nat) (tm : PassTiming) :
    (s.powerGate k ms pj tm).1.cores = s.cores := by
  simp only [State.powerGate]
  split
  · split <;> rfl
  · split
    · rfl
    · simp only [apply_ite Prod.fst, apply_ite State.cores, ite_self]

theorem powerGate_core (s : State) (k : Nat) (ms : List Member) (pj : Nat) (tm : PassTiming) :
    (s.powerGate k ms pj tm).1.core k = s.core k :=
  congrArg (fun t => (Tbl.get t k).getD Core.fresh) (powerGate_cores s k ms pj tm)

theorem powerGate_over {s : State} {k pj : Nat} (ms : List Member) (tm : PassTiming) (h : s.overPart (k / 128) pj = true) :
    s.powerGate k ms pj tm = (if s.yoke.held.contains (32 * k + ((ms.head?).map (·.e)).getD 0) then s
      else { s with yoke := { s.yoke with
        held := (32 * k + ((ms.head?).map (·.e)).getD 0) :: s.yoke.held
        regs := { s.yoke.regs with powerHold := s.yoke.regs.powerHold + 1 } } }, false) := by
  simp only [State.powerGate, h, if_true]
  split <;> rfl

/-- The Drover's command is a pass. -/
def DCmd.isPass : DCmd → Bool
  | .pass _ _ _ _ _ _ _ _ _ => true
  | _ => false

/-- What a pass that is due does, once the gate of its conditions has decided: the branches of `State.issuePass`. -/
def State.passStep (s : State) (k : Nat) (tm : PassTiming) (f : Flight) (pl : Placement) (ms : List Member)
    (mt m u j slot mode half : Nat) (kbs : List Nat) (rest : List DCmd) : Gate → State
  | .wait => s
  | .stop r x => s.haltEntry k f.ent r x
  | .fence e p => s.fencePass k f e p
  | .go =>
    let g := f.geo pl k
    let pj := passEnergy pl g.x.fmt g.wfmt ms.length
    match s.powerGate k ms pj tm with
    | (s1, false) => s1
    | (s1, true) =>
      match s1.startPass k f g ms mt m u j slot mode half kbs rest tm with
      | .wait => s
      | .stop c1 r x => (s1.setCore k c1).haltEntry k f.ent r x
      | .ok s2 => (s2.endBallast k (ms.map (·.e))).addEnergy k pj

section
variable {s : State} {k : Nat} {tm : PassTiming} {f : Flight} {pl : Placement} {ms : List Member}
  {mt m u j slot mode half : Nat} {kbs : List Nat} {rest : List DCmd}

theorem exec_passIssue_due (hk : coreOk k = true) (hlive : (s.core k).live = true)
    (hdue : (s.core k).drover DCmd.isPass = some (f, .pass ms mt m u j slot mode half kbs, rest))
    (hpl : s.namedPlacement (s.core k) f.ent.handle = .ok pl) {gate : Gate}
    (hgate : s.passGate (s.core k) k f (f.geo pl k) pl.handle ms mt m slot mode = gate) :
    exec (.passIssue k tm) s = .next (s.passStep k tm f pl ms mt m u j slot mode half kbs rest gate) := by
  refine answer_eq_next hk ?_
  simp only [State.issuePass, hlive]
  split
  · next hdead => exact absurd hdead (by decide)
  · split
    · next hdue' =>
      cases hdue'.symm.trans hdue
      simp only [hpl, hgate]
      cases gate <;> rfl
    · next hnone => exact absurd hdue (hnone _ _ _ _ _ _ _ _ _ _ _)

theorem passStep_starts {s1 s2 : State}
    (hpower : s.powerGate k ms (passEnergy pl (f.geo pl k).x.fmt (f.geo pl k).wfmt ms.length) tm = (s1, true))
    (hstart : s1.startPass k f (f.geo pl k) ms mt m u j slot mode half kbs rest tm = .ok s2) :
    s.passStep k tm f pl ms mt m u j slot mode half kbs rest .go = (s2.endBallast k (ms.map (·.e))).addEnergy k
      (passEnergy pl (f.geo pl k).x.fmt (f.geo pl k).wfmt ms.length) := by
  simp only [State.passStep, hpower, hstart]

theorem passStep_held {s1 : State}
    (hpower : s.powerGate k ms (passEnergy pl (f.geo pl k).x.fmt (f.geo pl k).wfmt ms.length) tm = (s1, false)) :
    s.passStep k tm f pl ms mt m u j slot mode half kbs rest .go = s1 := by
  simp only [State.passStep, hpower]

theorem fencePass_new (h : f.fence = none) (e p : Nat) : (s.fencePass k f e p).inst.fenceWaits = s.inst.fenceWaits + 1 ∧
    (s.fencePass k f e p).core k = (s.core k).modFlight f.id (fun x => { x with fence := some (e, p) }) := by
  have hnew : ¬ f.fence.isSome := by simp [h]
  simp only [State.fencePass, if_neg hnew]
  exact ⟨rfl, State_core_setCore_same ..⟩

end

/-- Settles O17: the branches of the gate, and the pass that a start leaves in flight. -/
theorem passes : Obligations.Passes := by
  intro s k tm f pl ms mt m u j slot mode half kbs rest hk hlive c lead hdue hpl g pj gate
  refine ⟨fun s2 hgo hpower hstart => ⟨?_, ?_⟩, fun hwait => exec_passIssue_due hk hlive hdue hpl hwait,
    fun e p hgate hsome => ?_, fun e p hgate hnone => ⟨_, exec_passIssue_due hk hlive hdue hpl hgate, fencePass_new hnone e p⟩,
    fun r x hstop => exec_passIssue_due hk hlive hdue hpl hstop, fun hgo hover => ?_⟩
  · rw [exec_passIssue_due hk hlive hdue hpl hgo, passStep_starts (Prod.ext rfl hpower) hstart]
  · have h := startPass_pass hstart
    rw [powerGate_core] at h
    exact h
  · rw [exec_passIssue_due hk hlive hdue hpl hgate]
    exact congrArg _ (if_pos hsome)
  · rw [exec_passIssue_due hk hlive hdue hpl hgo, passStep_held (powerGate_over ms tm hover)]

/-! ### What the timing of accesses leaves (R152, R176) -/

theorem Tbl_get_set (t : Tbl α) (k j : Nat) (v : α) : Tbl.get (Tbl.set t k v) j = if j = k then some v else Tbl.get t j := by
  split
  · next h => rw [h, Tbl_get_set_same]
  · next h => exact Tbl_get_set_ne t v h

theorem meetConflicts_frame (cls : Nat) (c : Core) (l : List BankMeet) :
    meetConflicts cls c l = { c with sp := (meetConflicts cls c l).sp } := by
  induction l generalizing c with
  | nil => rfl
  | cons b r ih =>
    rw [meetConflicts, ih]

/-- The core `c` after its accesses met the banks `met`, with the timing `tm`. -/
def Core.accessed (c : Core) (cls : Nat) (met : List BankMeet) (tm : Timing) : Core :=
  { meetConflicts cls c met with
    mem := { (meetConflicts cls c met).mem with same := [] }
    sp := { (meetConflicts cls c met).sp with portWait := incBy (meetConflicts cls c met).sp.portWait tm.portWait }
    prog := { (meetConflicts cls c met).prog with interlock := incBy (meetConflicts cls c met).prog.interlock tm.interlock } }

theorem Core_accessed_frame (c : Core) (cls : Nat) (met : List BankMeet) (tm : Timing) :
    c.accessed cls met tm = { c with
      mem := { c.mem with same := [] }, sp := (c.accessed cls met tm).sp, prog := (c.accessed cls met tm).prog } := by
  unfold Core.accessed
  rw [meetConflicts_frame]

theorem State_timed_cores (s : State) (k : Nat) (cls : Option Nat) (tm : Timing) (j : Nat) : (s.timed k cls tm).core j =
    (s.setCore k ((s.core k).accessed (cls.getD 0) (if cls.isNone then [] else tm.meets) tm)).core j := by
  simp only [State.timed]
  generalize (if cls.isNone = true then [] else tm.meets) = met
  split
  · rfl
  · split <;> rfl

/-- The core after its accesses: only what they were, and the counters that they step, are changed. -/
theorem State_timed_core (s : State) (k : Nat) (cls : Option Nat) (tm : Timing) : ∃ sp prog,
    (s.timed k cls tm).core k = { s.core k with mem := { (s.core k).mem with same := [] }, sp := sp, prog := prog } :=
  ⟨_, _, (State_timed_cores s k cls tm k).trans ((State_core_setCore_same ..).trans (Core_accessed_frame ..))⟩

theorem State_timed_core_ne (s : State) {j k : Nat} (hj : j ≠ k) (cls : Option Nat) (tm : Timing) :
    (s.timed k cls tm).core j = s.core j :=
  (State_timed_cores s k cls tm j).trans (State_core_setCore_ne s _ hj)

theorem State_enter_core_ne (s : State) {j k : Nat} (hj : j ≠ k) (tm : Timing) : (s.enter k tm).core j = s.core j :=
  State_core_modCore_ne s _ hj

theorem State_enter_core (s : State) (k : Nat) (tm : Timing) : (s.enter k tm).core k = (s.core k).enter tm.same tm.upset :=
  State_core_modCore_same ..

/-- The Drover finds the same command once the accesses of a step began. -/
theorem State_enter_drover (s : State) (k : Nat) (tm : Timing) (p : DCmd → Bool) :
    ((s.enter k tm).core k).drover p = (s.core k).drover p := by
  rw [State_enter_core]
  rfl

theorem State_addEnergy_core (s : State) (k pj j : Nat) : (s.addEnergy k pj).core j = s.core j := rfl

@[simp] theorem releaseHead_engines (c : Core) (id : Nat) : (c.releaseHead id).engines = c.engines := by
  unfold Core.releaseHead
  split
  · split <;> rfl
  · rfl

@[simp] theorem popTodo_engines (c : Core) (id : Nat) (rest : List DCmd) : (c.popTodo id rest).engines = c.engines :=
  releaseHead_engines _ _

theorem eccRead_keeps {c c1 : Core} {a n : Nat} (h : c.eccRead a n = .ok c1) :
    c1.engines = c.engines ∧ c1.mem.spad = c.mem.spad := by
  simp only [Core.eccRead] at h
  split at h
  · cases h
  · split at h <;> cases h <;> exact ⟨rfl, rfl⟩

theorem spRead_keeps {c : Core} {a n : Nat} {r : Core × List Byte} (h : c.spRead a n = .ok r) :
    r.1.engines = c.engines ∧ r.1.mem.spad = c.mem.spad := by
  obtain ⟨_, -, h⟩ := Eff_bind_eq_ok.1 h
  obtain ⟨_, -, h⟩ := Eff_bind_eq_ok.1 h
  obtain ⟨c1, hc1, h⟩ := Eff_bind_eq_ok.1 h
  cases h
  exact eccRead_keeps hc1

/-! ### Dynamic row writes (R58 to R63, R281) -/

theorem dynSource_keeps {c c1 : Core} {w : Ten} {o n kb j row tag : Nat} {codes : List Nat}
    (h : c.dynSource w o n kb j row = .ok (c1, codes, tag)) : c1.engines = c.engines ∧ c1.mem.spad = c.mem.spad := by
  simp only [Core.dynSource] at h
  split at h <;> obtain ⟨r, hr, h⟩ := Eff_bind_eq_ok.1 h <;> cases h
  · exact ⟨rfl, rfl⟩
  · exact spRead_keeps hr

theorem Engine_plane_setPlane (g : Engine) (p x : Nat) (pl : Plane) :
    (g.setPlane p pl).plane x = if x = p then pl else g.plane x := by
  simp only [Engine.plane, Engine.setPlane, Tbl_get_set]
  split <;> rfl

theorem Core_engine_setEngine (c : Core) (e x : Nat) (g : Engine) :
    (c.setEngine e g).engine x = if x = e then g else c.engine x := by
  simp only [Core.engine, Core.setEngine, Tbl_get_set]
  split <;> rfl

/-- Setting one plane leaves every other plane of the core. -/
theorem Core_plane_setPlane (c : Core) (e p : Nat) (pl : Plane) (e' p' : Nat) :
    ((c.setEngine e ((c.engine e).setPlane p pl)).engine e').plane p' =
      if e' = e ∧ p' = p then pl else (c.engine e').plane p' := by
  rw [Core_engine_setEngine]
  by_cases he : e' = e
  · subst he
    simp only [if_true, Engine_plane_setPlane, true_and]
  · simp only [he, if_false, false_and]

theorem trWrite_keeps (c : Core) (t row off : Nat) (b : List Byte) (v : Nat) :
    (c.trWrite t row off b v).engines = c.engines ∧ (c.trWrite t row off b v).mem.spad = c.mem.spad := ⟨rfl, rfl⟩

/-- A row of W that is staged through a register leaves the planes and the scratchpad. -/
theorem stageRow_keeps (c : Core) (reg row tag free : Nat) :
    (c.stageRow reg row tag free).engines = c.engines ∧ (c.stageRow reg row tag free).mem.spad = c.mem.spad :=
  trWrite_keeps c _ _ _ _ _

/-- The last column that a dynamic row write takes from W (R281). -/
def Flight.dynCols (f : Flight) (w : Ten) : Nat :=
  match f.ent.ins.op with
  | 0x2A => actualLen w.colLen none w.maxc
  | _ => actualLen w.colLen f.plan.colLen (max w.maxc f.plan.ymaxc)

/-- What a dynamic row write leaves once its source `r` is read: the last branch of `State.rowWrite`. -/
def State.rowPut (s : State) (k : Nat) (f : Flight) (w : Ten) (pl : Plane) (e p row : Nat) (clear : Bool)
    (r : Core × List Nat × Nat) : Eff State :=
  if w.fmt = .tern ∧ r.2.1.any (fun x => x % 4 == 2) then .stop r.1 0x10 (2 * 2 ^ 28 + w.fmt.code * 2 ^ 24)
  else
    let c1 := r.1.setEngine e ((r.1.engine e).setPlane p (pl.writeRow w.fmt row (packRow w.fmt.width r.2.1) r.2.2 clear))
    if w.loc = 2 then .ok (s.setCore k c1)
    else .ok { s.setCore k (c1.stageRow f.staging row r.2.2 s.pkg.free) with pkg := { s.pkg with free := s.pkg.free + 1 } }

theorem rowPut_writes (s : State) (k : Nat) (f : Flight) {w : Ten} {codes : List Nat}
    (hcodes : w.fmt = .tern → ∀ x ∈ codes, x % 4 ≠ 2) (pl : Plane) (e p row : Nat) (clear : Bool) (c1 : Core) (tag : Nat) :
    ∃ s1, s.rowPut k f w pl e p row clear (c1, codes, tag) = .ok s1 ∧ (∀ i, i ≠ k → s1.core i = s.core i) ∧
      (s1.core k).engines = (c1.setEngine e ((c1.engine e).setPlane p
        (pl.writeRow w.fmt row (packRow w.fmt.width codes) tag clear))).engines ∧
      (s1.core k).mem.spad = c1.mem.spad := by
  have hpat : ¬ (w.fmt = .tern ∧ codes.any (fun x => x % 4 == 2)) := by
    rintro ⟨htern, hbad⟩
    obtain ⟨x, hx, heq⟩ := List.any_eq_true.1 hbad
    exact hcodes htern x hx (by simpa using heq)
  have hset : ∀ c, (s.setCore k c).core k = c := fun c => State_core_setCore_same ..
  simp only [State.rowPut, if_neg hpat]
  split
  · exact ⟨_, rfl, fun i hi => State_core_setCore_ne s _ hi, by rw [hset], by rw [hset]; rfl⟩
  · refine ⟨_, rfl, fun i hi => State_core_setCore_ne s _ hi, ?_⟩
    obtain ⟨heng, hspad⟩ := stageRow_keeps (c1.setEngine e ((c1.engine e).setPlane p
      (pl.writeRow w.fmt row (packRow w.fmt.width codes) tag clear))) f.staging row tag s.pkg.free
    exact ⟨(congrArg Core.engines (hset _)).trans heng, (congrArg (·.mem.spad) (hset _)).trans hspad⟩

section
variable {s : State} {k : Nat} {f : Flight} {e p kb j row h : Nat} {clear : Bool} {en : Entry} {w : Ten}

/-- A row write that nothing refuses reads its source, and then writes. -/
theorem rowWrite_reads (hw : w = f.ent.ten (if f.ent.ins.op = 0x2A then 1 else 2))
    (hdyn : (((s.core k).engine e).plane p).dyn = some h) (hen : s.frameOf (s.core k) = some en) (hmine : h ∈ en.frame.places)
    (hfmt : (((s.core k).engine e).plane p).wfmt = some w.fmt) (hst : (((s.core k).engine e).plane p).st = .live)
    (hdiag : (s.core k).diag = false)
    (hidle : ∀ x ∈ (s.core k).acc.passes, ∀ v ∈ x.members, ¬ (v.1.e = e ∧ v.1.p = p)) :
    s.rowWrite k f e p kb j row clear = ((s.core k).dynSource w w.fmt.outputs (f.dynCols w) kb j row).bind
      (s.rowPut k f w (((s.core k).engine e).plane p) e p row clear) := by
  have hfree : ¬ ((((s.core k).engine e).plane p).st ≠ .live ∨ (s.core k).diag ∨
      (s.core k).acc.passes.any (fun x => x.members.any (fun v => v.1.e == e && v.1.p == p))) := by
    rintro (hbad | hbad | hbad)
    · exact hbad hst
    · rw [hdiag] at hbad
      cases hbad
    · obtain ⟨x, hx, hv⟩ := List.any_eq_true.1 hbad
      obtain ⟨v, hv, heq⟩ := List.any_eq_true.1 hv
      exact hidle x hx v hv (by simpa using heq)
  have hplaces : (!en.frame.places.contains h) = false := by simp [hmine]
  simp only [State.rowWrite, ← hw, hdyn, hen, hplaces, hfmt, ne_eq, not_true_eq_false, if_false, if_neg hfree,
    Bool.false_eq_true]
  rfl

end

/-- The Drover's command is a dynamic row write. -/
def DCmd.isRowWrite : DCmd → Bool
  | .rowWrite _ _ _ _ _ _ => true
  | _ => false

/-- The Drover's command is the load of pen tiles. -/
def DCmd.isPen : DCmd → Bool
  | .pen _ _ _ _ => true
  | _ => false

/-- The Drover's command is a field tile. -/
def DCmd.isField : DCmd → Bool
  | .field _ _ _ _ _ => true
  | _ => false

/-- The energy of a row write of the placement that `f` names (R377). -/
def State.rowEnergy (s : State) (c : Core) (f : Flight) : Nat :=
  match s.namedPlacement c f.ent.handle with
  | .ok pl => pl.psig.erow
  | .error _ => 0

section
variable {s : State} {k : Nat} {tm : Timing} {f : Flight} {rest : List DCmd} (hk : coreOk k = true)
  (hlive : (s.core k).live = true)
include hk hlive

/-- A dynamic row write that is due and done. -/
theorem exec_dynamicRowWrite_due {e p kb j row : Nat} {clear : Bool}
    (hdue : (s.core k).drover DCmd.isRowWrite = some (f, .rowWrite e p kb j row clear, rest))
    (hconflict : s.conflictStop (some 1) tm = none) {s1 : State}
    (hrun : (s.enter k tm).rowWrite k f e p kb j row clear = .ok s1) :
    exec (.dynamicRowWrite k tm) s = .next
      (((s1.modCore k (fun c1 => c1.popTodo f.id rest)).timed k (some 1) tm).addEnergy k (s.rowEnergy (s.core k) f)) := by
  refine answer_eq_next hk ?_
  simp only [hlive]
  split
  · next hdead => exact absurd hdead (by decide)
  · split
    · next hdue' =>
      cases hdue'.symm.trans hdue
      simp only [hconflict, hrun]
      rfl
    · next hnone => exact absurd hdue (hnone _ _ _ _ _ _ _ _)

/-- Pen tiles that are due and read. -/
theorem exec_penTileLoad_due {mt half quad : Nat} {kbs : List Nat}
    (hdue : (s.core k).drover DCmd.isPen = some (f, .pen mt half quad kbs, rest))
    (hconflict : s.conflictStop (some 1) tm = none) {c1 : Core}
    (hload : loadTiles (f.ent.ten 1) f.plan mt half (f.quadOf mt quad).1 (f.quadOf mt quad).2 0 kbs ((s.enter k tm).core k) =
      .ok c1) :
    exec (.penTileLoad k tm) s = .next (((s.enter k tm).setCore k (c1.popTodo f.id rest)).timed k (some 1) tm) := by
  refine answer_eq_next hk ?_
  simp only [State.penLoad, hlive]
  split
  · next hdead => exact absurd hdead (by decide)
  · split
    · next hdue' =>
      cases hdue'.symm.trans hdue
      simp only [hconflict, hload]
    · next hnone => exact absurd hdue (hnone _ _ _ _ _ _)

/-- A field tile that is due and has moved to `s1`, or waits there for credit. -/
theorem exec_fieldTile_due {coalesced r0 r1 c0 c1 : Nat} {last : Bool}
    (hdue : (s.core k).drover DCmd.isField = some (f, .field r0 r1 c0 c1 last, rest)) {s1 : State}
    (hstep : (s.enter k tm).fieldStep k f r0 r1 c0 c1 last = .ok s1) :
    exec (.fieldTile k ⟨coalesced, tm⟩) s = .next ((if s1.castWaits k f.id then s1
      else s1.modCore k (fun c => { c.popTodo f.id rest with
        prog := { c.prog with coalesced := incBy c.prog.coalesced coalesced } })).timed k none tm) := by
  refine answer_eq_next hk ?_
  simp only [State.moveField, hlive]
  split
  · next hdead => exact absurd hdead (by decide)
  · split
    · next hdue' =>
      cases hdue'.symm.trans hdue
      simp only [hstep]
      split <;> rfl
    · next hnone => exact absurd hdue (hnone _ _ _ _ _ _ _)

end

/-! ### Pen tiles (R274, R275) -/

/-- `c1` differs from `c` only in what is written of its tile registers. -/
def Core.tilesOnly (c c1 : Core) : Prop :=
  c1 = { c with mem := { c.mem with
    treg := c1.mem.treg, rowTag := c1.mem.rowTag, tregBad := c1.mem.tregBad, tagBad := c1.mem.tagBad } }

theorem Core.tilesOnly.trans {a b c : Core} (hab : a.tilesOnly b) (hbc : b.tilesOnly c) : a.tilesOnly c := by
  unfold Core.tilesOnly at *
  rw [hab] at hbc
  exact hbc

theorem trStore_tilesOnly (c : Core) (a : Nat) (b : List Byte) (tag : Nat) : c.tilesOnly (c.trStore a b tag) := rfl

theorem Core.tilesOnly.clean {c c1 : Core} (h : c.tilesOnly c1) {a n : Nat} (hc : c.clean a n) : c1.clean a n := by
  rw [h]
  exact hc

/-- The bytes of vector `m` of M-tile `mt` for the reduction index `kb` (R274). -/
def penSource (x : Ten) (p : Plan) (mt kb m : Nat) : Nat := x.view.row (mt * p.pm + m) + (penPart x kb).1

theorem loadVecs_clean {x : Ten} {p : Plan} {mt kb base : Nat} (n m : Nat) (c : Core)
    (h : ∀ i, i < n → c.clean (penSource x p mt kb (m + i)) (penPart x kb).2) :
    ∃ c1, loadVecs x p mt kb base n m c = .ok c1 ∧ c.tilesOnly c1 := by
  induction n generalizing m c with
  | zero => exact ⟨c, rfl, rfl⟩
  | succ n ih =>
    have hread : c.spRead (x.view.row (mt * p.pm + m) + (penPart x kb).1) (penPart x kb).2 = _ :=
      spRead_clean (h 0 (by omega))
    have hstore := trStore_tilesOnly c ((⟨true, base, penStride x.fmt.width, x.fmt.width⟩ : View).row m)
      (c.spBytes (penSource x p mt kb m) (penPart x kb).2) (c.lineTags (penSource x p mt kb m) (penPart x kb).2)
    obtain ⟨c1, hrun, hkeep⟩ := ih (m + 1) _ (fun i hi => hstore.clean (by
      have := h (i + 1) (by omega)
      rwa [show m + (i + 1) = m + 1 + i by omega] at this))
    refine ⟨c1, ?_, hstore.trans hkeep⟩
    simp only [loadVecs, hread, Eff_bind_ok]
    exact hrun

theorem loadTiles_clean {x : Ten} {p : Plan} {mt half m0 rows : Nat} (kbs : List Nat) (i : Nat) (c : Core)
    (h : ∀ kb ∈ kbs, ∀ m, m < rows → c.clean (penSource x p mt kb (m0 + m)) (penPart x kb).2) :
    ∃ c1, loadTiles x p mt half m0 rows i kbs c = .ok c1 ∧ c.tilesOnly c1 := by
  induction kbs generalizing i c with
  | nil => exact ⟨c, rfl, rfl⟩
  | cons kb l ih =>
    obtain ⟨c1, hrun, hkeep⟩ := loadVecs_clean (base := p.penBase x.fmt.width i half) rows m0 c (h kb List.mem_cons_self)
    obtain ⟨c2, hrun2, hkeep2⟩ := ih (i + 1) c1 (fun kb' hkb m hm => hkeep.clean (h kb' (List.mem_cons_of_mem _ hkb) m hm))
    refine ⟨c2, ?_, hkeep.trans hkeep2⟩
    rw [loadTiles, hrun, Eff_bind_ok, hrun2]

/-- One vector of one tile: the bytes of its part are in the tile registers. -/
theorem loadTiles_one {x : Ten} {p : Plan} {mt half m kb : Nat} {c c1 : Core}
    (hclean : c.clean (penSource x p mt kb m) (penPart x kb).2) (h : loadTiles x p mt half m 1 0 [kb] c = .ok c1) {b : Nat}
    (hb : b < (penPart x kb).2) :
    Mem.read c1.mem.treg ((⟨true, p.penBase x.fmt.width 0 half, penStride x.fmt.width, x.fmt.width⟩ : View).row m + b) =
      c.spByte (penSource x p mt kb m + b) := by
  have hread : c.spRead (x.view.row (mt * p.pm + m) + (penPart x kb).1) (penPart x kb).2 = _ := spRead_clean hclean
  simp only [loadTiles, loadVecs, hread, Eff_bind_ok] at h
  cases h
  refine (Mem_read_writeBytes_in _ _ _ b ?_).trans ?_
  · rwa [length_spBytes]
  · exact getElem_tabulate _ _

theorem castWaits_of_deposits {s t : State} (h : t.deposits = s.deposits) (k fl : Nat) : t.castWaits k fl = s.castWaits k fl := by
  rw [State.castWaits, h]
  rfl

/-- Settles O19: each row by what its Drover command reads and writes. -/
theorem tilesAndRows : Obligations.TilesAndRows := by
  refine ⟨?rows, ?pens, ?fields⟩
  case rows =>
    intro s k tm f e p kb j row clear rest en h c1 codes tag hk hlive s0 c pl w hdue hconflict hdyn hen hmine hfmt hst hdiag hidle
      hsrc hcodes
    have hdue' : (s.core k).drover DCmd.isRowWrite = some (f, .rowWrite e p kb j row clear, rest) :=
      (State_enter_drover s k tm _).symm.trans hdue
    obtain ⟨s1, hput, hother, heng, hspad⟩ := rowPut_writes s0 k f hcodes pl e p row clear c1 tag
    have hrun := (rowWrite_reads (s := s0) (kb := kb) (j := j) (row := row) (clear := clear) rfl hdyn hen hmine hfmt hst hdiag
      hidle).trans ((congrArg (Eff.bind · _) hsrc).trans hput)
    obtain ⟨sp, prog, htimed⟩ := State_timed_core (s1.modCore k (fun c1 => c1.popTodo f.id rest)) k (some 1) tm
    have hplane (e' p' : Nat) : ((((((s1.modCore k (fun c1 => c1.popTodo f.id rest)).timed k (some 1) tm).addEnergy k
        (s.rowEnergy (s.core k) f)).core k).engine e').plane p') =
          if e' = e ∧ p' = p then pl.writeRow w.fmt row (packRow w.fmt.width codes) tag clear else (c.engine e').plane p' := by
      have hc1 (x : Nat) : c1.engine x = c.engine x := by rw [Core.engine, (dynSource_keeps hsrc).1]; rfl
      rw [← hc1 e', ← Core_plane_setPlane c1, Core.engine, Core.engine, State_addEnergy_core, htimed, State_core_modCore_same,
        popTodo_engines, heng]
    refine ⟨_, exec_dynamicRowWrite_due hk hlive hdue' hconflict hrun, ?_, fun e' p' hne => ?_, fun i hi => ?_, ?_⟩
    · rw [hplane, if_pos ⟨rfl, rfl⟩]
    · rw [hplane, if_neg (by rintro ⟨he, hp⟩; exact hne.elim (· he) (· hp))]
    · rw [State_addEnergy_core, State_timed_core_ne _ hi, State_core_modCore_ne _ _ hi, hother i hi, State_enter_core_ne _ hi]
    · rw [State_addEnergy_core, htimed, State_core_modCore_same, popTodo_mem]
      exact hspad.trans (dynSource_keeps hsrc).2
  case pens =>
    intro s k tm f mt half quad kbs rest hk hlive s0 c x w q src hdue hconflict hclean
    obtain ⟨c1, hload, hkeep⟩ := loadTiles_clean (p := f.plan) (half := half) kbs 0 c hclean
    have hdue' : (s.core k).drover DCmd.isPen = some (f, .pen mt half quad kbs, rest) :=
      (State_enter_drover s k tm _).symm.trans hdue
    refine ⟨c1, hload, congrArg (·.mem.spad) hkeep, congrArg (·.acc) hkeep, congrArg (·.engines) hkeep, congrArg (·.ctl) hkeep,
      fun kb hkb hone b hb => ?_, exec_penTileLoad_due hk hlive hdue' hconflict hload⟩
    rw [hkb, hone] at hload
    exact loadTiles_one (hclean kb (by simp [hkb]) 0 (by omega)) hload hb
  case fields =>
    intro s k coalesced r0 r1 c0 c1 tm f last rest hk hlive s0 t v pop hdue q ls hrows
    have hdue' : (s.core k).drover DCmd.isField = some (f, .field r0 r1 c0 c1 last, rest) :=
      (State_enter_drover s k tm _).symm.trans hdue
    refine ⟨fun hm hw hd cw hput => ?_, fun hm hw hd id hid => ?_, fun hm s2 hcast => ?_⟩
    · have hstep : s0.fieldStep k f r0 r1 c0 c1 last = .ok (s0.setCore k cw) := by
        simp only [State.fieldStep]
        rw [show s0.moveRows _ _ _ _ _ _ _ _ _ = _ from hrows, Eff_bind_ok, if_neg (not_not_intro hm)]
        simp only [show (f.ent.mov 2).dwork = false from hd, Bool.false_eq_true, if_false]
        rw [show putLines _ _ _ = _ from hput, Eff_bind_ok]
      have hidle : (s0.setCore k cw).castWaits k f.id = false := (castWaits_of_deposits rfl k f.id).trans hw
      rw [exec_fieldTile_due hk hlive hdue' hstep, hidle]
      rfl
    · have hstep : s0.fieldStep k f r0 r1 c0 c1 last = .ok ((s0.setCore k q).modEntry id (fun e =>
          { e with frame := workLines v ls e.frame })) := by
        simp only [State.fieldStep]
        rw [show s0.moveRows _ _ _ _ _ _ _ _ _ = _ from hrows, Eff_bind_ok, if_neg (not_not_intro hm)]
        simp only [show (f.ent.mov 2).dwork = true from hd, if_true, hid]
        rfl
      have hidle : ((s0.setCore k q).modEntry id (fun e => { e with frame := workLines v ls e.frame })).castWaits k f.id =
          false := (castWaits_of_deposits rfl k f.id).trans hw
      rw [exec_fieldTile_due hk hlive hdue' hstep, hidle]
      rfl
    · have hstep : s0.fieldStep k f r0 r1 c0 c1 last = .ok s2 := by
        simp only [State.fieldStep]
        rw [show s0.moveRows _ _ _ _ _ _ _ _ _ = _ from hrows, Eff_bind_ok, if_pos hm]
        exact hcast
      rw [exec_fieldTile_due hk hlive hdue' hstep]
      rfl

/-! ### Result sets and drains (R121, R124, R125, R135, R142) -/

section
variable {c : Core} {e : Nat}

theorem swapSets_free {r : Result} (hactive : (c.engine e).active = some r) (hshadow : (c.engine e).shadow = none)
    (waited : Nat) : swapSets e waited c =
      { c.setEngine e { c.engine e with active := none, shadow := some r } with
        arr := { c.arr with drainWait := incBy c.arr.drainWait waited } } := by
  simp only [swapSets, hactive, hshadow]

theorem swapSets_taken {r : Result} (hshadow : (c.engine e).shadow = some r) (waited : Nat) : swapSets e waited c = c := by
  simp only [swapSets, hshadow]
  cases (c.engine e).active <;> rfl

end

theorem Core_runOf_setRun (c : Core) (r : Run) : (c.setRun r.id (some r)).runOf r.id = some r := by
  simp [Core.runOf, Core.setRun]

/-- A run that is open is not over. -/
theorem runOver_of_open {c : Core} {n : Nat} (h : ∃ x ∈ c.acc.opens, x.id = n) : c.runOver n = false := by
  obtain ⟨x, hx, hid⟩ := h
  have hany : c.acc.opens.any (fun x => x.id == n) = true := List.any_eq_true.2 ⟨x, hx, by simpa using hid⟩
  simp only [Core.runOver, hany, Bool.not_true, Bool.false_and]

section
variable {c : Core} {f : Flight} {e : Nat} {r : Result}

theorem drainInto_init (h : r.mode = 0) : c.drainInto f e r = .ok ((c.setRun r.run (some (r.carried r.outs))).setSlotEntry
    r.slot { c.slotEntry r.slot with tag := r.tag }) := by
  simp only [Core.drainInto, h]

theorem drainInto_add (h : r.mode = 1) {x : Run} (hx : c.runOf r.run = some x) : c.drainInto f e r =
    .ok ((c.setRun r.run (some (r.carried (addWords r.isFp x.sums r.outs)))).setSlotEntry r.slot
      { c.slotEntry r.slot with tag := (c.slotEntry r.slot).tag ||| r.tag }) := by
  simp only [Core.drainInto, h, Core.accBefore, hx, Eff_bind_ok]

/-- A drain into a run that stays open leaves the run's sums carried. -/
theorem drain_open {c1 : Core} (hinto : c.drainInto f e r = .ok c1) (hopen : ∃ x ∈ c1.acc.opens, x.id = r.run) :
    c.drain f e r = .ok (c1.setEngine e { c1.engine e with shadow := none }) := by
  have hover : (c1.setEngine e { c1.engine e with shadow := none }).runOver r.run = false := runOver_of_open hopen
  simp only [Core.drain, hinto, Eff_bind_ok, hover, Bool.and_false, Bool.false_eq_true, if_false]
  split <;> rfl

end

section
variable {s : State} {k e : Nat} {tm : Timing} {r : Result} {f : Flight}

/-- A result in the shadow set drains. -/
theorem exec_drain_shadow (hk : coreOk k = true) (he : engineOk e = true) (hlive : (s.core k).live = true)
    (hshadow : (((s.enter k tm).core k).engine e).shadow = some r)
    (hf : ((s.enter k tm).core k).q.flights.find? (fun g => g.id == r.flight) = some f) {c1 : Core}
    (hdrain : ((s.enter k tm).core k).drain f e r = .ok c1) :
    exec (.drain k ⟨e, tm⟩) s = .next (((s.enter k tm).setCore k c1).timed k none tm) := by
  have hlive0 : ((s.enter k tm).core k).live = true := by
    rw [State_enter_core]
    exact hlive
  have hdue : (s.core k).drainDue e = true := by
    have hsh : ((s.core k).engine e).shadow = some r := by
      rw [State_enter_core] at hshadow
      exact hshadow
    simp only [Core.drainDue, hlive, hsh, Option.isSome_some, Bool.true_or, Bool.and_true]
  refine answer_eq_next (by rw [hk, he]; rfl) ?_
  rw [State.drainStep, if_pos hdue]
  simp only [State.drainOn, hlive0, hshadow, hf, hdrain]
  rfl

end

/-- Settles O20: the two sets by what they hold, and a drain into a run that is open. -/
theorem resultSetsAndDrains : Obligations.ResultSetsAndDrains := by
  refine ⟨fun s k e waited hk he => ?_, fun s k e tm r f hk he hlive => ?_⟩
  · intro c g
    have hguard : (coreOk k && engineOk e) = true := by rw [hk, he]; rfl
    exact ⟨fun r hactive hshadow => answer_eq_next hguard (congrArg (s.setCore k) (swapSets_free hactive hshadow waited)),
      fun r hshadow => answer_eq_next hguard (congrArg (s.setCore k) (swapSets_taken hshadow waited))⟩
  · intro s0 c ent carry freed hshadow hf
    exact ⟨fun hopen hmode => exec_drain_shadow hk he hlive hshadow hf (drain_open (drainInto_init hmode) hopen),
      fun hopen hmode x hx => exec_drain_shadow hk he hlive hshadow hf (drain_open (drainInto_add hmode hx) hopen),
      fun c1 hdrain => exec_drain_shadow hk he hlive hshadow hf hdrain⟩

/-! ### Deposits land (R167, R172, R245) -/

/-- Line `i` of core `c`'s scratchpad from byte `a` on, with its tag. -/
def Core.lineFrom (c : Core) (a i : Nat) : List Byte × Nat := (c.spBytes (a + 64 * i) 64, c.lineTags (a + 64 * i) 64)

/-- The lines `j` to `j + n − 1` that `f` gives, with their numbers. -/
def numbered (f : Nat → List Byte × Nat) (j n : Nat) : List (Nat × List Byte × Nat) :=
  (List.range' j n).map (fun i => (i, f i))

theorem numbered_succ (f : Nat → List Byte × Nat) (j n : Nat) : numbered f j (n + 1) = (j, f j) :: numbered f (j + 1) n := by
  simp [numbered, List.range'_succ]

theorem linesFrom_clean {c : Core} {a : Nat} (n j : Nat) (h : ∀ i, j ≤ i → i < j + n → c.clean (a + 64 * i) 64) :
    c.linesFrom a n j = .ok (c, numbered (c.lineFrom a) j n) := by
  induction n generalizing j with
  | zero => rfl
  | succ n ih =>
    rw [numbered_succ, Core.linesFrom, spRead_clean (h j (by omega) (by omega)), Eff_bind_ok,
      ih (j + 1) (fun i hi hi' => h i (by omega) (by omega)), Eff_bind_ok]
    rfl

theorem spStore_slotsOnly (c : Core) (a : Nat) (b : List Byte) (tag : Option Nat) : c.slotsOnly (c.spStore a b tag) := rfl

theorem Core.slotsOnly.ctl {c c1 : Core} (h : c.slotsOnly c1) : c1.ctl = c.ctl := by
  unfold Core.slotsOnly at h
  rw [h]

theorem Core.slotsOnly.st {c c1 : Core} (h : c.slotsOnly c1) : c1.st = c.st := by
  unfold Core.slotsOnly at h
  rw [h]

/-- The lines written from byte `a` on hold what they were given, and no other byte is written. -/
theorem landLines_on {a : Nat} {f : Nat → List Byte × Nat} (hf : ∀ i, (f i).1.length = 64) (n j : Nat) (c : Core)
    (hfit : a + 64 * (j + n) ≤ 2097152) (hon : ∀ i, j ≤ i → i < j + n → ∀ m ∈ sheetsOf (a + 64 * i) 64, c.sheet m = .on) :
    ∃ c1, landLines a (numbered f j n) c = .ok c1 ∧ c.slotsOnly c1 ∧
      (∀ i, j ≤ i → i < j + n → ∀ b (hb : b < (f i).1.length), Mem.read c1.mem.spad (a + 64 * i + b) = (f i).1[b]) ∧
      (∀ x, x < a + 64 * j ∨ a + 64 * (j + n) ≤ x → Mem.read c1.mem.spad x = Mem.read c.mem.spad x) := by
  induction n generalizing j c with
  | zero => exact ⟨c, rfl, rfl, fun i hi hi' => absurd hi' (by omega), fun _ _ => rfl⟩
  | succ n ih =>
    have hlen := hf j
    have hwrite : c.spWrite 5 (a + 64 * j) (f j).1 (some (f j).2) = .ok (c.spStore (a + 64 * j) (f j).1 (some (f j).2)) :=
      spWrite_on (by omega) (by rw [hlen]; exact hon j (by omega) (by omega)) _ _
    obtain ⟨c1, hrun, hkeep, hin, hout⟩ := ih (j + 1) (c.spStore (a + 64 * j) (f j).1 (some (f j).2)) (by omega)
      (fun i hi hi' => hon i (by omega) (by omega))
    refine ⟨c1, ?_, (spStore_slotsOnly ..).trans hkeep, fun i hi hi' b hb => ?_, fun x hx => ?_⟩
    · rw [numbered_succ, landLines, hwrite, Eff_bind_ok, hrun]
    · by_cases hij : i = j
      · subst hij
        rw [hout _ (by omega), spStore_read_in _ _ _ hb]
      · exact hin i (by omega) (by omega) b hb
    · rw [hout x (by omega), spStore_read_out _ _ _ (by omega)]

/-- The lines land in the window of core `k`, and its counter steps. -/
theorem landAt_steps {s : State} {d : Deposit} {k : Nat} {v : Window} {c1 : Core} {lines : List (Nat × List Byte × Nat)}
    (hwin : (s.core k).window d.win = some v) (hlines : landLines ((v.base + d.off) * 64) lines (s.core k) = .ok c1)
    (hstep : d.stepCtr = true) (hlive : c1.live = true) (hctr : c1.ctr v.ctr < 65535) :
    s.landAt d lines k = some (s.setCore k (c1.setCtr v.ctr (c1.ctr v.ctr + 1))) := by
  simp only [State.landAt, hwin, hlines, hstep, if_true, State.depositStep]
  rw [signal_steps (by rw [State_core_setCore_same]; exact hlive) (by rw [State_core_setCore_same]; exact hctr),
    State_core_setCore_same, State_setCore_setCore]

theorem land_core {s : State} {d : Deposit} {j k fl a : Nat} (hsrc : d.src = .core j fl) (haddr : d.spAddr = some a)
    (hdests : d.dests = [k]) {c1 : Core} {lines : List (Nat × List Byte × Nat)}
    (hread : (s.core j).linesFrom a d.lines 0 = .ok (c1, lines)) {s1 : State}
    (hland : (s.setCore j c1).landAt d lines k = some s1) : s.land d = (s1.dropDeposit d.id).settle j := by
  simp only [State.land, hsrc, haddr, hread, hdests, landAll, hland, Option.bind_some]

theorem settle_deposits (s : State) (k : Nat) : (s.settle k).deposits = s.deposits := by
  simp only [State.settle]
  split
  · split
    · rfl
    · split <;> rfl
  · rfl

/-- What settling core `k` may change: the core's state and a counter. -/
theorem settle_core (s : State) (k : Nat) : ∃ st prog, (s.settle k).core k = { s.core k with st := st, prog := prog } := by
  simp only [State.settle]
  split
  · split
    · exact ⟨_, _, State_core_setCore_same ..⟩
    · split
      · exact ⟨_, _, State_core_setCore_same ..⟩
      · exact ⟨_, _, rfl⟩
  · exact ⟨_, _, rfl⟩

theorem settle_core_ne (s : State) {j k : Nat} (hj : j ≠ k) : (s.settle k).core j = s.core j := by
  simp only [State.settle]
  split
  · split
    · exact State_core_setCore_ne s _ hj
    · split
      · exact State_core_setCore_ne s _ hj
      · rfl
  · rfl

theorem timed_deposits (s : State) (k : Nat) (cls : Option Nat) (tm : Timing) : (s.timed k cls tm).deposits = s.deposits := by
  simp only [State.timed]
  generalize (if cls.isNone = true then [] else tm.meets) = met
  split
  · rfl
  · split <;> rfl

/-- A deposit's sender settles, with its accesses over: every core keeps its scratchpad and its counters. -/
theorem settled_timed_core (s : State) (j : Nat) (tm : Timing) (k : Nat) :
    (((s.settle j).timed j none tm).core k).mem.spad = (s.core k).mem.spad ∧
      (((s.settle j).timed j none tm).core k).ctl = (s.core k).ctl := by
  by_cases hk : k = j
  · subst hk
    obtain ⟨sp, prog, ht⟩ := State_timed_core (s.settle k) k none tm
    obtain ⟨st, prog', hs⟩ := settle_core s k
    rw [ht, hs]
    exact ⟨rfl, rfl⟩
  · rw [State_timed_core_ne _ hk, settle_core_ne _ hk]
    exact ⟨rfl, rfl⟩

theorem settled_timed_core_ne (s : State) {i j : Nat} (hi : i ≠ j) (tm : Timing) :
    ((s.settle j).timed j none tm).core i = s.core i := by
  rw [State_timed_core_ne _ hi, settle_core_ne _ hi]

theorem Core_ctr_setCtr (c : Core) {i : Nat} (hi : i < c.ctl.ctr.length) (v : Nat) : (c.setCtr i v).ctr i = v := by
  simp [Core.ctr, Core.setCtr, at', hi]

theorem State_dropDeposit_core (s : State) (id k : Nat) : (s.dropDeposit id).core k = s.core k := rfl

@[simp] theorem getElem_spBytes (c : Core) (a n : Nat) {i : Nat} (hi : i < (c.spBytes a n).length) :
    (c.spBytes a n)[i] = c.spByte (a + i) := getElem_tabulate _ hi

theorem exec_depositLand_due {s : State} {d : Deposit} {j fl : Nat} {tm : Timing}
    (hfind : s.deposits.find? (fun x => x.id == d.id && x.credited) = some d) (hpath : s.depositPath d = true)
    (hbefore : s.depositBefore d = false) (hsrc : d.src = .core j fl) :
    exec (.depositLand ⟨d.id, tm⟩) s = .next (((s.enter j tm).land d).timed j none tm) := by
  refine answer_eq_next rfl ?_
  simp only [hfind, hpath, hbefore, State.enterSender, State.leaveSender, hsrc, DepSrc.sender]
  rfl

/-! ### CREDIT_TIMEOUT and waking sheets (R155, R169) -/

section
variable {s : State} {d : Deposit} (hfind : s.deposits.find? (fun x => x.id == d.id && !x.credited) = some d)
include hfind

theorem exec_creditTimeout_uncounted (hcounts : s.depositCounts d = false) : exec (.creditTimeout d.id) s = .next s := by
  refine answer_eq_next rfl ?_
  simp only [hfind, hcounts]
  rfl

theorem exec_creditTimeout_core (hcounts : s.depositCounts d = true) {k fl : Nat} {f : Flight}
    (hsrc : d.src = .core k fl ∨ d.src = .multicast k fl)
    (hf : (s.core k).q.flights.find? (fun f => f.id == fl) = some f) : exec (.creditTimeout d.id) s =
      .next ((s.haltEntry k f.ent 0x09 (d.src.code * 2 ^ 28 + d.win * 2 ^ 25)).dropDeposit d.id) := by
  refine answer_eq_next rfl ?_
  rcases hsrc with hsrc | hsrc <;> simp only [hfind, hcounts, hsrc, State.haltFlight, hf] <;> rfl

theorem exec_creditTimeout_hub (hcounts : s.depositCounts d = true) {k q : Nat} (hsrc : d.src = .hub q) (hdests : d.dests = [k]) :
    exec (.creditTimeout d.id) s = .next ((s.haltDue k 0x09 (3 * 2 ^ 28 + d.win * 2 ^ 25)).dropDeposit d.id) := by
  refine answer_eq_next rfl ?_
  simp only [hfind, hcounts, hsrc, hdests]
  rfl

end

theorem at'_modAt {α : Type} (l : List α) {n : Nat} (hn : n < l.length) (f : α → α) (m : Nat) (d : α) :
    at' (modAt l n f) m d = if m = n then f (at' l m d) else at' l m d := by
  induction l generalizing n m with
  | nil => exact absurd hn (by simp)
  | cons x r ih =>
    cases n with
    | zero => cases m <;> simp [modAt, at']
    | succ n =>
      cases m with
      | zero => simp [modAt, at']
      | succ m =>
        have h := ih (n := n) (by simpa using hn) m
        simpa [modAt, at'] using h

theorem State_core_setCore_self (s : State) (j k : Nat) : (s.setCore j (s.core j)).core k = s.core k := by
  by_cases h : k = j
  · rw [h, State_core_setCore_same]
  · exact State_core_setCore_ne s _ h

/-- What the accesses that begin leave of any core. -/
theorem State_enter_keeps (s : State) (j : Nat) (tm : Timing) (k : Nat) : ∃ mem, (s.enter j tm).core k = { s.core k with
    mem := mem } ∧ mem.spad = (s.core k).mem.spad ∧ mem.sheets = (s.core k).mem.sheets := by
  by_cases h : k = j
  · rw [h, State_enter_core]
    exact ⟨_, rfl, rfl, rfl⟩
  · rw [State_enter_core_ne s h]
    exact ⟨_, rfl, rfl, rfl⟩

/-- Settles O21: what the lines read and write, the branches of the timeout, and the sheet. -/
theorem depositsAndSheets : Obligations.DepositsAndSheets := by
  refine ⟨fun s j k fl a tm d v hfind hpath hbefore hsrc haddr hdests hstep hwin ha hclean hfit hon hlive hctr hroom => ?_,
    fun s d k fl f hfind => ?_, fun s k n hk hn hlen => ?_⟩
  · obtain ⟨mem, hk, hspad, hsheets⟩ := State_enter_keeps s j tm k
    have hread := linesFrom_clean (c := (s.enter j tm).core j) (a := a) d.lines 0
      (fun i _ hi => hclean.sub (by omega) (by omega))
    have hself : ((s.enter j tm).setCore j ((s.enter j tm).core j)).core k = { s.core k with mem := mem } :=
      (State_core_setCore_self ..).trans hk
    obtain ⟨c1, hlines, hkeep, hin, hout⟩ := landLines_on (a := (v.base + d.off) * 64)
      (f := ((s.enter j tm).core j).lineFrom a) (fun i => length_spBytes ..) d.lines 0 { s.core k with mem := mem } (by omega)
      (fun i _ hi m hm => by
        rw [Core.sheet, hsheets]
        refine hon m ?_
        rw [mem_sheetsOf] at hm ⊢
        omega)
    have hctl : c1.ctl = (s.core k).ctl := hkeep.ctl
    have hc : c1.ctr v.ctr = (s.core k).ctr v.ctr := by rw [Core.ctr, hctl]; rfl
    have hland := landAt_steps (s := (s.enter j tm).setCore j ((s.enter j tm).core j)) (d := d) (k := k) (v := v) (c1 := c1)
      (by rw [hself]; exact hwin) (by rw [hself]; exact hlines) hstep
      (by rw [Core.live, hkeep.st]; exact hlive) (by rw [hc]; exact hroom)
    rw [exec_depositLand_due hfind hpath hbefore hsrc, land_core hsrc haddr hdests hread hland]
    refine ⟨_, rfl, fun b hb => ?_, fun x hx => ?_, ?_, fun x hx => ?_, fun i hik hij => ?_⟩
    · have hbyte := hin (b / 64) (by omega) (by omega) (b % 64) (by simp [Core.lineFrom]; omega)
      rw [(settled_timed_core ..).1, State_dropDeposit_core, State_core_setCore_same, Core_setCtr_mem]
      simp only [Core.lineFrom, getElem_spBytes] at hbyte
      rwa [Nat.add_assoc, Nat.add_assoc, Nat.div_add_mod] at hbyte
    · rw [(settled_timed_core ..).1, State_dropDeposit_core, State_core_setCore_same, Core_setCtr_mem, hout x (by omega), hspad]
    · rw [Core.ctr, (settled_timed_core ..).2, State_dropDeposit_core, State_core_setCore_same, hc]
      exact Core_ctr_setCtr c1 (by rw [hctl]; exact hctr) _
    · rw [timed_deposits, settle_deposits] at hx
      simpa using (List.mem_filter.1 hx).2
    · rw [settled_timed_core_ne _ hij, State_dropDeposit_core, State_core_setCore_ne _ _ hik, State_core_setCore_self,
        State_enter_core_ne s hij]
  · intro x
    exact ⟨exec_creditTimeout_uncounted hfind,
      fun hcounts hsrc hf => (exec_creditTimeout_core hfind hcounts (.inl hsrc) hf).trans (by rw [hsrc]; rfl),
      fun hcounts hsrc hf => (exec_creditTimeout_core hfind hcounts (.inr hsrc) hf).trans (by rw [hsrc]; rfl),
      fun hcounts hsrc hdests => exec_creditTimeout_hub hfind hcounts hsrc hdests⟩
  · refine ⟨_, answer_eq_next (by rw [hk]; simp [hn]) rfl, fun j hj => State_core_modCore_ne s _ hj, ?_, fun m => ?_⟩
    · rw [State_core_modCore_same]
      rfl
    · rw [State_core_modCore_same]
      refine (at'_modAt _ hlen _ m _).trans ?_
      by_cases hm : m = n
      · rw [if_pos hm]
        split <;> simp_all [Core.sheet]
      · rw [if_neg hm, if_neg (fun h => hm h.1)]
        rfl

end Sys2Proof.Machine
end

/-! ## The Fold: entries, ledger commits and the life of a frame (05, 06, 07, 11) -/

section
namespace Sys2Proof.Machine
open Sys2Proof

/-! ### Entries and ledger commits (R353, R359) -/

section
variable {s : State} {n : Nat} {e : Entry}

theorem entry?_cseq (h : s.entry? n = some e) : e.cseq = n := by simpa using List.find?_some h

/-- An entry reads as it was changed. -/
theorem entry?_modEntry (he : s.entry? n = some e) {f : Entry → Entry} (hf : (f e).cseq = e.cseq) :
    (s.modEntry n f).entry? n = some (f e) := by
  have hn := entry?_cseq he
  simp only [State.entry?, State.modEntry] at he ⊢
  generalize s.entries = l at he ⊢
  induction l with
  | nil => cases he
  | cons x l ih =>
    by_cases hx : x.cseq = n
    · rw [List.find?_cons_of_pos (by simpa using hx)] at he
      cases he
      rw [List.map_cons, if_pos (by simpa using hx), List.find?_cons_of_pos (by simpa using hf.trans hn)]
    · rw [List.find?_cons_of_neg (by simpa using hx)] at he
      rw [List.map_cons, if_neg (by simpa using hx), List.find?_cons_of_neg (by simpa using hx)]
      exact ih he

/-- No other entry is changed. -/
theorem entry?_modEntry_ne (s : State) {f : Entry → Entry} (hf : ∀ x, (f x).cseq = x.cseq) {m : Nat} (hm : m ≠ n) :
    (s.modEntry n f).entry? m = s.entry? m := by
  simp only [State.entry?, State.modEntry]
  generalize s.entries = l
  induction l with
  | nil => rfl
  | cons x l ih =>
    rw [List.map_cons, List.find?_cons, List.find?_cons, ih]
    by_cases hx : x.cseq = n
    · have hne : (x.cseq == m) = false := by simpa [hx] using Ne.symm hm
      rw [if_pos (by simpa using hx), hf, hne]
    · rw [if_neg (by simpa using hx)]

theorem entry?_of_entries {t : State} (h : t.entries = s.entries) (n : Nat) : t.entry? n = s.entry? n := by
  rw [State.entry?, State.entry?, h]

end

/-- `t` differs from `s` by what a ledger commit takes: commit numbers, the hubs' digests, and what the partner is sent. -/
def State.ledgered (s t : State) : Prop := t = { s with pkg := t.pkg, hubs := t.hubs, out := t.out, pair := t.pair }

theorem State.ledgered.trans {a b c : State} (hab : a.ledgered b) (hbc : b.ledgered c) : a.ledgered c := by
  unfold State.ledgered at *
  rw [hab] at hbc
  exact hbc

theorem State.ledgered.keeps {s t : State} (h : s.ledgered t) {β : Type} (g : State → β)
    (hg : ∀ pkg hubs out pair, g { s with pkg := pkg, hubs := hubs, out := out, pair := pair } = g s) : g t = g s := by
  unfold State.ledgered at h
  rw [h, hg]

theorem State.ledgered.entries {s t : State} (h : s.ledgered t) : t.entries = s.entries :=
  h.keeps State.entries (fun _ _ _ _ => rfl)

theorem sendPair_ledgered (s : State) (pop : Nat) (fields : List (Nat × Nat)) (data : List Byte) :
    s.ledgered (s.sendPair pop fields data) := by
  unfold State.sendPair
  split <;> rfl

/-- `s` once the commit `n` is given out and applied; the follower's commits have no number yet (R353). -/
def State.gaveOut (s : State) (n : Nat) : State :=
  if n = 0 then s else { s.applied n with pkg := { (s.applied n).pkg with cseqNext := n + 1 } }

theorem gaveOut_ledgered (s : State) (n : Nat) : s.ledgered (s.gaveOut n) := by
  unfold State.gaveOut
  split <;> rfl

/-- What the partner is told of the commit `n`, which is given out (R353, R432). -/
def State.told (s : State) (n : Nat) (e : Entry) (code : Nat) : State :=
  let r := recordOf n e code (s.stream e.stream)
  if !s.mirrors then s
  else if s.pair.st = .suspect ∧ code = 0 then
    { s.await n 0 e.stream e.incarn e.seq with
      pair := { (s.await n 0 e.stream e.incarn e.seq).pair with releases := s.pair.releases ++ [r] } }
  else (s.sendRecord r).await n 0 e.stream e.incarn e.seq

theorem told_ledgered (s : State) (n : Nat) (e : Entry) (code : Nat) : s.ledgered (s.told n e code) := by
  unfold State.told
  split
  · rfl
  · split
    · rfl
    · exact (sendPair_ledgered ..).trans rfl

theorem ledgerAs_eq (s : State) (e : Entry) (code : Nat) : s.ledgerAs e code =
    (s.gaveOut (if s.leads then s.pkg.cseqNext else 0)).told (if s.leads then s.pkg.cseqNext else 0) e code := rfl

theorem ledgerAs_ledgered (s : State) (e : Entry) (code : Nat) : s.ledgered (s.ledgerAs e code) :=
  (gaveOut_ledgered ..).trans (told_ledgered ..)

theorem ledger_ledgered (s : State) (e : Entry) : s.ledgered (s.ledger e) := ledgerAs_ledgered ..

section
variable {s : State} {n : Nat} {e : Entry} {f : Entry → Entry}

theorem commitEntry_of_entry (he : s.entry? n = some e) : s.commitEntry n f = (s.modEntry n f).ledger (f e) := by
  rw [State.commitEntry, he]

/-- A ledger commit changes its entry. -/
theorem entry?_commitEntry (he : s.entry? n = some e) (hf : (f e).cseq = e.cseq) : (s.commitEntry n f).entry? n = some (f e) := by
  rw [commitEntry_of_entry he, entry?_of_entries (ledger_ledgered ..).entries]
  exact entry?_modEntry he hf

/-- What a commit of an entry leaves: all but the entries and what a ledger commit takes. -/
theorem commitEntry_frame (s : State) (n : Nat) (f : Entry → Entry) : s.commitEntry n f = { s with
    entries := (s.commitEntry n f).entries, pkg := (s.commitEntry n f).pkg, hubs := (s.commitEntry n f).hubs,
    out := (s.commitEntry n f).out, pair := (s.commitEntry n f).pair } := by
  unfold State.commitEntry
  split
  · next e _ =>
    have h := ledger_ledgered (s.modEntry n f) (f e)
    rw [h.entries]
    exact h
  · rfl

end

/-! ### Cores of a frame -/

/-- Entries of a table that satisfy `P` changed by `g`. -/
theorem Tbl_get_map_if {α : Type} (t : Tbl α) (P : α → Bool) (g : α → α) (k : Nat) :
    Tbl.get (t.map (fun p => if P p.2 then (p.1, g p.2) else p)) k =
      (Tbl.get t k).map (fun c => if P c then g c else c) := by
  induction t with
  | nil => rfl
  | cons p r ih =>
    rw [List.map_cons]
    by_cases hp : P p.2 = true
    · rw [if_pos hp, Tbl_get_cons, Tbl_get_cons, ih]
      split <;> simp [hp]
    · rw [if_neg hp, Tbl_get_cons, Tbl_get_cons, ih]
      split <;> simp [hp]

theorem State_core_map_if (s : State) (P : Core → Bool) (g : Core → Core) (hfresh : P Core.fresh = false) (j : Nat) :
    ({ s with cores := s.cores.map (fun p => if P p.2 then (p.1, g p.2) else p) } : State).core j =
      if P (s.core j) then g (s.core j) else s.core j := by
  unfold State.core
  rw [Tbl_get_map_if]
  rcases Tbl.get s.cores j with _ | c
  · simp [hfresh]
  · simp

theorem Tbl_mem_set_ne {α : Type} (t : Tbl α) {k j : Nat} (v c : α) (hj : j ≠ k) : (j, c) ∈ Tbl.set t k v ↔ (j, c) ∈ t := by
  refine ⟨fun h => ?_, fun h => ?_⟩
  · rcases Tbl_mem_set t k v _ h with h | h
    · cases h
      exact absurd rfl hj
    · exact h
  · induction t with
    | nil => cases h
    | cons p r ih =>
      unfold Tbl.set
      split
      · exact List.mem_cons_of_mem _ h
      · split
        · next hp =>
          rcases List.mem_cons.1 h with h | h
          · subst h
            exact absurd hp.symm hj
          · exact List.mem_cons_of_mem _ h
        · rcases List.mem_cons.1 h with h | h
          · subst h
            exact List.mem_cons_self
          · exact List.mem_cons_of_mem _ (ih h)

theorem mem_coresOf {s : State} {q j : Nat} : j ∈ s.coresOf q ↔ ∃ c, (j, c) ∈ s.cores ∧ c.entry = some q := by
  simp [State.coresOf]

theorem mem_coresOf_setCore_ne {s : State} {q j k : Nat} (hj : j ≠ k) (c : Core) :
    j ∈ (s.setCore k c).coresOf q ↔ j ∈ s.coresOf q := by
  simp only [mem_coresOf, State.setCore, Tbl_mem_set_ne _ _ _ hj]

/-! ### FRAME_START (R179, R219) -/

theorem drewWakes_frame (t s : State) (k : Nat) :
    t.drewWakes s k = { t with pkg := { t.pkg with free := (t.drewWakes s k).pkg.free } } := by
  unfold State.drewWakes
  split <;> rfl

theorem drewWakes_core (t s : State) (k j : Nat) : (t.drewWakes s k).core j = t.core j := by
  rw [drewWakes_frame]
  rfl

theorem drewWakes_coresOf (t s : State) (k q : Nat) : (t.drewWakes s k).coresOf q = t.coresOf q := by
  rw [drewWakes_frame]
  rfl

theorem letRun_frame (s : State) (q : Nat) : s.letRun q = { s with cores := (s.letRun q).cores } := by
  unfold State.letRun
  split <;> rfl

/-- Every core of the frame runs. -/
theorem letRun_all {s : State} {q : Nat} (h : ∀ j ∈ s.coresOf q, (s.core j).st = .armed) (j : Nat) :
    (s.letRun q).core j = if (s.core j).entry = some q then { s.core j with st := .run } else s.core j := by
  have hall : (s.coresOf q).all (fun k => (s.core k).st == .armed) = true := by simpa using h
  rw [State.letRun, if_pos hall, State_core_map_if s (fun c => c.entry == some q) (fun c => { c with st := .run }) rfl]
  simp

/-- A core of the frame has not made its start steps. -/
theorem letRun_waits {s : State} {q j : Nat} (hj : j ∈ s.coresOf q) (hst : (s.core j).st ≠ .armed) : s.letRun q = s := by
  refine if_neg (fun hall => hst ?_)
  have h := List.all_eq_true.1 hall j hj
  simpa using h

/-- Either way a core keeps all but its state. -/
theorem letRun_core (s : State) (q j : Nat) : ∃ st, (s.letRun q).core j = { s.core j with st := st } := by
  by_cases h : ∀ j ∈ s.coresOf q, (s.core j).st = .armed
  · rw [letRun_all h]
    split <;> exact ⟨_, rfl⟩
  · obtain ⟨i, hi⟩ := Classical.not_forall.1 h
    obtain ⟨hi, hst⟩ := Classical.not_imp.1 hi
    rw [letRun_waits hi hst]
    exact ⟨_, rfl⟩

section
variable {s : State} {cseq k : Nat} {e : Entry} {b : RunBody} {r pi gr rank : Nat}

/-- Core `k` once it has made its start steps, in the frame of entry `e`. -/
def State.armed (s : State) (k rank : Nat) (e : Entry) (b : RunBody) : State :=
  (s.setCore k ((s.core k).startSteps (at' e.frame.cores rank (0, 0, 0)) rank b.input.length e.frame.footprint e.frame.rdwOld
    e.tenant s.pkg.free)).drewWakes s k

theorem exec_frameStart_due (hk : coreOk k = true) (he : s.entry? cseq = some e) (hop : e.op = .run b)
    (hrank : e.frame.cores.findIdx? (fun x => x.1 == k) = some rank) (hst : (s.core k).st = .starting)
    (hentry : (s.core k).entry = some cseq) : exec (.frameStart cseq k) s = .next ((s.armed k rank e b).letRun cseq) := by
  refine answer_eq_next hk ?_
  simp only [he, hop, hrank, hst, hentry, and_self, if_true]
  rfl

theorem armed_core_same (s : State) (k rank : Nat) (e : Entry) (b : RunBody) : (s.armed k rank e b).core k =
    (s.core k).startSteps (at' e.frame.cores rank (0, 0, 0)) rank b.input.length e.frame.footprint e.frame.rdwOld
      e.tenant s.pkg.free :=
  (drewWakes_core ..).trans (State_core_setCore_same ..)

theorem armed_core_ne (s : State) {j k : Nat} (hj : j ≠ k) (rank : Nat) (e : Entry) (b : RunBody) :
    (s.armed k rank e b).core j = s.core j :=
  (drewWakes_core ..).trans (State_core_setCore_ne s _ hj)

theorem mem_coresOf_armed_ne {q j : Nat} (hj : j ≠ k) : j ∈ (s.armed k rank e b).coresOf q ↔ j ∈ s.coresOf q := by
  rw [State.armed, drewWakes_coresOf, mem_coresOf_setCore_ne hj]

theorem startSteps_st (c : Core) (x : Nat × Nat × Nat) (rank ilen fp : Nat) (old : Bool) (tenant free : Nat) :
    (c.startSteps x rank ilen fp old tenant free).st = .armed := rfl

theorem footprint_entry (c : Core) (mask free : Nat) : (c.footprint mask free).entry = c.entry := rfl

theorem clearMasks_entry (c : Core) : c.clearMasks.entry = c.entry := rfl

theorem zeroUnits_entry (c : Core) : c.zeroUnits.entry = c.entry := rfl

theorem startSteps_entry (c : Core) (x : Nat × Nat × Nat) (rank ilen fp : Nat) (old : Bool) (tenant free : Nat) :
    (c.startSteps x rank ilen fp old tenant free).entry = c.entry := by
  simp only [Core.startSteps, clearMasks_entry, footprint_entry, apply_ite Core.entry, zeroUnits_entry, ite_self]

end

/-- What the start steps leave in the registers, windows, tile registers and masks of a core (R179, R219). -/
structure Core.Started (c : Core) (cseq rank pi gr ilen : Nat) : Prop where
  ctl : c.ctl = { CtlRegs.fresh with a := [word rank, word pi, word gr, word ilen] ++ List.replicate 12 0 }
  wins : c.wins = List.replicate 8 none
  treg : c.mem.treg = []
  rowTag : c.mem.rowTag = []
  acc : c.acc = CoreAcc.fresh
  q : c.q = CoreQ.fresh
  entry : c.entry = some cseq
  rowMask : c.mem.rowMask = BitVec.allOnes 64
  elemMask : c.mem.elemMask = BitVec.allOnes 512

theorem Core.Started.with_st {c : Core} {cseq rank pi gr ilen : Nat} (h : c.Started cseq rank pi gr ilen) (st : RunSt) :
    ({ c with st := st } : Core).Started cseq rank pi gr ilen :=
  ⟨h.ctl, h.wins, h.treg, h.rowTag, h.acc, h.q, h.entry, h.rowMask, h.elemMask⟩

theorem startSteps_started {c : Core} {cseq r pi gr : Nat} (h : c.entry = some cseq) (rank ilen fp : Nat) (old : Bool)
    (tenant free : Nat) : (c.startSteps (r, pi, gr) rank ilen fp old tenant free).Started cseq rank pi gr ilen := by
  refine ⟨rfl, rfl, rfl, rfl, rfl, rfl, ?_, rfl, rfl⟩
  rw [startSteps_entry, h]

/-- A core starts: its own start steps, and the run of every core once all have made them. -/
theorem frameStart_starts {s : State} {cseq k r pi gr rank : Nat} {e : Entry} {b : RunBody} (hk : coreOk k = true)
    (he : s.entry? cseq = some e) (hop : e.op = .run b) (hfind : e.frame.cores.findIdx? (fun x => x.1 == k) = some rank)
    (hrank : e.frame.cores[rank]? = some (r, pi, gr)) (hst : (s.core k).st = .starting) (hentry : (s.core k).entry = some cseq) :
    ∃ t, exec (.frameStart cseq k) s = .next t ∧
      t = { s with cores := t.cores, pkg := { s.pkg with free := t.pkg.free } } ∧
      (t.core k).Started cseq rank pi gr b.input.length ∧ (∀ j, j ≠ k → t.core j = { s.core j with st := (t.core j).st }) ∧
      ((∀ j ∈ s.coresOf cseq, j ≠ k → (s.core j).st = .armed) → ∀ j, (s.core j).entry = some cseq → (t.core j).st = .run) ∧
      (∀ j ∈ s.coresOf cseq, j ≠ k → (s.core j).st ≠ .armed →
        (t.core k).st = .armed ∧ ∀ i, i ≠ k → t.core i = s.core i) := by
  have hat : at' e.frame.cores rank (0, 0, 0) = (r, pi, gr) := by rw [at', hrank]; rfl
  have hstarted : ((s.armed k rank e b).core k).Started cseq rank pi gr b.input.length := by
    rw [armed_core_same, hat]
    exact startSteps_started hentry ..
  have harmed : ((s.armed k rank e b).core k).st = .armed := by rw [armed_core_same, startSteps_st]
  refine ⟨_, exec_frameStart_due hk he hop hfind hst hentry, ?_, ?_, fun j hj => ?_, fun hall j hj => ?_,
    fun j hj hjk hst' => ?_⟩
  · rw [letRun_frame, State.armed, drewWakes_frame]
    rfl
  · obtain ⟨st, hrun⟩ := letRun_core (s.armed k rank e b) cseq k
    rw [hrun]
    exact hstarted.with_st st
  · obtain ⟨st, hrun⟩ := letRun_core (s.armed k rank e b) cseq j
    rw [hrun, armed_core_ne s hj]
  · have hready : ∀ i ∈ (s.armed k rank e b).coresOf cseq, ((s.armed k rank e b).core i).st = .armed := by
      intro i hi
      by_cases hik : i = k
      · rw [hik, harmed]
      · rw [armed_core_ne s hik]
        exact hall i ((mem_coresOf_armed_ne hik).1 hi) hik
    have hin : ((s.armed k rank e b).core j).entry = some cseq := by
      by_cases hjk : j = k
      · rw [hjk, hstarted.entry]
      · rw [armed_core_ne s hjk, hj]
    rw [letRun_all hready, if_pos hin]
  · rw [letRun_waits ((mem_coresOf_armed_ne hjk).2 hj) (by rw [armed_core_ne s hjk]; exact hst')]
    exact ⟨harmed, fun i hi => armed_core_ne s hi rank e b⟩

/-! ### FRAME_BIND and INPUT_PARCEL_WRITTEN (R202, R317, R359, R363) -/

section
variable {s : State} {n : Nat} {e : Entry}

theorem giveRun_frame (s : State) (st a n : Nat) : s.giveRun st a n = { s with used := (s.giveRun st a n).used } := by
  unfold State.giveRun
  split <;> rfl

theorem giveRuns_frame (l : List (Nat × Nat × Nat)) (s : State) : l.foldl (fun s p => s.giveRun p.1 p.2.1 p.2.2) s =
    { s with used := (l.foldl (fun s p => s.giveRun p.1 p.2.1 p.2.2) s).used } := by
  induction l generalizing s with
  | nil => rfl
  | cons p l ih =>
    rw [List.foldl_cons, ih, giveRun_frame]

/-- The frame's cores are free and its WORK pages returned; its entry only loses the pages. -/
theorem entry?_clearFrame (he : s.entry? n = some e) : (s.clearFrame n).entry? n = some { e with frame :=
    { e.frame with pages := [] } } := by
  simp only [State.clearFrame, he]
  refine entry?_modEntry (e := e) ?_ rfl
  rw [giveRuns_frame]
  exact he

/-- An entry that is not complete yet, and has no reference, gets its outcome and no more. -/
theorem entry?_completeAs (he : s.entry? n = some e) (hst : e.st ≠ .complete ∧ e.st ≠ .sent) (hrefs : e.holdsRefs = false)
    (st : ResStatus) (wreason : Nat) (payload : List Byte) : (s.completeAs n st wreason payload).entry? n =
      some ({ e with frame := { e.frame with pages := [] } }.decided st wreason payload) := by
  have hopen : ¬ (e.st = .complete ∨ e.st = .sent) := fun h => h.elim hst.1 hst.2
  simp only [State.completeAs, he, if_neg hopen, hrefs, Bool.false_and, Bool.false_eq_true, if_false]
  exact entry?_modEntry (entry?_clearFrame he) rfl

theorem entry?_failBind (he : s.entry? n = some e) (hst : e.st = .admitted) (hepoch : e.epoch = none) (r : HaltRec) :
    ∃ e1, (s.failBind n r).entry? n = some e1 ∧ e1.st = .admitted ∧ e1.ended = true ∧ e1.status = .failed ∧ e1.payload = [] ∧
      e1.frame.halt = some r := by
  refine ⟨_, entry?_completeAs (entry?_modEntry he rfl) ?_ ?_ _ _ _, hst, rfl, rfl, rfl, rfl⟩
  · rw [hst]
    exact ⟨nofun, nofun⟩
  · simp [Entry.holdsRefs, hepoch]

/-- A frame that is bound and has its input is READY; nothing but its entry and a ledger commit follows. -/
theorem makeReady_entry (he : s.entry? n = some e) (hst : e.st = .admitted) : (s.makeReady n).entry? n =
    some (if e.inputOk ∧ e.epoch.isSome ∧ e.ended = false ∧ s.runsHere e then { e with st := .ready } else e) := by
  simp only [State.makeReady, he, hst, true_and]
  by_cases h : e.inputOk = true ∧ e.epoch.isSome = true ∧ e.ended = false ∧ s.runsHere e = true
  · rw [if_pos (by simpa using h), if_pos h]
    exact entry?_commitEntry he rfl
  · rw [if_neg (by simpa using h), if_neg h, he]

theorem makeReady_frame (s : State) (n : Nat) : s.makeReady n = { s with
    entries := (s.makeReady n).entries, pkg := (s.makeReady n).pkg, hubs := (s.makeReady n).hubs,
    out := (s.makeReady n).out, pair := (s.makeReady n).pair } := by
  unfold State.makeReady
  split
  · split
    · exact commitEntry_frame ..
    · rfl
  · rfl

theorem exec_frameBind_due {b : RunBody} (he : s.entry? n = some e) (hop : e.op = .run b) (hst : e.st = .admitted)
    (hepoch : e.epoch = none) (hacked : e.acked = true) (hended : e.ended = false) (hruns : s.runsHere e = true)
    (hcancel : s.cancelDue e = false) : exec (.frameBind n) s = .next (s.bindFrame e b) := by
  refine answer_eq_next rfl ?_
  simp only [he, hop, hst, hepoch, hacked, hended, hruns, hcancel]
  rfl

/-- What the entry of a frame has once it is bound. -/
def Entry.bound (e : Entry) (s : State) (b : RunBody) (h : Word128) (prog : List MInstr) (rs : List (Nat × Nat × Nat)) : Entry :=
  { e with
    epoch := some s.pkg.epoch
    frame := { e.frame with
      prog := prog, footprint := hdrFootprint h, rdwOld := hdrRdwOld h, places := b.placements
      cores := frameCores (s.placesAt b.placements s.pkg.epoch), rs := rs } }

section
variable {b : RunBody} {h : Word128} {prog : List MInstr} (htrans : translate false b.image = .ok (h, prog))
include htrans

theorem bindFrame_binds (hfault : s.bindFault b.placements e.tenant s.pkg.epoch = none) {rs : List (Nat × Nat × Nat)}
    (hroom : s.programRuns (ceilDiv b.image.length 64) (coreDies (frameCores (s.placesAt b.placements s.pkg.epoch))) = some rs) :
    s.bindFrame e b = ((s.modRefs e.tenant s.pkg.epoch (fun n => n + 1)).modEntry e.cseq
      (fun x => x.bound s b h prog rs)).makeReady e.cseq := by
  simp only [State.bindFrame, htrans, hfault, hroom]
  rfl

theorem bindFrame_waits (hfault : s.bindFault b.placements e.tenant s.pkg.epoch = none)
    (hroom : s.programRuns (ceilDiv b.image.length 64) (coreDies (frameCores (s.placesAt b.placements s.pkg.epoch))) = none) :
    s.bindFrame e b = s := by
  simp only [State.bindFrame, htrans, hfault, hroom]

theorem bindFrame_denied {r d : Nat} (hfault : s.bindFault b.placements e.tenant s.pkg.epoch = some (r, d)) :
    s.bindFrame e b = s.failBind e.cseq (bindRecord 0 r d) := by
  simp only [State.bindFrame, htrans, hfault]

end

theorem bindFrame_bad {b : RunBody} {i r d : Nat} (htrans : translate false b.image = .error (i, r, d)) :
    s.bindFrame e b = s.failBind e.cseq (bindRecord i r d) := by
  simp only [State.bindFrame, htrans]

/-- The second part of O22: binding. -/
theorem frameBind_binds {b : RunBody} (he : s.entry? n = some e) (hst : e.st = .admitted) (hended : e.ended = false)
    (hruns : s.runsHere e = true) (h : Word128) (prog : List MInstr) (rs : List (Nat × Nat × Nat)) :
    let t := ((s.modRefs e.tenant s.pkg.epoch (fun n => n + 1)).modEntry n (fun x => x.bound s b h prog rs)).makeReady n
    (∃ e1, t.entry? n = some e1 ∧ e1.epoch = some s.pkg.epoch ∧ e1.frame.prog = prog ∧ e1.frame.footprint = hdrFootprint h ∧
      e1.frame.places = b.placements ∧ e1.frame.cores = frameCores (s.placesAt b.placements s.pkg.epoch) ∧ e1.frame.rs = rs ∧
      e1.st = (if e.inputOk then .ready else .admitted)) ∧
      t.routines = (s.modRefs e.tenant s.pkg.epoch (fun n => n + 1)).routines ∧ t.cores = s.cores := by
  intro t
  have hframe : t = _ := makeReady_frame _ n
  refine ⟨⟨_, makeReady_entry (entry?_modEntry (s := s.modRefs e.tenant s.pkg.epoch (fun n => n + 1)) he rfl) hst, ?_⟩,
    by rw [hframe]; rfl, by rw [hframe]; rfl⟩
  have hready : ((e.bound s b h prog rs).inputOk = true ∧ (e.bound s b h prog rs).epoch.isSome = true ∧
      (e.bound s b h prog rs).ended = false ∧ ((s.modRefs e.tenant s.pkg.epoch (fun n => n + 1)).modEntry n
        (fun x => x.bound s b h prog rs)).runsHere (e.bound s b h prog rs) = true) ↔ e.inputOk = true :=
    ⟨fun x => x.1, fun x => ⟨x, rfl, hended, hruns⟩⟩
  simp only [hready]
  split
  · exact ⟨rfl, rfl, rfl, rfl, rfl, rfl, rfl⟩
  · exact ⟨rfl, rfl, rfl, rfl, rfl, rfl, hst⟩

end

theorem inputParcelWritten_stored {s : State} {n : Nat} {e : Entry} (he : s.entry? n = some e) (hst : e.st = .admitted)
    (hacked : e.acked = true) : ∃ t e1, exec (.inputParcelWritten n) s = .next t ∧ t.entry? n = some e1 ∧ e1.inputOk = true ∧
      e1.st = (if e.epoch.isSome ∧ s.runsHere e = true ∧ e.ended = false then .ready else .admitted) ∧
      t.cores = s.cores ∧ t.deposits = s.deposits := by
  have hentry : ((s.modEntry n (fun e => { e with inputOk := true })).wakeStacks [e.ipar.stack, e.ipar.mirror]).entry? n =
      some { e with inputOk := true } := entry?_modEntry he rfl
  have hframe := makeReady_frame ((s.modEntry n (fun e => { e with inputOk := true })).wakeStacks [e.ipar.stack, e.ipar.mirror]) n
  refine ⟨_, _, answer_eq_next rfl ?_, makeReady_entry hentry hst, ?_, ?_, by rw [hframe]; rfl, by rw [hframe]; rfl⟩
  · simp only [he, hst, hacked, and_self, if_true]
  · split <;> rfl
  · have hready : (({ e with inputOk := true } : Entry).inputOk = true ∧ e.epoch.isSome = true ∧ e.ended = false ∧
        ((s.modEntry n (fun e => { e with inputOk := true })).wakeStacks [e.ipar.stack, e.ipar.mirror]).runsHere
          { e with inputOk := true } = true) ↔ (e.epoch.isSome = true ∧ s.runsHere e = true ∧ e.ended = false) :=
      ⟨fun ⟨_, ha, hb, hc⟩ => ⟨ha, hc, hb⟩, fun ⟨ha, hb, hc⟩ => ⟨rfl, ha, hc, hb⟩⟩
    by_cases hc : e.epoch.isSome = true ∧ s.runsHere e = true ∧ e.ended = false
    · rw [if_pos hc]
      exact congrArg Entry.st (if_pos (hready.2 hc))
    · rw [if_neg hc]
      exact (congrArg Entry.st (if_neg (mt hready.1 hc))).trans hst

theorem inputParcelWritten_waits {s : State} {n : Nat} {e : Entry} (he : s.entry? n = some e) (hacked : e.acked = false) :
    exec (.inputParcelWritten n) s = .next s := by
  refine answer_eq_next rfl ?_
  simp [he, hacked]

/-! ### HUB_INPUT_DELIVERY (R361) -/

section
variable {s : State} {k : Nat} {d : Deposit}

/-- A deposit that the window can take stays when the window is examined again. -/
theorem recheck_one (h : ∀ v, (s.core k).window d.win = some v → d.off + d.lines ≤ v.lines) : recheck k [d] s = s := by
  simp only [recheck]
  split
  · split
    · next v hv => exact if_neg (Nat.not_lt.2 (h v hv))
    · rfl
  · rfl

/-- The only deposit, of a hub, consumes the credit that it finds. -/
theorem tryCredit_one {q : Nat} (hdep : s.deposits = [d]) (hsrc : d.src = .hub q) (hdests : d.dests = [k])
    (hnew : d.credited = false) : s.tryCredit = (if s.hasCredit k d.win d.lines then
      { s.takeCredit k d.win d.lines with deposits := [{ d with credited := true }] } else { s with deposits := [d] }) := by
  simp only [State.tryCredit, hdep, creditWalk, hsrc, hnew, hdests, List.any_nil, Bool.or_self, Bool.false_or, List.all_cons,
    List.all_nil, Bool.and_true, List.foldl_cons, List.foldl_nil]
  cases s.hasCredit k d.win d.lines <;> rfl

theorem takeCredit_core_ne (s : State) {j k : Nat} (hj : j ≠ k) (w n : Nat) : (s.takeCredit k w n).core j = s.core j :=
  State_core_modCore_ne s _ hj

theorem takeCredit_window {w n : Nat} {v : Window} (hv : (s.core k).window w = some v) :
    ((s.takeCredit k w n).core k).window w = some { v with credit := v.credit - n } := by
  have hlen : w < (s.core k).wins.length := by
    refine Classical.byContradiction fun hout => ?_
    rw [Core.window, at', List.getElem?_eq_none (Nat.not_lt.1 hout)] at hv
    cases hv
  rw [State.takeCredit, State_core_modCore_same, hv]
  simp [Core.window, Core.setWindow, at', hlen]

end

theorem hubInputDelivery_deposits {s : State} {n k : Nat} {e : Entry} {b : RunBody} (he : s.entry? n = some e)
    (hop : e.op = .run b) (hst : e.st = .running) (hnew : e.frame.delivered = false) (hlines : b.dlines ≠ 0)
    (hstarted : ∀ k ∈ s.coresOf n, (s.core k).st ≠ .starting ∧ (s.core k).st ≠ .armed) (hk : e.entryCore = some k)
    (hdep : s.deposits = []) (hfit : ∀ v, (s.core k).window 0 = some v → b.dlines ≤ v.lines) :
    ∃ t e1, exec (.hubInputDelivery n) s = .next t ∧ t.entry? n = some e1 ∧ e1.frame.delivered = true ∧
      t.deposits = [⟨s.nextDep, .hub n, [k], 0, 0, b.dlines, none, inputLines b.input b.dlines, s.hasCredit k 0 b.dlines, true⟩] ∧
      t.nextDep = s.nextDep + 1 ∧
      (∀ v, (s.core k).window 0 = some v → b.dlines ≤ v.credit →
        (t.core k).window 0 = some { v with credit := v.credit - b.dlines }) ∧
      (∀ j, j ≠ k → t.core j = s.core j) := by
  have hcs := entry?_cseq he
  have hstart : (s.coresOf n).all (fun k => (s.core k).st != .starting && (s.core k).st != .armed) = true := by
    simpa using hstarted
  let d : Deposit := ⟨s.nextDep, .hub n, [k], 0, 0, b.dlines, none, inputLines b.input b.dlines, false, true⟩
  let s2 : State := { s.modEntry n (fun x => { x with frame := { x.frame with delivered := true } }) with
    deposits := [d], nextDep := s.nextDep + 1 }
  have hexec : exec (.hubInputDelivery n) s = .next ((s2.tryCredit).wakeStacks [e.ipar.stack]) := by
    refine answer_eq_next rfl ?_
    have hrecheck : recheck k [d] s2 = s2 := recheck_one (fun v hv => by
      rw [show d.off + d.lines = b.dlines from Nat.zero_add _]
      exact hfit v hv)
    simp only [he, hop, hst, hnew, hstart, hlines, State.deliverInput, hk, State.addDeposit, hcs, ne_eq, not_false_eq_true,
      Bool.not_false, and_self, if_true]
    rw [show (s.modEntry n fun x => { x with frame := { x.frame with delivered := true } }).deposits = [] from hdep]
    exact congrArg (fun x => (State.tryCredit x).wakeStacks [e.ipar.stack]) hrecheck
  have hwalk : s2.tryCredit = if s.hasCredit k 0 b.dlines then
      { s2.takeCredit k 0 b.dlines with deposits := [{ d with credited := true }] } else { s2 with deposits := [d] } :=
    tryCredit_one (s := s2) (k := k) (d := d) (q := n) rfl rfl rfl rfl
  have hentry : s2.entry? n = some { e with frame := { e.frame with delivered := true } } := entry?_modEntry he rfl
  rw [hexec, hwalk]
  cases hcredit : s.hasCredit k 0 b.dlines with
  | false =>
    refine ⟨_, _, rfl, hentry, rfl, rfl, rfl, fun v hv hroom => ?_, fun j _ => rfl⟩
    simp [State.hasCredit, hv, hroom] at hcredit
  | true =>
    exact ⟨_, _, rfl, hentry, rfl, rfl, rfl, fun v hv _ => takeCredit_window (s := s2) hv,
      fun j hj => takeCredit_core_ne s2 hj _ _⟩

/-! ### HALT_RECORD and STOP_TIMEOUT (R247, R248, R251) -/

theorem lowestRank_mem {l : List HaltRec} {x : HaltRec} (h : lowestRank l = some x) : x ∈ l ∧ ∀ y ∈ l, x.rank ≤ y.rank := by
  induction l generalizing x with
  | nil => cases h
  | cons r l ih =>
    rw [lowestRank] at h
    split at h
    · next y hy =>
      obtain ⟨hin, hmin⟩ := ih hy
      split at h <;> cases h
      · next hlt =>
        refine ⟨List.mem_cons_of_mem _ hin, fun z hz => ?_⟩
        rcases List.mem_cons.1 hz with rfl | hz
        · omega
        · exact hmin z hz
      · next hge =>
        refine ⟨List.mem_cons_self, fun z hz => ?_⟩
        rcases List.mem_cons.1 hz with rfl | hz
        · exact Nat.le_refl _
        · have := hmin z hz
          omega
    · next hnone =>
      cases h
      refine ⟨List.mem_cons_self, fun z hz => ?_⟩
      rcases List.mem_cons.1 hz with rfl | hz
      · exact Nat.le_refl _
      · cases l with
        | nil => cases hz
        | cons y l =>
          rw [lowestRank] at hnone
          split at hnone
          · split at hnone <;> cases hnone
          · cases hnone

theorem lowestRank_cons_some (r : HaltRec) (l : List HaltRec) : ∃ x, lowestRank (r :: l) = some x := by
  rw [lowestRank]
  split
  · split <;> exact ⟨_, rfl⟩
  · exact ⟨_, rfl⟩

/-- The record of core `j` is taken, with the diagnosis that it begins. -/
def State.takeHalt (s : State) (j : Nat) : State :=
  (s.modCore j (fun c => { c with haltRec := none })).doubtCore j (((s.core j).haltRec.map (·.reason)).getD 0)

theorem doubtCore_frame (s : State) (k reason : Nat) : s.doubtCore k reason = { s with
    cores := (s.doubtCore k reason).cores, flt := (s.doubtCore k reason).flt, pkg := (s.doubtCore k reason).pkg } := by
  unfold State.doubtCore
  split
  · split <;> rfl
  · rfl

theorem doubtCore_core_ne (s : State) {j k : Nat} (hj : j ≠ k) (reason : Nat) : (s.doubtCore k reason).core j = s.core j := by
  unfold State.doubtCore
  split
  · split
    · rfl
    · exact State_core_modCore_ne _ _ hj
  · rfl

theorem doubtCore_core (s : State) (k reason : Nat) : ∃ b, (s.doubtCore k reason).core k = { s.core k with diag := b } := by
  unfold State.doubtCore
  split
  · split
    · exact ⟨_, rfl⟩
    · exact ⟨true, State_core_modCore_same ..⟩
  · exact ⟨_, rfl⟩

theorem takeHalt_core_ne (s : State) {i j : Nat} (hi : i ≠ j) : (s.takeHalt j).core i = s.core i :=
  (doubtCore_core_ne _ hi _).trans (State_core_modCore_ne s _ hi)

theorem takeHalt_core (s : State) (j : Nat) : ∃ b, (s.takeHalt j).core j = { s.core j with haltRec := none, diag := b } := by
  obtain ⟨b, hb⟩ := doubtCore_core (s.modCore j (fun c => { c with haltRec := none })) j
    (((s.core j).haltRec.map (·.reason)).getD 0)
  exact ⟨b, hb.trans (by rw [State_core_modCore_same])⟩

/-- Records taken one after the other: of their cores, and of no other, the record is gone. -/
theorem takeHalts_core (l : List Nat) (s : State) (i : Nat) :
    ((l.foldl State.takeHalt s).core i).entry = (s.core i).entry ∧ ((l.foldl State.takeHalt s).core i).live = (s.core i).live ∧
      (i ∈ l ∨ (s.core i).haltRec = none → ((l.foldl State.takeHalt s).core i).haltRec = none) ∧
      (i ∉ l → (l.foldl State.takeHalt s).core i = s.core i) := by
  induction l generalizing s with
  | nil => exact ⟨rfl, rfl, fun h => h.resolve_left nofun, fun _ => rfl⟩
  | cons j l ih =>
    obtain ⟨hentry, hlive, hrec, hother⟩ := ih (s.takeHalt j)
    rw [List.foldl_cons]
    by_cases hij : i = j
    · subst hij
      obtain ⟨b, hb⟩ := takeHalt_core s i
      rw [hb] at hentry hlive hrec
      exact ⟨hentry, hlive, fun _ => hrec (.inr rfl), fun hn => absurd List.mem_cons_self hn⟩
    · rw [takeHalt_core_ne s hij] at hentry hlive hrec hother
      refine ⟨hentry, hlive, fun h => hrec (h.imp_left fun h => (List.mem_cons.1 h).resolve_left hij), fun h => ?_⟩
      exact hother fun h' => h (List.mem_cons_of_mem _ h')

theorem takeHalts_frame (l : List Nat) (s : State) : l.foldl State.takeHalt s = { s with
    cores := (l.foldl State.takeHalt s).cores, flt := (l.foldl State.takeHalt s).flt,
    pkg := (l.foldl State.takeHalt s).pkg } := by
  induction l generalizing s with
  | nil => rfl
  | cons j l ih =>
    rw [List.foldl_cons, ih]
    have h := doubtCore_frame (s.modCore j (fun c => { c with haltRec := none })) j (((s.core j).haltRec.map (·.reason)).getD 0)
    rw [State.takeHalt, h]
    rfl

/-- The other cores of frame `q` among `same` whose records reach the hub in the cycle of core `k`'s. -/
def State.haltMates (s : State) (k q : Nat) (same : List Nat) : List Nat :=
  (same.filter (fun j => j != k && (s.core j).entry == some q && (s.core j).haltRec.isSome)).eraseDups

theorem mem_haltMates {s : State} {k q j : Nat} {same : List Nat} : j ∈ s.haltMates k q same ↔
    j ∈ same ∧ j ≠ k ∧ (s.core j).entry = some q ∧ (s.core j).haltRec.isSome = true := by
  simp [State.haltMates, and_assoc]

/-- The records that reach the hub in the cycle of the record `r` of core `k`. -/
def State.haltRecs (s : State) (k q : Nat) (r : HaltRec) (same : List Nat) : List HaltRec :=
  r :: (s.haltMates k q same).filterMap (fun j => (s.core j).haltRec)

/-- The record that decides the end of a frame: the first to arrive. -/
def Entry.takeHalt (e : Entry) (rs : List HaltRec) : Entry :=
  { e with frame := { e.frame with
      halt := match e.frame.halt with
        | some x => some x
        | none => lowestRank rs } }

/-- `s` once the records of a frame's cores are taken and its entry has the deciding one. -/
def State.haltTaken (s : State) (k q : Nat) (r : HaltRec) (same : List Nat) : State :=
  ((k :: s.haltMates k q same).foldl State.takeHalt s).modEntry q (fun e => e.takeHalt (s.haltRecs k q r same))

/-- The deposits that a frame on the cores `ks` neither sent nor awaits. -/
def keepsOf (ks : List Nat) (l : List Deposit) : List Deposit :=
  l.filter (fun d => !(ks.any (fun j => sentBy j d) || d.dests.any (fun j => ks.contains j)))

section
variable {s : State} {k q : Nat} {r : HaltRec}

theorem haltRecord_eq (hrec : (s.core k).haltRec = some r) (hentry : (s.core k).entry = some q) (same : List Nat) :
    s.haltRecord k same = { s.haltTaken k q r same with
      cores := (s.haltTaken k q r same).cores.map (fun p => if p.2.entry == some q then (p.1, hubStop p.2) else p)
      deposits := keepsOf (s.coresOf q) (s.haltTaken k q r same).deposits } := by
  simp only [State.haltRecord, hrec, hentry]
  rfl

theorem haltRecord_core (hrec : (s.core k).haltRec = some r) (hentry : (s.core k).entry = some q) (same : List Nat) (j : Nat) :
    (s.haltRecord k same).core j = if (s.core j).entry = some q
      then hubStop (((k :: s.haltMates k q same).foldl State.takeHalt s).core j) else s.core j := by
  obtain ⟨hkeep, -, -, hother⟩ := takeHalts_core (k :: s.haltMates k q same) s j
  have hmap := State_core_map_if (s.haltTaken k q r same) (fun c => c.entry == some q) hubStop rfl j
  rw [haltRecord_eq hrec hentry]
  refine hmap.trans ?_
  have hcore : (s.haltTaken k q r same).core j = ((k :: s.haltMates k q same).foldl State.takeHalt s).core j := rfl
  rw [hcore, hkeep]
  by_cases hj : (s.core j).entry = some q
  · rw [if_pos (by simpa using hj), if_pos hj]
  · rw [if_neg (by simpa using hj), if_neg hj]
    refine hother fun hin => hj ?_
    rcases List.mem_cons.1 hin with rfl | hin
    · exact hentry
    · exact (mem_haltMates.1 hin).2.2.1

theorem hubStop_live (c : Core) : (hubStop c).live = false := by
  unfold hubStop
  split
  · rfl
  · next h => simpa using h

theorem hubStop_haltRec (c : Core) : (hubStop c).haltRec = c.haltRec := by
  unfold hubStop
  split <;> rfl

theorem haltRecord_entry (hrec : (s.core k).haltRec = some r) (hentry : (s.core k).entry = some q) (same : List Nat) {e : Entry}
    (he : s.entry? q = some e) : (s.haltRecord k same).entry? q = some (e.takeHalt (s.haltRecs k q r same)) := by
  rw [haltRecord_eq hrec hentry]
  refine entry?_modEntry (f := fun e => e.takeHalt (s.haltRecs k q r same)) ?_ rfl
  rw [takeHalts_frame]
  exact he

theorem haltRecord_entry_ne (hrec : (s.core k).haltRec = some r) (hentry : (s.core k).entry = some q) (same : List Nat) {n : Nat}
    (hn : n ≠ q) : (s.haltRecord k same).entry? n = s.entry? n := by
  rw [haltRecord_eq hrec hentry]
  refine (entry?_modEntry_ne ((k :: s.haltMates k q same).foldl State.takeHalt s)
    (f := fun e => e.takeHalt (s.haltRecs k q r same)) (fun _ => rfl) hn).trans ?_
  rw [takeHalts_frame]
  rfl

theorem haltRecord_frame (hrec : (s.core k).haltRec = some r) (hentry : (s.core k).entry = some q) (same : List Nat) :
    s.haltRecord k same = { s with
      cores := (s.haltRecord k same).cores, entries := (s.haltRecord k same).entries,
      deposits := (s.haltRecord k same).deposits, flt := (s.haltRecord k same).flt, pkg := (s.haltRecord k same).pkg } := by
  rw [haltRecord_eq hrec hentry, State.haltTaken, takeHalts_frame]
  rfl

/-- Every record that arrives is among those of which the lowest rank decides. -/
theorem mem_haltRecs {same : List Nat} (x : HaltRec) : x ∈ s.haltRecs k q r same ↔
    x ∈ r :: (same.filter (fun j => j != k && (s.core j).entry == some q)).filterMap (fun j => (s.core j).haltRec) := by
  simp only [State.haltRecs, List.mem_cons, List.mem_filterMap, mem_haltMates, List.mem_filter, Bool.and_eq_true, bne_iff_ne,
    beq_iff_eq]
  refine or_congr Iff.rfl (exists_congr fun j => ?_)
  constructor
  · rintro ⟨⟨hin, hne, hent, -⟩, hx⟩
    exact ⟨⟨hin, hne, hent⟩, hx⟩
  · rintro ⟨⟨hin, hne, hent⟩, hx⟩
    exact ⟨⟨hin, hne, hent, by rw [hx]; rfl⟩, hx⟩

end

/-- What the stop of a frame's cores leaves of a core: stopped, with nothing waiting or started. -/
theorem stopHere_stopped (c : Core) : (stopHere c).st = .stopped ∧ (stopHere c).q.flights = [] ∧ (stopHere c).queue 1 = [] ∧
    (stopHere c).queue 2 = [] ∧ (stopHere c).queue 3 = [] ∧ (stopHere c).queue 4 = [] := ⟨rfl, rfl, rfl, rfl, rfl, rfl⟩

/-- Cores changed one after the other: a core of the list has the change behind it, another one is as it was. -/
theorem modCores_core (f : Core → Core) (l : List Nat) (s : State) (k : Nat) :
    (k ∈ l → ∃ c, (l.foldl (fun s k => s.modCore k f) s).core k = f c) ∧
      (k ∉ l → (l.foldl (fun s k => s.modCore k f) s).core k = s.core k) := by
  induction l generalizing s with
  | nil => exact ⟨nofun, fun _ => rfl⟩
  | cons j l ih =>
    obtain ⟨hin, hout⟩ := ih (s.modCore j f)
    rw [List.foldl_cons]
    refine ⟨fun hk => ?_, fun hk => ?_⟩
    · by_cases hl : k ∈ l
      · exact hin hl
      · rw [hout hl, (List.mem_cons.1 hk).resolve_right hl, State_core_modCore_same]
        exact ⟨_, rfl⟩
    · rw [hout (fun h => hk (List.mem_cons_of_mem _ h)), State_core_modCore_ne _ _ (by rintro rfl; exact hk List.mem_cons_self)]

theorem modCores_frame (f : Core → Core) (l : List Nat) (s : State) : l.foldl (fun s k => s.modCore k f) s =
    { s with cores := (l.foldl (fun s k => s.modCore k f) s).cores } := by
  induction l generalizing s with
  | nil => rfl
  | cons j l ih =>
    rw [List.foldl_cons, ih]
    rfl

/-- Settles O22: the start steps, binding, the input, and the records of halts. -/
theorem framesBeginAndStop : Obligations.FramesBeginAndStop := by
  refine ⟨fun s cseq k r pi gr rank e b hk he hop hfind hrank hst hentry => ?start,
    fun s cseq e b he hop hst hepoch hacked hended hruns hcancel => ?bind,
    fun s cseq e b he hop => ⟨inputParcelWritten_stored he, fun _ hacked => inputParcelWritten_waits he hacked,
      fun hst hnew hlines hstarted k hk hdep hfit => hubInputDelivery_deposits he hop hst hnew hlines hstarted hk hdep hfit⟩,
    fun s k cseq same r e hk hsame hrec hentry he => ?halts, fun s cseq e he hst hstopped => ?stops⟩
  case start =>
    obtain ⟨t, hexec, hframe, ⟨hctl, hwins, htreg, hrow, hacc, hq, hent, hrm, hem⟩, hother, hrun, hwait⟩ :=
      frameStart_starts hk he hop hfind hrank hst hentry
    exact ⟨t, hexec, hframe, hctl, hwins, htreg, hrow, hacc, hq, hent, hrm, hem, hother, hrun, hwait⟩
  case bind =>
    have hexec := exec_frameBind_due he hop hst hepoch hacked hended hruns hcancel
    have hcs := entry?_cseq he
    refine ⟨fun h prog htrans hfault => ⟨fun rs hroom => ?_, fun hroom => ?_⟩, fun i r d htrans => ?_,
      fun h prog r d htrans hfault => ?_⟩
    · obtain ⟨⟨e1, he1, hep, hprog, hfp, hpl, hco, hrs, hst1⟩, hroutines, hcores⟩ :=
        frameBind_binds he hst hended hruns (b := b) h prog rs
      rw [hexec, bindFrame_binds htrans hfault hroom, hcs]
      exact ⟨_, e1, rfl, he1, hep, hprog, hfp, hpl, hco, hrs, hst1, hroutines, hcores⟩
    · rw [hexec, bindFrame_waits htrans hfault hroom]
    · obtain ⟨e1, h1⟩ := entry?_failBind he hst hepoch (bindRecord i r d)
      rw [hexec, bindFrame_bad htrans, hcs]
      exact ⟨_, e1, rfl, h1⟩
    · obtain ⟨e1, h1⟩ := entry?_failBind he hst hepoch (bindRecord 0 r d)
      rw [hexec, bindFrame_denied htrans hfault, hcs]
      exact ⟨_, e1, rfl, h1⟩
  case halts =>
    intro rs
    refine ⟨_, _, answer_eq_next (by rw [hk, hsame]; rfl) rfl, haltRecord_entry hrec hentry same he, fun x hx => ?_, fun hnone => ?_,
      fun j hj hjq => ?_, fun j hjq => ?_, fun j hjq => ?_, fun n hn => haltRecord_entry_ne hrec hentry same hn,
      haltRecord_frame hrec hentry same⟩
    · simp only [Entry.takeHalt, hx]
    · obtain ⟨x, hx⟩ := lowestRank_cons_some r ((s.haltMates k cseq same).filterMap (fun j => (s.core j).haltRec))
      obtain ⟨hin, hmin⟩ := lowestRank_mem hx
      refine ⟨x, (mem_haltRecs x).1 hin, ?_, fun y hy => hmin y ((mem_haltRecs y).2 hy)⟩
      simp only [Entry.takeHalt, hnone]
      exact hx
    · obtain ⟨-, -, hgone, -⟩ := takeHalts_core (k :: s.haltMates k cseq same) s j
      rw [haltRecord_core hrec hentry, if_pos hjq, hubStop_haltRec]
      refine hgone ?_
      rcases hj with rfl | hj
      · exact .inl List.mem_cons_self
      · by_cases hjk : j = k
        · exact .inl (hjk ▸ List.mem_cons_self)
        · by_cases hsome : (s.core j).haltRec.isSome = true
          · exact .inl (List.mem_cons_of_mem _ (mem_haltMates.2 ⟨hj, hjk, hjq, hsome⟩))
          · exact .inr (by simpa using hsome)
    · rw [haltRecord_core hrec hentry, if_pos hjq, hubStop_live]
    · rw [haltRecord_core hrec hentry, if_neg hjq]
  case stops =>
    have hexec : exec (.stopTimeout cseq) s = .next (s.stopAll cseq) := by
      refine answer_eq_next rfl ?_
      simp [he, hst, hstopped]
    have hcore (j : Nat) : (s.stopAll cseq).core j = (((s.coresOf cseq).filter (fun k => (s.core k).live)).foldl
        (fun s k => s.modCore k stopHere) s).core j := rfl
    refine ⟨_, hexec, ?_, fun k hk hlive => ?_, fun k hk => ?_⟩
    · simp only [State.stopAll]
      rw [modCores_frame]
    · obtain ⟨c, hc⟩ := (modCores_core stopHere _ s k).1 ((List.mem_filter (p := fun k => (s.core k).live)).2 ⟨hk, hlive⟩)
      rw [hcore, hc]
      exact stopHere_stopped c
    · rw [hcore]
      refine (modCores_core stopHere _ s k).2 fun hin => ?_
      obtain ⟨hin, hlive⟩ := List.mem_filter.1 hin
      rcases hk with hk | hk
      · exact hk hin
      · rw [hk] at hlive
        cases hlive

end Sys2Proof.Machine
end

/-! ## WORK frames: the tests, commits, segments and answers (11 R340 to R370) -/

section
namespace Sys2Proof.Machine
open Sys2Proof

/-! ### The tests of a WORK frame (R352) -/

/-- The operation code of a frame's body; a body of no byte has none (R349). -/
def bodyOpc (b : List Byte) : Nat := if b = [] then 16 else beAt b 0 1

theorem bodyOpc_isEmpty (b : List Byte) : (if b.isEmpty then 16 else beAt b 0 1) = bodyOpc b := by
  cases b <;> rfl

section
variable {x : Stream} {h : Hdr} {opc : Nat}

theorem admits_opens (hst : x.st = .closed) (hseq : h.seq = 0) (hopc : opc = 1) (hinc : x.incarn ≠ some h.incarn) :
    x.admits opc h = none := by
  simp [Stream.admits, hst, hseq, hopc, hinc]

theorem admits_goesOn (hst : x.st = .open) (htsid : h.tsid = x.tsid) (hinc : x.incarn = some h.incarn)
    (hlast : h.seq ≠ 0xFFFFFFFF ∨ opc = 3) (hopen : opc ≠ 1 ∨ h.seq < x.nextSeq) : x.admits opc h = none := by
  have hlast' : ¬ (h.seq = 0xFFFFFFFF ∧ opc ≠ 3) := fun ⟨h1, h2⟩ => hlast.elim (· h1) h2
  have hopen' : ¬ (opc = 1 ∧ x.nextSeq ≤ h.seq) := fun ⟨h1, h2⟩ => hopen.elim (· h1) (Nat.not_lt.2 h2)
  simp only [Stream.admits, hst, htsid, hinc, if_neg hlast', if_neg hopen', ne_eq, not_true_eq_false, if_false]

theorem admits_closed (hst : x.st = .closed) (hbad : h.seq ≠ 0 ∨ opc ≠ 1) : x.admits opc h = some (.refuse 5 1) := by
  simp only [Stream.admits, hst, if_pos hbad]

theorem admits_closed_again (hst : x.st = .closed) (hseq : h.seq = 0) (hopc : opc = 1) (hinc : x.incarn = some h.incarn) :
    x.admits opc h = some (.refuse 5 3) := by
  simp [Stream.admits, hst, hseq, hopc, hinc]

theorem open_or_closing (hst : x.st ≠ .closed) : x.st = .open ∨ x.st = .closing := by
  cases hx : x.st
  · exact absurd hx hst
  · exact .inl rfl
  · exact .inr rfl

theorem admits_other_session (hst : x.st ≠ .closed) (htsid : h.tsid ≠ x.tsid) : x.admits opc h = some (.refuse 4 0) := by
  rcases open_or_closing hst with hx | hx
  · simp only [Stream.admits, hx, if_pos htsid]
  · simp only [Stream.admits, hx, if_pos htsid]

theorem admits_other_incarnation (hst : x.st ≠ .closed) (htsid : h.tsid = x.tsid) (hinc : x.incarn ≠ some h.incarn) :
    x.admits opc h = some (.refuse 5 3) := by
  rcases open_or_closing hst with hx | hx
  · simp only [Stream.admits, hx, htsid, if_pos hinc, ne_eq, not_true_eq_false, if_false]
  · simp only [Stream.admits, hx, htsid, if_pos hinc, ne_eq, not_true_eq_false, if_false]

theorem admits_closing (hst : x.st = .closing) (htsid : h.tsid = x.tsid) (hinc : x.incarn = some h.incarn) :
    x.admits opc h = some (.refuse 5 2) := by
  simp only [Stream.admits, hst, htsid, hinc, ne_eq, not_true_eq_false, if_false]

theorem admits_last (hst : x.st = .open) (htsid : h.tsid = x.tsid) (hinc : x.incarn = some h.incarn) (hseq : h.seq = 0xFFFFFFFF)
    (hopc : opc ≠ 3) : x.admits opc h = some (.refuse 5 4) := by
  simp only [Stream.admits, hst, htsid, hinc, hseq, hopc, ne_eq, not_true_eq_false, not_false_eq_true, and_self, if_false, if_true]

theorem admits_open_again (hst : x.st = .open) (htsid : h.tsid = x.tsid) (hinc : x.incarn = some h.incarn)
    (hseq : h.seq ≠ 0xFFFFFFFF) (hopc : opc = 1) (hnext : x.nextSeq ≤ h.seq) : x.admits opc h = some (.refuseOpen 5) := by
  simp only [Stream.admits, hst, htsid, hinc, hseq, hopc, hnext, ne_eq, not_true_eq_false, false_and, and_self, if_false, if_true]

end

section
variable {s : State} {h : Hdr} {b : List Byte} {backlog : Nat}

theorem tests_quiet {d : Nat} (hq : s.refusing = some d) : s.tests h b backlog = .refuse 7 d := by
  simp only [State.tests, hq]

section
variable (hq : s.refusing = none)
include hq

theorem tests_stream {v : Verdict} (hv : (s.stream h.stream).admits (bodyOpc b) h = some v) : s.tests h b backlog = v := by
  simp only [State.tests, hq, bodyOpc_isEmpty, hv]

section
variable (hv : (s.stream h.stream).admits (bodyOpc b) h = none)
include hv

section
variable {c : Commit} (hc : s.commits.find? (fun c => c.entry.stream == h.stream && c.entry.seq == h.seq) = some c)
include hc

theorem tests_pending_incarnation (hinc : c.entry.incarn ≠ h.incarn) : s.tests h b backlog = .refuse 5 3 := by
  simp only [State.tests, hq, bodyOpc_isEmpty, hv, hc, if_pos hinc]

theorem tests_pending_session (hinc : c.entry.incarn = h.incarn) (htsid : c.entry.tsid ≠ h.tsid) :
    s.tests h b backlog = .refuse 4 0 := by
  simp only [State.tests, hq, bodyOpc_isEmpty, hv, hc, hinc, if_pos htsid, ne_eq, not_true_eq_false, if_false]

theorem tests_pending (hinc : c.entry.incarn = h.incarn) (htsid : c.entry.tsid = h.tsid) :
    s.tests h b backlog = .dupPending c.cseq := by
  simp only [State.tests, hq, bodyOpc_isEmpty, hv, hc, hinc, htsid, ne_eq, not_true_eq_false, if_false]

end

variable (hnone : s.commits.find? (fun c => c.entry.stream == h.stream && c.entry.seq == h.seq) = none)
include hnone

theorem tests_duplicate (hst : (s.stream h.stream).st = .open) (hseq : h.seq < (s.stream h.stream).nextSeq) :
    s.tests h b backlog = .dup := by
  simp only [State.tests, hq, bodyOpc_isEmpty, hv, hnone, hst, hseq, and_self, if_true]

theorem tests_order (hst : (s.stream h.stream).st = .open) (hseq : (s.stream h.stream).nextSeq < h.seq) :
    s.tests h b backlog = .refuse 1 0 := by
  simp only [State.tests, hq, bodyOpc_isEmpty, hv, hnone, hst, hseq, true_and, if_neg (Nat.lt_asymm hseq), if_true]

variable (hturn : (s.stream h.stream).st = .open → h.seq = (s.stream h.stream).nextSeq)
include hturn

theorem tests_body {d : Nat} (hb : parseBody b = .error d) : s.tests h b backlog = .refuse 6 d := by
  have hdup : ¬ ((s.stream h.stream).st = .open ∧ h.seq < (s.stream h.stream).nextSeq) := fun ⟨h1, h2⟩ =>
    absurd (hturn h1) (Nat.ne_of_lt h2)
  have hearly : ¬ ((s.stream h.stream).st = .open ∧ (s.stream h.stream).nextSeq < h.seq) := fun ⟨h1, h2⟩ =>
    absurd (hturn h1).symm (Nat.ne_of_lt h2)
  simp only [State.tests, hq, bodyOpc_isEmpty, hv, hnone, if_neg hdup, if_neg hearly, hb]

theorem tests_resources {o : WorkOp} (hb : parseBody b = .ok o) : s.tests h b backlog = s.resources o h backlog := by
  have hdup : ¬ ((s.stream h.stream).st = .open ∧ h.seq < (s.stream h.stream).nextSeq) := fun ⟨h1, h2⟩ =>
    absurd (hturn h1) (Nat.ne_of_lt h2)
  have hearly : ¬ ((s.stream h.stream).st = .open ∧ (s.stream h.stream).nextSeq < h.seq) := fun ⟨h1, h2⟩ =>
    absurd (hturn h1).symm (Nat.ne_of_lt h2)
  simp only [State.tests, hq, bodyOpc_isEmpty, hv, hnone, if_neg hdup, if_neg hearly, hb]

end
end

/-- The credit of the stream as a frame of operation `o` finds it (R348). -/
def WorkOp.credit (o : WorkOp) (x : Stream) : Nat :=
  match o with
  | .open c => c
  | _ => x.credit

/-- Tests 8 to 10, one after the other. -/
theorem resources_tests (s : State) (o : WorkOp) (h : Hdr) (backlog : Nat) :
    let x := s.stream h.stream
    (o.credit x < x.outst + 1 → s.resources o h backlog = .refuse 2 x.outst) ∧
    (x.outst + 1 ≤ o.credit x → s.ledgerCap ≤ s.entries.length + s.commits.length → s.resources o h backlog = .refuse 3 1) ∧
    (x.outst + 1 ≤ o.credit x → s.entries.length + s.commits.length < s.ledgerCap →
      (s.reserve (s.entryDie o) (parcelPages o).1 = none → s.resources o h backlog = .refuse 3 2) ∧
      (∀ s1 ip, s.reserve (s.entryDie o) (parcelPages o).1 = some (s1, ip) →
        (s1.reserve (s.entryDie o) (parcelPages o).2 = none → s.resources o h backlog = .refuse 3 2) ∧
        (∀ s2 rp, s1.reserve (s.entryDie o) (parcelPages o).2 = some (s2, rp) →
          (262144 < backlog → s.resources o h backlog = .refuse 3 3) ∧
          (backlog ≤ 262144 → s.pair.st = .joining → s.resources o h backlog = .refuse 8 0) ∧
          (backlog ≤ 262144 → s.pair.st ≠ .joining → s.resources o h backlog = .take s2 o ip rp)))) := by
  intro x
  have heq : s.resources o h backlog = if o.credit x < x.outst + 1 then .refuse 2 x.outst
      else if s.ledgerCap ≤ s.entries.length + s.commits.length then .refuse 3 1
      else match s.reserve (s.entryDie o) (parcelPages o).1 with
        | none => .refuse 3 2
        | some (s1, ip) =>
          match s1.reserve (s.entryDie o) (parcelPages o).2 with
          | none => .refuse 3 2
          | some (s2, rp) =>
            if 262144 < backlog then .refuse 3 3
            else if s.pair.st = .joining then .refuse 8 0
            else .take s2 o ip rp := rfl
  refine ⟨fun hc => ?_, fun hc hl => ?_, fun hc hl => ⟨fun h1 => ?_, fun s1 ip h1 => ⟨fun h2 => ?_, fun s2 rp h2 =>
    ⟨fun hb => ?_, fun hb hp => ?_, fun hb hp => ?_⟩⟩⟩⟩
  · rw [heq, if_pos hc]
  · rw [heq, if_neg (Nat.not_lt.2 hc), if_pos hl]
  · rw [heq, if_neg (Nat.not_lt.2 hc), if_neg (Nat.not_le.2 hl), h1]
  · rw [heq, if_neg (Nat.not_lt.2 hc), if_neg (Nat.not_le.2 hl), h1]
    simp only [h2]
  · rw [heq, if_neg (Nat.not_lt.2 hc), if_neg (Nat.not_le.2 hl), h1]
    simp only [h2, if_pos hb]
  · rw [heq, if_neg (Nat.not_lt.2 hc), if_neg (Nat.not_le.2 hl), h1]
    simp only [h2, if_neg (Nat.not_lt.2 hb), if_pos hp]
  · rw [heq, if_neg (Nat.not_lt.2 hc), if_neg (Nat.not_le.2 hl), h1]
    simp only [h2, if_neg (Nat.not_lt.2 hb), if_neg hp]

end

/-- Settles O23: the tests in their order, each by its own lemma. -/
theorem testsInOrder : Obligations.TestsInOrder := by
  intro s h b backlog x opc opens goesOn pending
  refine ⟨fun d hq => tests_quiet hq, fun hq => ?_⟩
  have hadmits (hor : opens ∨ goesOn) : x.admits (bodyOpc b) h = none := by
    rcases hor with ⟨hst, hseq, hopc, hinc⟩ | ⟨hst, htsid, hinc, hlast, hopen⟩
    · exact admits_opens hst hseq hopc hinc
    · exact admits_goesOn hst htsid hinc hlast hopen
  refine ⟨fun hst hbad => tests_stream hq (admits_closed hst hbad),
    fun hst hseq hopc hinc => tests_stream hq (admits_closed_again hst hseq hopc hinc),
    fun hst htsid => tests_stream hq (admits_other_session hst htsid),
    fun hst htsid hinc => tests_stream hq (admits_other_incarnation hst htsid hinc),
    fun hst htsid hinc => tests_stream hq (admits_closing hst htsid hinc),
    fun hst htsid hinc hseq hopc => tests_stream hq (admits_last hst htsid hinc hseq hopc),
    fun hst htsid hinc hseq hopc hnext => tests_stream hq (admits_open_again hst htsid hinc hseq hopc hnext),
    fun hor c hc => ⟨tests_pending_incarnation hq (hadmits hor) hc, tests_pending_session hq (hadmits hor) hc,
      tests_pending hq (hadmits hor) hc⟩,
    fun hgo hnone hseq => tests_duplicate hq (hadmits (.inr hgo)) hnone hgo.1 hseq,
    fun hgo hnone hseq => tests_order hq (hadmits (.inr hgo)) hnone hgo.1 hseq, fun hor hnone => ?_⟩
  have hturn : x.st = .open → h.seq = x.nextSeq := by
    rcases hor with ⟨hst, -⟩ | ⟨-, hseq⟩
    · intro hopen
      rw [hst] at hopen
      cases hopen
    · exact fun _ => hseq
  have hadm := hadmits (hor.imp_right And.left)
  refine ⟨fun d hb => tests_body hq hadm hnone hturn hb, fun o hb => ?_⟩
  rw [tests_resources hq hadm hnone hturn hb]
  exact resources_tests s o h backlog

/-! ### Hubs and ports -/

theorem at'_modAt_keeps {α β : Type} {f : α → α} {g : α → β} (hg : ∀ x, g (f x) = g x) (l : List α) (n m : Nat) (d : α) :
    g (at' (modAt l n f) m d) = g (at' l m d) := by
  induction l generalizing n m with
  | nil => rfl
  | cons x r ih =>
    cases n with
    | zero =>
      cases m with
      | zero => simpa [modAt, at'] using hg x
      | succ m => simp [modAt, at']
    | succ n =>
      cases m with
      | zero => simp [modAt, at']
      | succ m => simpa [modAt, at'] using ih n m

theorem at'_map_keeps {α β : Type} {f : α → α} {g : α → β} (hg : ∀ x, g (f x) = g x) (l : List α) (m : Nat) (d : α) :
    g (at' (l.map f) m d) = g (at' l m d) := by
  simp only [at', List.getElem?_map]
  cases l[m]? with
  | none => rfl
  | some x => simpa using hg x

theorem hub_modHub (s : State) {h : Nat} (hlen : h < s.hubs.length) (f : Hub → Hub) (j : Nat) :
    (s.modHub h f).hub j = if j = h then f (s.hub j) else s.hub j := at'_modAt s.hubs hlen f j _

theorem hub_modHub_keeps {β : Type} {f : Hub → Hub} {g : Hub → β} (hg : ∀ x, g (f x) = g x) (s : State) (h j : Nat) :
    g ((s.modHub h f).hub j) = g (s.hub j) := at'_modAt_keeps hg s.hubs h j _

theorem modFold_up (s : State) (h : Nat) (f : FoldRegs → FoldRegs) (j : Nat) : ((s.modFold h f).hub j).up = (s.hub j).up :=
  hub_modHub_keeps (f := fun x => { x with fold := f x.fold }) (g := Hub.up) (fun _ => rfl) s h j

theorem modFold_keeps {β : Type} {f : FoldRegs → FoldRegs} {g : FoldRegs → β} (hg : ∀ x, g (f x) = g x) (s : State) (h j : Nat) :
    g ((s.modFold h f).hub j).fold = g (s.hub j).fold :=
  hub_modHub_keeps (f := fun x => { x with fold := f x.fold }) (g := fun x => g x.fold) (fun x => hg x.fold) s h j

theorem modFold_fold (s : State) {h : Nat} (hlen : h < s.hubs.length) (f : FoldRegs → FoldRegs) :
    ((s.modFold h f).hub h).fold = f (s.hub h).fold := by
  rw [State.modFold, hub_modHub s hlen, if_pos rfl]

theorem admitTime_up (s : State) (port time j : Nat) : ((s.admitTime port time).hub j).up = (s.hub j).up := modFold_up ..

theorem admitTime_refuse (s : State) (port time j : Nat) :
    ((s.admitTime port time).hub j).fold.refuse = (s.hub j).fold.refuse :=
  modFold_keeps (f := fun r => { r with admitMax := keepMax r.admitMax time }) (g := FoldRegs.refuse) (fun _ => rfl) s _ j

theorem hub_of_hubs {s t : State} (h : t.hubs = s.hubs) (j : Nat) : t.hub j = s.hub j := by rw [State.hub, State.hub, h]

/-- The hubs of `t` are in service as those of `s`, and their registers of R375 are the same. -/
structure State.SameHubs (s t : State) : Prop where
  up : ∀ h, (t.hub h).up = (s.hub h).up
  fold : ∀ h, (t.hub h).fold = (s.hub h).fold
  length : t.hubs.length = s.hubs.length

theorem State.SameHubs.refl (s : State) : s.SameHubs s := ⟨fun _ => rfl, fun _ => rfl, rfl⟩

theorem State.SameHubs.trans {a b c : State} (hab : a.SameHubs b) (hbc : b.SameHubs c) : a.SameHubs c :=
  ⟨fun h => (hbc.up h).trans (hab.up h), fun h => (hbc.fold h).trans (hab.fold h), hbc.length.trans hab.length⟩

theorem State.SameHubs.of_hubs {s t : State} (h : t.hubs = s.hubs) : s.SameHubs t :=
  ⟨fun n => by rw [State.hub, State.hub, h], fun n => by rw [State.hub, State.hub, h], by rw [h]⟩

@[simp] theorem length_modAt {α : Type} (l : List α) (n : Nat) (f : α → α) : (modAt l n f).length = l.length := by
  induction l generalizing n with
  | nil => rfl
  | cons x r ih =>
    cases n with
    | zero => rfl
    | succ n => exact congrArg (· + 1) (ih n)

theorem sameHubs_modHub (s : State) (h : Nat) {f : Hub → Hub} (hup : ∀ x, (f x).up = x.up) (hfold : ∀ x, (f x).fold = x.fold) :
    s.SameHubs (s.modHub h f) :=
  ⟨fun j => hub_modHub_keeps hup s h j, fun j => hub_modHub_keeps hfold s h j, length_modAt ..⟩

theorem portUp_congr {s t : State} (hports : t.ports = s.ports) (hprof : t.profile = s.profile)
    (hup : ∀ h, (t.hub h).up = (s.hub h).up) (n : Nat) : t.portUp n = s.portUp n := by
  simp only [State.portUp, State.linkUp, State.port, State.macsecPort, hports, hprof, hup]

theorem portUp_of_takes {s : State} {n : Nat} {w : Wire} (h : s.takes n w = true) : s.portUp n = true := by
  simp only [State.takes, State.linkTakes, Bool.and_eq_true] at h
  exact h.1.1

/-! ### Answers (R341 to R343, R357) -/

theorem nextIv_frame (s : State) (p tsid : Nat) : (s.nextIv p tsid).1 = { s with secure := (s.nextIv p tsid).1.secure } := by
  unfold State.nextIv
  split <;> rfl

section
variable {s : State} {p : Nat}

theorem sendAt_frame (s : State) (p addr : Nat) (h : Hdr) (body : List Byte) : s.sendAt p addr h body =
    { s with secure := (s.sendAt p addr h body).secure, out := (s.sendAt p addr h body).out } := by
  unfold State.sendAt
  split
  · simp only [State.sendSeg, State.emitOut]
    rw [nextIv_frame]
  · rfl

theorem sendAt_out (hp : s.portUp p = true) (addr : Nat) (h : Hdr) (body : List Byte) :
    (s.sendAt p addr h body).out = s.out ++ [s.segOut p addr h body] := by
  have hout : (s.nextIv p h.tsid).1.out = s.out := by rw [nextIv_frame]
  rw [State.sendAt, if_pos hp]
  simp only [State.sendSeg, State.emitOut, hout]
  rfl

/-- What a REFUSE leaves: all but what leaves the package, the IVs and the counters of the hub. -/
theorem refuse_frame (s : State) (port addr tsid stream incarn seq reason detail time : Nat) :
    s.refuse port addr tsid stream incarn seq reason detail time = { s with
      secure := (s.refuse port addr tsid stream incarn seq reason detail time).secure
      out := (s.refuse port addr tsid stream incarn seq reason detail time).out
      hubs := (s.refuse port addr tsid stream incarn seq reason detail time).hubs } := by
  simp only [State.refuse]
  rw [sendAt_frame]
  rfl

theorem refuse_out (hp : s.portUp p = true) (addr tsid stream incarn seq reason detail time : Nat) :
    (s.refuse p addr tsid stream incarn seq reason detail time).out =
      s.out ++ [s.refusal p addr tsid stream incarn seq reason detail] := sendAt_out hp addr _ _

theorem refuse_hubs (s : State) (port addr tsid stream incarn seq reason detail time : Nat) :
    (s.refuse port addr tsid stream incarn seq reason detail time).hubs =
      ((s.modFold (port / 4) (fun r => { r with refuse := modAt r.refuse (reason - 1) inc })).admitTime port time).hubs := by
  have h (b : List Byte) : (s.sendAt port addr (headOf 2 tsid stream incarn seq) b).hubs = s.hubs := by rw [sendAt_frame]
  simp only [State.refuse, State.admitTime, State.modFold, State.modHub, h]

theorem refuse_up (s : State) (port addr tsid stream incarn seq reason detail time h : Nat) :
    ((s.refuse port addr tsid stream incarn seq reason detail time).hub h).up = (s.hub h).up := by
  rw [hub_of_hubs (refuse_hubs ..), admitTime_up, modFold_up]

/-- The refusal is counted (R375). -/
theorem refuse_count (s : State) {port : Nat} (hlen : port / 4 < s.hubs.length)
    (addr tsid stream incarn seq reason detail time : Nat) :
    ((s.refuse port addr tsid stream incarn seq reason detail time).hub (port / 4)).fold.refuse =
      modAt (s.hub (port / 4)).fold.refuse (reason - 1) (fun w => w + 1) := by
  rw [hub_of_hubs (refuse_hubs ..), admitTime_refuse, modFold_fold s hlen]
  rfl

theorem accept_frame (s : State) (port addr tsid stream incarn seq flags cseq time : Nat) :
    s.accept port addr tsid stream incarn seq flags cseq time = { s with
      secure := (s.accept port addr tsid stream incarn seq flags cseq time).secure
      out := (s.accept port addr tsid stream incarn seq flags cseq time).out
      hubs := (s.accept port addr tsid stream incarn seq flags cseq time).hubs } := by
  simp only [State.accept]
  rw [sendAt_frame]
  rfl

theorem accept_keeps (s : State) (port addr tsid stream incarn seq flags cseq time : Nat) :
    (s.accept port addr tsid stream incarn seq flags cseq time).commits = s.commits ∧
      (s.accept port addr tsid stream incarn seq flags cseq time).streams = s.streams ∧
      (s.accept port addr tsid stream incarn seq flags cseq time).cores = s.cores ∧
      (s.accept port addr tsid stream incarn seq flags cseq time).entries = s.entries := by
  rw [accept_frame]
  exact ⟨rfl, rfl, rfl, rfl⟩

theorem accept_out (hp : s.portUp p = true) (addr tsid stream incarn seq flags cseq time : Nat) :
    (s.accept p addr tsid stream incarn seq flags cseq time).out =
      s.out ++ [s.acceptance p addr tsid stream incarn seq flags cseq] := sendAt_out hp addr _ _

theorem accept_up (s : State) (port addr tsid stream incarn seq flags cseq time h : Nat) :
    ((s.accept port addr tsid stream incarn seq flags cseq time).hub h).up = (s.hub h).up := by
  have hsend (b : List Byte) : (s.sendAt port addr (headOf 2 tsid stream incarn seq) b).hubs = s.hubs := by rw [sendAt_frame]
  rw [State.accept, admitTime_up, hub_of_hubs (hsend _)]

end

/-! ### A frame as its tests find it (R344, R354, R368) -/

theorem sendPair_frame (s : State) (pop : Nat) (fields : List (Nat × Nat)) (data : List Byte) : s.sendPair pop fields data =
    { s with out := (s.sendPair pop fields data).out, pair := (s.sendPair pop fields data).pair } := by
  unfold State.sendPair
  split <;> rfl

/-- The segment `g` as the other hub keeps it, and what the hubs then hold (R191, R354). -/
def State.copiedTo (s : State) (g : SegIn) : State :=
  let h := g.port / 4 % 2
  let s0 := s.modHub h (fun x => { x with backlog := g.backlog })
  let s1 := if s.bridgeUp && (s.hub (1 - h)).up then s0.modHub (1 - h) (fun x => { x with copies := x.copies ++ [segOf g] }) else s0
  (s1.noteStaging h g.body.length).noteStaging (1 - h) 0

theorem copySeg_eq (s : State) (g : SegIn) : s.copySeg g =
    if (s.copiedTo g).mirrors then (s.copiedTo g).sendPair 4 (segFields g.hdr) g.body else s.copiedTo g := rfl

theorem copiedTo_frame (s : State) (g : SegIn) : s.copiedTo g = { s with hubs := (s.copiedTo g).hubs } := by
  unfold State.copiedTo
  dsimp only
  split <;> rfl

theorem copiedTo_sameHubs (s : State) (g : SegIn) : s.SameHubs (s.copiedTo g) := by
  have hback : s.SameHubs (s.modHub (g.port / 4 % 2) (fun x => { x with backlog := g.backlog })) :=
    sameHubs_modHub s _ (fun _ => rfl) (fun _ => rfl)
  have hnote (t : State) (h n : Nat) : t.SameHubs (t.noteStaging h n) := sameHubs_modHub t _ (fun _ => rfl) (fun _ => rfl)
  unfold State.copiedTo
  dsimp only
  refine State.SameHubs.trans ?_ (State.SameHubs.trans (hnote _ _ _) (hnote _ _ _))
  split
  · exact hback.trans (sameHubs_modHub _ _ (fun _ => rfl) (fun _ => rfl))
  · exact hback

theorem copySeg_frame (s : State) (g : SegIn) : s.copySeg g =
    { s with hubs := (s.copySeg g).hubs, out := (s.copySeg g).out, pair := (s.copySeg g).pair } := by
  rw [copySeg_eq]
  split
  · rw [sendPair_frame, copiedTo_frame]
  · rw [copiedTo_frame]

theorem copySeg_hubs (s : State) (g : SegIn) : (s.copySeg g).hubs = (s.copiedTo g).hubs := by
  rw [copySeg_eq]
  split
  · rw [sendPair_frame]
  · rfl

theorem copySeg_out (s : State) (g : SegIn) (h : s.mirrors = false) : (s.copySeg g).out = s.out := by
  have hm : (s.copiedTo g).mirrors = false := by rw [copiedTo_frame]; exact h
  rw [copySeg_eq, hm, copiedTo_frame]
  rfl

theorem copySeg_sameHubs (s : State) (g : SegIn) : s.SameHubs (s.copySeg g) :=
  (copiedTo_sameHubs s g).trans (.of_hubs (copySeg_hubs s g))

theorem dropParts_sameHubs (s : State) (n : Nat) (h : Hdr) : s.SameHubs (s.dropParts n h) :=
  sameHubs_modHub s _ (fun _ => rfl) (fun _ => rfl)

theorem dropCopies_secure (s : State) (stream incarn seq : Nat) : (s.dropCopies stream incarn seq).secure = s.secure := rfl

theorem dropCopies_streams (s : State) (stream incarn seq : Nat) : (s.dropCopies stream incarn seq).streams = s.streams := rfl

theorem dropCopies_out (s : State) (stream incarn seq : Nat) : (s.dropCopies stream incarn seq).out = s.out := rfl

theorem dropCopies_sameHubs (s : State) (stream incarn seq : Nat) : s.SameHubs (s.dropCopies stream incarn seq) :=
by
  refine ⟨fun h => at'_map_keeps (g := Hub.up) ?_ s.hubs h _, fun h => at'_map_keeps (g := Hub.fold) ?_ s.hubs h _,
    List.length_map _⟩
  · exact fun _ => rfl
  · exact fun _ => rfl

theorem notePort_frame (s : State) (g : SegIn) : s.notePort g = { s with streams := (s.notePort g).streams } := by
  unfold State.notePort
  dsimp only
  split <;> rfl

theorem examined_frame (s : State) (g : SegIn) : s.examined g = { s with
    hubs := (s.examined g).hubs, out := (s.examined g).out, pair := (s.examined g).pair, streams := (s.examined g).streams } := by
  unfold State.examined
  rw [notePort_frame, copySeg_frame]
  rfl

theorem examined_entries (s : State) (g : SegIn) : (s.examined g).entries = s.entries := by rw [examined_frame]

theorem examined_commits (s : State) (g : SegIn) : (s.examined g).commits = s.commits := by rw [examined_frame]

theorem examined_cores (s : State) (g : SegIn) : (s.examined g).cores = s.cores := by rw [examined_frame]

theorem examined_sameHubs (s : State) (g : SegIn) : s.SameHubs (s.examined g) := by
  refine ((dropParts_sameHubs s (g.port / 4) g.hdr).trans (copySeg_sameHubs _ g)).trans (.of_hubs ?_)
  rw [State.examined, notePort_frame]

theorem examined_portUp (s : State) (g : SegIn) (n : Nat) : (s.examined g).portUp n = s.portUp n := by
  refine portUp_congr ?_ ?_ (examined_sameHubs s g).up n
  · rw [examined_frame]
  · rw [examined_frame]

theorem dropCopies_portUp (s : State) (stream incarn seq n : Nat) : (s.dropCopies stream incarn seq).portUp n = s.portUp n :=
  portUp_congr (s := s) (t := s.dropCopies stream incarn seq) rfl rfl (dropCopies_sameHubs s stream incarn seq).up n

section
variable {s : State} {g : SegIn}

/-- A whole frame of a row's operation is examined, and answered by what the tests find. -/
theorem workFrame_whole {op : Nat} (h : s.wholeFrame op g) :
    s.workFrame op g = (s.examined g).answerFrame g ((s.examined g).tests g.hdr (s.frameBody g) g.backlog) := by
  obtain ⟨-, htakes, hkind, hvalid, hwhole, hauth, hop, hfull⟩ := h
  simp only [State.workFrame, htakes, hkind, hvalid, hwhole, hauth, hop, hfull]
  rfl

/-- The rows of WORK examine whole frames of their operation. -/
theorem exec_workRow {p : Nat × (SegIn → Instr)} (hp : p ∈ workRows) (h : s.wholeFrame p.1 g) : exec (p.2 g) s =
    .next ((s.examined g).answerFrame g ((s.examined g).tests g.hdr (s.frameBody g) g.backlog)) := by
  have hwork := workFrame_whole h
  have hport := h.1
  simp only [workRows, List.mem_cons, List.not_mem_nil, or_false] at hp
  rcases hp with rfl | rfl | rfl | rfl <;> exact answer_eq_next hport hwork

end

theorem decideNew_frame (s : State) (e : Entry) : s.decideNew e = { e with payload := (s.decideNew e).payload } := by
  unfold State.decideNew
  split
  · unfold State.decideCancel
    dsimp only
    split <;> rfl
  · rfl

/-- The commit that the frame of `g` begins (R353). -/
def State.newCommit (s : State) (g : SegIn) (o : WorkOp) (ip rp : Parcel) : Commit :=
  let n := if s.leads then s.pkg.cseqNext else 0
  ⟨n, g.port / 4, g.port, g.addr, s.decideNew (s.newEntry n g o ip rp), [0, 1].filter (fun h => (s.hub h).up), s.paired, []⟩

/-- `s` once the frame's commit is listed, with its number taken. -/
def State.listed (s : State) (c : Commit) : State :=
  { s with pkg := { s.pkg with cseqNext := if c.cseq = 0 then s.pkg.cseqNext else c.cseq + 1 }, commits := s.commits ++ [c] }

theorem beginCommit_eq (s : State) (g : SegIn) (o : WorkOp) (ip rp : Parcel) : s.beginCommit g o ip rp =
    let c := s.newCommit g o ip rp
    let s1 := s.listed c
    if s1.mirrors then (s1.sendRecord (recordOf c.cseq c.entry 1 ((s1.stream c.entry.stream).commit c.entry))).await c.cseq 1
      c.entry.stream c.entry.incarn c.entry.seq
    else s1 := rfl

theorem listed_mirrors (s : State) (c : Commit) : (s.listed c).mirrors = s.mirrors := rfl

theorem beginCommit_frame (s : State) (g : SegIn) (o : WorkOp) (ip rp : Parcel) : s.beginCommit g o ip rp =
    { s.listed (s.newCommit g o ip rp) with
      pair := (s.beginCommit g o ip rp).pair, out := (s.beginCommit g o ip rp).out } := by
  rw [beginCommit_eq]
  dsimp only
  split
  · simp only [State.sendRecord, State.await]
    rw [sendPair_frame]
  · rfl

theorem beginCommit_out (s : State) (g : SegIn) (o : WorkOp) (ip rp : Parcel) (h : s.mirrors = false) :
    (s.beginCommit g o ip rp).out = s.out := by
  rw [beginCommit_eq]
  dsimp only
  rw [listed_mirrors, h]
  rfl

/-- What a frame's commit is (R353, R359, R360). -/
theorem newCommit_entry (s : State) (g : SegIn) (o : WorkOp) (ip rp : Parcel) :
    let c := s.newCommit g o ip rp
    c.entry.cseq = c.cseq ∧ c.entry.stream = g.hdr.stream ∧ c.entry.incarn = g.hdr.incarn ∧ c.entry.seq = g.hdr.seq ∧
      c.entry.tsid = g.hdr.tsid ∧ c.entry.op = o ∧ c.entry.st = .admitted ∧ c.entry.ipar = ip ∧ c.entry.rpar = rp ∧
      c.entry.acked = false ∧ c.entry.ended = false ∧ c.entry.epoch = none := by
  intro c
  have he : c.entry = _ := decideNew_frame s (s.newEntry c.cseq g o ip rp)
  rw [he]
  exact ⟨rfl, rfl, rfl, rfl, rfl, rfl, rfl, rfl, rfl, rfl, rfl, rfl⟩

theorem listed_pkg (s : State) (g : SegIn) (o : WorkOp) (ip rp : Parcel) : (s.listed (s.newCommit g o ip rp)).pkg = { s.pkg with
    cseqNext := if s.leads ∧ s.pkg.cseqNext ≠ 0 then s.pkg.cseqNext + 1 else s.pkg.cseqNext } := by
  simp only [State.listed, State.newCommit]
  by_cases hl : s.leads = true <;> by_cases hn : s.pkg.cseqNext = 0 <;> simp [hl, hn]

/-! ### A duplicate is accepted again (R355) -/

theorem accept_portUp (s : State) (port addr tsid stream incarn seq flags cseq time n : Nat) :
    (s.accept port addr tsid stream incarn seq flags cseq time).portUp n = s.portUp n := by
  refine portUp_congr ?_ ?_ (accept_up s port addr tsid stream incarn seq flags cseq time) n
  · rw [accept_frame]
  · rw [accept_frame]

/-- The answer to a duplicate whose original has the entry `found`, or none (R355). -/
def State.dupAnswer (s : State) (port addr tsid stream incarn seq : Nat) (found : Option Entry) : Out :=
  match found with
  | some e => s.acceptance port addr tsid stream incarn seq 1 e.cseq
  | none => s.acceptance port addr tsid stream incarn seq 3 0

/-- What the answer to a duplicate leaves: its original is acknowledged. -/
theorem acceptDup_answers {s : State} {port stream incarn seq : Nat} (hp : s.portUp port = true) {found : Option Entry}
    (hf : s.entries.find? (fun e => e.stream == stream && e.incarn == incarn && e.seq == seq) = found) (addr tsid time : Nat) :
    ∃ t, s.acceptDup port addr tsid stream incarn seq time = t ∧ t.commits = s.commits ∧ t.streams = s.streams ∧
      t.cores = s.cores ∧
      t.entries = s.entries.map (fun e => if (found.map (·.cseq)) = some e.cseq then { e with acked := true } else e) ∧
      t.out = s.out ++ [s.dupAnswer port addr tsid stream incarn seq found] := by
  refine ⟨_, rfl, ?_⟩
  cases found with
  | none =>
    obtain ⟨hcommits, hstreams, hcores, hentries⟩ := accept_keeps s port addr tsid stream incarn seq 3 0 time
    simp only [State.acceptDup, hf]
    exact ⟨hcommits, hstreams, hcores, hentries.trans (by simp), accept_out hp (time := time) ..⟩
  | some e =>
    obtain ⟨hcommits, hstreams, hcores, hentries⟩ := accept_keeps s port addr tsid stream incarn seq 1 e.cseq time
    have hup := (accept_portUp s port addr tsid stream incarn seq 1 e.cseq time port).trans hp
    simp only [State.acceptDup, hf, State.noteAck, hup, if_true]
    refine ⟨hcommits, hstreams, hcores, (congrArg (List.map _) hentries).trans ?_, accept_out hp (time := time) ..⟩
    refine List.map_congr_left fun x _ => ?_
    simp only [Option.map_some, Option.some.injEq, beq_iff_eq]
    exact ite_congr (propext eq_comm) (fun _ => rfl) (fun _ => rfl)

/-- What the answer to a refused frame leaves. -/
theorem refuse_answers {s : State} {port : Nat} (hp : s.portUp port = true) (addr tsid stream incarn seq reason detail time : Nat) :
    ∃ t, s.refuse port addr tsid stream incarn seq reason detail time = t ∧
      t.out = s.out ++ [s.refusal port addr tsid stream incarn seq reason detail] ∧
      (port / 4 < s.hubs.length →
        (t.hub (port / 4)).fold.refuse = modAt (s.hub (port / 4)).fold.refuse (reason - 1) (fun w => w + 1)) ∧
      t.entries = s.entries ∧ t.commits = s.commits ∧ t.streams = s.streams ∧ t.cores = s.cores := by
  have hframe := refuse_frame s port addr tsid stream incarn seq reason detail time
  refine ⟨_, rfl, refuse_out hp .., fun hlen => refuse_count s hlen .., ?_, ?_, ?_, ?_⟩ <;> rw [hframe]

theorem nextIv_snd (s : State) (p tsid : Nat) : (s.nextIv p tsid).2 =
    if tsid = 0 then 0 else p / 4 % 2 * 2 ^ 64 + (Tbl.num s.secure.ivs (2 * tsid + p / 4 % 2) + 1) % 2 ^ 64 := by
  unfold State.nextIv
  split <;> rfl

theorem segOut_congr {s t : State} (h : t.secure = s.secure) (p addr : Nat) (hd : Hdr) (body : List Byte) :
    t.segOut p addr hd body = s.segOut p addr hd body := by
  simp only [State.segOut, nextIv_snd, h]

/-- An answer takes the streams, and the numbers of segments sent under the session. -/
theorem refusal_congr {s t : State} (hsecure : t.secure = s.secure) (hstreams : t.streams = s.streams)
    (port addr tsid stream incarn seq reason detail : Nat) : t.refusal port addr tsid stream incarn seq reason detail =
      s.refusal port addr tsid stream incarn seq reason detail := by
  simp only [State.refusal, State.stream, hstreams, segOut_congr hsecure]

theorem acceptance_congr {s t : State} (hsecure : t.secure = s.secure) (hstreams : t.streams = s.streams)
    (port addr tsid stream incarn seq flags cseq : Nat) : t.acceptance port addr tsid stream incarn seq flags cseq =
      s.acceptance port addr tsid stream incarn seq flags cseq := by
  simp only [State.acceptance, State.stream, hstreams, segOut_congr hsecure]

theorem dupAnswer_congr {s t : State} (hsecure : t.secure = s.secure) (hstreams : t.streams = s.streams)
    (port addr tsid stream incarn seq : Nat) (found : Option Entry) :
    t.dupAnswer port addr tsid stream incarn seq found = s.dupAnswer port addr tsid stream incarn seq found := by
  cases found <;> exact acceptance_congr hsecure hstreams ..

/-- Settles O24: the frame is examined, and each outcome of the tests is answered. -/
theorem workFrames : Obligations.WorkFrames := by
  refine ⟨fun p hp s s3 g o ip rp hwhole htake => ?_, fun p hp s g hwhole => ?_⟩
  · have hexec := exec_workRow hp hwhole
    rw [htake] at hexec
    obtain ⟨hcs, hst, hin, hseq, htsid, hop, hstate, hip, hrp, hack, hend, hep⟩ := newCommit_entry s3 g o ip rp
    have hframe := beginCommit_frame s3 g o ip rp
    have hpkg := (congrArg State.pkg hframe).trans (listed_pkg s3 g o ip rp)
    refine ⟨_, s3.newCommit g o ip rp, hexec, by rw [State.answerFrame, hframe]; rfl, rfl, rfl, rfl, rfl, rfl, rfl, rfl, hcs, hst,
      hin, hseq, htsid, hop, hstate, hip, hrp, hack, hend, hep, ?_, beginCommit_out s3 g o ip rp, hpkg⟩
    rw [State.answerFrame]
    rw [hframe]
    rfl
  · intro s1
    have hexec := exec_workRow hp hwhole
    have hdrop : (s1.dropCopies g.hdr.stream g.hdr.incarn g.hdr.seq).portUp g.port = true :=
      (dropCopies_portUp ..).trans ((examined_portUp s g g.port).trans (portUp_of_takes hwhole.2.1))
    have hsame : s.SameHubs (s1.dropCopies g.hdr.stream g.hdr.incarn g.hdr.seq) :=
      (examined_sameHubs s g).trans (dropCopies_sameHubs s1 _ _ _)
    have hent : (s1.dropCopies g.hdr.stream g.hdr.incarn g.hdr.seq).entries = s.entries := examined_entries s g
    have hcom : (s1.dropCopies g.hdr.stream g.hdr.incarn g.hdr.seq).commits = s.commits := examined_commits s g
    have hcores : (s1.dropCopies g.hdr.stream g.hdr.incarn g.hdr.seq).cores = s.cores := examined_cores s g
    refine ⟨fun r d hr => ?_, ?dup, fun n hn => ?_⟩
    case dup =>
      intro hd found
      rw [show (s.examined g).tests _ _ _ = _ from hd] at hexec
      obtain ⟨t, ht, hcommits, hstreams, hc, hentries, hout⟩ := acceptDup_answers hdrop
        (congrArg (List.find? (fun e => e.stream == g.hdr.stream && e.incarn == g.hdr.incarn && e.seq == g.hdr.seq)) hent)
        g.addr g.hdr.tsid g.time
      refine ⟨t, hexec.trans (congrArg Host.Outcome.next ht), hcommits.trans hcom, hstreams, hc.trans hcores, ?_, ?_⟩
      · rw [hentries, hent]
      · have hans := dupAnswer_congr (dropCopies_secure s1 g.hdr.stream g.hdr.incarn g.hdr.seq)
          (dropCopies_streams ..) g.port g.addr
          g.hdr.tsid g.hdr.stream g.hdr.incarn g.hdr.seq found
        rw [hout, hans, dropCopies_out]
        rfl
    · rw [show (s.examined g).tests _ _ _ = _ from hr] at hexec
      obtain ⟨t, ht, hout, hcount, hentries, hcommits, hstreams, hc⟩ := refuse_answers hdrop g.addr g.hdr.tsid g.hdr.stream
        g.hdr.incarn g.hdr.seq r d g.time
      refine ⟨t, hexec.trans (congrArg Host.Outcome.next ht), ?_, fun hlen => ?_, hentries.trans hent, hcommits.trans hcom, hstreams,
        hc.trans hcores⟩
      · have hans := refusal_congr (dropCopies_secure s1 g.hdr.stream g.hdr.incarn g.hdr.seq)
          (dropCopies_streams ..) g.port g.addr
          g.hdr.tsid g.hdr.stream g.hdr.incarn g.hdr.seq r d
        rw [hout, hans, dropCopies_out]
      · rw [hcount (by rw [hsame.length]; exact hlen), hsame.fold]
    · rw [show (s.examined g).tests _ _ _ = _ from hn] at hexec
      exact hexec

end Sys2Proof.Machine
end

/-! ## Segments and commits, and frames that run and end (11 R344 to R370) -/

section
namespace Sys2Proof.Machine
open Sys2Proof

/-! ### Segments are stored, or their frame is given up (R344, R354) -/

theorem noteStaging_keeps {β : Type} {f : Hub → β} (hf : ∀ (x : Hub) n, f { x with fsHigh := n } = f x) (s : State)
    (h n j : Nat) : f ((s.noteStaging h n).hub j) = f (s.hub j) :=
  hub_modHub_keeps (f := fun x => { x with fsHigh := max x.fsHigh (s.stagingUse h + n) }) (g := f) (fun x => hf x _) s h j

/-- What a copied segment leaves at its own hub and at the other. -/
theorem copiedTo_hub {s : State} (g : SegIn) (hlen : s.hubs.length = 2) {h : Nat} (hh : h < 2) (hport : g.port / 4 = h) :
    ((s.copiedTo g).hub h).segs = (s.hub h).segs ∧ ((s.copiedTo g).hub h).backlog = g.backlog ∧
      ((s.copiedTo g).hub (1 - h)).copies =
        (if s.bridgeUp = true ∧ (s.hub (1 - h)).up = true then (s.hub (1 - h)).copies ++ [segOf g] else (s.hub (1 - h)).copies) := by
  have hmod : g.port / 4 % 2 = h := by rw [hport, Nat.mod_eq_of_lt hh]
  have hne : 1 - h ≠ h := by omega
  unfold State.copiedTo
  dsimp only
  rw [hmod]
  have hback (j : Nat) := hub_modHub s (h := h) (by omega) (fun x => { x with backlog := g.backlog }) j
  have hcopy (j : Nat) := hub_modHub (s.modHub h (fun x => { x with backlog := g.backlog })) (h := 1 - h)
    (by rw [State.modHub, length_modAt]; omega) (fun x => { x with copies := x.copies ++ [segOf g] }) j
  refine ⟨?_, ?_, ?_⟩
  · rw [noteStaging_keeps (f := Hub.segs) (fun _ _ => rfl), noteStaging_keeps (f := Hub.segs) (fun _ _ => rfl)]
    split
    · rw [hcopy, if_neg (Ne.symm hne), hback, if_pos rfl]
    · rw [hback, if_pos rfl]
  · rw [noteStaging_keeps (f := Hub.backlog) (fun _ _ => rfl), noteStaging_keeps (f := Hub.backlog) (fun _ _ => rfl)]
    split
    · rw [hcopy, if_neg (Ne.symm hne), hback, if_pos rfl]
    · rw [hback, if_pos rfl]
  · rw [noteStaging_keeps (f := Hub.copies) (fun _ _ => rfl), noteStaging_keeps (f := Hub.copies) (fun _ _ => rfl)]
    simp only [Bool.and_eq_true]
    split
    · rw [hcopy, if_pos rfl, hback, if_neg hne]
    · rw [hback, if_neg hne]

theorem workSegment_stores {s : State} {g : SegIn} (hport : portOk g.port = true) (htakes : s.takes g.port g.wire = true)
    (hkind : g.hdr.kind = 1) (hvalid : hdrValid g.hdr g.body.length = true) (hauth : s.authentic g = true)
    (hhave : s.haveSeg g = false) (hpart : s.completes g = false) (hlen : s.hubs.length = 2) :
    ∃ t, exec (.workSegment g) s = .next t ∧
      (t.hub (g.port / 4)).segs = (s.hub (g.port / 4)).segs ++ [segOf g] ∧ (t.hub (g.port / 4)).backlog = g.backlog ∧
      (t.hub (1 - g.port / 4)).copies = (if s.bridgeUp = true ∧ (s.hub (1 - g.port / 4)).up = true
        then (s.hub (1 - g.port / 4)).copies ++ [segOf g] else (s.hub (1 - g.port / 4)).copies) ∧
      t = { s with hubs := t.hubs, out := t.out, pair := t.pair } ∧ (s.mirrors = false → t.out = s.out) := by
  have hh : g.port / 4 < 2 := by
    have h8 : g.port < 8 := of_decide_eq_true hport
    omega
  have hstored : s.storeSeg g = (s.modHub (g.port / 4) (fun x => { x with segs := x.segs ++ [segOf g] })).copySeg g := by
    simp only [State.storeSeg, htakes, hkind, hvalid, hauth, hhave, hpart]
    rfl
  have hseg (j : Nat) := hub_modHub s (h := g.port / 4) (by omega) (fun x => { x with segs := x.segs ++ [segOf g] }) j
  obtain ⟨hsegs, hback, hcopies⟩ := copiedTo_hub (s := s.modHub (g.port / 4) (fun x => { x with segs := x.segs ++ [segOf g] })) g
    (by rw [State.modHub, length_modAt, hlen]) hh rfl
  rw [hseg (g.port / 4), if_pos rfl] at hsegs
  rw [hseg (1 - g.port / 4), if_neg (show ¬ (1 - g.port / 4 = g.port / 4) by omega)] at hcopies
  refine ⟨_, answer_eq_next hport hstored, ?_, ?_, ?_, ?_, fun hm => copySeg_out _ g hm⟩
  · rw [hub_of_hubs (copySeg_hubs ..), hsegs]
  · rw [hub_of_hubs (copySeg_hubs ..), hback]
  · rw [hub_of_hubs (copySeg_hubs ..), hcopies]
    rfl
  · rw [copySeg_frame]
    rfl

theorem parts_of_hub {s t : State} {n : Nat} (h : (t.hub n).segs = (s.hub n).segs) (hd : Hdr) : t.parts n hd = s.parts n hd := by
  rw [State.parts, State.parts, h]

theorem refuse_segs (s : State) (port addr tsid stream incarn seq reason detail time h : Nat) :
    ((s.refuse port addr tsid stream incarn seq reason detail time).hub h).segs = (s.hub h).segs := by
  rw [hub_of_hubs (refuse_hubs ..)]
  exact (hub_modHub_keeps (f := fun x => { x with fold := (fun r => { r with admitMax := keepMax r.admitMax time }) x.fold })
    (g := Hub.segs) (fun _ => rfl) _ _ _).trans (hub_modHub_keeps (f := fun x => { x with
      fold := (fun r => { r with refuse := modAt r.refuse (reason - 1) inc }) x.fold }) (g := Hub.segs) (fun _ => rfl) s _ h)

theorem dropCopies_segs (s : State) (stream incarn seq h : Nat) : ((s.dropCopies stream incarn seq).hub h).segs = (s.hub h).segs := by
  refine at'_map_keeps (g := Hub.segs) ?_ s.hubs h _
  exact fun _ => rfl

theorem parts_dropParts (s : State) (n : Nat) (h : Hdr) : (s.dropParts n h).parts n h = [] := by
  by_cases hn : n < s.hubs.length
  · rw [State.parts, State.dropParts, hub_modHub s hn, if_pos rfl]
    simp
  · have hnone : s.dropParts n h = s := by
      have : ∀ (l : List Hub) (n : Nat) (f : Hub → Hub), l.length ≤ n → modAt l n f = l := by
        intro l
        induction l with
        | nil => exact fun _ _ _ => rfl
        | cons x r ih =>
          intro n f hr
          cases n with
          | zero => exact absurd hr (by simp)
          | succ n => exact congrArg (x :: ·) (ih n f (by simpa using hr))
      rw [State.dropParts, State.modHub, this _ _ _ (Nat.not_lt.1 hn)]
    rw [hnone, State.parts, State.hub, at', List.getElem?_eq_none (Nat.not_lt.1 hn)]
    rfl

theorem segmentTimeout_refuses {s : State} {hub : Nat} {h : Hdr} {x : Seg} (hhub : hubOk hub = true)
    (hlast : (s.parts hub h).getLast? = some x) (hp : s.portUp x.port = true) :
    ∃ t, exec (.segmentTimeout hub h) s = .next t ∧ t.parts hub h = [] ∧ t.entries = s.entries ∧ t.commits = s.commits ∧
      t.out = s.out ++ [s.refusal x.port x.addr h.tsid h.stream h.incarn h.seq 6 0xFFFFFFFF] := by
  have hup : ((s.dropParts hub h).dropCopies h.stream h.incarn h.seq).portUp x.port = true :=
    (dropCopies_portUp ..).trans ((portUp_congr (s := s) (t := s.dropParts hub h) rfl rfl (dropParts_sameHubs s hub h).up _).trans hp)
  obtain ⟨t, ht, hout, -, hentries, hcommits, -, -⟩ := refuse_answers hup x.addr h.tsid h.stream h.incarn h.seq 6 0xFFFFFFFF 0
  have hexec : exec (.segmentTimeout hub h) s = .next t := answer_eq_next hhub (by simp only [hlast]; exact ht)
  refine ⟨t, hexec, ?_, hentries, hcommits, hout.trans ?_⟩
  · rw [← ht, parts_of_hub (refuse_segs ..), parts_of_hub (dropCopies_segs ..), parts_dropParts]
  · rw [refusal_congr (dropCopies_secure ..) (dropCopies_streams ..), refusal_congr (s := s) (t := s.dropParts hub h) rfl rfl]
    rfl

/-! ### Frames that end, and answers to duplicates: what they leave -/

theorem clearFrame_frame (s : State) (n : Nat) : s.clearFrame n = { s with
    cores := (s.clearFrame n).cores, deposits := (s.clearFrame n).deposits, used := (s.clearFrame n).used, entries := (s.clearFrame n).entries } := by
  unfold State.clearFrame
  dsimp only
  split
  · rw [giveRuns_frame]
    rfl
  · rfl

theorem clearFrame_cores (s : State) (n : Nat) : (s.clearFrame n).cores =
    s.cores.map (fun p => if p.2.entry == some n then (p.1, p.2.release) else p) := by
  unfold State.clearFrame
  dsimp only
  split
  · rw [giveRuns_frame]
    rfl
  · rfl

/-- `t` differs from `s` by what the outcome of a frame changes. -/
def State.outcome (s t : State) : Prop :=
  t = { s with
    cores := t.cores, deposits := t.deposits, used := t.used, entries := t.entries, pkg := t.pkg, hubs := t.hubs
    out := t.out, pair := t.pair, routines := t.routines, dsm := t.dsm }

theorem State.outcome.trans {a b c : State} (hab : a.outcome b) (hbc : b.outcome c) : a.outcome c := by
  unfold State.outcome at *
  rw [hab] at hbc
  exact hbc

theorem State.outcome.commits {s t : State} (h : s.outcome t) : t.commits = s.commits := by
  unfold State.outcome at h
  rw [h]

theorem State.outcome.streams {s t : State} (h : s.outcome t) : t.streams = s.streams := by
  unfold State.outcome at h
  rw [h]

theorem dropRefs_outcome (s : State) (e : Entry) : s.outcome (s.dropRefs e) := by
  unfold State.dropRefs
  split <;> rfl

theorem modEntry_outcome (s : State) (n : Nat) (f : Entry → Entry) : s.outcome (s.modEntry n f) := rfl

theorem State.ledgered.outcome {s t : State} (h : s.ledgered t) : s.outcome t := by
  unfold State.ledgered at h
  rw [h]
  rfl

theorem commitEntry_outcome (s : State) (n : Nat) (f : Entry → Entry) : s.outcome (s.commitEntry n f) := by
  unfold State.commitEntry
  split
  · exact (modEntry_outcome ..).trans (ledger_ledgered ..).outcome
  · rfl

theorem clearFrame_outcome (s : State) (n : Nat) : s.outcome (s.clearFrame n) := by
  rw [clearFrame_frame]
  rfl

theorem completeAs_outcome (s : State) (n : Nat) (st : ResStatus) (wreason : Nat) (payload : List Byte) :
    s.outcome (s.completeAs n st wreason payload) := by
  unfold State.completeAs
  split
  · rfl
  · next e _ =>
    have hdone : s.outcome (if e.st = .complete ∨ e.st = .sent
        then (s.clearFrame n).commitEntry n (fun x => { x.decided st wreason payload with st := .running })
        else (s.clearFrame n).modEntry n (fun x => x.decided st wreason payload)) := by
      refine (clearFrame_outcome s n).trans ?_
      split
      · exact commitEntry_outcome ..
      · rfl
    dsimp only
    split
    · exact hdone.trans (dropRefs_outcome ..)
    · exact hdone

theorem doCancel_outcome (s : State) (e : Entry) (n : Nat) : s.outcome (s.doCancel e n) := by
  unfold State.doCancel
  split
  · rfl
  · dsimp only
    refine State.outcome.trans ?_ (modEntry_outcome ..)
    split
    · split
      · exact completeAs_outcome ..
      · rfl
    · rfl

theorem noteAck_frame (s : State) (n p : Nat) : s.noteAck n p = { s with entries := (s.noteAck n p).entries } := by
  unfold State.noteAck
  split <;> rfl

theorem accept_outcome (s : State) (port addr tsid stream incarn seq flags cseq time : Nat) :
    (s.accept port addr tsid stream incarn seq flags cseq time) = { s with
      secure := (s.accept port addr tsid stream incarn seq flags cseq time).secure
      out := (s.accept port addr tsid stream incarn seq flags cseq time).out
      hubs := (s.accept port addr tsid stream incarn seq flags cseq time).hubs } := accept_frame ..

/-- An answer to a duplicate changes no commit, stream or core, and of an entry only that it is acknowledged. -/
structure State.Answered (s t : State) : Prop where
  commits : t.commits = s.commits
  streams : t.streams = s.streams
  cores : t.cores = s.cores
  entry : ∀ n e, s.entry? n = some e → ∃ a, t.entry? n = some { e with acked := a }

theorem State.Answered.trans {a b c : State} (hab : a.Answered b) (hbc : b.Answered c) : a.Answered c := by
  refine ⟨hbc.commits.trans hab.commits, hbc.streams.trans hab.streams, hbc.cores.trans hab.cores, fun n e he => ?_⟩
  obtain ⟨x, hx⟩ := hab.entry n e he
  obtain ⟨y, hy⟩ := hbc.entry n _ hx
  exact ⟨y, hy⟩

theorem State.Answered.of_frame {s t : State} (hcommits : t.commits = s.commits) (hstreams : t.streams = s.streams)
    (hcores : t.cores = s.cores) (hentries : t.entries = s.entries) : s.Answered t :=
  ⟨hcommits, hstreams, hcores, fun n e he => ⟨e.acked, (entry?_of_entries hentries n).trans he⟩⟩

theorem accept_answered (s : State) (port addr tsid stream incarn seq flags cseq time : Nat) :
    s.Answered (s.accept port addr tsid stream incarn seq flags cseq time) := by
  obtain ⟨hcommits, hstreams, hcores, hentries⟩ := accept_keeps s port addr tsid stream incarn seq flags cseq time
  exact .of_frame hcommits hstreams hcores hentries

theorem noteAck_answered (s : State) (n p : Nat) : s.Answered (s.noteAck n p) := by
  unfold State.noteAck
  split
  · refine ⟨rfl, rfl, rfl, fun m e he => ?_⟩
    by_cases hm : m = n
    · subst hm
      exact ⟨true, entry?_modEntry he rfl⟩
    · refine ⟨e.acked, Eq.trans (entry?_modEntry_ne s ?_ hm) he⟩
      exact fun _ => rfl
  · exact .of_frame rfl rfl rfl rfl

theorem acceptDup_answered (s : State) (port addr tsid stream incarn seq time : Nat) :
    s.Answered (s.acceptDup port addr tsid stream incarn seq time) := by
  unfold State.acceptDup
  split
  · exact ((accept_answered ..).trans (noteAck_answered ..)).trans (.of_frame rfl rfl rfl rfl)
  · exact (accept_answered s port addr tsid stream incarn seq 3 0 time).trans (.of_frame rfl rfl rfl rfl)

theorem acceptDups_answered (l : List (Nat × Nat)) (s : State) (tsid stream incarn seq time : Nat) :
    s.Answered (l.foldl (fun s p => s.acceptDup p.1 p.2 tsid stream incarn seq time) s) := by
  induction l generalizing s with
  | nil => exact .of_frame rfl rfl rfl rfl
  | cons p l ih => exact (acceptDup_answered ..).trans (ih _)

/-! ### Commits that are confirmed (R345 to R348, R353, R364) -/

section
variable {s : State} {c : Commit} {hub time : Nat}

/-- The confirmation of a hub's copy that counts. -/
theorem exec_ledgerConfirm (hhub : hubOk hub = true) (hfind : s.commits.find? (fun x => x.cseq == c.cseq) = some c)
    (hnum : c.cseq ≠ 0) (hup : (s.hub hub).up = true) (hreach : hub = c.hub ∨ s.bridgeUp = true ∨ (s.hub c.hub).up = false) :
    exec (.ledgerConfirm ⟨c.cseq, time⟩ hub) s =
      .next (s.progress { c with needHubs := c.needHubs.filter (· != hub) } time) := by
  refine answer_eq_next hhub ?_
  have hcond : c.cseq ≠ 0 ∧ (s.hub hub).up = true ∧ (hub = c.hub ∨ s.bridgeUp = true ∨ (!(s.hub c.hub).up) = true) :=
    ⟨hnum, hup, hreach.imp_right (·.imp_right (by simp))⟩
  simp only [hfind, State.hubConfirms]
  exact if_pos hcond

theorem progress_waits {d : Commit} (h : d.needPeer = true ∨ d.needHubs ≠ []) : s.progress d time =
    { s with commits := s.commits.map (fun x => if x.cseq == d.cseq then d else x) } := by
  refine if_neg ?_
  rcases h with h | h <;> simp [Commit.whole, h]

theorem progress_whole {d : Commit} (hpeer : d.needPeer = false) (hhubs : d.needHubs = []) (hnum : d.cseq ≠ 0) :
    s.progress d time = s.confirm d time := if_pos (by simp [Commit.whole, hpeer, hhubs, hnum])

/-- `s` as a confirmed commit finds it: the copies of its frame's segments are gone, and it waits no more. -/
def State.unlisted (s : State) (c : Commit) : State :=
  { s.dropCopies c.entry.stream c.entry.incarn c.entry.seq with commits := s.commits.filter (fun x => x.cseq != c.cseq) }

/-- `s` with the entry of a confirmed commit in the Fold, before a CANCEL acts. -/
def State.joined (s : State) (e : Entry) : State :=
  ({ s with entries := s.entries ++ [e] }.modStream e.stream (fun x => x.commit e)).applied e.cseq

theorem admitEntry_outcome (s : State) (e : Entry) : (s.joined e).outcome (s.admitEntry e) := by
  unfold State.admitEntry
  dsimp only
  split
  · exact doCancel_outcome ..
  · rfl

theorem admitEntry_plain (s : State) {e : Entry} (h : ∀ n, e.op ≠ .cancel n) : s.admitEntry e = s.joined e := by
  unfold State.admitEntry
  dsimp only
  split
  · next n hop => exact absurd hop (h n)
  · rfl

/-- `s` once the ACCEPT of the commit `c` is on the wire, and counted. -/
def State.greeted (s : State) (c : Commit) (time : Nat) : State :=
  ((s.accept c.port c.addr c.entry.tsid c.entry.stream c.entry.incarn c.entry.seq 0 c.entry.cseq time).noteAck
    c.entry.cseq c.port).modFold c.hub (fun r => { r with accepts := inc r.accepts })

theorem confirm_eq (s : State) (c : Commit) (time : Nat) : s.confirm c time =
    c.dupPorts.foldl (fun s p => s.acceptDup p.1 p.2 c.entry.tsid c.entry.stream c.entry.incarn c.entry.seq time)
      (((s.unlisted c).admitEntry c.entry).greeted c time) := rfl

theorem greeted_answered (s : State) (c : Commit) (time : Nat) : s.Answered (s.greeted c time) :=
  ((accept_answered s c.port c.addr c.entry.tsid c.entry.stream c.entry.incarn c.entry.seq 0 c.entry.cseq time).trans
    (noteAck_answered ..)).trans (.of_frame rfl rfl rfl rfl)

/-- What a confirmed commit leaves of the commits, the streams and the cores. -/
theorem confirm_answered (s : State) (c : Commit) (time : Nat) : ((s.unlisted c).admitEntry c.entry).Answered (s.confirm c time) := by
  rw [confirm_eq]
  exact (greeted_answered ..).trans (acceptDups_answered ..)

theorem stream_joined (s : State) (e : Entry) (n : Nat) :
    (s.joined e).stream n = if n = e.stream then (s.stream e.stream).commit e else s.stream n := by
  simp only [State.stream, State.joined, State.modStream, State.applied, Tbl_get_set]
  split <;> rfl

theorem stream_of_streams {s t : State} (h : t.streams = s.streams) (n : Nat) : t.stream n = s.stream n := by
  rw [State.stream, State.stream, h]

theorem confirm_commits (s : State) (c : Commit) (time : Nat) :
    (s.confirm c time).commits = s.commits.filter (fun x => x.cseq != c.cseq) :=
  (confirm_answered ..).commits.trans (admitEntry_outcome ..).commits

theorem confirm_stream (s : State) (c : Commit) (time n : Nat) :
    (s.confirm c time).stream n = if n = c.entry.stream then (s.stream c.entry.stream).commit c.entry else s.stream n := by
  rw [stream_of_streams ((confirm_answered ..).streams.trans (admitEntry_outcome ..).streams), stream_joined]
  rfl

theorem commit_run {x : Stream} {e : Entry} {b : RunBody} (h : e.op = .run b) :
    x.commit e = { x with nextSeq := e.seq + 1, outst := x.outst + 1 } := by simp only [Stream.commit, h]

theorem commit_open {x : Stream} {e : Entry} {n : Nat} (h : e.op = .open n) :
    x.commit e = ⟨.open, some e.incarn, e.tsid, e.seq + 1, n, 1, e.homeHere, e.port, e.addr⟩ := by simp only [Stream.commit, h]

theorem commit_close {x : Stream} {e : Entry} (h : e.op = .close) :
    x.commit e = { x with st := .closing, nextSeq := e.seq + 1, outst := x.outst + 1 } := by simp only [Stream.commit, h]

theorem commit_cancel {x : Stream} {e : Entry} {n : Nat} (h : e.op = .cancel n) :
    x.commit e = { x with nextSeq := e.seq + 1, outst := x.outst + 1 } := by simp only [Stream.commit, h]

end

theorem joined_sameHubs (s : State) (e : Entry) : s.SameHubs (s.joined e) := by
  refine ⟨fun h => at'_map_keeps (g := Hub.up) ?_ s.hubs h _, fun h => at'_map_keeps (g := Hub.fold) ?_ s.hubs h _,
    List.length_map _⟩
  · exact fun _ => rfl
  · exact fun _ => rfl

theorem unlisted_sameHubs (s : State) (c : Commit) : s.SameHubs (s.unlisted c) :=
  (dropCopies_sameHubs s c.entry.stream c.entry.incarn c.entry.seq).trans (.of_hubs rfl)

theorem joined_portUp (s : State) (c : Commit) (n : Nat) : ((s.unlisted c).joined c.entry).portUp n = s.portUp n :=
  portUp_congr (s := s) (t := (s.unlisted c).joined c.entry) rfl rfl
    ((unlisted_sameHubs s c).trans (joined_sameHubs ..)).up n

theorem joined_out (s : State) (c : Commit) : ((s.unlisted c).joined c.entry).out = s.out := rfl

theorem noteAck_out (s : State) (n p : Nat) : (s.noteAck n p).out = s.out := by
  rw [noteAck_frame]

/-- The ACCEPT of a commit that no duplicate waits for (R353). -/
theorem confirm_greets {s : State} {c : Commit} (hplain : ∀ n, c.entry.op ≠ .cancel n) (hdups : c.dupPorts = [])
    (hp : s.portUp c.port = true) (time : Nat) :
    (s.confirm c time).entries = (s.entries ++ [c.entry]).map (fun y => if y.cseq = c.entry.cseq then { y with acked := true } else y) ∧
      (s.confirm c time).out = s.out ++ [{ s with streams := (s.confirm c time).streams }.acceptance c.port c.addr c.entry.tsid
        c.entry.stream c.entry.incarn c.entry.seq 0 c.entry.cseq] ∧
      (s.confirm c time).cores = s.cores := by
  have hstreams := (confirm_answered s c time).streams
  have hcores := (confirm_answered s c time).cores
  have heq := confirm_eq s c time
  rw [hdups, List.foldl_nil, admitEntry_plain _ hplain] at heq
  rw [admitEntry_plain _ hplain] at hstreams hcores
  have hup := (joined_portUp s c c.port).trans hp
  obtain ⟨-, -, -, hentries⟩ := accept_keeps ((s.unlisted c).joined c.entry) c.port c.addr c.entry.tsid c.entry.stream c.entry.incarn
    c.entry.seq 0 c.entry.cseq time
  have hout := accept_out hup c.addr c.entry.tsid c.entry.stream c.entry.incarn c.entry.seq 0 c.entry.cseq time
  have hack := (accept_portUp ((s.unlisted c).joined c.entry) c.port c.addr c.entry.tsid c.entry.stream c.entry.incarn
    c.entry.seq 0 c.entry.cseq time c.port).trans hup
  refine ⟨?_, ?_, hcores⟩
  · rw [heq, State.greeted, State.noteAck, if_pos hack]
    refine (congrArg (List.map _) hentries).trans ?_
    refine List.map_congr_left fun x _ => ?_
    simp only [beq_iff_eq]
  · have hgreet : ∀ u : State, (u.modFold c.hub (fun r => { r with accepts := inc r.accepts })).out = u.out := fun _ => rfl
    have hans := acceptance_congr (s := { s with streams := (s.confirm c time).streams }) (t := (s.unlisted c).joined c.entry) rfl
      hstreams.symm c.port c.addr c.entry.tsid c.entry.stream c.entry.incarn c.entry.seq 0 c.entry.cseq
    rw [← hans]
    refine (congrArg State.out heq).trans ?_
    rw [State.greeted, hgreet, noteAck_out, hout, joined_out]

/-! ### A CANCEL that ends its target (R364) -/

theorem dropRefs_entries (s : State) (e : Entry) : (s.dropRefs e).entries = s.entries := by
  unfold State.dropRefs
  split <;> rfl

theorem dropRefs_cores (s : State) (e : Entry) : (s.dropRefs e).cores = s.cores := by
  unfold State.dropRefs
  split <;> rfl

section
variable {s : State} {n : Nat} {e : Entry} (he : s.entry? n = some e) (hst : e.st ≠ .complete) (hsent : e.st ≠ .sent)
  (st : ResStatus) (wreason : Nat) (payload : List Byte)
include he hst hsent

/-- The outcome of an entry that is not complete: what it had on the cores is gone, and it is decided. -/
theorem completeAs_open : (s.completeAs n st wreason payload).entries =
      ((s.clearFrame n).modEntry n (fun x => x.decided st wreason payload)).entries ∧
    (s.completeAs n st wreason payload).cores = (s.clearFrame n).cores := by
  have hopen : ¬ (e.st = .complete ∨ e.st = .sent) := fun h => h.elim hst hsent
  simp only [State.completeAs, he, if_neg hopen]
  split
  · exact ⟨dropRefs_entries .., dropRefs_cores ..⟩
  · exact ⟨rfl, rfl⟩

theorem completeAs_entry : (s.completeAs n st wreason payload).entry? n =
    some ({ e with frame := { e.frame with pages := [] } }.decided st wreason payload) := by
  rw [entry?_of_entries (completeAs_open he hst hsent st wreason payload).1]
  exact entry?_modEntry (entry?_clearFrame he) rfl

omit hst hsent in
theorem clearFrame_entry_ne {m : Nat} (hm : m ≠ n) : (s.clearFrame n).entry? m = s.entry? m := by
  simp only [State.clearFrame, he]
  refine (entry?_modEntry_ne _ ?_ hm).trans ?_
  · exact fun _ => rfl
  · rw [giveRuns_frame]
    rfl

theorem completeAs_entry_ne {m : Nat} (hm : m ≠ n) : (s.completeAs n st wreason payload).entry? m = s.entry? m := by
  rw [entry?_of_entries (completeAs_open he hst hsent st wreason payload).1]
  refine (entry?_modEntry_ne _ ?_ hm).trans (clearFrame_entry_ne he hm)
  exact fun _ => rfl

theorem completeAs_core (k : Nat) : (s.completeAs n st wreason payload).core k =
    if (s.core k).entry = some n then (s.core k).release else s.core k := by
  have h := State_core_map_if s (fun c => c.entry == some n) Core.release rfl k
  rw [State.core, (completeAs_open he hst hsent st wreason payload).2, clearFrame_cores]
  refine h.trans ?_
  by_cases hk : (s.core k).entry = some n
  · rw [if_pos (by simpa using hk), if_pos hk]
  · rw [if_neg (by simpa using hk), if_neg hk]

end

theorem doCancel_ends {s : State} {e x : Entry} {n : Nat} {b : RunBody} (hnew : e.payload = [])
    (htarget : s.target? e.stream e.incarn n = some x) (hop : x.op = .run b) (hst : x.st ≠ .complete) (hsent : x.st ≠ .sent) :
    s.doCancel e n = (s.completeAs x.cseq .cancelled 0 []).modEntry e.cseq (fun y => { y with payload := cancelPayload 0 }) := by
  have hcode : s.cancelCode e.stream e.incarn n = 0 := by
    simp only [State.cancelCode, htarget, hop, hst, hsent, or_self, if_false]
  simp only [State.doCancel, hnew, hcode, htarget]
  rfl

theorem joined_entries (s : State) (c : Commit) : ((s.unlisted c).joined c.entry).entries = s.entries ++ [c.entry] := rfl

theorem joined_cores (s : State) (c : Commit) : ((s.unlisted c).joined c.entry).cores = s.cores := rfl

theorem entry?_joined {s : State} {n : Nat} {x : Entry} (hx : s.entry? n = some x) (c : Commit) :
    ((s.unlisted c).joined c.entry).entry? n = some x := by
  rw [State.entry?] at hx ⊢
  rw [joined_entries, List.find?_append, hx, Option.some_or]

theorem entry?_joined_new {s : State} {c : Commit} (hnum : c.entry.cseq = c.cseq) (hnew : s.entry? c.cseq = none) :
    ((s.unlisted c).joined c.entry).entry? c.cseq = some c.entry := by
  rw [State.entry?] at hnew ⊢
  rw [joined_entries, List.find?_append, hnew, Option.none_or, List.find?_cons_of_pos (by simpa using hnum)]

theorem target?_joined {s : State} {stream incarn n : Nat} {x : Entry} (hx : s.target? stream incarn n = some x) (c : Commit) :
    ((s.unlisted c).joined c.entry).target? stream incarn n = some x := by
  rw [State.target?] at hx ⊢
  rw [joined_entries, List.find?_append, hx, Option.some_or]

theorem admitEntry_cancel (s : State) {e : Entry} {n : Nat} (h : e.op = .cancel n) : s.admitEntry e = (s.joined e).doCancel e n := by
  simp only [State.admitEntry, h]
  rfl

/-- A CANCEL whose target is a RUN that has not completed (R364). -/
theorem confirm_cancels {s : State} {c : Commit} {n : Nat} {x : Entry} {b : RunBody} (hop : c.entry.op = .cancel n)
    (hempty : c.entry.payload = []) (hnum : c.entry.cseq = c.cseq) (hnew : s.entry? c.cseq = none)
    (htarget : s.target? c.entry.stream c.entry.incarn n = some x) (hx : s.entry? x.cseq = some x) (hrun : x.op = .run b)
    (hst : x.st ≠ .complete) (hsent : x.st ≠ .sent) (time : Nat) :
    ∃ y z, (s.confirm c time).entry? x.cseq = some y ∧ y.st = x.st ∧ y.ended = true ∧ y.status = .cancelled ∧ y.payload = [] ∧
      (s.confirm c time).entry? c.cseq = some z ∧ z.op = .cancel n ∧ z.payload = 0 :: List.replicate 63 0 ∧
      (∀ k, (s.core k).entry = some x.cseq → ((s.confirm c time).core k).st = .idle ∧ ((s.confirm c time).core k).entry = none) ∧
      (∀ k, (s.core k).entry ≠ some x.cseq → (s.confirm c time).core k = s.core k) := by
  have hne : x.cseq ≠ c.cseq := fun h => by simp [h, hnew] at hx
  have hjx := entry?_joined hx c
  have hjc := entry?_joined_new hnum hnew
  have hdone := (admitEntry_cancel (s.unlisted c) hop).trans (doCancel_ends hempty (target?_joined htarget c) hrun hst hsent)
  rw [hnum] at hdone
  have hans := confirm_answered s c time
  rw [hdone] at hans
  have hkeep := entry?_modEntry_ne (n := c.cseq) (((s.unlisted c).joined c.entry).completeAs x.cseq .cancelled 0 [])
    (f := fun y => { y with payload := cancelPayload 0 }) (fun _ => rfl) hne
  obtain ⟨a, hy⟩ := hans.entry x.cseq _ (hkeep.trans (completeAs_entry hjx hst hsent .cancelled 0 []))
  obtain ⟨d, hz⟩ := hans.entry c.cseq _ (entry?_modEntry
    ((completeAs_entry_ne hjx hst hsent .cancelled 0 [] hne.symm).trans hjc) (f := fun y => { y with payload := cancelPayload 0 }) rfl)
  have hcore (k : Nat) : (s.confirm c time).core k = if (s.core k).entry = some x.cseq then (s.core k).release else s.core k := by
    rw [State.core, hans.cores]
    exact completeAs_core hjx hst hsent .cancelled 0 [] k
  refine ⟨_, _, hy, rfl, rfl, rfl, rfl, hz, hop, rfl, fun k hk => ?_, fun k hk => ?_⟩
  · rw [hcore, if_pos hk]
    exact ⟨rfl, rfl⟩
  · rw [hcore, if_neg hk]

/-! ### Commits that are struck (R348, R357) -/

theorem length_ackBody (accept : Bool) (reason flags credit nextSeq detail cseq : Nat) :
    (ackBody accept reason flags credit nextSeq detail cseq).length = 32 := by
  simp [ackBody, beBytes, leBytes]

/-- The REFUSE that goes to `p` with the IV `iv`, the stream being `x`. -/
def refuseOut (e : Entry) (x : Stream) (reason detail : Nat) (p : Nat × Nat) (iv : Nat) : Out :=
  .seg p.1 p.2 (Hdr.bytes { headOf 2 e.tsid e.stream e.incarn e.seq with bodylen := 32, iv := iv })
    (ackBody false reason 0 x.creditLeft x.nextSeq detail 0)

theorem refusal_eq (s : State) (e : Entry) (reason detail : Nat) (p : Nat × Nat) :
    s.refusal p.1 p.2 e.tsid e.stream e.incarn e.seq reason detail =
      refuseOut e (s.stream e.stream) reason detail p (s.nextIv p.1 e.tsid).2 := by
  simp only [State.refusal, State.segOut, refuseOut, length_ackBody]
  rfl

theorem refuse_portUp (s : State) (port addr tsid stream incarn seq reason detail time n : Nat) :
    (s.refuse port addr tsid stream incarn seq reason detail time).portUp n = s.portUp n := by
  refine portUp_congr ?_ ?_ (refuse_up s port addr tsid stream incarn seq reason detail time) n
  · rw [refuse_frame]
  · rw [refuse_frame]

/-- From `s` to `t` the commits, the entries, the streams and the cores are the same, and the same ports are up. -/
structure State.SameWork (s t : State) : Prop where
  commits : t.commits = s.commits
  entries : t.entries = s.entries
  streams : t.streams = s.streams
  cores : t.cores = s.cores
  portUp : ∀ n, t.portUp n = s.portUp n

theorem State.SameWork.trans {a b c : State} (hab : a.SameWork b) (hbc : b.SameWork c) : a.SameWork c :=
  ⟨hbc.commits.trans hab.commits, hbc.entries.trans hab.entries, hbc.streams.trans hab.streams, hbc.cores.trans hab.cores,
    fun n => (hbc.portUp n).trans (hab.portUp n)⟩

theorem refuse_sameWork (s : State) (port addr tsid stream incarn seq reason detail time : Nat) :
    s.SameWork (s.refuse port addr tsid stream incarn seq reason detail time) := by
  have hframe := refuse_frame s port addr tsid stream incarn seq reason detail time
  refine ⟨?_, ?_, ?_, ?_, refuse_portUp s port addr tsid stream incarn seq reason detail time⟩ <;> rw [hframe]

theorem countDup_sameWork (s : State) (port : Nat) : s.SameWork (s.countDup port) := by
  refine ⟨rfl, rfl, rfl, rfl, portUp_congr rfl rfl ?_⟩
  exact fun h => modFold_up s _ _ h

/-- Every port of `l` gets its REFUSE, one after the other. -/
theorem refuseDups_out (e : Entry) (reason detail time : Nat) : ∀ (l : List (Nat × Nat)) (s : State),
    (∀ p ∈ l, s.portUp p.1 = true) → ∃ t ivs,
      l.foldl (fun s p => (s.refuse p.1 p.2 e.tsid e.stream e.incarn e.seq reason detail time).countDup p.1) s = t ∧
        s.SameWork t ∧ ivs.length = l.length ∧
        t.out = s.out ++ l.zipWith (refuseOut e (s.stream e.stream) reason detail) ivs := by
  intro l
  induction l with
  | nil => exact fun s _ => ⟨s, [], rfl, ⟨rfl, rfl, rfl, rfl, fun _ => rfl⟩, rfl, by simp⟩
  | cons p l ih =>
    intro s hup
    have hwork := (refuse_sameWork s p.1 p.2 e.tsid e.stream e.incarn e.seq reason detail time).trans (countDup_sameWork _ p.1)
    obtain ⟨t, ivs, ht, hsame, hlen, hout⟩ := ih _ (fun q hq => (hwork.portUp q.1).trans (hup q (List.mem_cons_of_mem _ hq)))
    refine ⟨t, (s.nextIv p.1 e.tsid).2 :: ivs, ht, hwork.trans hsame, congrArg (· + 1) hlen, hout.trans ?_⟩
    have hone := refuse_out (hup p (List.mem_cons_self ..)) p.2 e.tsid e.stream e.incarn e.seq reason detail time
    have hfirst : ((s.refuse p.1 p.2 e.tsid e.stream e.incarn e.seq reason detail time).countDup p.1).out =
        s.out ++ [refuseOut e (s.stream e.stream) reason detail p (s.nextIv p.1 e.tsid).2] := by
      rw [← refusal_eq]
      exact hone
    rw [hfirst, stream_of_streams hwork.streams, List.append_assoc]
    rfl

theorem freeParcel_frame (s : State) (p : Parcel) : s.freeParcel p = { s with used := (s.freeParcel p).used } := by
  unfold State.freeParcel
  split
  · exact giveRun_frame ..
  · rw [giveRun_frame (s.giveRun ..), giveRun_frame]

/-- `s` as a struck commit leaves it before it is refused: it waits no more, and its parcels are given back. -/
def State.unmade (s : State) (c : Commit) : State :=
  ({ s.dropCopies c.entry.stream c.entry.incarn c.entry.seq with
    commits := s.commits.erase c
    pair := { s.pair with
      unconf := (markStruck c.entry s.pair.unconf).filter
        (fun x => x != [c.cseq, 1, c.entry.stream, c.entry.incarn, c.entry.seq]) } }.freeParcel c.entry.ipar).freeParcel c.entry.rpar

theorem unmade_frame (s : State) (c : Commit) : s.unmade c = { s with
    commits := s.commits.erase c
    pair := (s.unmade c).pair
    hubs := (s.unmade c).hubs
    used := (s.unmade c).used } := by
  unfold State.unmade
  rw [freeParcel_frame, freeParcel_frame]
  rfl

theorem unmade_up (s : State) (c : Commit) (h : Nat) : ((s.unmade c).hub h).up = (s.hub h).up := by
  have hhubs : (s.unmade c).hubs = (s.dropCopies c.entry.stream c.entry.incarn c.entry.seq).hubs := by
    unfold State.unmade
    rw [freeParcel_frame, freeParcel_frame]
  exact (congrArg Hub.up (hub_of_hubs hhubs h)).trans ((dropCopies_sameHubs s c.entry.stream c.entry.incarn c.entry.seq).up h)

theorem unmade_portUp (s : State) (c : Commit) (n : Nat) : (s.unmade c).portUp n = s.portUp n := by
  refine portUp_congr ?_ ?_ (unmade_up s c) n <;> rw [unmade_frame]

/-- `s` once the partner is told of the struck commit `c`, where it mirrors. -/
def State.strikeTold (s : State) (mirrors : Bool) (c : Commit) : State :=
  if mirrors then (s.sendPair 10 (strikeFields c.cseq c.entry.stream c.entry.incarn c.entry.seq) []).countStrike else s

theorem strikeTold_sameWork (s : State) (mirrors : Bool) (c : Commit) : s.SameWork (s.strikeTold mirrors c) := by
  unfold State.strikeTold
  split
  · rw [sendPair_frame]
    exact ⟨rfl, rfl, rfl, rfl, fun _ => rfl⟩
  · exact ⟨rfl, rfl, rfl, rfl, fun _ => rfl⟩

theorem strikeTold_out (s : State) (mirrors : Bool) (c : Commit) :
    ∃ l, (s.strikeTold mirrors c).out = s.out ++ l ∧ (mirrors = false → l = []) := by
  unfold State.strikeTold State.sendPair
  cases mirrors with
  | false => exact ⟨[], by simp⟩
  | true =>
    rw [if_pos rfl]
    split
    · exact ⟨[], by simp [State.countStrike]⟩
    · exact ⟨_, rfl, by simp⟩

theorem strike_eq (s : State) (c : Commit) (time : Nat) : s.strike c time =
    c.dupPorts.foldl (fun u p => (u.refuse p.1 p.2 c.entry.tsid c.entry.stream c.entry.incarn c.entry.seq
        (if c.needPeer then 8 else 3) (if c.needPeer then 0 else 4) time).countDup p.1)
      (((s.unmade c).strikeTold s.mirrors c).refuse c.port c.addr c.entry.tsid c.entry.stream c.entry.incarn c.entry.seq
        (if c.needPeer then 8 else 3) (if c.needPeer then 0 else 4) time) := rfl

theorem strike_refuses {s : State} {c : Commit} (hup : ∀ p ∈ (c.port, c.addr) :: c.dupPorts, s.portUp p.1 = true) (time : Nat) :
    ∃ t l ivs, s.strike c time = t ∧ t.commits = s.commits.erase c ∧ t.entries = s.entries ∧ t.streams = s.streams ∧
      t.cores = s.cores ∧ (s.mirrors = false → l = []) ∧ ivs.length = c.dupPorts.length + 1 ∧
      t.out = s.out ++ l ++ ((c.port, c.addr) :: c.dupPorts).zipWith (refuseOut c.entry (s.stream c.entry.stream)
        (if c.needPeer then 8 else 3) (if c.needPeer then 0 else 4)) ivs := by
  have htold := strikeTold_sameWork (s.unmade c) s.mirrors c
  have hwork := htold.trans (refuse_sameWork ((s.unmade c).strikeTold s.mirrors c) c.port c.addr c.entry.tsid c.entry.stream
    c.entry.incarn c.entry.seq (if c.needPeer then 8 else 3) (if c.needPeer then 0 else 4) time)
  have hports (n : Nat) := (htold.portUp n).trans (unmade_portUp s c n)
  have hfirst := refuse_out ((hports c.port).trans (hup _ (List.mem_cons_self ..))) c.addr c.entry.tsid c.entry.stream
    c.entry.incarn c.entry.seq (if c.needPeer then 8 else 3) (if c.needPeer then 0 else 4) time
  obtain ⟨l, hl, hnone⟩ := strikeTold_out (s.unmade c) s.mirrors c
  obtain ⟨t, ivs, ht, hsame, hlen, hout⟩ := refuseDups_out c.entry (if c.needPeer then 8 else 3) (if c.needPeer then 0 else 4)
    time c.dupPorts _ (fun q hq =>
      (hwork.portUp q.1).trans ((unmade_portUp s c q.1).trans (hup q (List.mem_cons_of_mem _ hq))))
  have hall := hwork.trans hsame
  have hunmade : (s.unmade c).out = s.out ∧ (s.unmade c).streams = s.streams := by rw [unmade_frame]; exact ⟨rfl, rfl⟩
  refine ⟨t, l, (((s.unmade c).strikeTold s.mirrors c).nextIv c.port c.entry.tsid).2 :: ivs, (strike_eq s c time).trans ht, hall.commits.trans ?_, hall.entries.trans ?_,
    hall.streams.trans hunmade.2, hall.cores.trans ?_, hnone, congrArg (· + 1) hlen, hout.trans ?_⟩
  · rw [unmade_frame]
  · rw [unmade_frame]
  · rw [unmade_frame]
  · have htoldStream := stream_of_streams (htold.streams.trans hunmade.2) c.entry.stream
    rw [hfirst, refusal_eq ((s.unmade c).strikeTold s.mirrors c) c.entry _ _ (c.port, c.addr), hl, hunmade.1,
      stream_of_streams (hwork.streams.trans hunmade.2), htoldStream, List.zipWith_cons_cons]
    simp only [List.append_assoc, List.singleton_append]

/-- The confirmation that a commit still lacks copies after (R346). -/
theorem ledgerConfirm_waits {s : State} {c : Commit} {hub : Nat} (hlack : c.needPeer = true ∨ ∃ h ∈ c.needHubs, h ≠ hub) (time : Nat) :
    s.progress { c with needHubs := c.needHubs.filter (· != hub) } time = { s with
      commits := s.commits.map (fun y => if y.cseq = c.cseq then { c with needHubs := c.needHubs.filter (· != hub) } else y) } := by
  rw [progress_waits]
  · simp only [beq_iff_eq]
  · refine hlack.imp_right fun ⟨h, hmem, hne⟩ hnil => ?_
    have hin : h ∈ c.needHubs.filter (· != hub) := List.mem_filter.mpr ⟨hmem, by simpa using hne⟩
    rw [show c.needHubs.filter (· != hub) = [] from hnil] at hin
    exact List.not_mem_nil hin

/-- The last confirmation of a commit. -/
theorem ledgerConfirm_whole {s : State} {c : Commit} {hub : Nat} (hpeer : c.needPeer = false) (hhubs : ∀ h ∈ c.needHubs, h = hub)
    (hnum : c.cseq ≠ 0) (time : Nat) : s.progress { c with needHubs := c.needHubs.filter (· != hub) } time =
      s.confirm { c with needHubs := c.needHubs.filter (· != hub) } time := by
  refine progress_whole hpeer ?_ hnum
  exact List.filter_eq_nil_iff.mpr fun h hh => by simpa using hhubs h hh

theorem exec_commitDeadline {s : State} {c : Commit} (hfind : s.commits.find? (fun y => y.cseq == c.cseq) = some c) (time : Nat) :
    exec (.commitDeadline ⟨c.cseq, time⟩) s = .next (s.strike c time) := by
  refine answer_eq_next rfl ?_
  simp only [hfind]

/-- Settles O25: the segments that wait, the confirmations of a commit up to the last, a CANCEL that ends its target, and
the strike of a commit that is not confirmed in time. -/
theorem segmentsAndCommits : Obligations.SegmentsAndCommits := by
  unfold Obligations.SegmentsAndCommits
  refine ⟨⟨?segment, ?timeout⟩, ?confirm, ?cancel, ?deadline⟩
  case segment =>
    intro s g hport htakes hkind hvalid hauth hhave hcompletes hlen
    exact workSegment_stores hport htakes hkind hvalid hauth hhave hcompletes hlen
  case timeout =>
    intro s hub h x hhub hlast hp
    exact segmentTimeout_refuses hhub hlast hp
  case confirm =>
    intro s c hub time hhub hfind hnum hup hreach
    have hexec := exec_ledgerConfirm (time := time) hhub hfind hnum hup hreach
    refine ⟨fun hlack => hexec.trans (congrArg _ (ledgerConfirm_waits hlack time)), fun hpeer hhubs => ?_⟩
    rw [ledgerConfirm_whole hpeer hhubs hnum time] at hexec
    have hstream := confirm_stream s { c with needHubs := c.needHubs.filter (· != hub) } time c.entry.stream
    rw [if_pos rfl] at hstream
    refine ⟨_, hexec, confirm_commits .., fun n hn => ?_, fun b hop => hstream.trans (commit_run hop),
      fun n hop => hstream.trans (commit_open hop), fun hop => hstream.trans (commit_close hop),
      fun n hop => hstream.trans (commit_cancel hop), fun hplain hdups hp => confirm_greets hplain hdups hp time⟩
    exact (confirm_stream ..).trans (if_neg hn)
  case cancel =>
    intro s c hub time n x b hhub hfind hnum hup hreach hpeer hhubs hop hempty hentry hnew htarget hx hrun hst hsent
    have hexec := exec_ledgerConfirm (time := time) hhub hfind hnum hup hreach
    rw [ledgerConfirm_whole hpeer hhubs hnum time] at hexec
    obtain ⟨y, z, h⟩ := confirm_cancels (c := { c with needHubs := c.needHubs.filter (· != hub) }) hop hempty hentry hnew htarget
      hx hrun hst hsent time
    exact ⟨_, y, z, hexec, h⟩
  case deadline =>
    intro s c time hfind hup
    obtain ⟨t, l, ivs, ht, h⟩ := strike_refuses hup time
    exact ⟨t, l, ivs, (exec_commitDeadline hfind time).trans (congrArg _ ht), h⟩

/-! ### Dispatch (R362, R389, R400) -/

section
variable {s : State} {cseq : Nat} {e : Entry} {b : RunBody}

theorem exec_dispatch (he : s.entry? cseq = some e) (hop : e.op = .run b) : exec (.dispatch cseq) s = .next (s.dispatch e b) := by
  refine answer_eq_next rfl ?_
  simp only [he, hop]

/-- Cores taken by a frame, one after the other: a core of the list starts its frame, another one is as it was. -/
theorem takeCores_core (l : List (Nat × Nat)) (s : State) (k : Nat) :
    (k ∈ l.map (·.2) → ∃ r c, (l.foldl (fun s p => s.modCore p.2 (takeCore cseq p.1)) s).core k = takeCore cseq r c) ∧
      (k ∉ l.map (·.2) → (l.foldl (fun s p => s.modCore p.2 (takeCore cseq p.1)) s).core k = s.core k) := by
  induction l generalizing s with
  | nil => exact ⟨nofun, fun _ => rfl⟩
  | cons p l ih =>
    obtain ⟨hin, hout⟩ := ih (s.modCore p.2 (takeCore cseq p.1))
    rw [List.foldl_cons, List.map_cons]
    refine ⟨fun hk => ?_, fun hk => ?_⟩
    · by_cases hl : k ∈ l.map (·.2)
      · exact hin hl
      · rw [hout hl, (List.mem_cons.1 hk).resolve_right hl, State_core_modCore_same]
        exact ⟨_, _, rfl⟩
    · rw [hout (fun h => hk (List.mem_cons_of_mem _ h)), State_core_modCore_ne _ _ (by rintro rfl; exact hk List.mem_cons_self)]

theorem takeCores_frame (l : List (Nat × Nat)) (s : State) : l.foldl (fun s p => s.modCore p.2 (takeCore cseq p.1)) s =
    { s with cores := (l.foldl (fun s p => s.modCore p.2 (takeCore cseq p.1)) s).cores } := by
  induction l generalizing s with
  | nil => rfl
  | cons p l ih =>
    rw [List.foldl_cons, ih]
    rfl

theorem takeRuns_frame (l : List (Nat × Nat × Nat)) (s : State) : l.foldl (fun s p => s.takeRun p.1 p.2.1 p.2.2) s =
    { s with used := (l.foldl (fun s p => s.takeRun p.1 p.2.1 p.2.2) s).used } := by
  induction l generalizing s with
  | nil => rfl
  | cons p l ih =>
    have hone : s.takeRun p.1 p.2.1 p.2.2 = { s with used := (s.takeRun p.1 p.2.1 p.2.2).used } := by
      unfold State.takeRun
      split <;> rfl
    rw [List.foldl_cons, ih, hone]

theorem runClusters_frame (s : State) (e : Entry) : s.runClusters e = { s with clusters := (s.runClusters e).clusters } := by
  unfold State.runClusters
  generalize e.ks = l
  induction l generalizing s with
  | nil => rfl
  | cons k l ih =>
    rw [List.foldl_cons, ih]
    split <;> rfl

/-- `s` with the frame's pages taken, its cores started and their clusters in RUN. -/
def State.tookCores (s : State) (e : Entry) (ws : List (Nat × Nat × Nat)) : State :=
  ((e.frame.cores.mapIdx (fun r x => (r, x.1))).foldl (fun s p => s.modCore p.2 (takeCore e.cseq p.1))
    (ws.foldl (fun s p => s.takeRun p.1 p.2.1 p.2.2) s)).runClusters e

theorem startFrame_eq (s : State) (e : Entry) (ws : List (Nat × Nat × Nat)) : s.startFrame e ws =
    (s.tookCores e ws).commitEntry e.cseq (fun x => { x with
      st := .running, powered := false, frame := { x.frame.again with pages := ws } }) := rfl

theorem tookCores_entries (s : State) (e : Entry) (ws : List (Nat × Nat × Nat)) : (s.tookCores e ws).entries = s.entries := by
  rw [State.tookCores, runClusters_frame, takeCores_frame, takeRuns_frame]

theorem ks_eq (e : Entry) : (e.frame.cores.mapIdx (fun r x => (r, x.1))).map (·.2) = e.ks := by
  refine List.ext_getElem? fun i => ?_
  simp [Entry.ks, Function.comp_def]

theorem tookCores_core (s : State) (e : Entry) (ws : List (Nat × Nat × Nat)) (k : Nat) :
    (k ∈ e.ks → ∃ r c, (s.tookCores e ws).core k = takeCore e.cseq r c) ∧
      (k ∉ e.ks → (s.tookCores e ws).core k = s.core k) := by
  have hruns : (ws.foldl (fun s p => s.takeRun p.1 p.2.1 p.2.2) s).core k = s.core k := by
    rw [takeRuns_frame]
    rfl
  have h := takeCores_core (cseq := e.cseq) (e.frame.cores.mapIdx (fun r x => (r, x.1)))
    (ws.foldl (fun s p => s.takeRun p.1 p.2.1 p.2.2) s) k
  rw [ks_eq, hruns] at h
  rw [State.tookCores, runClusters_frame]
  exact h

theorem startFrame_starts (he : s.entry? cseq = some e) (ws : List (Nat × Nat × Nat)) :
    ∃ e1, (s.startFrame e ws).entry? cseq = some e1 ∧ e1.st = .running ∧ e1.frame.pages = ws ∧ e1.frame.halt = none ∧
      e1.frame.emitted = [] ∧ e1.frame.delivered = false ∧
      (∀ k ∈ e.ks, ((s.startFrame e ws).core k).st = .starting ∧ ((s.startFrame e ws).core k).entry = some cseq ∧
        ((s.startFrame e ws).core k).haltRec = none) ∧
      (∀ k, k ∉ e.ks → (s.startFrame e ws).core k = s.core k) := by
  have hnum := entry?_cseq he
  have hcore (k : Nat) : (s.startFrame e ws).core k = (s.tookCores e ws).core k := by
    rw [startFrame_eq, commitEntry_frame]
    rfl
  rw [startFrame_eq, hnum]
  refine ⟨_, entry?_commitEntry ((entry?_of_entries (tookCores_entries ..) _).trans he) rfl, rfl, rfl, rfl, rfl, rfl, ?_, ?_⟩
  · intro k hk
    obtain ⟨r, c, hc⟩ := (tookCores_core s e ws k).1 hk
    rw [hnum] at hc
    rw [← hnum, ← startFrame_eq, hcore, hc]
    exact ⟨rfl, congrArg some hnum.symm, rfl⟩
  · intro k hk
    rw [← hnum, ← startFrame_eq, hcore]
    exact (tookCores_core s e ws k).2 hk

theorem dispatch_open (hst : e.st = .ready) (hended : e.ended = false) (href : s.refusing = none) (hruns : s.runsHere e = true) :
    ¬ (e.st ≠ .ready ∨ e.ended = true ∨ s.refusing.isSome = true ∨ (!s.runsHere e) = true) := by
  simp [hst, hended, href, hruns]

theorem dispatch_frame (hst : e.st = .ready) (hended : e.ended = false) (href : s.refusing = none) (hruns : s.runsHere e = true)
    (he : s.entry? cseq = some e) :
    (s.handsOver e = true → ∃ t e1, s.dispatch e b = t ∧ t.entry? cseq = some e1 ∧ e1.away = true ∧ e1.st = .ready ∧
      t.cores = s.cores) ∧
    (s.handsOver e = false → s.oldest e = true → s.coresFree e = true →
      (∀ ws, s.powerOk e = true → e.ks.all s.coreAwake = true → s.workPages e b.wlen = some ws →
        s.dispatch e b = s.startFrame e ws) ∧
      (s.powerOk e = true → e.ks.all s.coreAwake = false → s.dispatch e b = s.wakeFor e) ∧
      (s.powerOk e = true → e.ks.all s.coreAwake = true → s.workPages e b.wlen = none → s.dispatch e b = s) ∧
      (s.powerOk e = false → e.powered = false → ∃ t e1, s.dispatch e b = t ∧ t.entry? cseq = some e1 ∧ e1.powered = true ∧
        e1.st = .ready ∧ t.yoke.regs.powerWait = s.yoke.regs.powerWait + 1 ∧ t.cores = s.cores) ∧
      (s.powerOk e = false → e.powered = true → s.dispatch e b = s)) ∧
    (s.handsOver e = false → s.oldest e = false ∨ s.coresFree e = false → s.dispatch e b = s) := by
  have hnum := entry?_cseq he
  unfold State.dispatch
  rw [if_neg (dispatch_open hst hended href hruns)]
  refine ⟨fun hover => ?handed, fun hover hold hfree => ?due, fun hover hlater => ?later⟩
  case handed =>
    rw [if_pos hover, hnum]
    refine ⟨_, _, rfl, entry?_commitEntry he rfl, rfl, hst, ?_⟩
    rw [commitEntry_frame]
  case later =>
    have hwait : (!s.oldest e) = true ∨ (!s.coresFree e) = true := by simpa using hlater
    rw [if_neg (by simp [hover]), if_pos hwait]
  case due =>
    have hgo : ¬ ((!s.oldest e) = true ∨ (!s.coresFree e) = true) := by simp [hold, hfree]
    rw [if_neg (by simp [hover]), if_neg hgo]
    refine ⟨fun ws hpow hawake hws => ?_, fun hpow hawake => ?_, fun hpow hawake hws => ?_, fun hpow hnot => ?_,
      fun hpow hcounted => ?_⟩
    · simp only [hpow, hawake, hws]
      rfl
    · simp only [hpow, hawake]
      rfl
    · simp only [hpow, hawake, hws]
      rfl
    · simp only [hpow, hnot, Bool.not_false, if_true, Bool.false_eq_true, if_false]
      refine ⟨_, { e with powered := true }, rfl, ?_, rfl, hst, rfl, rfl⟩
      subst hnum
      exact entry?_modEntry (f := fun x => { x with powered := true }) he rfl
    · simp only [hpow, hcounted]
      rfl

end

/-! ### The end of a frame (R248, R363, R367) -/

section
variable {s : State} {cseq : Nat} {e : Entry} {b : RunBody}

theorem clearFrame_core (s : State) (cseq k : Nat) :
    (s.clearFrame cseq).core k = if (s.core k).entry = some cseq then (s.core k).release else s.core k := by
  have h := State_core_map_if s (fun c => c.entry == some cseq) Core.release rfl k
  rw [State.core, clearFrame_cores]
  refine h.trans ?_
  by_cases hk : (s.core k).entry = some cseq
  · rw [if_pos (by simpa using hk), if_pos hk]
  · rw [if_neg (by simpa using hk), if_neg hk]

/-- A frame that has ended frees its cores, and no other core changes. -/
def State.freed (s t : State) (cseq : Nat) : Prop :=
  (∀ k, (s.core k).entry = some cseq → (t.core k).entry = none ∧ (t.core k).st = .idle) ∧
    (∀ k, (s.core k).entry ≠ some cseq → t.core k = s.core k)

theorem freed_of_cores {t : State} (h : t.cores = (s.clearFrame cseq).cores) : s.freed t cseq := by
  have hcore (k : Nat) : t.core k = (s.clearFrame cseq).core k := by rw [State.core, State.core, h]
  refine ⟨fun k hk => ?_, fun k hk => ?_⟩
  · rw [hcore, clearFrame_core, if_pos hk]
    exact ⟨rfl, rfl⟩
  · rw [hcore, clearFrame_core, if_neg hk]

theorem exec_frameEnd (he : s.entry? cseq = some e) (hop : e.op = .run b) (hst : e.st = .running) (hended : e.ended = false)
    (hall : ∀ k ∈ s.coresOf cseq, (s.core k).live = false ∧ (s.core k).haltRec = none) (hcancel : s.cancelDue e = false) :
    (e.frame.halt = none → exec (.frameEnd cseq) s = .next (s.endDone e b)) ∧
      (∀ r, e.frame.halt = some r → exec (.frameEnd cseq) s = .next (s.endHalted e r)) := by
  have hgone : s.endedAll cseq = true := List.all_eq_true.2 fun k hk => by simp [hall k hk]
  have hdue : ¬ (e.st ≠ .running ∨ e.ended = true ∨ (!s.endedAll cseq) = true ∨ s.cancelDue e = true) := by
    simp [hst, hended, hgone, hcancel]
  refine ⟨fun hhalt => answer_eq_next rfl ?_, fun r hhalt => answer_eq_next rfl ?_⟩ <;>
    simp only [he, hop, hhalt, if_neg hdue]

/-- A frame that ran to its end (R367). -/
theorem endDone_ends (he : s.entry? cseq = some e) (hst : e.st = .running) : ∃ e1, (s.endDone e b).entry? cseq = some e1 ∧
    e1.frame.pages = [] ∧ e1.st = .running ∧ e1.ended = true ∧
      (e1.status, e1.wreason) = tagStatus s.profile.work.tagPolicy e.frame.rtag (!e.frame.stopped.isEmpty) ∧
      e1.payload = (if e1.status = .done then s.payloadOf e b else []) ∧ s.freed (s.endDone e b) cseq := by
  have hnum := entry?_cseq he
  unfold State.endDone
  rw [hnum]
  exact ⟨_, entry?_modEntry (entry?_clearFrame he) rfl, rfl, hst, rfl, rfl, rfl, freed_of_cores rfl⟩

/-- A frame whose outcome is decided at its end. -/
theorem completeAs_ends (he : s.entry? cseq = some e) (hst : e.st = .running) (st : ResStatus) (wreason : Nat) :
    ∃ e1, (s.completeAs cseq st wreason []).entry? cseq = some e1 ∧ e1.frame.pages = [] ∧ e1.st = .running ∧ e1.ended = true ∧
      e1.status = st ∧ e1.wreason = wreason ∧ e1.payload = [] ∧ e1.frame.halt = e.frame.halt ∧
      s.freed (s.completeAs cseq st wreason []) cseq := by
  have hopen : e.st ≠ .complete := by simp [hst]
  have hsent : e.st ≠ .sent := by simp [hst]
  exact ⟨_, completeAs_entry he hopen hsent st wreason [], rfl, hst, rfl, rfl, rfl, rfl, rfl,
    freed_of_cores (completeAs_open he hopen hsent st wreason []).2⟩

/-- A frame that runs again. -/
theorem requeue_ends (he : s.entry? cseq = some e) (order : Nat) {f : Entry → Entry} (hf : ∀ x, (f x).cseq = x.cseq)
    (g : FoldRegs → FoldRegs) : ((s.requeue cseq order f).countFold g).entry? cseq = some (f { e with
        st := .ready, order := order, frame := { e.frame with pages := [] }.again, ended := false, parcelOk := false
        status := .done, wreason := 0, payload := [] }) ∧ s.freed ((s.requeue cseq order f).countFold g) cseq := by
  refine ⟨entry?_commitEntry (e := { e with frame := { e.frame with pages := [] } }) (f := fun e => f { e with
    st := .ready, order := order, frame := e.frame.again, ended := false, parcelOk := false
    status := .done, wreason := 0, payload := [] }) (entry?_clearFrame he) (hf _), freed_of_cores ?_⟩
  have h : (s.requeue cseq order f).cores = (s.clearFrame cseq).cores := by
    rw [State.requeue, commitEntry_frame]
  exact h

end

/-- Settles O26: what a dispatch decides, in its order, and the ways in which a frame ends. -/
theorem framesRun : Obligations.FramesRun := by
  unfold Obligations.FramesRun
  refine ⟨?dispatch, ?ends⟩
  case dispatch =>
    intro s cseq e b he hop hst hended href hruns
    have hexec := exec_dispatch he hop
    obtain ⟨hover, hdue, hlater⟩ := dispatch_frame (b := b) hst hended href hruns he
    refine ⟨fun h => ?_, fun h hold hfree => ?_, fun h hwait => hexec.trans (congrArg _ (hlater h hwait))⟩
    · obtain ⟨t, e1, ht, h1⟩ := hover h
      exact ⟨t, e1, hexec.trans (congrArg _ ht), h1⟩
    · obtain ⟨hstart, hwake, hroom, hpower, hcounted⟩ := hdue h hold hfree
      refine ⟨fun ws hpow hawake hws => ?_, fun hpow hawake => hexec.trans (congrArg _ (hwake hpow hawake)),
        fun hpow hawake hws => hexec.trans (congrArg _ (hroom hpow hawake hws)), fun hpow hnot => ?_,
        fun hpow hc => hexec.trans (congrArg _ (hcounted hpow hc))⟩
      · obtain ⟨e1, h1⟩ := startFrame_starts he ws
        exact ⟨_, e1, hexec.trans (congrArg _ (hstart ws hpow hawake hws)), h1⟩
      · obtain ⟨t, e1, ht, h1⟩ := hpower hpow hnot
        exact ⟨t, e1, hexec.trans (congrArg _ ht), h1⟩
  case ends =>
    intro s cseq e b he hop hst hended hall hcancel
    obtain ⟨hdone, hhalted⟩ := exec_frameEnd he hop hst hended hall hcancel
    have hnum := entry?_cseq he
    cases hhalt : e.frame.halt with
    | none =>
      obtain ⟨e1, he1, hpages, hst1, hend1, hstatus, hpay, hfreed⟩ := endDone_ends (b := b) he hst
      exact ⟨_, e1, hdone hhalt, he1, hpages, hfreed.1, hfreed.2, fun _ => ⟨hst1, hend1, hstatus, hpay⟩, nofun, nofun, nofun, nofun⟩
    | some r =>
      have hexec := hhalted r hhalt
      unfold State.endHalted at hexec
      rw [hnum] at hexec
      by_cases hprog : r.reason < 0x20
      · rw [if_pos hprog] at hexec
        obtain ⟨e1, he1, hpages, hst1, hend1, hstatus, -, hpay, hh, hfreed⟩ := completeAs_ends he hst .failed 0
        refine ⟨_, e1, hexec, he1, hpages, hfreed.1, hfreed.2, nofun, ?_, ?_, ?_, ?_⟩ <;> rintro _ ⟨rfl⟩
        · exact fun _ => ⟨hst1, hend1, hstatus, hpay, hh.trans hhalt⟩
        all_goals omega
      rw [if_neg hprog] at hexec
      by_cases hhw : isHw r.reason = true
      · have hrange : 0x20 ≤ r.reason ∧ r.reason < 0x40 := by simpa [isHw] using hhw
        rw [if_pos hhw] at hexec
        by_cases hmax : s.profile.work.replayMax < e.replays + 1
        · rw [if_pos hmax] at hexec
          obtain ⟨e1, he1, hpages, hst1, hend1, hstatus, hreason, hpay, -, hfreed⟩ := completeAs_ends he hst .withheld 0x10
          refine ⟨_, e1, hexec, he1, hpages, hfreed.1, hfreed.2, nofun, ?_, ?_, ?_, ?_⟩ <;> rintro _ ⟨rfl⟩
          · omega
          · omega
          · exact fun _ _ _ => ⟨hst1, hend1, hstatus, hreason, hpay⟩
          · omega
        · rw [if_neg hmax] at hexec
          obtain ⟨he1, hfreed⟩ := requeue_ends he 0 (f := fun x => { x with replays := x.replays + 1 }) (fun _ => rfl)
            (fun f => { f with replays := inc f.replays })
          refine ⟨_, _, hexec, he1, rfl, hfreed.1, hfreed.2, nofun, ?_, ?_, ?_, ?_⟩ <;> rintro _ ⟨rfl⟩
          · omega
          · exact fun _ _ _ => ⟨rfl, rfl, rfl, rfl⟩
          · omega
          · omega
      · have hrange : ¬ (0x20 ≤ r.reason ∧ r.reason < 0x40) := by simpa [isHw] using hhw
        rw [if_neg hhw] at hexec
        obtain ⟨he1, hfreed⟩ := requeue_ends he s.backOrder (f := id) (fun _ => rfl) (fun f => { f with requeues := inc f.requeues })
        refine ⟨_, _, hexec, he1, rfl, hfreed.1, hfreed.2, nofun, ?_, ?_, ?_, ?_⟩ <;> rintro _ ⟨rfl⟩
        · omega
        · omega
        · omega
        · exact fun _ => ⟨rfl, rfl, rfl, rfl⟩

/-! ### Result parcels that are written (R359, R368) -/

section
variable {s : State} {cseq : Nat} {e : Entry}

theorem commitEntry_outcome_profile (s : State) (n : Nat) (f : Entry → Entry) : (s.commitEntry n f).profile = s.profile := by
  rw [commitEntry_frame]

theorem noteReplay_frame (s : State) (n : Nat) : s.noteReplay n = { s with pair := (s.noteReplay n).pair } := by
  unfold State.noteReplay
  split <;> rfl

theorem dropRefs_frame (s : State) (e : Entry) : s.dropRefs e = { s with
    routines := (s.dropRefs e).routines
    dsm := (s.dropRefs e).dsm } := by
  unfold State.dropRefs
  split <;> rfl

theorem sendDigest_off (h : s.profile.work.dualRun = false) (e : Entry) : s.sendDigest e = s := by
  unfold State.sendDigest
  split
  · exact if_neg (by simp [State.dualRun, h])
  · rfl

/-- `s` with the entry `e` complete, before its outcome is counted. -/
def State.wholeEntry (s : State) (e : Entry) : State :=
  let s1 := s.commitEntry e.cseq (fun x => { x with st := .complete, parcelOk := true, ended := true })
  (((if e.holdsRefs then s1.dropRefs e else s1).noteReplay e.cseq).noteStaging 0 0).noteStaging 1 0

theorem wholeEntry_frame (s : State) (e : Entry) : s.wholeEntry e =
    { s.commitEntry e.cseq (fun x => { x with st := .complete, parcelOk := true, ended := true }) with
      routines := (s.wholeEntry e).routines
      dsm := (s.wholeEntry e).dsm
      pair := (s.wholeEntry e).pair
      hubs := (s.wholeEntry e).hubs } := by
  unfold State.wholeEntry
  dsimp only
  rw [noteReplay_frame]
  split
  · rw [dropRefs_frame]
    rfl
  · rfl

/-- What is counted of the outcome of a completed frame. -/
def State.countOutcome (s : State) : ResStatus → State
  | .withheld => s.countFold (fun r => { r with withheld := inc r.withheld })
  | .cancelled => s.countFold (fun r => { r with cancelled := inc r.cancelled })
  | _ => s

theorem countOutcome_frame (s : State) (st : ResStatus) : s.countOutcome st = { s with hubs := (s.countOutcome st).hubs } := by
  cases st <;> rfl

theorem complete_eq (s : State) (e : Entry) : s.complete e = ((s.wholeEntry e).countOutcome e.status).sendDigest e := by
  unfold State.complete State.countOutcome
  rfl

/-- An entry whose outcome is whole in the work areas is COMPLETE. -/
theorem complete_completes (he : s.entry? cseq = some e) (hdual : s.profile.work.dualRun = false) :
    (s.complete e).entry? cseq = some { e with st := .complete, parcelOk := true, ended := true } ∧
      (s.complete e).cores = s.cores := by
  have hnum := entry?_cseq he
  subst hnum
  have hprof : ((s.wholeEntry e).countOutcome e.status).profile = s.profile := by
    rw [countOutcome_frame, wholeEntry_frame]
    exact commitEntry_outcome_profile ..
  rw [complete_eq, sendDigest_off (by rw [hprof, hdual])]
  have hentries : ((s.wholeEntry e).countOutcome e.status).entries =
      (s.commitEntry e.cseq (fun x => { x with st := .complete, parcelOk := true, ended := true })).entries := by
    rw [countOutcome_frame, wholeEntry_frame]
  refine ⟨(entry?_of_entries hentries _).trans (entry?_commitEntry he rfl), ?_⟩
  rw [countOutcome_frame, wholeEntry_frame, commitEntry_frame]

theorem exec_resultParcelWritten (he : s.entry? cseq = some e) :
    exec (.resultParcelWritten cseq) s = .next ((s.wakeStacks [e.rpar.stack, e.rpar.mirror]).resultWritten e) := by
  refine answer_eq_next rfl ?_
  simp only [he]

theorem cancelDue_of {s t : State} (h : t.commits = s.commits) (e : Entry) : t.cancelDue e = s.cancelDue e := by
  rw [State.cancelDue, State.cancelDue, h]

theorem resultWritten_run {b : RunBody} (hst : e.st ≠ .complete) (hsent : e.st ≠ .sent) (hop : e.op = .run b) (hended : e.ended = true)
    (hout : e.status = .cancelled ∨ s.cancelDue e = false) : s.resultWritten e = s.complete e := by
  have hdue : e.ended = true ∧ (e.status = .cancelled ∨ (!s.cancelDue e) = true) := by simpa [hended] using hout
  rw [State.resultWritten]
  cases hs : e.st <;> simp only [hop, if_pos hdue]
  · exact absurd hs hst
  · exact absurd hs hsent

theorem resultWritten_other (hop : ∀ b, e.op ≠ .run b) (hst : e.st = .admitted) (hhere : e.homeHere = true) :
    s.resultWritten e = s.complete e := by
  rw [State.resultWritten]
  cases ho : e.op with
  | run b => exact absurd ho (hop b)
  | _ => simp only [hst, hhere, if_true]

end

/-! ### What a list of segments puts on the wire (R340, R366) -/

/-- From `s` to `t` only what was sent, its numbers and counters, and the wake of a stack differ. -/
structure State.Sent (s t : State) : Prop where
  entries : t.entries = s.entries
  streams : t.streams = s.streams
  cores : t.cores = s.cores
  ports : t.ports = s.ports
  profile : t.profile = s.profile
  sessions : t.secure.sessions = s.secure.sessions
  up : ∀ h, (t.hub h).up = (s.hub h).up

theorem State.Sent.refl (s : State) : s.Sent s := ⟨rfl, rfl, rfl, rfl, rfl, rfl, fun _ => rfl⟩

theorem State.Sent.trans {a b c : State} (hab : a.Sent b) (hbc : b.Sent c) : a.Sent c :=
  ⟨hbc.entries.trans hab.entries, hbc.streams.trans hab.streams, hbc.cores.trans hab.cores, hbc.ports.trans hab.ports,
    hbc.profile.trans hab.profile, hbc.sessions.trans hab.sessions, fun h => (hbc.up h).trans (hab.up h)⟩

theorem State.Sent.portUp {s t : State} (h : s.Sent t) (n : Nat) : t.portUp n = s.portUp n :=
  portUp_congr h.ports h.profile h.up n

theorem State.Sent.outPort {s t : State} (h : s.Sent t) (n : Nat) : t.outPort n = s.outPort n :=
  congrArg (List.find? · _) (funext h.portUp)

theorem State.Sent.session {s t : State} (h : s.Sent t) (n : Nat) : t.session? n = s.session? n := by
  rw [State.session?, State.session?, h.sessions]

theorem State.Sent.resultPort {s t : State} (h : s.Sent t) (e : Entry) : t.resultPort e = s.resultPort e := by
  rw [State.resultPort, State.resultPort, h.session, stream_of_streams h.streams, h.outPort]

theorem nextIv_sessions (s : State) (p tsid : Nat) : (s.nextIv p tsid).1.secure.sessions = s.secure.sessions := by
  unfold State.nextIv
  split <;> rfl

theorem sendSeg_sent (s : State) (p addr : Nat) (h : Hdr) (body : List Byte) : s.Sent (s.sendSeg p addr h body) := by
  have hframe := nextIv_frame s p h.tsid
  refine ⟨?_, ?_, ?_, ?_, ?_, nextIv_sessions s p h.tsid, ?_⟩ <;> simp only [State.sendSeg, State.emitOut]
  · rw [hframe]
  · rw [hframe]
  · rw [hframe]
  · rw [hframe]
  · rw [hframe]
  · rw [hframe]
    exact fun _ => rfl

theorem sendSeg_out (s : State) (p addr : Nat) (h : Hdr) (body : List Byte) : (s.sendSeg p addr h body).out =
    s.out ++ [s.segOut p addr h body] := by
  have hout : (s.nextIv p h.tsid).1.out = s.out := by rw [nextIv_frame]
  simp only [State.sendSeg, State.emitOut, hout]
  rfl

theorem wakeStacks_sent (s : State) (l : List Nat) : s.Sent (s.wakeStacks l) := ⟨rfl, rfl, rfl, rfl, rfl, rfl, fun _ => rfl⟩

theorem modFold_sent (s : State) (h : Nat) (f : FoldRegs → FoldRegs) : s.Sent (s.modFold h f) :=
  ⟨rfl, rfl, rfl, rfl, rfl, rfl, fun n => modFold_up s h f n⟩

/-- The segment that carries piece `x.1` of `n`, under the IV `iv`. -/
def resultSeg (e : Entry) (p addr n : Nat) (x : Nat × List Byte) (iv : Nat) : Out :=
  .seg p addr (Hdr.bytes { headOf 3 e.tsid e.stream e.incarn e.seq with
    segidx := x.1, segcnt := n, bodylen := x.2.length, iv := iv }) x.2

theorem sendSegs_sends (e : Entry) (p addr n : Nat) (l : List (Nat × List Byte)) (s : State) (haddr : (s.stream e.stream).addr = addr) :
    ∃ a : List Out, (l.foldl (fun s x => s.sendSeg p (s.stream e.stream).addr
        { headOf 3 e.tsid e.stream e.incarn e.seq with segidx := x.1, segcnt := n } x.2) s).out = s.out ++ a ∧
      s.Sent (l.foldl (fun s x => s.sendSeg p (s.stream e.stream).addr
        { headOf 3 e.tsid e.stream e.incarn e.seq with segidx := x.1, segcnt := n } x.2) s) ∧ a.length = l.length ∧
      ∀ (i : Nat) (x : Nat × List Byte), l[i]? = some x → ∃ iv, a[i]? = some (resultSeg e p addr n x iv) := by
  induction l generalizing s with
  | nil => exact ⟨[], by simp, .refl s, rfl, by simp⟩
  | cons y l ih =>
    have hsent := sendSeg_sent s p (s.stream e.stream).addr { headOf 3 e.tsid e.stream e.incarn e.seq with
      segidx := y.1, segcnt := n } y.2
    have hout := sendSeg_out s p (s.stream e.stream).addr { headOf 3 e.tsid e.stream e.incarn e.seq with
      segidx := y.1, segcnt := n } y.2
    obtain ⟨a, ha, hrest, hlen, hseg⟩ := ih _ ((congrArg Stream.addr (stream_of_streams hsent.streams e.stream)).trans haddr)
    refine ⟨s.segOut p (s.stream e.stream).addr { headOf 3 e.tsid e.stream e.incarn e.seq with
      segidx := y.1, segcnt := n } y.2 :: a, ?_, hsent.trans hrest, congrArg (· + 1) hlen, fun i x hx => ?_⟩
    · rw [List.foldl_cons, ha, hout, List.append_assoc]
      rfl
    · cases i with
      | zero =>
        obtain rfl : y = x := by simpa using hx
        exact ⟨_, by rw [haddr]; rfl⟩
      | succ i => simpa using hseg i x hx

theorem sendResult_carries (s : State) (e : Entry) (p : Nat) :
    ∃ a, (s.sendResult e p).out = s.out ++ a ∧ carries p (s.stream e.stream).addr e a ∧ s.Sent (s.sendResult e p) := by
  obtain ⟨a, ha, hsent, hlen, hseg⟩ := sendSegs_sends e p (s.stream e.stream).addr (pieces 8192 (e.descriptor ++ e.payload)).length
    ((pieces 8192 (e.descriptor ++ e.payload)).mapIdx (fun i b => (i, b))) (s.wakeStacks [e.rpar.stack]) rfl
  refine ⟨a, ha, ⟨by simpa using hlen, fun i b hb => ?_⟩, (wakeStacks_sent ..).trans hsent⟩
  exact hseg i (i, b) (by simp [hb])

/-! ### Results are transmitted, released and sent again (R347, R366, R369, R370) -/

theorem sendRecord_out (s : State) (hm : s.mirrors = false) (n : Nat) (e : Entry) (code : Nat) : s.told n e code = s := by
  unfold State.told
  simp [hm]

theorem gaveOut_mirrors (s : State) (n : Nat) : (s.gaveOut n).mirrors = s.mirrors ∧ (s.gaveOut n).out = s.out := by
  unfold State.gaveOut
  split <;> exact ⟨rfl, rfl⟩

theorem sendPair_out (s : State) (pop : Nat) (fields : List (Nat × Nat)) (data : List Byte) :
    ∃ l, (s.sendPair pop fields data).out = s.out ++ l := by
  unfold State.sendPair
  split
  · exact ⟨[], by simp⟩
  · exact ⟨_, rfl⟩

theorem told_out (s : State) (n : Nat) (e : Entry) (code : Nat) : ∃ l, (s.told n e code).out = s.out ++ l := by
  unfold State.told
  split
  · exact ⟨[], by simp⟩
  · split
    · exact ⟨[], (List.append_nil _).symm⟩
    · exact sendPair_out ..

/-- What a ledger commit sends goes to a partner that this package mirrors to. -/
theorem ledgerAs_out (s : State) (e : Entry) (code : Nat) :
    ∃ l, (s.ledgerAs e code).out = s.out ++ l ∧ (s.mirrors = false → l = []) := by
  obtain ⟨hm, hout⟩ := gaveOut_mirrors s (if s.leads then s.pkg.cseqNext else 0)
  rw [ledgerAs_eq]
  by_cases h : s.mirrors = true
  · obtain ⟨l, hl⟩ := told_out (s.gaveOut (if s.leads then s.pkg.cseqNext else 0)) (if s.leads then s.pkg.cseqNext else 0) e code
    exact ⟨l, by rw [hl, hout], fun hno => by simp [h] at hno⟩
  · have hno : s.mirrors = false := by simpa using h
    exact ⟨[], by rw [sendRecord_out _ (hm.trans hno), hout, List.append_nil], fun _ => rfl⟩

theorem gaveOut_up (s : State) (n h : Nat) : ((s.gaveOut n).hub h).up = (s.hub h).up := by
  unfold State.gaveOut
  split
  · rfl
  · refine at'_map_keeps (g := Hub.up) ?_ s.hubs h _
    exact fun _ => rfl

theorem told_hubs (s : State) (n : Nat) (e : Entry) (code : Nat) : (s.told n e code).hubs = s.hubs := by
  unfold State.told
  split
  · rfl
  · split
    · rfl
    · have h := sendPair_frame s
      unfold State.sendRecord
      exact (congrArg State.hubs (h _ _ _)).trans rfl

theorem ledgerAs_up (s : State) (e : Entry) (code h : Nat) : ((s.ledgerAs e code).hub h).up = (s.hub h).up := by
  rw [ledgerAs_eq, hub_of_hubs (told_hubs ..)]
  exact gaveOut_up ..

theorem modFold_out (s : State) (h : Nat) (f : FoldRegs → FoldRegs) : (s.modFold h f).out = s.out := rfl

theorem resultTransmit_sends {s : State} {n p : Nat} {e : Entry} (hdue : s.dueResult n = some e) (he : s.entry? e.cseq = some e)
    (hport : s.resultPort e = some p) (href : s.refusing = none) (hdual : s.dualOk e = true) :
    ∃ t e1 l a, exec (.resultTransmit n) s = .next t ∧ t.entry? e.cseq = some e1 ∧ e1.st = .sent ∧ t.out = s.out ++ l ++ a ∧
      (s.mirrors = false → l = []) ∧ carries p (s.stream e.stream).addr e a ∧ t.streams = s.streams ∧ t.cores = s.cores := by
  have hdone : s.transmit n = ((s.commitEntry e.cseq (fun x => { x with st := .sent })).sendResult e p).modFold (p / 4)
      (fun r => { r with results := inc r.results }) := by
    simp only [State.transmit, hdue, hport, href, hdual]
    rfl
  have hstreams : (s.commitEntry e.cseq (fun x => { x with st := .sent })).streams = s.streams := by rw [commitEntry_frame]
  have hcores : (s.commitEntry e.cseq (fun x => { x with st := .sent })).cores = s.cores := by rw [commitEntry_frame]
  have hentry : (s.commitEntry e.cseq (fun x => { x with st := .sent })).entry? e.cseq = some { e with st := .sent } :=
    entry?_commitEntry he rfl
  obtain ⟨l, hl, hnone⟩ := ledgerAs_out (s.modEntry e.cseq (fun x => { x with st := .sent })) { e with st := .sent } EntrySt.sent.code
  have hfirst : (s.commitEntry e.cseq (fun x => { x with st := .sent })).out = s.out ++ l := by
    rw [commitEntry_of_entry he]
    exact hl
  obtain ⟨a, ha, hcarries, hsent⟩ := sendResult_carries (s.commitEntry e.cseq (fun x => { x with st := .sent })) e p
  rw [stream_of_streams hstreams] at hcarries
  have hall := hsent.trans (modFold_sent _ (p / 4) (fun r => { r with results := inc r.results }))
  rw [hfirst] at ha
  exact ⟨_, _, l, a, answer_eq_next rfl hdone, (entry?_of_entries hall.entries _).trans hentry, rfl, (modFold_out ..).trans ha, hnone, hcarries,
    hall.streams.trans hstreams, hall.cores.trans hcores⟩

/-- The acknowledgement of a result that passes its tests acts. -/
theorem resultAck_acts {s : State} {g : SegIn} (htakes : s.takes g.port g.wire = true) (hkind : g.hdr.kind = 4)
    (hok : s.rackOk g = true) (f : State → Nat → Nat → State) :
    s.resultAck (beAt g.body 0 1) g f = f (s.notePort g) g.hdr.stream (beAt g.body 4 4) := by
  simp only [State.resultAck, htakes, hkind, hok, Bool.not_true, bne_self_eq_false, Bool.false_eq_true, if_false, ne_eq,
    not_true_eq_false]

/-- The stream `x` once a frame under `n` came from `g`. -/
def Stream.noted (x : Stream) (g : SegIn) : Stream := { x with port := g.port, addr := g.addr }

theorem stream_modStream (s : State) (n : Nat) (f : Stream → Stream) (m : Nat) :
    (s.modStream n f).stream m = if m = n then f (s.stream n) else s.stream m := by
  simp only [State.stream, State.modStream, Tbl_get_set]
  split <;> rfl

theorem stream_notePort {s : State} {g : SegIn} (hok : s.rackOk g = true) :
    (s.notePort g).stream g.hdr.stream = (s.stream g.hdr.stream).noted g := by
  have hcond : (s.stream g.hdr.stream).st ≠ .closed ∧ (s.stream g.hdr.stream).tsid = g.hdr.tsid := by
    simp only [State.rackOk, Bool.and_eq_true, bne_iff_ne, beq_iff_eq] at hok
    obtain ⟨⟨⟨⟨⟨⟨⟨-, hst⟩, htsid⟩, -⟩, -⟩, -⟩, -⟩, -⟩ := hok
    exact ⟨hst, htsid⟩
  rw [State.notePort, if_pos hcond, stream_modStream, if_pos rfl]
  rfl

/-! #### Entries that are released -/

theorem ledgerAs_keeps (s : State) (e : Entry) (code : Nat) : (s.ledgerAs e code).entries = s.entries ∧
    (s.ledgerAs e code).streams = s.streams ∧ (s.ledgerAs e code).cores = s.cores ∧
    (s.ledgerAs e code).commits = s.commits :=
  have h := ledgerAs_ledgered s e code
  ⟨h.entries, h.keeps State.streams (fun _ _ _ _ => rfl), h.keeps State.cores (fun _ _ _ _ => rfl),
    h.keeps State.commits (fun _ _ _ _ => rfl)⟩

/-- `s` without the entry `e` and its parcels, and its stream with the credit back. -/
def State.without (s : State) (e : Entry) : State :=
  (({ s with entries := s.entries.filter (fun x => x.cseq != e.cseq) }.freeParcel e.ipar).freeParcel e.rpar).modStream
    e.stream (fun x => { x with outst := x.outst - 1 })

theorem freeEntry_eq (s : State) (e : Entry) : s.freeEntry e = (s.without e).ledgerAs e 0 := rfl

theorem without_frame (s : State) (e : Entry) : s.without e = { s with
    entries := s.entries.filter (fun x => x.cseq != e.cseq)
    streams := Tbl.set s.streams e.stream { s.stream e.stream with outst := (s.stream e.stream).outst - 1 }
    used := (s.without e).used } := by
  unfold State.without
  rw [freeParcel_frame, freeParcel_frame]
  rfl

/-- An entry that is freed is gone, and its stream has its credit back (R347). -/
theorem freeEntry_frees (s : State) (e : Entry) :
    (s.freeEntry e).entries = s.entries.filter (fun x => x.cseq != e.cseq) ∧
      (∀ n, (s.freeEntry e).stream n = if n = e.stream then { s.stream e.stream with outst := (s.stream e.stream).outst - 1 }
        else s.stream n) ∧
      (s.freeEntry e).cores = s.cores ∧ (s.freeEntry e).commits = s.commits := by
  rw [freeEntry_eq]
  obtain ⟨hentries, hstreams, hcores, hcommits⟩ := ledgerAs_keeps (s.without e) e 0
  refine ⟨hentries.trans ?_, fun n => (stream_of_streams hstreams n).trans ?_, hcores.trans ?_, hcommits.trans ?_⟩ <;>
    rw [without_frame]
  simp only [State.stream, Tbl_get_set]
  split <;> rfl

/-- Entries freed one after the other. -/
theorem freeEntries_free (n : Nat) (l : List Entry) (s : State) (hl : ∀ e ∈ l, e.stream = n) :
    (l.foldl (fun s e => s.freeEntry e) s).entries = s.entries.filter (fun x => !(l.any (fun e => x.cseq == e.cseq))) ∧
      (l.foldl (fun s e => s.freeEntry e) s).stream n = { s.stream n with outst := (s.stream n).outst - l.length } ∧
      (l.foldl (fun s e => s.freeEntry e) s).cores = s.cores ∧ (l.foldl (fun s e => s.freeEntry e) s).commits = s.commits := by
  induction l generalizing s with
  | nil => exact ⟨(List.filter_eq_self.2 fun _ _ => rfl).symm, rfl, rfl, rfl⟩
  | cons e l ih =>
    obtain ⟨hentries, hstream, hcores, hcommits⟩ := freeEntry_frees s e
    obtain ⟨h1, h2, h3, h4⟩ := ih (s.freeEntry e) (fun x hx => hl x (List.mem_cons_of_mem _ hx))
    have hone := hstream n
    rw [if_pos (hl e List.mem_cons_self).symm, hl e List.mem_cons_self] at hone
    rw [List.foldl_cons]
    refine ⟨?_, ?_, h3.trans hcores, h4.trans hcommits⟩
    · rw [h1, hentries, List.filter_filter]
      refine List.filter_congr fun x _ => ?_
      cases h : x.cseq == e.cseq <;> simp [h, bne]
    · rw [h2, hone, List.length_cons, Nat.add_comm, Nat.sub_add_eq]

/-- A closing stream that has no entry left is CLOSED (R347). -/
theorem closeStream_closes (s : State) (n : Nat) : (s.closeStream n).entries = s.entries ∧ (s.closeStream n).cores = s.cores ∧
    (s.closeStream n).commits = s.commits ∧
    (((s.closeStream n).stream n).st ≠ .closed → (s.closeStream n).stream n = s.stream n) ∧
    ((s.stream n).st = .closing → (∀ e ∈ s.entries, e.stream ≠ n) → ((s.closeStream n).stream n).st = .closed) := by
  unfold State.closeStream
  split
  · have h := stream_modStream s n (fun x => { x with st := .closed, nextSeq := 0, credit := 64, outst := 0 }) n
    rw [if_pos rfl] at h
    exact ⟨rfl, rfl, rfl, fun hopen => absurd (by rw [h]) hopen, fun _ _ => by rw [h]⟩
  · next hopen =>
    refine ⟨rfl, rfl, rfl, fun _ => rfl, fun hst hnone => absurd ⟨hst, ?_⟩ hopen⟩
    simpa using hnone

theorem release_frees {s : State} {g : SegIn} (hport : portOk g.port = true) (htakes : s.takes g.port g.wire = true)
    (hkind : g.hdr.kind = 4) (hok : s.rackOk g = true) (hop : beAt g.body 0 1 = 0) {n q : Nat} (hn : n = g.hdr.stream)
    (hq : q = beAt g.body 4 4) {freed : List Entry}
    (hfreed : freed = s.entries.filter (fun e => e.stream == n && decide (e.seq ≤ q) && e.st == .sent)) :
    ∃ t, exec (.release g) s = .next t ∧
      (∀ e ∈ t.entries, e ∈ s.entries ∧ ¬ (e.stream = n ∧ e.seq ≤ q ∧ e.st = .sent)) ∧
      (∀ e ∈ s.entries, (∀ x ∈ freed, x.cseq ≠ e.cseq) → e ∈ t.entries) ∧
      ((t.stream n).st ≠ .closed → (t.stream n).outst = (s.stream n).outst - freed.length) ∧
      ((s.stream n).st = .closing → (∀ e ∈ t.entries, e.stream ≠ n) → (t.stream n).st = .closed) ∧
      t.cores = s.cores ∧ t.commits = s.commits := by
  have hacts := resultAck_acts htakes hkind hok (fun s n q => s.releaseTo n q)
  rw [hop, ← hn, ← hq] at hacts
  have hrel : (s.notePort g).releasable n q = freed := by
    rw [hfreed, notePort_frame]
    rfl
  have hstream := stream_notePort hok
  rw [← hn] at hstream
  have hpart : ∀ e ∈ freed, e.stream = n := fun e he => by
    rw [hfreed, List.mem_filter] at he
    simp only [Bool.and_eq_true, beq_iff_eq] at he
    exact he.2.1.1
  obtain ⟨hentries, hn1, hcores, hcommits⟩ := freeEntries_free n freed (s.notePort g) hpart
  obtain ⟨hce, hcc, hcm, hsame, hclosed⟩ := closeStream_closes (freed.foldl (fun s e => s.freeEntry e) (s.notePort g)) n
  have hnote : (s.notePort g).entries = s.entries ∧ (s.notePort g).cores = s.cores ∧ (s.notePort g).commits = s.commits := by
    rw [notePort_frame]
    exact ⟨rfl, rfl, rfl⟩
  refine ⟨(freed.foldl (fun s e => s.freeEntry e) (s.notePort g)).closeStream n, answer_eq_next hport (hacts.trans ?_),
    fun e he => ?_, fun e he hne => ?_, fun hopen => ?_, fun hclosing hnone => ?_, (hcc.trans hcores).trans hnote.2.1,
    (hcm.trans hcommits).trans hnote.2.2⟩
  · rw [State.releaseTo, hrel]
  · rw [hce, hentries, hnote.1, List.mem_filter] at he
    refine ⟨he.1, fun ⟨h1, h2, h3⟩ => ?_⟩
    have hin : e ∈ freed := by
      rw [hfreed, List.mem_filter]
      exact ⟨he.1, by simp [h1, h2, h3]⟩
    have hany : freed.any (fun x => e.cseq == x.cseq) = true := List.any_eq_true.2 ⟨e, hin, by simp⟩
    simp [hany] at he
  · rw [hce, hentries, hnote.1, List.mem_filter]
    refine ⟨he, ?_⟩
    simp only [Bool.not_eq_true', List.any_eq_false, beq_iff_eq]
    exact fun x hx h => hne x hx h.symm
  · rw [hsame hopen, hn1, hstream]
    rfl
  · refine hclosed ?_ (fun e he => hnone e (by rw [hce]; exact he))
    rw [hn1, hstream]
    exact hclosing

/-! #### Results that are sent again -/

theorem takes_portUp {s : State} {n : Nat} {w : Wire} (h : s.takes n w = true) (t : State) (hport : t.ports = s.ports)
    (hprof : t.profile = s.profile) (hhubs : t.hubs = s.hubs) : t.portUp n = true :=
  (portUp_congr hport hprof (fun h => by rw [State.hub, State.hub, hhubs]) n).trans (portUp_of_takes h)

theorem outPort_up {s : State} {n : Nat} (h : s.portUp n = true) : s.outPort n = some n := List.find?_cons_of_pos h

/-- Results sent again in order, each to the port and address of its stream. -/
theorem resendAll_sends (p addr : Nat) : ∀ (l : List Entry) (s : State),
    (∀ e ∈ l, s.resultPort e = some p ∧ (s.stream e.stream).addr = addr) →
    ∃ outs : List (List Out), s.Sent (s.resendAll l) ∧ outs.length = l.length ∧ (s.resendAll l).out = s.out ++ outs.flatten ∧
      ∀ (i : Nat) (e : Entry), l[i]? = some e → ∃ a : List Out, outs[i]? = some a ∧ carries p addr e a := by
  intro l
  induction l with
  | nil => exact fun s _ => ⟨[], .refl s, rfl, by simp [State.resendAll], by simp⟩
  | cons e l ih =>
    intro s hl
    obtain ⟨hport, haddr⟩ := hl e List.mem_cons_self
    obtain ⟨a, ha, hcarries, hsent⟩ := sendResult_carries s e p
    have hone := hsent.trans (modFold_sent _ (p / 4) (fun x => { x with resends := inc x.resends }))
    obtain ⟨outs, hrest, hlen, hout, hall⟩ := ih ((s.sendResult e p).modFold (p / 4) (fun x => { x with resends := inc x.resends }))
      (fun x hx => by
        rw [hone.resultPort, stream_of_streams hone.streams]
        exact hl x (List.mem_cons_of_mem _ hx))
    rw [State.resendAll, hport]
    refine ⟨a :: outs, hone.trans hrest, congrArg (· + 1) hlen, ?_, fun i x hx => ?_⟩
    · rw [hout, modFold_out, ha, List.flatten_cons, List.append_assoc]
    · cases i with
      | zero =>
        obtain rfl : e = x := by simpa using hx
        exact ⟨a, rfl, haddr ▸ hcarries⟩
      | succ i => simpa using hall i x hx

theorem resend_sends {s : State} {g : SegIn} (hport : portOk g.port = true) (htakes : s.takes g.port g.wire = true)
    (hkind : g.hdr.kind = 4) (hok : s.rackOk g = true) (hop : beAt g.body 0 1 = 1) {n q : Nat} (hn : n = g.hdr.stream)
    (hq : q = beAt g.body 4 4) {l : List Entry}
    (hl : l = s.entries.filter (fun e => e.stream == n && decide (q ≤ e.seq) && e.st == .sent && e.parcelOk && e.here))
    (hsession : ∀ e ∈ l, (s.session? e.tsid).isSome = true) :
    ∃ (t : State) (outs : List (List Out)), exec (.resend g) s = .next t ∧ t.entries = s.entries ∧ t.cores = s.cores ∧
      outs.length = l.length ∧ t.out = s.out ++ outs.flatten ∧
      ∀ (i : Nat) (e : Entry), l[i]? = some e → ∃ a : List Out, outs[i]? = some a ∧ carries g.port g.addr e a := by
  have hacts := resultAck_acts htakes hkind hok (fun s n q =>
    s.resendAll (s.entries.filter (fun e => e.stream == n && decide (q ≤ e.seq) && e.st == .sent && e.parcelOk && e.here)))
  rw [hop, ← hn, ← hq] at hacts
  have hstream := stream_notePort hok
  rw [← hn] at hstream
  have hnote : (s.notePort g).entries = s.entries ∧ (s.notePort g).cores = s.cores ∧ (s.notePort g).out = s.out ∧
      (s.notePort g).secure = s.secure ∧ (s.notePort g).ports = s.ports ∧ (s.notePort g).profile = s.profile ∧
      (s.notePort g).hubs = s.hubs := by
    rw [notePort_frame]
    exact ⟨rfl, rfl, rfl, rfl, rfl, rfl, rfl⟩
  obtain ⟨hentries, hcores, hout, hsecure, hports, hprof, hhubs⟩ := hnote
  have hup := takes_portUp htakes (s.notePort g) hports hprof hhubs
  have hready : ∀ e ∈ l, (s.notePort g).resultPort e = some g.port ∧ ((s.notePort g).stream e.stream).addr = g.addr := by
    intro e he
    have hsess := hsession e he
    have hes : e.stream = n := by
      rw [hl, List.mem_filter] at he
      simp only [Bool.and_eq_true, beq_iff_eq] at he
      exact he.2.1.1.1.1
    rw [State.session?] at hsess
    rw [hes, State.resultPort, State.session?, hsecure, if_pos hsess, hes, hstream]
    exact ⟨outPort_up hup, rfl⟩
  obtain ⟨outs, hsent, hlen, ho, hall⟩ := resendAll_sends g.port g.addr l (s.notePort g) hready
  refine ⟨(s.notePort g).resendAll l, outs, answer_eq_next hport (hacts.trans ?_), hsent.entries.trans hentries,
    hsent.cores.trans hcores, hlen, ho.trans (by rw [hout]), hall⟩
  rw [hentries, hl]

/-- Settles O27: results that are written, sent in turn, released and sent again. -/
theorem results : Obligations.Results := by
  unfold Obligations.Results
  refine ⟨⟨?written, ?sent⟩, ?acked⟩
  case written =>
    intro s cseq e he hdual hst hsent
    have hexec := exec_resultParcelWritten he
    obtain ⟨hentry, hcores⟩ := complete_completes (s := s.wakeStacks [e.rpar.stack, e.rpar.mirror]) he hdual
    refine ⟨fun b hop hended hout => ?_, fun hop hadm hhere => ?_⟩
    · rw [resultWritten_run (s := s.wakeStacks [e.rpar.stack, e.rpar.mirror]) hst hsent hop hended hout] at hexec
      exact ⟨_, _, hexec, hentry, rfl, rfl, rfl, rfl, rfl, hcores⟩
    · rw [resultWritten_other hop hadm hhere] at hexec
      exact ⟨_, _, hexec, hentry, rfl, rfl, rfl, hcores⟩
  case sent =>
    intro s n p e hdue he hport href hdual
    exact resultTransmit_sends hdue he hport href hdual
  case acked =>
    intro s g hport htakes hkind hok n q freed
    exact ⟨fun hop => release_frees hport htakes hkind hok hop rfl rfl rfl,
      fun hop hsession => resend_sends hport htakes hkind hok hop rfl rfl rfl hsession⟩

end Sys2Proof.Machine
end

/-! ## Losses and repairs; bulk transfer and installation (10 R324 to R339, 11 R365, 13 R404 to R419) -/

section
namespace Sys2Proof.Machine
open Sys2Proof

/-! ### Parcels that cannot be read (R365) -/

section
variable {s : State} {cseq : Nat} {e : Entry}

theorem exec_parcelReadError (he : s.entry? cseq = some e) (input mirror both : Bool) :
    exec (.parcelReadError cseq ⟨input, mirror⟩ both) s = .next (s.parcelError e input mirror both) := by
  refine answer_eq_next rfl ?_
  simp only [he]

theorem takeRun_frame (s : State) (st a n : Nat) : s.takeRun st a n = { s with used := (s.takeRun st a n).used } := by
  unfold State.takeRun
  split <;> rfl

theorem remirror_frame (s : State) (p : Parcel) (mirror : Bool) :
    (s.remirror p mirror).1 = { s with used := (s.remirror p mirror).1.used } := by
  unfold State.remirror
  dsimp only
  generalize (if mirror = true then (p.stack, p.first) else (p.mirror, p.mfirst)) = keep
  generalize (if mirror = true then (p.mirror, p.mfirst) else (p.stack, p.first)) = lost
  split
  · rfl
  · split
    · dsimp only
      rw [giveRun_frame, takeRun_frame]
    · dsimp only
      rw [giveRun_frame]

theorem remirror_pages (s : State) (p : Parcel) (mirror : Bool) : (s.remirror p mirror).2.pages = p.pages := by
  unfold State.remirror
  dsimp only
  generalize (if mirror = true then (p.stack, p.first) else (p.mirror, p.mfirst)) = keep
  generalize (if mirror = true then (p.mirror, p.mfirst) else (p.stack, p.first)) = lost
  split
  · rfl
  · split <;> rfl

/-- The copy that can be read stays, and is mirrored on the stack that R365 names, where that has room. -/
theorem remirror_keeps {p : Parcel} {mirror : Bool} {keep : Nat × Nat}
    (hkeep : keep = if mirror then (p.stack, p.first) else (p.mirror, p.mfirst)) (hpages : p.pages ≠ 0)
    (hne : (p.stack, p.first) ≠ (p.mirror, p.mfirst)) :
    ((s.remirror p mirror).2.stack, (s.remirror p mirror).2.first) = keep ∧
      ∀ m q, s.mirrorOf keep.1 = some m → s.mirrorRun m p.pages = some q →
        ((s.remirror p mirror).2.mirror, (s.remirror p mirror).2.mfirst) = (m, q) := by
  have hdiff : ¬ (p.pages = 0 ∨ keep = if mirror then (p.mirror, p.mfirst) else (p.stack, p.first)) := by
    rintro (h | h)
    · exact hpages h
    · cases mirror
      · exact hne (by simpa using (hkeep.symm.trans h).symm)
      · exact hne (by simpa using hkeep.symm.trans h)
  unfold State.remirror
  dsimp only
  rw [← hkeep, if_neg hdiff]
  generalize (if mirror = true then (p.mirror, p.mfirst) else (p.stack, p.first)) = lost
  refine ⟨?_, fun m q hm hq => ?_⟩
  · split <;> rfl
  · simp only [hm, hq, Option.bind_some, Option.map_some]

theorem parcelError_remirrors (he : s.entry? cseq = some e) (input mirror : Bool) :
    s.parcelError e input mirror false = ((s.remirror (if input then e.ipar else e.rpar) mirror).1.modEntry cseq (fun x =>
      if input then { x with ipar := (s.remirror (if input then e.ipar else e.rpar) mirror).2 }
      else { x with rpar := (s.remirror (if input then e.ipar else e.rpar) mirror).2 })).countRepair := by
  rw [← entry?_cseq he]
  rfl

theorem parcelReadError_serves (he : s.entry? cseq = some e) (input mirror : Bool) {p : Parcel} {keep : Nat × Nat}
    (hp : p = if input then e.ipar else e.rpar) (hkeep : keep = if mirror then (p.stack, p.first) else (p.mirror, p.mfirst)) :
    ∃ t e1 p1, exec (.parcelReadError cseq ⟨input, mirror⟩ false) s = .next t ∧ t.entry? cseq = some e1 ∧
      e1 = (if input then { e with ipar := p1 } else { e with rpar := p1 }) ∧ p1.pages = p.pages ∧
      (p.pages ≠ 0 → (p.stack, p.first) ≠ (p.mirror, p.mfirst) → (p1.stack, p1.first) = keep ∧
        ∀ m q, s.mirrorOf keep.1 = some m → s.mirrorRun m p.pages = some q → (p1.mirror, p1.mfirst) = (m, q)) ∧
      t.cores = s.cores ∧ t.out = s.out := by
  have hexec := exec_parcelReadError he input mirror false
  rw [parcelError_remirrors he, ← hp] at hexec
  have hentries : (s.remirror p mirror).1.entries = s.entries := by rw [remirror_frame]
  have hcores : (s.remirror p mirror).1.cores = s.cores := by rw [remirror_frame]
  have hout : (s.remirror p mirror).1.out = s.out := by rw [remirror_frame]
  refine ⟨_, _, (s.remirror p mirror).2, hexec, entry?_modEntry ((entry?_of_entries hentries cseq).trans he) ?_, rfl,
    remirror_pages .., remirror_keeps hkeep, hcores, hout⟩
  split <;> rfl

theorem not_complete_of_completed (h : e.completed = false) : e.st ≠ .complete ∧ e.st ≠ .sent := by
  simp only [Entry.completed, Bool.or_eq_false_iff, beq_eq_false_iff_ne] at h
  exact h.1

theorem parcelReadError_withholds (he : s.entry? cseq = some e) (hruns : s.runsHere e = true) (hopen : e.completed = false)
    (mirror : Bool) : ∃ t e1, exec (.parcelReadError cseq ⟨true, mirror⟩ true) s = .next t ∧ t.entry? cseq = some e1 ∧
      e1.st = e.st ∧ e1.ended = true ∧ e1.status = .withheld ∧ e1.wreason = 0x12 ∧ e1.payload = [] ∧
      (∀ k, (s.core k).entry = some cseq → (t.core k).entry = none ∧ (t.core k).st = .idle) := by
  have hnum := entry?_cseq he
  subst hnum
  obtain ⟨hst, hsent⟩ := not_complete_of_completed hopen
  have hdone : s.parcelError e true mirror true = (s.completeAs e.cseq .withheld 0x12 []).countLost := by
    simp only [State.parcelError, hruns, hopen]
    rfl
  exact ⟨_, _, (exec_parcelReadError he true mirror true).trans (congrArg _ hdone), completeAs_entry he hst hsent .withheld 0x12 [],
    rfl, rfl, rfl, rfl, rfl, (freed_of_cores (completeAs_open he hst hsent .withheld 0x12 []).2).1⟩

theorem takeRefs_frame (s : State) (e : Entry) : s.takeRefs e = { s with
    routines := (s.takeRefs e).routines
    dsm := (s.takeRefs e).dsm } := by
  unfold State.takeRefs
  split
  · split <;> rfl
  · rfl

theorem entry?_requeue (he : s.entry? cseq = some e) (order : Nat) {f : Entry → Entry} (hf : ∀ x, (f x).cseq = x.cseq) :
    (s.requeue cseq order f).entry? cseq = some (f { e with
        st := .ready, order := order, frame := { e.frame with pages := [] }.again, ended := false, parcelOk := false
        status := .done, wreason := 0, payload := [] }) := (requeue_ends he order hf id).1

theorem parcelReadError_reruns (he : s.entry? cseq = some e) (hruns : s.runsHere e = true) (hst : e.st = .complete ∨ e.st = .sent)
    (hcores : e.frame.cores ≠ []) (mirror : Bool) :
    ∃ t e1, exec (.parcelReadError cseq ⟨false, mirror⟩ true) s = .next t ∧ t.entry? cseq = some e1 ∧ e1.st = .ready ∧
      e1.order = 0 ∧ e1.payload = [] := by
  have hnum := entry?_cseq he
  subst hnum
  have hkept : ¬ (e.st ≠ .complete ∧ e.st ≠ .sent) := fun h => hst.elim h.1 h.2
  have hdone : s.parcelError e false mirror true = (s.takeRefs e).requeue e.cseq 0 id := by
    simp only [State.parcelError, hruns, if_neg hkept, List.isEmpty_iff, if_neg hcores]
    rfl
  have hentries : (s.takeRefs e).entries = s.entries := by rw [takeRefs_frame]
  exact ⟨_, _, (exec_parcelReadError he false mirror true).trans (congrArg _ hdone),
    entry?_requeue ((entry?_of_entries hentries _).trans he) 0 (fun _ => rfl), rfl, rfl, rfl⟩

end

/-! ### Paths in doubt (R411, R412) -/

section
variable {s : State} {path unit : Nat}

theorem exec_fabricTimeout (hpath : pathOk path unit = true) {cores : List Nat} (hcores : cores.all coreOk = true) :
    exec (.fabricTimeout path unit cores) s = .next ((s.haltWaiting path cores).doubtPath path unit) :=
  answer_eq_next (by rw [hpath, hcores]; rfl) rfl

theorem haltWaiting_nil (s : State) (path : Nat) : s.haltWaiting path [] = s.localFault := rfl

theorem haltWaiting_one {k : Nat} (hlive : (s.core k).live = true) (path : Nat) :
    s.haltWaiting path [k] = s.haltDue k 0x23 (path * 2 ^ 28) := by
  simp only [State.haltWaiting, List.filter_cons, hlive]
  rfl

theorem haltDue_core (s : State) (k reason detail j : Nat) : (s.haltDue k reason detail).core j =
    if j = k ∧ (s.core k).live = true then
      (s.core k).halt (s.core k).ctl.ctx (s.core k).ctl.pc (s.core k).ctl.calls.length reason detail
    else s.core j := by
  unfold State.haltDue State.haltCore
  dsimp only
  by_cases hlive : (s.core k).live = true
  · rw [if_pos hlive]
    by_cases hj : j = k
    · subst hj
      rw [if_pos ⟨rfl, hlive⟩]
      exact State_core_setCore_same ..
    · rw [if_neg (fun h => hj h.1)]
      exact State_core_setCore_ne _ _ hj
  · rw [if_neg hlive, if_neg (fun h => hlive h.2)]

/-- Cores halted one after the other: each that is live halts once, and no other core changes. -/
theorem haltDues_core (reason detail : Nat) (l : List Nat) (s : State) (j : Nat) :
    (l.foldl (fun s k => s.haltDue k reason detail) s).core j = if j ∈ l ∧ (s.core j).live = true then
      (s.core j).halt (s.core j).ctl.ctx (s.core j).ctl.pc (s.core j).ctl.calls.length reason detail else s.core j := by
  induction l generalizing s with
  | nil => simp
  | cons k l ih =>
    rw [List.foldl_cons, ih, haltDue_core]
    by_cases hj : j = k
    · subst hj
      by_cases hlive : (s.core j).live = true
      · have hdead : ((s.core j).halt (s.core j).ctl.ctx (s.core j).ctl.pc (s.core j).ctl.calls.length reason detail).live = false := rfl
        simp [hlive, hdead]
      · simp [hlive]
    · simp [hj]

theorem haltWaiting_core (s : State) (path : Nat) (cores : List Nat) (j : Nat) :
    (s.haltWaiting path cores).core j = if j ∈ cores ∧ (s.core j).live = true then
      (s.core j).halt (s.core j).ctl.ctx (s.core j).ctl.pc (s.core j).ctl.calls.length 0x23 (path * 2 ^ 28) else s.core j := by
  unfold State.haltWaiting
  dsimp only
  split
  · next hnone =>
    refine Eq.trans (b := s.core j) rfl (if_neg fun h => ?_).symm
    have hin : j ∈ cores.filter (fun k => (s.core k).live) := List.mem_filter.2 h
    simp [List.isEmpty_iff.1 hnone] at hin
  · rw [haltDues_core]
    simp only [List.mem_filter, and_assoc, and_self]

theorem haltDue_frame (s : State) (k reason detail : Nat) : s.haltDue k reason detail = { s with
    cores := (s.haltDue k reason detail).cores
    deposits := (s.haltDue k reason detail).deposits } := by
  unfold State.haltDue State.haltCore
  dsimp only
  split <;> rfl

theorem cl_modCl (s : State) (d c : Nat) (f : Cluster → Cluster) : (s.modCl d c f).cl d c = f (s.cl d c) := by
  simp only [State.cl, State.modCl, Tbl_get_set, if_pos, Option.getD_some]

theorem modAt_congr {α : Type} {l : List α} {n : Nat} {f g : α → α} (d : α) (h : n < l.length → f (at' l n d) = g (at' l n d)) :
    modAt l n f = modAt l n g := by
  induction l generalizing n with
  | nil => rfl
  | cons x l ih =>
    cases n with
    | zero => simpa [modAt, at'] using h
    | succ n =>
      simp only [modAt, List.cons.injEq, true_and]
      exact ih fun hn => by simpa [at'] using h (by simpa using hn)

theorem at'_modAt_out {α : Type} {l : List α} {n : Nat} (hn : ¬ n < l.length) (f : α → α) : modAt l n f = l := by
  induction l generalizing n with
  | nil => rfl
  | cons x l ih =>
    cases n with
    | zero => simp at hn
    | succ n =>
      simp only [modAt, List.cons.injEq, true_and]
      exact ih (by simpa using hn)

theorem die_modDie {d : Nat} (hd : d < s.dies.length) (f : Die → Die) (j : Nat) :
    (s.modDie d f).die j = if j = d then f (s.die j) else s.die j := at'_modAt s.dies hd f j _

end

section
variable {s : State} {unit : Nat}

/-- A link in doubt is not used again; a die loses its links to both hubs and is lost (R412). -/
theorem doubtPath_link (s : State) (unit : Nat) : s.doubtPath 4 unit =
    if ((s.modDie (unit / 2) (fun d => { d with hubLinks := d.hubLinks.set (unit % 2) false })).die (unit / 2)).hubLinks.any id
    then s.modDie (unit / 2) (fun d => { d with hubLinks := d.hubLinks.set (unit % 2) false })
    else (s.modDie (unit / 2) (fun d => { d with hubLinks := d.hubLinks.set (unit % 2) false })).loseDie (unit / 2) := rfl

theorem set_false_any (n : Nat) : ([true, true].set (n % 2) false).any id = true := by
  rcases Nat.mod_two_eq_zero_or_one n with h | h <;> rw [h] <;> rfl

theorem doubtPath_keeps (hlinks : (s.die (unit / 2)).hubLinks = [true, true]) :
    s.doubtPath 4 unit = s.modDie (unit / 2) (fun d => { d with hubLinks := d.hubLinks.set (unit % 2) false }) := by
  rw [doubtPath_link, if_pos]
  by_cases hin : unit / 2 < s.dies.length
  · rw [die_modDie hin, if_pos rfl, hlinks]
    exact set_false_any unit
  · have hsame : s.modDie (unit / 2) (fun d => { d with hubLinks := d.hubLinks.set (unit % 2) false }) = s := by
      rw [State.modDie, at'_modAt_out hin]
    rw [hsame, hlinks]
    rfl

theorem doubtPath_loses (hin : unit / 2 < s.dies.length)
    (hlinks : (s.die (unit / 2)).hubLinks = [true, true].set (1 - unit % 2) false) :
    s.doubtPath 4 unit = (s.modDie (unit / 2) (fun d => { d with hubLinks := [false, false] })).loseDie (unit / 2) := by
  have hnone : ([true, true].set (1 - unit % 2) false).set (unit % 2) false = [false, false] := by
    rcases Nat.mod_two_eq_zero_or_one unit with h | h <;> rw [h] <;> rfl
  have hmod : s.modDie (unit / 2) (fun d => { d with hubLinks := d.hubLinks.set (unit % 2) false }) =
      s.modDie (unit / 2) (fun d => { d with hubLinks := [false, false] }) := by
    rw [State.modDie, State.modDie]
    refine congrArg (fun l => { s with dies := l }) (modAt_congr Die.fresh fun _ => ?_)
    show Die.mk .. = Die.mk ..
    rw [show (at' s.dies (unit / 2) Die.fresh).hubLinks = _ from hlinks, hnone]
  rw [doubtPath_link, hmod, if_neg]
  rw [die_modDie hin, if_pos rfl]
  simp

end

/-! ### Stacks and dies that are lost (R404, R418, R419) -/

section
variable {s : State} {st : Nat}

/-- `s` with the stack `st` out of service and its pages gone. -/
def State.stackOut (s : State) (st : Nat) : State :=
  { s with
    hbmStacks := s.hbmStacks.set st (false, false), pages := s.pages.set st 0, used := s.used.set st [] }.countLostUnit

/-- No entry has a parcel on `st`. -/
def State.parcelFree (s : State) (st : Nat) : Prop := ∀ e ∈ s.entries, e.ipar.on st = false ∧ e.rpar.on st = false

theorem mem_of_entry? {n : Nat} {e : Entry} (h : s.entry? n = some e) : e ∈ s.entries := List.mem_of_find?_eq_some h

theorem parcelGone_free (h : s.parcelFree st) (n : Nat) (input : Bool) : s.parcelGone n st input = s := by
  unfold State.parcelGone
  split
  · rfl
  · next e he =>
    obtain ⟨hi, hr⟩ := h e (mem_of_entry? he)
    have hon : (if input then e.ipar else e.rpar).on st = false := by
      cases input
      · exact hr
      · exact hi
    dsimp only
    rw [hon]
    rfl

theorem parcelsGone_free (h : s.parcelFree st) (l : List Nat) :
    l.foldl (fun s n => (s.parcelGone n st true).parcelGone n st false) s = s := by
  induction l with
  | nil => rfl
  | cons n l ih => rw [List.foldl_cons, parcelGone_free h, parcelGone_free h, ih]

/-- The frames that a lost stack stops run again. -/
def State.stackHits (s : State) (st : Nat) : List Nat :=
  (s.entries.filter (fun e => e.st == .running && e.frame.pages.any (fun p => p.1 == st))).map (·.cseq)

theorem loseStack_free (hup : s.stackUp st = true) {t : State} (ht : t = (s.stackHits st).foldl (fun s n => s.hwEnd n) (s.stackOut st))
    (hfree : t.parcelFree st) : s.loseStack st = (t.rehomeGold st).shrinkPool := by
  have hparcels := parcelsGone_free hfree (t.entries.map (·.cseq))
  rw [ht] at hparcels ⊢
  unfold State.loseStack
  rw [if_neg (by simp [hup])]
  exact congrArg (fun u => (State.rehomeGold u st).shrinkPool) hparcels

theorem loseStack_down (h : s.stackUp st = false) : s.loseStack st = s := by
  unfold State.loseStack
  rw [h]
  rfl

theorem rehomeGold_poolUsed (s : State) (st : Nat) : (s.rehomeGold st).poolUsed = s.poolUsed := by
  simp only [State.poolUsed, State.rehomeGold, List.map_map]
  rfl

theorem shrinkPool_fits (h : s.poolUsed ≤ s.poolSize) : s.shrinkPool = s := by
  unfold State.shrinkPool
  exact if_pos (Nat.sub_eq_zero_of_le h)

theorem shrinkPool_frame (s : State) : s.shrinkPool = { s with
    placements := s.shrinkPool.placements
    flt := s.shrinkPool.flt } := by
  unfold State.shrinkPool
  dsimp only
  split <;> rfl

theorem rehomeGold_frame (s : State) (st : Nat) (p : List Placement) (f : FaultRegs) :
    ({ s.rehomeGold st with placements := p, flt := f } : State) = { s with placements := p, flt := f } := rfl

/-- The golden copies that are copied again leave all but the placements and the counters of faults. -/
theorem golden_frame (s : State) (st : Nat) : (s.rehomeGold st).shrinkPool = { s with
    placements := (s.rehomeGold st).shrinkPool.placements
    flt := (s.rehomeGold st).shrinkPool.flt } :=
  (shrinkPool_frame (s.rehomeGold st)).trans (rehomeGold_frame ..)

theorem golden_entries (s : State) (st : Nat) : (s.rehomeGold st).shrinkPool.entries = s.entries := by rw [golden_frame]

theorem golden_stackUp (s : State) (st n : Nat) : (s.rehomeGold st).shrinkPool.stackUp n = s.stackUp n := by
  rw [State.stackUp, State.stackUp, golden_frame]

theorem stackUp_stackOut (s : State) (st n : Nat) : (s.stackOut st).stackUp n = if n = st then false else s.stackUp n := by
  simp only [State.stackUp, State.stackOut, State.countLostUnit, State.modFlt, at', List.getElem?_set]
  by_cases h : st = n
  · subst h
    by_cases hl : st < s.hbmStacks.length <;> simp [hl]
  · simp [h, Ne.symm h]

theorem stackLost_exact (hup : s.stackUp st = true)
    (hfree : ∀ e ∈ s.entries, (∀ p ∈ e.frame.pages, p.1 ≠ st) ∧ e.ipar.on st = false ∧ e.rpar.on st = false)
    (hpool : (s.stackOut st).poolUsed ≤ (s.stackOut st).poolSize) :
    s.loseStack st = { s.stackOut st with placements := s.placements.map (fun p =>
      { p with copies := if p.goldOk < 2 then p.copies.gone st else p.copies.rehome st (s.stackOut st).mirrorOf }) } := by
  have hnone : s.stackHits st = [] := by
    rw [State.stackHits, List.map_eq_nil_iff, List.filter_eq_nil_iff]
    intro e he
    simp only [Bool.and_eq_true, List.any_eq_true, beq_iff_eq, not_and, not_exists]
    exact fun _ p hp => (hfree e he).1 p hp
  rw [loseStack_free hup (t := s.stackOut st) (by rw [hnone]; rfl) (fun e he => (hfree e he).2)]
  refine (shrinkPool_fits ?_).trans rfl
  rw [rehomeGold_poolUsed]
  exact hpool

end

/-- The entry of a frame that runs again after a fault of hardware. -/
def Entry.replayed (e : Entry) : Entry :=
  { e with
    st := .ready, order := 0, frame := { e.frame with pages := [] }.again, ended := false, parcelOk := false
    status := .done, wreason := 0, payload := [], replays := e.replays + 1 }

section
variable {s : State} {e : Entry}

theorem entry?_single (h : s.entries = [e]) : s.entry? e.cseq = some e := by
  rw [State.entry?, h, List.find?_cons_of_pos (by simp)]

theorem clearFrame_single (h : s.entries = [e]) :
    (s.clearFrame e.cseq).entries = [{ e with frame := { e.frame with pages := [] } }] := by
  simp only [State.clearFrame, entry?_single h]
  rw [giveRuns_frame]
  simp only [State.modEntry, h, List.map_cons, List.map_nil, beq_self_eq_true, if_true]

theorem commitEntry_single {f : Entry → Entry} (h : s.entries = [e]) : (s.commitEntry e.cseq f).entries = [f e] := by
  rw [commitEntry_of_entry (entry?_single h), (ledger_ledgered ..).entries]
  simp only [State.modEntry, h, List.map_cons, List.map_nil, beq_self_eq_true, if_true]

/-- The only frame, which ran on hardware that is lost, runs again. -/
theorem hwEnd_single (h : s.entries = [e]) (hst : e.st = .running) (hended : e.ended = false)
    (hmax : e.replays + 1 ≤ s.profile.work.replayMax) : (s.hwEnd e.cseq).entries = [e.replayed] ∧
      s.freed (s.hwEnd e.cseq) e.cseq ∧ s.outcome (s.hwEnd e.cseq) := by
  have hopen : e.st = .running ∧ (!e.ended) = true := ⟨hst, by simp [hended]⟩
  have hdone : s.hwEnd e.cseq = (s.requeue e.cseq 0 (fun x => { x with replays := x.replays + 1 })).countFold
      (fun f => { f with replays := inc f.replays }) := by
    simp only [State.hwEnd, entry?_single h]
    rw [if_pos hopen, State.endHalted, if_neg (by decide), if_pos (by decide), if_neg (by omega)]
  have hcleared := clearFrame_single h
  rw [hdone]
  refine ⟨?_, (requeue_ends (entry?_single h) 0 ?_ _).2, ?_⟩
  · exact commitEntry_single (e := { e with frame := { e.frame with pages := [] } }) hcleared
  · exact fun _ => rfl
  · exact ((clearFrame_outcome ..).trans (commitEntry_outcome ..)).trans rfl

theorem stackLost_single {st : Nat} (hup : s.stackUp st = true) (h : s.entries = [e]) (hst : e.st = .running)
    (hended : e.ended = false) (hpage : ∃ p ∈ e.frame.pages, p.1 = st) (hi : e.ipar.on st = false) (hr : e.rpar.on st = false)
    (hmax : e.replays + 1 ≤ s.profile.work.replayMax) :
    (s.loseStack st).stackUp st = false ∧ (s.loseStack st).entry? e.cseq = some e.replayed := by
  have hany : e.frame.pages.any (fun p => p.1 == st) = true := by simpa using hpage
  have hhits : s.stackHits st = [e.cseq] := by
    simp [State.stackHits, h, hst, hany]
  obtain ⟨hentries, -, hout⟩ := hwEnd_single (s := s.stackOut st) h hst hended hmax
  have hfree : ((s.stackOut st).hwEnd e.cseq).parcelFree st := by
    intro x hx
    rw [hentries, List.mem_singleton] at hx
    rw [hx]
    exact ⟨hi, hr⟩
  have hstacks : ((s.stackOut st).hwEnd e.cseq).hbmStacks = (s.stackOut st).hbmStacks := by
    rw [show (s.stackOut st).hwEnd e.cseq = _ from hout]
  have hgone := stackUp_stackOut s st st
  rw [if_pos rfl, State.stackUp, ← hstacks] at hgone
  rw [loseStack_free hup (t := (s.stackOut st).hwEnd e.cseq) (by rw [hhits]; rfl) hfree, golden_stackUp]
  exact ⟨hgone, entry?_single (e := e.replayed) ((golden_entries ..).trans hentries)⟩

/-- No entry runs, and none has a parcel on a stack. -/
def State.restful (s : State) : Prop :=
  ∀ e ∈ s.entries, e.st ≠ .running ∧ ∀ st, e.ipar.on st = false ∧ e.rpar.on st = false

/-- From `s` to `t` only stacks and what was on them differ. -/
def State.stacksOnly (s t : State) : Prop :=
  t = { s with hbmStacks := t.hbmStacks, pages := t.pages, used := t.used, flt := t.flt, placements := t.placements }

theorem State.stacksOnly.trans {a b c : State} (hab : a.stacksOnly b) (hbc : b.stacksOnly c) : a.stacksOnly c := by
  unfold State.stacksOnly at *
  rw [hab] at hbc
  exact hbc

theorem State.stacksOnly.entries {s t : State} (h : s.stacksOnly t) : t.entries = s.entries := by
  rw [show t = _ from h]

theorem State.stacksOnly.of_frame {s t : State} {p : List Placement} {f : FaultRegs}
    (h : t = { s with placements := p, flt := f }) : s.stacksOnly t := by
  subst h
  rfl

theorem stackOut_stacksOnly (s : State) (st : Nat) : s.stacksOnly (s.stackOut st) := rfl

theorem golden_stacksOnly (s : State) (st : Nat) : s.stacksOnly ((s.stackOut st).rehomeGold st).shrinkPool :=
  (stackOut_stacksOnly s st).trans (.of_frame (golden_frame (s.stackOut st) st))

theorem loseStack_restful (h : s.restful) (st : Nat) : s.stacksOnly (s.loseStack st) ∧
    ∀ n, (s.loseStack st).stackUp n = if n = st then false else s.stackUp n := by
  by_cases hup : s.stackUp st = true
  · have hnone : s.stackHits st = [] := by
      rw [State.stackHits, List.map_eq_nil_iff, List.filter_eq_nil_iff]
      intro e he
      simp [(h e he).1]
    rw [loseStack_free hup (t := s.stackOut st) (by rw [hnone]; rfl) (fun e he => (h e he).2 st)]
    exact ⟨golden_stacksOnly s st, fun n => (golden_stackUp ..).trans (stackUp_stackOut s st n)⟩
  · have hdown : s.stackUp st = false := by simpa using hup
    rw [loseStack_down hdown]
    refine ⟨rfl, fun n => ?_⟩
    split
    · next hn => rw [hn, hdown]
    · rfl

theorem loseStacks_restful (l : List Nat) (s : State) (h : s.restful) :
    s.stacksOnly (l.foldl (fun s n => s.loseStack n) s) ∧
      ∀ n, (l.foldl (fun s n => s.loseStack n) s).stackUp n = if n ∈ l then false else s.stackUp n := by
  induction l generalizing s with
  | nil => exact ⟨rfl, fun n => rfl⟩
  | cons st l ih =>
    obtain ⟨honly, hup⟩ := loseStack_restful h st
    obtain ⟨honly', hup'⟩ := ih (s.loseStack st) (fun e he => h e (honly.entries ▸ he))
    refine ⟨honly.trans honly', fun n => ?_⟩
    rw [List.foldl_cons, hup', hup]
    by_cases hn : n = st <;> by_cases hl : n ∈ l <;> simp [hn, hl]

/-- `s` with the die `d` out of service, before its frames and stacks are. -/
def State.dieOut (s : State) (d : Nat) : State :=
  ({ s with maps := { s.maps with subst := s.maps.subst.filter (fun u => dieOf u.k != d) } }.modDie d (fun x => { x with
    up := false, part := 0, act := 0, ballast := 0, bal := [], balN := 0, standing := 0, waiting := [], granted := []
    ordered := 0 })).countLostUnit

/-- `s` with the stacks of the die `d` lost and no load on its rail, an uncontrolled step (R404). -/
def State.railOut (s : State) (d : Nat) : State :=
  { s with yoke := { s.yoke with
      doms := modAt s.yoke.doms d (fun x => { x with draw := 0, est := 0, estS := 0, estE := 0 }) } }.uncontrolled

theorem loseDie_eq {d : Nat} (hup : (s.die d).up = true) : s.loseDie d =
    ((tabulate 4 (fun i => 4 * d + i)).foldl (fun s n => s.loseStack n) ((s.dieOut d).hwEndOn (fun k => dieOf k == d))).railOut d := by
  unfold State.loseDie
  rw [if_neg (by simp [hup])]
  rfl

theorem loseDie_down {d : Nat} (hup : (s.die d).up = false) : s.loseDie d = s := by
  unfold State.loseDie
  rw [if_pos (by simp [hup])]

end

/-- What the loss of a die leaves, when no frame that waits or has ended has a parcel on its stacks. -/
structure State.LostDie (s u t : State) (d : Nat) : Prop where
  stackIn : ∀ i, i < 4 → t.stackUp (4 * d + i) = false
  stackOut : ∀ n, n / 4 ≠ d → t.stackUp n = u.stackUp n
  rail : ∀ x, t.yoke.doms[d]? = some x → x.draw = 0
  rails : ∀ j, j ≠ d → t.yoke.doms[j]? = u.yoke.doms[j]?
  step : t.yoke.regs.step = u.yoke.regs.step + 1
  envelope : t.yoke.envelope = t.drawTotal * 1000
  dies : t.dies = u.dies
  cores : t.cores = u.cores
  entries : t.entries = u.entries
  streams : t.streams = u.streams

section
variable {s : State} {d : Nat}

theorem getElem?_modAt {α : Type} (l : List α) (n : Nat) (f : α → α) (m : Nat) :
    (modAt l n f)[m]? = if m = n then l[m]?.map f else l[m]? := by
  induction l generalizing n m with
  | nil => simp [modAt]
  | cons x l ih => cases n <;> cases m <;> simp [modAt, ih]

theorem railOut_lost {u v : State} (honly : u.stacksOnly v) (hup : ∀ n, v.stackUp n = if n ∈ tabulate 4 (fun i => 4 * d + i)
    then false else u.stackUp n) : s.LostDie u (v.railOut d) d := by
  have hmem (n : Nat) : n ∈ tabulate 4 (fun i => 4 * d + i) ↔ n / 4 = d := by
    simp only [tabulate, List.mem_map, List.mem_range]
    exact ⟨fun ⟨i, hi, h⟩ => by omega, fun h => ⟨n % 4, by omega, by omega⟩⟩
  have hyoke : v.yoke = u.yoke := by rw [show v = _ from honly]
  refine ⟨fun i hi => ?_, fun n hn => ?_, fun x hx => ?_, fun j hj => ?_, ?_, rfl, ?_, ?_, ?_, ?_⟩
  · exact (hup (4 * d + i)).trans (if_pos ((hmem _).2 (by omega)))
  · exact (hup n).trans (if_neg fun h => hn ((hmem n).1 h))
  · simp only [State.railOut, State.uncontrolled, getElem?_modAt, if_pos, Option.map_eq_some_iff] at hx
    obtain ⟨y, -, rfl⟩ := hx
    rfl
  · simp only [State.railOut, State.uncontrolled, getElem?_modAt, if_neg hj, hyoke]
  · simp only [State.railOut, State.uncontrolled, hyoke, inc]
  · exact (show v.dies = u.dies by rw [show v = _ from honly])
  · exact (show v.cores = u.cores by rw [show v = _ from honly])
  · exact (show v.entries = u.entries by rw [show v = _ from honly])
  · exact (show v.streams = u.streams by rw [show v = _ from honly])

theorem loseDie_lost (hup : (s.die d).up = true) (hrest : ((s.dieOut d).hwEndOn (fun k => dieOf k == d)).restful) :
    s.LostDie ((s.dieOut d).hwEndOn (fun k => dieOf k == d)) (s.loseDie d) d := by
  rw [loseDie_eq hup]
  obtain ⟨honly, hstacks⟩ := loseStacks_restful (tabulate 4 (fun i => 4 * d + i)) _ hrest
  exact railOut_lost honly hstacks

theorem dieLost_empty (hd : d < s.dies.length) (hup : (s.die d).up = true) (hnone : s.entries = []) :
    ((s.loseDie d).die d).up = false ∧ ((s.loseDie d).die d).part = 0 ∧ ((s.loseDie d).die d).ballast = 0 ∧
      ((s.loseDie d).die d).bal = [] ∧ (∀ j, j ≠ d → (s.loseDie d).die j = s.die j) ∧
      s.LostDie (s.dieOut d) (s.loseDie d) d := by
  have hends : (s.dieOut d).hwEndOn (fun k => dieOf k == d) = s.dieOut d := by
    simp only [State.hwEndOn, State.framesOn, show (s.dieOut d).entries = [] from hnone, List.filter_nil, List.map_nil,
      List.foldl_nil]
  have hrest : ((s.dieOut d).hwEndOn (fun k => dieOf k == d)).restful := by
    rw [hends]
    intro e he
    rw [show (s.dieOut d).entries = [] from hnone] at he
    exact absurd he List.not_mem_nil
  have hlost := loseDie_lost hup hrest
  rw [hends] at hlost
  have hdie (j : Nat) : (s.loseDie d).die j = (s.dieOut d).die j := by rw [State.die, State.die, hlost.dies]
  have hmod (j : Nat) := die_modDie (s := { s with maps := { s.maps with subst := s.maps.subst.filter (fun u => dieOf u.k != d) } })
    hd (fun x => { x with
      up := false, part := 0, act := 0, ballast := 0, bal := [], balN := 0, standing := 0, waiting := [], granted := []
      ordered := 0 }) j
  have hout := (hdie d).trans ((hmod d).trans (if_pos rfl))
  refine ⟨?_, ?_, ?_, ?_, fun j hj => (hdie j).trans ((hmod j).trans (if_neg hj)), hlost⟩ <;> rw [hout]

theorem dieLost_single {e : Entry} (hup : (s.die d).up = true) (h : s.entries = [e]) (hst : e.st = .running)
    (hended : e.ended = false) (hcore : ∃ k ∈ s.coresOf e.cseq, dieOf k = d) (hi : e.ipar.pages = 0) (hr : e.rpar.pages = 0)
    (hmax : e.replays + 1 ≤ s.profile.work.replayMax) :
    (s.loseDie d).entry? e.cseq = some e.replayed ∧
      ∀ k, (s.core k).entry = some e.cseq → ((s.loseDie d).core k).entry = none ∧ ((s.loseDie d).core k).st = .idle := by
  have hhits : (s.dieOut d).hwEndOn (fun k => dieOf k == d) = (s.dieOut d).hwEnd e.cseq := by
    have hany : (s.coresOf e.cseq).any (fun k => dieOf k == d) = true := by simpa using hcore
    have hframes : (s.dieOut d).framesOn (fun k => dieOf k == d) = [e.cseq] := by
      simp [State.framesOn, show (s.dieOut d).entries = [e] from h, hst,
        show (s.dieOut d).coresOf e.cseq = s.coresOf e.cseq from rfl, hany]
    rw [State.hwEndOn, hframes]
    rfl
  obtain ⟨hentries, hfreed, -⟩ := hwEnd_single (s := s.dieOut d) h hst hended hmax
  have hrest : ((s.dieOut d).hwEndOn (fun k => dieOf k == d)).restful := by
    rw [hhits]
    intro x hx
    rw [hentries, List.mem_singleton] at hx
    rw [hx]
    refine ⟨by simp [Entry.replayed], fun st => ⟨?_, ?_⟩⟩
    · simp [Entry.replayed, Parcel.on, hi]
    · simp [Entry.replayed, Parcel.on, hr]
  have hlost := loseDie_lost hup hrest
  rw [hhits] at hlost
  refine ⟨entry?_single (e := e.replayed) (hlost.entries.trans hentries), fun k hk => ?_⟩
  rw [State.core, hlost.cores]
  exact hfreed.1 k hk

end

/-- Settles O28: parcels served by their other copy, paths in doubt, and stacks and dies that are lost. -/
theorem lossesAndRepairs : Obligations.LossesAndRepairs := by
  unfold Obligations.LossesAndRepairs
  refine ⟨?parcels, ?paths, ?losses⟩
  case parcels =>
    intro s cseq e he
    exact ⟨fun input mirror => parcelReadError_serves he input mirror rfl rfl,
      fun mirror hruns hopen => parcelReadError_withholds he hruns hopen mirror,
      fun mirror hruns hst hcores => parcelReadError_reruns he hruns hst hcores mirror⟩
  case paths =>
    intro s unit k cores hk hcores
    have hone : [k].all coreOk = true := by simp [hk]
    refine ⟨fun hu => ?_, fun hu hlive => ?_, fun hu => ?_, fun hu => ?_, fun hu => ?_, fun hu hlinks => ?_,
      fun hu hin hlinks => ?_, fun hu => ?_⟩
    · exact exec_fabricTimeout (path := 3) (by simpa [pathOk] using hu) rfl
    · have hexec := exec_fabricTimeout (s := s) (path := 3) (unit := unit) (by simpa [pathOk] using hu) hone
      rw [haltWaiting_one hlive] at hexec
      exact hexec
    · exact exec_fabricTimeout (path := 1) (by simpa [pathOk] using hu) rfl
    · refine ⟨_, exec_fabricTimeout (path := 1) (by simpa [pathOk] using hu) hcores, ?_, fun j hj hlive => ?_, fun j hj => ?_⟩
      · exact congrArg Cluster.doubt (cl_modCl (s.haltWaiting 1 cores) (unit / 9) (unit % 9) (fun c => { c with doubt := true }))
      · have hc := (haltWaiting_core s 1 cores j).trans (if_pos ⟨hj, hlive⟩)
        exact ⟨congrArg Core.haltRec hc, congrArg Core.st hc⟩
      · exact (haltWaiting_core s 1 cores j).trans (if_neg fun h => hj h.1)
    · exact exec_fabricTimeout (path := 2) (by simpa [pathOk] using hu) rfl
    · exact (exec_fabricTimeout (path := 4) (by simpa [pathOk] using hu) rfl).trans
        (congrArg _ (doubtPath_keeps (s := s.localFault) hlinks))
    · exact (exec_fabricTimeout (path := 4) (by simpa [pathOk] using hu) rfl).trans
        (congrArg _ (doubtPath_loses (s := s.localFault) hin hlinks))
    · exact exec_fabricTimeout (path := 5) (by simpa [pathOk] using hu) rfl
  case losses =>
    intro s
    have hstack (st : Nat) (hst : st < 16) : exec (.stackLost st) s = .next (s.loseStack st) := answer_eq_next (by simpa using hst) rfl
    have hdie (d : Nat) (hd : d < 4) : exec (.dieLost d) s = .next (s.loseDie d) :=
      answer_eq_next (decide_eq_true hd) rfl
    refine ⟨fun st hst hdown => (hstack st hst).trans (congrArg _ (loseStack_down hdown)), ?exact,
      fun st e hst hup h hrun hended hpage hi hr hmax => ?_, fun d hd hdown => (hdie d hd).trans (congrArg _ (loseDie_down hdown)),
      fun d hd hin hup hnone => ?_, fun d e hd hup h hrun hended hcore hi hr hmax => ?_⟩
    case exact =>
      intro st hst hup hfree t hpool
      exact (hstack st hst).trans (congrArg _ (stackLost_exact hup hfree hpool))
    · obtain ⟨hgone, hentry⟩ := stackLost_single hup h hrun hended hpage hi hr hmax
      exact ⟨_, e.replayed, hstack st hst, hgone, hentry, rfl, rfl, rfl⟩
    · obtain ⟨h1, h2, h3, h4, hother, hlost⟩ := dieLost_empty hin hup hnone
      exact ⟨_, hdie d hd, h1, h2, h3, h4, hlost.stackIn, hlost.stackOut, hlost.rail, hlost.rails, hother, hlost.step,
        hlost.envelope, hlost.cores, hlost.entries.trans hnone, hlost.streams⟩
    · obtain ⟨hentry, hfreed⟩ := dieLost_single hup h hrun hended hcore hi hr hmax
      exact ⟨_, e.replayed, hdie d hd, hentry, rfl, rfl, hfreed⟩

/-! ### What a REPLY sends (R324, R328, R339) -/

section
variable {s : State} {p : Nat}

theorem sendSeg_frame (s : State) (p addr : Nat) (h : Hdr) (body : List Byte) : s.sendSeg p addr h body =
    { s with secure := (s.sendSeg p addr h body).secure, out := (s.sendSeg p addr h body).out } := by
  simp only [State.sendSeg, State.emitOut]
  rw [nextIv_frame]

theorem sendSeg_secure (s : State) (p addr : Nat) {h : Hdr} (htsid : h.tsid = 0) (body : List Byte) :
    (s.sendSeg p addr h body).secure = s.secure := by
  simp only [State.sendSeg, State.emitOut, State.nextIv, htsid, if_true]

/-- `s` with a REPLY of `status` counted, when it refuses (R339). -/
def State.countReply (s : State) (status : Nat) : State :=
  if status = 0 ∨ status = 1 ∨ status = 6 then s else { s with inst := { s.inst with refused := inc s.inst.refused } }

theorem countReply_refused (s : State) (status : Nat) : (s.countReply status).inst.refused =
    if status = 0 ∨ status = 1 ∨ status = 6 then s.inst.refused else s.inst.refused + 1 := by
  unfold State.countReply
  split <;> rfl

theorem countReply_frame (s : State) (status : Nat) : s.countReply status =
    { s with inst := { s.inst with refused := (s.countReply status).inst.refused } } := by
  unfold State.countReply
  split <;> rfl

/-- `s` with the free cursor drawn, when no session gives one (log 41). -/
def State.drawCursor (s : State) : Option Nat → State
  | some _ => s
  | none => (s.openWord 4 64).1

theorem drawCursor_frame (s : State) (pos : Option Nat) : s.drawCursor pos =
    { s with pkg := { s.pkg with free := (s.drawCursor pos).pkg.free } } := by
  cases pos <;> rfl

/-- The body of the REPLY, whose cursor is free when no session gives one. -/
def State.replyBytes (s : State) (bop session name : Nat) (pos : Option Nat) (status detail : Nat) (payload : List Byte) : List Byte :=
  replyBody bop session name (pos.getD (Config.openValue 4 s.pkg.free 0 % 2 ^ 64)) status detail payload

theorem countReply_up (s : State) (status n : Nat) : (s.countReply status).portUp n = s.portUp n := by
  rw [countReply_frame]
  rfl

theorem reply_eq {dest : Place} (hport : dest.port < 8) (hp : s.outPort dest.port = some p) (bop session name : Nat)
    (pos : Option Nat) (status detail : Nat) (payload : List Byte) : s.reply dest bop session name pos status detail payload =
      ((s.countReply status).drawCursor pos).sendSeg p dest.addr (headOf 5 dest.tsid 0 0 0)
        ((s.countReply status).replyBytes bop session name pos status detail payload) := by
  have hp' : (s.countReply status).outPort dest.port = some p :=
    (congrArg (List.find? · _) (funext (countReply_up s status))).trans hp
  have h8 : dest.port ≠ 8 := by omega
  have h9 : dest.port ≠ 9 := by omega
  unfold State.reply
  change (if dest.port = 8 then _ else if dest.port = 9 then _ else match (s.countReply status).outPort dest.port with
    | some p => _ | none => _) = _
  rw [if_neg h8, if_neg h9, hp']
  cases pos <;> rfl

/-- A REPLY leaves from the request's port or another working one, and is counted when it refuses. -/
theorem reply_sends {dest : Place} (hport : dest.port < 8) (hp : s.outPort dest.port = some p) (bop session name : Nat)
    (pos : Option Nat) (status detail : Nat) (payload : List Byte) {t : State}
    (ht : t = s.reply dest bop session name pos status detail payload) :
    t.out = s.out ++ [s.segOut p dest.addr (headOf 5 dest.tsid 0 0 0) (s.replyBytes bop session name pos status detail payload)] ∧
      t.inst.refused = (if status = 0 ∨ status = 1 ∨ status = 6 then s.inst.refused else s.inst.refused + 1) ∧
      t = { s with
        inst := { s.inst with refused := t.inst.refused }, out := t.out, secure := t.secure
        pkg := { s.pkg with free := t.pkg.free } } ∧
      (dest.tsid = 0 → t.secure = s.secure) := by
  rw [reply_eq hport hp] at ht
  have hsecure : ((s.countReply status).drawCursor pos).secure = s.secure := by rw [drawCursor_frame, countReply_frame]
  have hbytes : (s.countReply status).replyBytes bop session name pos status detail payload =
      s.replyBytes bop session name pos status detail payload := by rw [countReply_frame]; rfl
  have hout : ((s.countReply status).drawCursor pos).out = s.out := by rw [drawCursor_frame, countReply_frame]
  have hrefused : ((s.countReply status).drawCursor pos).inst = (s.countReply status).inst := by rw [drawCursor_frame]
  have hframe := sendSeg_frame ((s.countReply status).drawCursor pos) p dest.addr (headOf 5 dest.tsid 0 0 0)
    ((s.countReply status).replyBytes bop session name pos status detail payload)
  refine ⟨?_, ?_, ?_, fun htsid => ?_⟩
  · rw [ht, sendSeg_out, hout, segOut_congr hsecure, hbytes]
  · rw [ht, hframe]
    exact (congrArg InstRegs.refused hrefused).trans (countReply_refused s status)
  · rw [ht, hframe, drawCursor_frame, countReply_frame]
  · rw [ht, sendSeg_secure _ _ _ htsid, hsecure]

end

/-! ### BULK frames (R324, R327, R486) -/

section
variable {s : State} {b : BulkIn} {tenant op : Nat} {f : State → Nat → BHead → State}

theorem bulkFrame_noSession (htakes : s.takes b.port b.wire = true) (hkind : b.hdr.kind = 5) (hnone : s.session? b.tsid = none) :
    s.bulkFrame op b f = s.replyNoSession b := by
  unfold State.bulkFrame
  rw [if_neg (by simp [htakes]), if_neg (by simp [hkind]), hnone]

/-- A frame that passes the tests of every BULK frame has its effect. -/
theorem bulkFrame_ready (h : s.bulkReady op b tenant) : s.bulkFrame op b f = f s tenant (bulkHead b.body) := by
  obtain ⟨-, htakes, hauth, hkind, hsession, hsingle, hop, hgood, href⟩ := h
  obtain ⟨x, hx, rfl⟩ := Option.map_eq_some_iff.1 hsession
  unfold State.bulkFrame
  rw [if_neg (by simp [htakes]), if_neg (by simp [hkind]), hx]
  dsimp only
  rw [if_neg (by simp [hauth]), if_neg (fun h => h.2.2.2 hop), if_neg (by simp [hsingle]), hgood]
  dsimp only
  rw [href]
  rfl

theorem exec_bulk_noSession {c : Instr} (hport : b.port < 8) (htakes : s.takes b.port b.wire = true) (hkind : b.hdr.kind = 5)
    (hnone : s.session? b.tsid = none)
    (hc : c ∈ [Instr.bulkOpen b, .burst b, .bulkClose b, .abort b, .query b, .remove b, .notes b] ∨ ∃ o, c = .bulkCommit b o) :
    exec c s = .next (s.replyNoSession b) := by
  have hok : portOk b.port = true := decide_eq_true hport
  rcases hc with hc | ⟨o, rfl⟩
  · simp only [List.mem_cons, List.not_mem_nil, or_false] at hc
    rcases hc with rfl | rfl | rfl | rfl | rfl | rfl | rfl <;>
      exact answer_eq_next hok (bulkFrame_noSession htakes hkind hnone)
  · exact answer_eq_next hok (bulkFrame_noSession htakes hkind hnone)

theorem replyNoSession_silent (h : 0xFFFD ≤ b.tsid) : s.replyNoSession b = s := if_pos h

theorem replyNoSession_answers {p : Nat} (hport : b.port < 8) (h : b.tsid < 0xFFFD) (hp : s.outPort b.port = some p) :
    ∃ (bop session name pos : Nat), (s.replyNoSession b).out =
        s.out ++ [s.segOut p b.addr (headOf 5 0 0 0 0) (replyBody bop session name pos 7 0 [])] ∧
      s.replyNoSession b = { s with
        inst := { s.inst with refused := s.inst.refused + 1 }, out := (s.replyNoSession b).out
        pkg := { s.pkg with free := (s.replyNoSession b).pkg.free } } := by
  have hdone : s.replyNoSession b = _ := if_neg (by omega)
  obtain ⟨hout, hrefused, hframe, hsecure⟩ := reply_sends (s := (s.openWord 37 56).1) (dest := ⟨b.port, b.addr, 0⟩) hport hp _ _ _
    none 7 0 [] hdone
  refine ⟨_, _, _, _, hout, hframe.trans ?_⟩
  rw [hsecure rfl, hrefused]
  rfl

theorem replyTo_sends {p : Nat} (hport : b.port < 8) (hp : s.outPort b.port = some p) (pos : Option Nat) (status d : Nat)
    {h : BHead} (hh : h = bulkHead b.body) {t : State} (ht : t = s.replyTo b pos status d) :
    t.out = s.out ++ [s.segOut p b.addr (headOf 5 b.tsid 0 0 0) (replyBody h.bop h.session h.name
      (pos.getD (Config.openValue 4 s.pkg.free 0 % 2 ^ 64)) status d [])] ∧
    t.inst.refused = (if status = 0 ∨ status = 1 ∨ status = 6 then s.inst.refused else s.inst.refused + 1) ∧
    t = { s with
      inst := { s.inst with refused := t.inst.refused }, out := t.out, secure := t.secure
      pkg := { s.pkg with free := t.pkg.free } } := by
  subst hh
  obtain ⟨hout, hrefused, hframe, -⟩ := reply_sends (dest := placeOf b) hport hp _ _ _ pos status d [] ht
  exact ⟨hout, hrefused, hframe⟩

/-! ### OPEN (R325) -/

theorem exec_bulkOpen (h : s.bulkReady 1 b tenant) : exec (.bulkOpen b) s = .next (s.bulkOpen b tenant (bulkHead b.body)) :=
  answer_eq_next h.1 (bulkFrame_ready h)

theorem bulkOpen_again {h : BHead} {y : Bulk} (hy : s.bulk? tenant h.session = some y) (hopen : y.aborted = false) :
    s.bulkOpen b tenant h = s.replyTo b (some y.cursor)
      (if y.target = h.target ∧ y.name = h.name ∧ y.base = h.pos ∧ y.len = h.len ∧ y.objlen = h.objlen then 0 else 4) 0 := by
  have hfound : (s.bulk? tenant h.session).filter (fun x => !x.aborted) = some y := by simp [hy, Option.filter, hopen]
  unfold State.bulkOpen
  dsimp only
  rw [hfound]
  dsimp only
  by_cases hs : y.target = h.target ∧ y.name = h.name ∧ y.base = h.pos ∧ y.len = h.len ∧ y.objlen = h.objlen
  · rw [if_pos (by simpa [and_assoc] using hs), if_pos hs]
  · rw [if_neg (by simpa [and_assoc] using hs), if_neg hs]

/-- The object's name is busy for an OPEN: it waits, has another length, or an open session of it meets the range. -/
def State.nameTaken (s : State) (tenant : Nat) (h : BHead) : Prop :=
  (∃ o, s.obj? tenant h.target h.name = some o ∧ (o.waiting = true ∨ o.len ≠ h.objlen)) ∨
    ∃ y ∈ s.sessionsOn tenant h.target h.name, meets y.base y.len h.pos h.len = true

/-- The object that an OPEN names waits, or has another length. -/
def State.nameBusy (s : State) (tenant : Nat) (h : BHead) : Bool :=
  match s.obj? tenant h.target h.name with
  | some o => o.waiting || o.len != h.objlen
  | none => false

theorem nameBusy_iff {h : BHead} : (s.nameBusy tenant h = true ∨
    ((s.sessionsOn tenant h.target h.name).any fun x => meets x.base x.len h.pos h.len) = true) ↔ s.nameTaken tenant h := by
  refine or_congr ?_ List.any_eq_true
  unfold State.nameBusy
  cases s.obj? tenant h.target h.name <;> simp

theorem bulkOpen_free {h : BHead} (hfound : (s.bulk? tenant h.session).filter (fun x => !x.aborted) = none) :
    s.bulkOpen b tenant h =
      if s.nameBusy tenant h = true ∨
          ((s.sessionsOn tenant h.target h.name).any fun x => meets x.base x.len h.pos h.len) = true then s.replyTo b none 4 0
      else if 64 ≤ s.openBulk.length ∨ 16 ≤ (s.sessionsOn tenant h.target h.name).length then s.replyTo b none 5 0
      else if (s.obj? tenant h.target h.name).isNone ∧ s.poolSize < s.poolUsed + 2 * h.objlen then
        s.replyTo b none 0x0B (mibLacking (s.poolUsed + 2 * h.objlen) s.poolSize)
      else (s.openSession b tenant h).replyTo b (some h.pos) 0 0 := by
  unfold State.bulkOpen
  rw [hfound]
  rfl

theorem bulkOpen_new {h : BHead} (hnone : ∀ y, s.bulk? tenant h.session = some y → y.aborted = true) :
    (s.nameTaken tenant h → s.bulkOpen b tenant h = s.replyTo b none 4 0) ∧
    (¬ s.nameTaken tenant h → 64 ≤ s.openBulk.length ∨ 16 ≤ (s.sessionsOn tenant h.target h.name).length →
      s.bulkOpen b tenant h = s.replyTo b none 5 0) ∧
    (¬ s.nameTaken tenant h → s.openBulk.length < 64 → (s.sessionsOn tenant h.target h.name).length < 16 →
      (s.obj? tenant h.target h.name = none → s.poolSize < s.poolUsed + 2 * h.objlen → s.bulkOpen b tenant h =
        s.replyTo b none 0x0B (mibLacking (s.poolUsed + 2 * h.objlen) s.poolSize)) ∧
      (s.obj? tenant h.target h.name ≠ none ∨ s.poolUsed + 2 * h.objlen ≤ s.poolSize →
        s.bulkOpen b tenant h = (s.openSession b tenant h).replyTo b (some h.pos) 0 0)) := by
  have hfound : (s.bulk? tenant h.session).filter (fun x => !x.aborted) = none := by
    cases hb : s.bulk? tenant h.session with
    | none => rfl
    | some y => simp [Option.filter, hnone y hb]
  rw [bulkOpen_free hfound, ← nameBusy_iff]
  refine ⟨fun ht => if_pos ht, fun ht hfull => (if_neg ht).trans (if_pos hfull), fun ht h64 h16 => ?_⟩
  have hgo : ¬ (64 ≤ s.openBulk.length ∨ 16 ≤ (s.sessionsOn tenant h.target h.name).length) := by omega
  rw [if_neg ht, if_neg hgo]
  refine ⟨fun hnew hpool => if_pos ⟨by simp [hnew], hpool⟩, fun hroom => if_neg fun ⟨hnew, hpool⟩ => ?_⟩
  refine hroom.elim (fun hold => hold ?_) (fun hfits => by omega)
  simpa using hnew

theorem openSession_eq {h : BHead} {x : Bulk} (hx : x = ⟨h.session, tenant, h.target, h.name, h.pos, h.len, h.objlen, h.pos, b.port / 4, false⟩) :
    s.openSession b tenant h = { s with
      bulk := s.bulk.filter (fun y => !(y.tenant == tenant && y.id == h.session)) ++ [x]
      objects := if s.obj? tenant h.target h.name = none then s.objects ++ [⟨tenant, h.target, h.name, h.objlen, [], [], false⟩]
        else s.objects } := by
  subst hx
  unfold State.openSession
  cases s.obj? tenant h.target h.name <;> rfl

end

/-- Settles O29: a frame under no session, what a REPLY sends, and OPEN. -/
theorem bulkOpens : Obligations.BulkOpens := by
  unfold Obligations.BulkOpens
  refine ⟨?ended, ?replies, ?opens⟩
  case ended =>
    intro s b c hport htakes hkind hnone hc
    have hexec := exec_bulk_noSession hport htakes hkind hnone hc
    refine ⟨fun h => hexec.trans (congrArg _ (replyNoSession_silent h)), fun h p hp => ?_⟩
    obtain ⟨bop, session, name, pos, hout, hframe⟩ := replyNoSession_answers hport h hp
    exact ⟨_, bop, session, name, pos, hexec, hout, hframe⟩
  case replies =>
    intro s b pos p status d hport hp h t
    exact replyTo_sends hport hp pos status d rfl rfl
  case opens =>
    intro s b tenant hready h x known taken
    have hexec := exec_bulkOpen hready
    refine ⟨fun y hy hopen => hexec.trans (congrArg _ (bulkOpen_again hy hopen)), fun hnone => ?_⟩
    obtain ⟨htaken, hfull, hfree⟩ := bulkOpen_new (b := b) hnone
    refine ⟨fun ht => hexec.trans (congrArg _ (htaken ht)), fun ht hn => hexec.trans (congrArg _ (hfull ht hn)),
      fun ht h64 h16 => ?_⟩
    obtain ⟨hlacks, hopens⟩ := hfree ht h64 h16
    refine ⟨fun hnew hpool => hexec.trans (congrArg _ (hlacks hnew hpool)), fun hroom => ?_⟩
    refine hexec.trans (congrArg _ ((hopens hroom).trans ?_))
    rw [openSession_eq rfl]

/-! ### Sessions: BURST, CLOSE, ABORT, QUERY, NOTES, and idling (R325 to R329) -/

section
variable {s : State} {b : BulkIn} {tenant : Nat} {x : Bulk} {h : BHead} {f : Bulk → State}

/-- A session that this hub serves. -/
theorem onSession_served (hx : s.bulk? tenant h.session = some x) (hopen : x.aborted = false)
    (hhub : x.hub = b.port / 4 ∨ (s.hub x.hub).up = false) : s.onSession b tenant h f = f x := by
  have hhere : ¬ (x.hub ≠ b.port / 4 ∧ (s.hub x.hub).up = true) := by
    rintro ⟨hne, hup⟩
    exact hhub.elim hne (fun h => by simp [h] at hup)
  unfold State.onSession
  rw [hx]
  dsimp only
  rw [if_neg (by simp [hopen]), if_neg hhere]

theorem onSession_refused (hx : s.bulk? tenant h.session = some x)
    (hno : x.aborted = true ∨ (x.hub ≠ b.port / 4 ∧ (s.hub x.hub).up = true)) :
    s.onSession b tenant h f = s.replyTo b (some x.cursor) (if x.aborted then 0x15 else 6) 0 := by
  unfold State.onSession
  rw [hx]
  dsimp only
  by_cases ha : x.aborted = true
  · rw [if_pos ha, if_pos ha]
  · rw [if_neg ha, if_neg ha, if_pos (hno.resolve_left ha)]

theorem onSession_unknown (hx : s.bulk? tenant h.session = none) : s.onSession b tenant h f = s.replyTo b none 3 0 := by
  unfold State.onSession
  rw [hx]

theorem exec_burst (hready : s.bulkReady 2 b tenant) : exec (.burst b) s = .next (s.burst b tenant (bulkHead b.body)) :=
  answer_eq_next hready.1 (bulkFrame_ready hready)

/-- What CLOSE does with a session that this hub serves. -/
def State.closeAs (s : State) (b : BulkIn) (x : Bulk) : State :=
  if x.cursor < x.base + x.len then s.replyTo b (some x.cursor) 0x0C x.cursor
  else (s.closeBulk x).replyTo b (some x.cursor) 0 0

theorem exec_bulkClose (hready : s.bulkReady 3 b tenant) :
    exec (.bulkClose b) s = .next (s.onSession b tenant (bulkHead b.body) (s.closeAs b)) :=
  answer_eq_next hready.1 (bulkFrame_ready hready)

theorem exec_abort (hready : s.bulkReady 4 b tenant) : exec (.abort b) s =
    .next (s.onSession b tenant (bulkHead b.body) (fun x => (s.closeBulk x).replyTo b (some x.cursor) 0 0)) :=
  answer_eq_next hready.1 (bulkFrame_ready hready)

/-- What QUERY answers of a session, or of none. -/
def State.queryAs (s : State) (b : BulkIn) : Option Bulk → State
  | none => s.replyTo b none 3 0
  | some x => s.replyTo b (some x.cursor) (if x.aborted then 0x15 else 0) 0

theorem exec_query (hready : s.bulkReady 5 b tenant) :
    exec (.query b) s = .next (s.queryAs b (s.bulk? tenant (bulkHead b.body).session)) := by
  refine answer_eq_next hready.1 ((bulkFrame_ready hready).trans ?_)
  cases hb : s.bulk? tenant (bulkHead b.body).session <;> rfl

/-- What NOTES answers, `found` being the placement of its handle. -/
def State.notesAs (s : State) (b : BulkIn) (tenant : Nat) (h : BHead) : Option Placement → State
  | none => s.replyTo b none 0x16 h.name
  | some p =>
    if p.tenant ≠ tenant then s.replyTo b none 7 0
    else s.reply (placeOf b) 8 0 h.name (some h.pos) 0 p.notes.length (((p.notes.drop h.pos).take 1024).flatMap (beBytes 8))

theorem exec_notes (hready : s.bulkReady 8 b tenant) : exec (.notes b) s = .next (s.notesAs b tenant (bulkHead b.body)
    (s.placements.find? (fun p => p.handle == (bulkHead b.body).name))) := by
  refine answer_eq_next hready.1 ((bulkFrame_ready hready).trans ?_)
  cases hp : s.placements.find? (fun p => p.handle == (bulkHead b.body).name) <;> rfl

/-! #### BURST -/

/-- `s` with the bytes of a BURST staged and mirrored (R326). -/
def State.stored (s : State) (b : BulkIn) (x : Bulk) (h : BHead) : State :=
  (((s.stage x h.pos (b.body.drop 32)).noteStaging (b.port / 4) h.len).wakeStacks (stagePages h.pos h.len)).mirrorBytes x.target
    x.name h.pos (b.body.drop 32)

theorem mirrorBytes_frame (s : State) (target name pos : Nat) (data : List Byte) : s.mirrorBytes target name pos data =
    { s with out := (s.mirrorBytes target name pos data).out, pair := (s.mirrorBytes target name pos data).pair } := by
  unfold State.mirrorBytes
  split
  · exact sendPair_frame ..
  · rfl

theorem mirrorBytes_off (hm : s.mirrors = false) (target name pos : Nat) (data : List Byte) :
    s.mirrorBytes target name pos data = s := if_neg (by simp [hm])

theorem stored_frame (s : State) (b : BulkIn) (x : Bulk) (h : BHead) : s.stored b x h = { s with
    bulk := s.bulk.map (fun y => if y.tenant == x.tenant && y.id == x.id then { y with cursor := h.pos + (b.body.drop 32).length } else y)
    objects := s.objects.map (fun o => if o.is x.tenant x.target x.name then
      { o with data := Mem.writeBytes o.data h.pos (b.body.drop 32)
               staged := o.staged ++ [(h.pos, h.pos + (b.body.drop 32).length)] } else o)
    hubs := (s.stored b x h).hubs, hbmStacks := (s.stored b x h).hbmStacks, out := (s.stored b x h).out
    pair := (s.stored b x h).pair } := by
  unfold State.stored
  rw [mirrorBytes_frame]
  rfl

theorem burst_served (hx : s.bulk? tenant h.session = some x) (hopen : x.aborted = false)
    (hhub : x.hub = b.port / 4 ∨ (s.hub x.hub).up = false) : s.burst b tenant h =
      if x.base + x.len < h.pos + h.len then s.replyTo b (some x.cursor) 2 0
      else if h.pos = x.cursor then (s.stored b x h).replyTo b (some (h.pos + h.len)) 0 0
      else if h.pos + h.len ≤ x.cursor then s.replyTo b (some x.cursor) 0 0
      else s.replyTo b (some x.cursor) 1 0 := onSession_served hx hopen hhub

theorem burst_stages (hx : s.bulk? tenant h.session = some x) (hopen : x.aborted = false)
    (hhub : x.hub = b.port / 4 ∨ (s.hub x.hub).up = false) (hfits : h.pos + h.len ≤ x.base + x.len) (hat : h.pos = x.cursor)
    {data : List Byte} (hdata : data = b.body.drop 32) :
    ∃ t : State, s.burst b tenant h = t.replyTo b (some (h.pos + h.len)) 0 0 ∧
      t.bulk = s.bulk.map (fun y =>
        if y.tenant == x.tenant && y.id == x.id then { y with cursor := h.pos + data.length } else y) ∧
      t.objects = s.objects.map (fun o => if o.is x.tenant x.target x.name then
        { o with data := Mem.writeBytes o.data h.pos data, staged := o.staged ++ [(h.pos, h.pos + data.length)] } else o) ∧
      t = { s with bulk := t.bulk, objects := t.objects, hubs := t.hubs, hbmStacks := t.hbmStacks, out := t.out, pair := t.pair } ∧
      (s.mirrors = false → t.out = s.out ∧ t.pair = s.pair) := by
  subst hdata
  have hframe := stored_frame s b x h
  refine ⟨s.stored b x h, (burst_served hx hopen hhub).trans ((if_neg (by omega)).trans (if_pos hat)), ?_, ?_, ?_, fun hm => ?_⟩
  · rw [hframe]
  · rw [hframe]
  · rw [hframe]
  · unfold State.stored
    rw [mirrorBytes_off (by exact hm)]
    exact ⟨rfl, rfl⟩

/-! #### Sessions that idle (R325, R327) -/

theorem bulkIdle_drops {target name : Nat} {o : Obj} (ho : s.obj? tenant target name = some o) (hwait : o.waiting = false)
    (hnone : s.sessionsOn tenant target name = []) :
    s.bulkIdle none tenant target name = { s with objects := s.objects.filter (fun o => !(o.is tenant target name)) } := by
  unfold State.bulkIdle
  dsimp only
  rw [ho]
  dsimp only
  rw [if_neg (by simp [hnone, hwait])]
  rfl

end

/-- Settles O30: BURST at, below and above the cursor, the operations on a session, NOTES, and idling. -/
theorem bulkSessions : Obligations.BulkSessions := by
  unfold Obligations.BulkSessions
  refine ⟨?bursts, ?ends, ?queries, ?unknown, ?notes, ?idle⟩
  case bursts =>
    intro s b tenant x hready ⟨hx, hopen, hhub⟩ h data
    have hexec := exec_burst hready
    have hserved := burst_served hx hopen hhub
    refine ⟨fun hlong => ?_, fun hfits hat => ?_, fun hfits hne hbelow => ?_, fun hfits hne habove => ?_⟩
    · exact hexec.trans (congrArg _ (hserved.trans (if_pos hlong)))
    · obtain ⟨t, ht, hrest⟩ := burst_stages hx hopen hhub hfits hat rfl
      exact ⟨t, hexec.trans (congrArg _ ht), hrest⟩
    · exact hexec.trans (congrArg _ (hserved.trans ((if_neg (Nat.not_lt.2 hfits)).trans ((if_neg hne).trans (if_pos hbelow)))))
    · exact hexec.trans (congrArg _ (hserved.trans ((if_neg (Nat.not_lt.2 hfits)).trans
        ((if_neg hne).trans (if_neg (Nat.not_le.2 habove))))))
  case ends =>
    intro s b tenant x ⟨hx, hopen, hhub⟩ t
    refine ⟨fun hready hlack => ?_, fun hready hwhole => ?_, fun hready => ?_⟩
    · exact (exec_bulkClose hready).trans (congrArg _ ((onSession_served hx hopen hhub).trans (if_pos hlack)))
    · exact (exec_bulkClose hready).trans (congrArg _ ((onSession_served hx hopen hhub).trans (if_neg (Nat.not_lt.2 hwhole))))
    · exact (exec_abort hready).trans (congrArg _ (onSession_served hx hopen hhub))
  case queries =>
    intro s b tenant x hx
    refine ⟨fun hready => (exec_query hready).trans (by rw [hx]; rfl), ?refused⟩
    intro hno t
    refine ⟨fun hready => ?_, fun hready => ?_, fun hready => ?_⟩
    · exact (exec_burst hready).trans (congrArg _ (onSession_refused hx hno))
    · exact (exec_bulkClose hready).trans (congrArg _ (onSession_refused hx hno))
    · exact (exec_abort hready).trans (congrArg _ (onSession_refused hx hno))
  case unknown =>
    intro s b tenant hx
    refine ⟨fun hready => ?_, fun hready => ?_, fun hready => ?_, fun hready => (exec_query hready).trans (by rw [hx]; rfl)⟩
    · exact (exec_burst hready).trans (congrArg _ (onSession_unknown hx))
    · exact (exec_bulkClose hready).trans (congrArg _ (onSession_unknown hx))
    · exact (exec_abort hready).trans (congrArg _ (onSession_unknown hx))
  case notes =>
    intro s b tenant hready h found
    have hexec {o : Option Placement} (ho : found = o) : exec (.notes b) s = .next (s.notesAs b tenant h o) :=
      (exec_notes hready).trans (congrArg _ (congrArg _ ho))
    refine ⟨fun hnone => hexec hnone, fun p hp hother => ?_, fun p hp hown => ?_⟩
    · exact (hexec hp).trans (congrArg _ (if_pos hother))
    · exact (hexec hp).trans (congrArg _ (if_neg (not_not_intro hown)))
  case idle =>
    intro s id tenant target name
    exact ⟨rfl, fun o ho hwait hnone => answer_eq_next rfl (bulkIdle_drops ho hwait hnone)⟩

/-! ### COMMIT (R325, R330, R331) -/

section
variable {s : State} {b : BulkIn} {tenant : Nat} {i : CommitIn} {o : Obj} {h : BHead}

theorem exec_bulkCommit (hready : s.bulkReady 6 b tenant) :
    exec (.bulkCommit b i) s = .next (s.bulkCommit b tenant (bulkHead b.body) i) :=
  answer_eq_next hready.1 (bulkFrame_ready hready)

theorem bulkCommit_missing (ho : s.obj? tenant h.target h.name = some o) (hlack : o.missing < o.len) :
    s.bulkCommit b tenant h i = s.replyTo b none 0x0C o.missing := by
  unfold State.bulkCommit
  rw [ho]
  exact if_pos hlack

theorem bulkCommit_open (ho : s.obj? tenant h.target h.name = some o) (hall : o.len ≤ o.missing)
    (hsess : s.sessionsOn tenant h.target h.name ≠ []) : s.bulkCommit b tenant h i = s.replyTo b none 0x0C o.len := by
  unfold State.bulkCommit
  rw [ho]
  exact (if_neg (Nat.not_lt.2 hall)).trans (if_pos (by simpa using hsess))

/-- What a COMMIT does with a whole object of each kind. -/
def State.commitWhole (s : State) (b : BulkIn) (tenant target : Nat) (o : Obj) (i : CommitIn) : State :=
  match target with
  | 0 => s.commitStaging b tenant o i
  | 1 => s.commitRoutine b tenant o i
  | 4 => s.commitPatch b tenant o i
  | _ => s.commitWaiting b o

theorem bulkCommit_whole (ho : s.obj? tenant h.target h.name = some o) (hall : o.len ≤ o.missing)
    (hsess : s.sessionsOn tenant h.target h.name = []) : s.bulkCommit b tenant h i = s.commitWhole b tenant h.target o i := by
  unfold State.bulkCommit
  rw [ho]
  exact (if_neg (Nat.not_lt.2 hall)).trans (if_neg (by simp [hsess]))

theorem obj?_is {target name : Nat} (ho : s.obj? tenant target name = some o) : o.tenant = tenant ∧ o.target = target ∧ o.name = name := by
  have h := List.find?_some ho
  simpa [and_assoc] using h

theorem mirrorCommit_frame (s : State) (target name : Nat) (l : List Nat) : s.mirrorCommit target name l =
    { s with out := (s.mirrorCommit target name l).out, pair := (s.mirrorCommit target name l).pair } := by
  unfold State.mirrorCommit
  dsimp only
  rw [sendPair_frame]

theorem mirrorDone_frame (s : State) (port target name : Nat) : s.mirrorDone port target name =
    { s with out := (s.mirrorDone port target name).out, pair := (s.mirrorDone port target name).pair } := by
  unfold State.mirrorDone
  split
  · exact mirrorCommit_frame ..
  · rfl

theorem commitWaiting_waits (ho : s.obj? tenant h.target h.name = some o) :
    ∃ t : State, s.commitWaiting b o = t.replyTo b none 0 0 ∧
      t.objects = s.objects.map (fun x => if x.is tenant h.target h.name then { x with waiting := true } else x) ∧
      t = { s with objects := t.objects, out := t.out, pair := t.pair } ∧ (s.mirrors = false → t.out = s.out ∧ t.pair = s.pair) := by
  obtain ⟨rfl, htarget, hname⟩ := obj?_is ho
  rw [← htarget, ← hname]
  refine ⟨_, rfl, ?_, ?_, fun hm => ?_⟩
  · rw [mirrorDone_frame]
  · rw [mirrorDone_frame]
  · rw [State.mirrorDone, if_neg (by rintro ⟨h, -⟩; exact absurd (h.symm.trans hm) (by decide))]
    exact ⟨rfl, rfl⟩

/-! #### STAGING objects (R321, R323, R330) -/

theorem keepKey_frame (s : State) (wkey : Nat) : s.keepKey wkey = { s with secure := (s.keepKey wkey).secure } := by
  unfold State.keepKey
  dsimp only
  split <;> rfl

theorem refuseStaging_plain {name : Nat} (hreg : s.waitingObj tenant 2 name = none) (htab : s.waitingObj tenant 3 name = none)
    (status detail : Nat) : s.refuseStaging b tenant name status detail = s.replyTo b none status detail := by
  simp only [State.refuseStaging, hreg, htab, Option.isSome_none, Bool.false_eq_true, if_false]

/-- Another tenant's object of the name would refuse a COMMIT of STAGING. -/
def State.foreign (s : State) (tenant name : Nat) : Bool :=
  s.objects.any (fun x => x.name == name && x.tenant != tenant && (x.target == 0 || x.target == 2 || x.target == 3))

/-- Nothing else is staged under the name of `o`. -/
structure State.alone (s : State) (tenant : Nat) (o : Obj) : Prop where
  foreign : s.foreign tenant o.name = false
  region : s.waitingObj tenant 2 o.name = none
  tables : s.waitingObj tenant 3 o.name = none

theorem foreign_of (h : ∀ x ∈ s.objects, ¬ (x.name = o.name ∧ x.tenant ≠ tenant)) : s.foreign tenant o.name = false := by
  rw [State.foreign, List.any_eq_false]
  intro x hx hp
  simp only [Bool.and_eq_true, beq_iff_eq, bne_iff_ne] at hp
  exact h x hx hp.1

theorem State.alone.keepKey (h : s.alone tenant o) (wkey : Nat) : (s.keepKey wkey).alone tenant o := by
  rw [keepKey_frame]
  exact ⟨h.foreign, h.region, h.tables⟩

theorem keepKey_placements (s : State) (wkey : Nat) : (s.keepKey wkey).placements = s.placements := by rw [keepKey_frame]

theorem keepKey_installs (s : State) (wkey : Nat) : (s.keepKey wkey).installs = s.installs := by rw [keepKey_frame]

theorem keepKey_profile (s : State) (wkey : Nat) : (s.keepKey wkey).profile = s.profile := by rw [keepKey_frame]

theorem noFit_keepKey (wkey : Nat) (f : Fmt) (g : Img) (sp : List Span) : (s.keepKey wkey).noFit tenant f g sp = s.noFit tenant f g sp := by
  rw [keepKey_frame]
  rfl

section
variable (halone : s.alone tenant o)
include halone

theorem commitStaging_locked (hkey : s.unwraps (imgOf o.data).wkey i.wkeyOk = false) :
    s.commitStaging b tenant o i = s.replyTo b none 7 0 := by
  have hforeign := halone.foreign
  unfold State.foreign at hforeign
  simp only [State.commitStaging, hkey, Bool.false_eq_true, if_false, hforeign, Bool.not_false, true_or, if_true]
  exact refuseStaging_plain halone.region halone.tables ..

variable (hkey : s.unwraps (imgOf o.data).wkey i.wkeyOk = true)
include hkey

theorem commitStaging_unauthentic (hbad : i.badRecord = some 0) :
    s.commitStaging b tenant o i = (s.keepKey (imgOf o.data).wkey).replyTo b none 7 0 := by
  have hkept := halone.keepKey (imgOf o.data).wkey
  have hforeign := hkept.foreign
  unfold State.foreign at hforeign
  simp only [State.commitStaging, hkey, Bool.false_eq_true, if_false, hforeign, hbad, or_true, if_true]
  exact refuseStaging_plain hkept.region hkept.tables ..

variable (hgood : i.badRecord ≠ some 0)
include hgood

theorem commitStaging_used (hused : s.placements.any (fun p => p.handle == o.name) = true ∨
      s.installs.any (fun x => x.pl.handle == o.name) = true) :
    s.commitStaging b tenant o i = (s.keepKey (imgOf o.data).wkey).replyTo b none 9 o.name := by
  have hkept := halone.keepKey (imgOf o.data).wkey
  have hforeign := hkept.foreign
  unfold State.foreign at hforeign
  simp only [State.commitStaging, hkey, if_true, hforeign, Bool.false_eq_true, if_false, Bool.not_true, hgood, or_self, keepKey_placements, keepKey_installs,
    if_pos hused]
  exact refuseStaging_plain hkept.region hkept.tables ..

variable (hplaced : s.placements.any (fun p => p.handle == o.name) = false)
  (hinst : s.installs.any (fun x => x.pl.handle == o.name) = false)
include hplaced hinst

theorem commitStaging_header {d : Nat} (hbad : hdrBad o.data (imgOf o.data) = some d) :
    s.commitStaging b tenant o i = (s.keepKey (imgOf o.data).wkey).replyTo b none 8 d := by
  have hkept := halone.keepKey (imgOf o.data).wkey
  have hforeign := hkept.foreign
  unfold State.foreign at hforeign
  simp only [State.commitStaging, hkey, if_true, hforeign, Bool.false_eq_true, if_false, Bool.not_true, hgood, or_self, keepKey_placements, keepKey_installs,
    hplaced, hinst, hbad]
  exact refuseStaging_plain hkept.region hkept.tables ..

variable (hhdr : hdrBad o.data (imgOf o.data) = none)
include hhdr

theorem commitStaging_handle (hne : (imgOf o.data).handle ≠ o.name) :
    s.commitStaging b tenant o i = (s.keepKey (imgOf o.data).wkey).replyTo b none 8 6 := by
  have hkept := halone.keepKey (imgOf o.data).wkey
  have hforeign := hkept.foreign
  unfold State.foreign at hforeign
  simp only [State.commitStaging, hkey, if_true, hforeign, Bool.false_eq_true, if_false, Bool.not_true, hgood, or_self,
    keepKey_placements, keepKey_installs, hplaced, hinst, hhdr, if_pos hne]
  exact refuseStaging_plain hkept.region hkept.tables ..

/-- An image that passes its tests is staged. -/
theorem commitStaging_stages {f : Fmt} (hname : (imgOf o.data).handle = o.name) (hrec : (imgOf o.data).recOff ≤ o.len)
    (hlist : listBad o.data (imgOf o.data) = none) (hfmt : Fmt.ofCode (imgOf o.data).wcode = some f)
    (htables : (imgOf o.data).tables = 0) (hregion : (imgOf o.data).region = 0) (hrecs : (o.records (imgOf o.data).recOff).2 = none)
    (hpsig : psigBad i.plain (imgOf o.data) = none)
    (hlen : i.plain.length = plainLen f (imgOf o.data) (imgSpans o.data (imgOf o.data)))
    (hbwth : (imgOf o.data).bwth ≤ s.profile.work.bwThreshMax)
    (hfit : s.noFit tenant f (imgOf o.data) (imgSpans o.data (imgOf o.data)) = none) :
    s.commitStaging b tenant o i = (s.keepKey (imgOf o.data).wkey).stageImage b tenant o i (imgOf o.data) f none none
      (o.records (imgOf o.data).recOff).1 := by
  have hkept := halone.keepKey (imgOf o.data).wkey
  have hforeign := hkept.foreign
  unfold State.foreign at hforeign
  simp only [State.commitStaging, hkey, if_true, hforeign, Bool.false_eq_true, if_false, Bool.not_true, hgood, or_self,
    keepKey_placements, keepKey_installs, hplaced, hinst, hhdr, ne_eq, hname, not_true_eq_false, Nat.not_lt.2 hrec, hlist, hfmt,
    hkept.tables, hkept.region, htables, hregion, hrecs, hpsig, hlen, keepKey_profile, Nat.not_lt.2 hbwth, noFit_keepKey, hfit,
    Option.map_none, Option.getD_none, Option.isSome_none]

end

/-- An image of no replica, without tables and region, claims its planes once the pool has room for it. -/
theorem stageImage_claims {u : State} {f : Fmt} {g : Img} {recs : List (Nat × Nat)} (hflag : g.flags.testBit 0 = false)
    (hstop : decryptStop i f g recs = none) {pl : Placement} (hpl : pl = placementOf tenant o g f i [] none none recs)
    (hpool : u.poolLack pl (2 * o.len) = none) :
    u.stageImage b tenant o i g f none none recs = u.claim b tenant pl (i.badPart.map (fun n => (7, n))) := by
  have hreplica : pl.replica = none := by
    rw [hpl]
    show (if bitAt g.flags 0 = true then some g.replica else none) = none
    rw [bitAt_eq_testBit, hflag]
    rfl
  have hnamed : u.placements.find? (fun q => pl.replica == some q.handle && q.removed.isNone && replicaOk pl q) = none := by
    rw [List.find?_eq_none]
    intro q _
    simp [hreplica]
  have hsame : ({ pl with replicaAt := ((none : Option Placement).map (·.commit)).getD 0 } : Placement) = pl := by rw [hpl]; rfl
  have hlens : pl.copies.tlen = 0 ∧ pl.copies.rlen = 0 := by rw [hpl]; exact ⟨rfl, rfl⟩
  have hpart : partStop i (objTables none i.tables) none = i.badPart.map (fun n => (7, n)) := by
    cases hb : i.badPart <;> simp [partStop, hb, objTables, regionBad]
  unfold State.stageImage
  simp only [objTables, ← hpl, hnamed, hsame]
  simp only [hreplica, Option.isSome_none, Bool.false_eq_true, false_and, if_false, hlens.1,
    hlens.2, Nat.mul_zero, Nat.add_zero, hpool, hstop]
  rw [← hpart]
  rfl

/-! #### The claim of planes (R331) -/

theorem planeAt_modPlane (s : State) (k e p : Nat) (f : Plane → Plane) (y : Nat × Nat × Nat) :
    (s.modPlane k e p f).planeAt y = if y = (k, e, p) then f (s.planeAt (k, e, p)) else s.planeAt y := by
  obtain ⟨k', e', p'⟩ := y
  unfold State.planeAt State.modPlane
  by_cases hk : k' = k
  · subst hk
    simp only [State_core_setCore_same, Core_plane_setPlane]
    by_cases h : e' = e ∧ p' = p
    · rw [if_pos h, if_pos (by rw [h.1, h.2])]
    · rw [if_neg h, if_neg (by simpa using h)]
  · simp only [State_core_setCore_ne _ _ hk]
    rw [if_neg (by simp [hk])]

/-- Planes changed one after the other: a plane of the list has the change behind it, another one is as it was. -/
theorem modPlanes_planeAt (f : Plane → Plane) (l : List (Nat × Nat × Nat)) (s : State) (y : Nat × Nat × Nat) :
    (y ∈ l → ∃ p, (l.foldl (fun s x => s.modPlane x.1 x.2.1 x.2.2 f) s).planeAt y = f p) ∧
      (y ∉ l → (l.foldl (fun s x => s.modPlane x.1 x.2.1 x.2.2 f) s).planeAt y = s.planeAt y) := by
  induction l generalizing s with
  | nil => exact ⟨nofun, fun _ => rfl⟩
  | cons x l ih =>
    obtain ⟨hin, hout⟩ := ih (s.modPlane x.1 x.2.1 x.2.2 f)
    rw [List.foldl_cons]
    refine ⟨fun hy => ?_, fun hy => ?_⟩
    · by_cases hl : y ∈ l
      · exact hin hl
      · rw [hout hl, planeAt_modPlane, if_pos ((List.mem_cons.1 hy).resolve_right hl)]
        exact ⟨_, rfl⟩
    · rw [hout (fun h => hy (List.mem_cons_of_mem _ h)), planeAt_modPlane, if_neg (by rintro rfl; exact hy List.mem_cons_self)]

theorem modPlanes_frame (f : Plane → Plane) (l : List (Nat × Nat × Nat)) (s : State) :
    l.foldl (fun s x => s.modPlane x.1 x.2.1 x.2.2 f) s =
      { s with cores := (l.foldl (fun s x => s.modPlane x.1 x.2.1 x.2.2 f) s).cores } := by
  induction l generalizing s with
  | nil => rfl
  | cons x l ih =>
    rw [List.foldl_cons, ih]
    rfl

/-- `s` with the planes `empty` PROGRAMMING and the planes `shared` FENCED. -/
def State.claimed (s : State) (empty shared : List (Nat × Nat × Nat)) : State :=
  shared.foldl (fun s x => s.modPlane x.1 x.2.1 x.2.2 (fun p => { p with st := .fenced }))
    (empty.foldl (fun s x => s.modPlane x.1 x.2.1 x.2.2 (fun _ => { Plane.fresh with st := .programming })) s)

theorem claimed_frame (s : State) (empty shared : List (Nat × Nat × Nat)) : s.claimed empty shared =
    { s with cores := (s.claimed empty shared).cores } := by
  unfold State.claimed
  rw [modPlanes_frame, modPlanes_frame]

/-- The planes of `keys` in the state `st`. -/
def State.keysIn (s : State) (keys : List (Nat × Nat × Nat)) (st : PlaneSt) : List (Nat × Nat × Nat) :=
  keys.filter (fun x => (s.planeAt x).st == st)

theorem mem_keysIn {keys : List (Nat × Nat × Nat)} {st : PlaneSt} {x : Nat × Nat × Nat} :
    x ∈ s.keysIn keys st ↔ x ∈ keys ∧ (s.planeAt x).st = st := by
  simp [State.keysIn]

theorem claimed_planes (s : State) (keys : List (Nat × Nat × Nat)) :
    (∀ x ∈ keys, ((s.planeAt x).st = .empty →
        ((s.claimed (s.keysIn keys .empty) (s.keysIn keys .live)).planeAt x).st = .programming) ∧
      ((s.planeAt x).st = .live → ((s.claimed (s.keysIn keys .empty) (s.keysIn keys .live)).planeAt x).st = .fenced)) ∧
    (∀ x, x ∉ keys → (s.claimed (s.keysIn keys .empty) (s.keysIn keys .live)).planeAt x = s.planeAt x) := by
  refine ⟨fun x hx => ⟨fun hst => ?_, fun hst => ?_⟩, fun x hx => ?_⟩ <;> unfold State.claimed
  · rw [(modPlanes_planeAt _ _ _ x).2 (fun h => by simp [mem_keysIn, hst] at h)]
    obtain ⟨p, hp⟩ := (modPlanes_planeAt (fun _ => { Plane.fresh with st := .programming }) (s.keysIn keys .empty) s x).1
      (mem_keysIn.2 ⟨hx, hst⟩)
    rw [hp]
  · obtain ⟨p, hp⟩ := (modPlanes_planeAt (fun p => { p with st := .fenced }) (s.keysIn keys .live) ((s.keysIn keys .empty).foldl
      (fun s x => s.modPlane x.1 x.2.1 x.2.2 (fun _ => { Plane.fresh with st := .programming })) s) x).1 (mem_keysIn.2 ⟨hx, hst⟩)
    rw [hp]
  · rw [(modPlanes_planeAt _ _ _ x).2 (fun h => hx (mem_keysIn.1 h).1),
      (modPlanes_planeAt _ _ _ x).2 (fun h => hx (mem_keysIn.1 h).1)]

theorem claim_eq (s : State) (b : BulkIn) (tenant : Nat) (pl : Placement) (late : Option (Nat × Nat)) :
    s.claim b tenant pl late =
      { (s.claimed (s.keysIn pl.planeKeys .empty) (s.keysIn pl.planeKeys .live)).dropObjects tenant pl.handle with
        installs := (s.claimed (s.keysIn pl.planeKeys .empty) (s.keysIn pl.planeKeys .live)).installs ++
          [⟨{ pl with reply := (placeOf b).keep (bulkHead b.body).session }, s.keysIn pl.planeKeys .empty,
            s.keysIn pl.planeKeys .live, b.port, b.body, late, []⟩] } := rfl

theorem dropObjects_keeps (u : State) (tenant name : Nat) :
    (u.dropObjects tenant name).placements = u.placements ∧ (u.dropObjects tenant name).out = u.out := ⟨rfl, rfl⟩

theorem claim_keeps (s : State) (b : BulkIn) (tenant : Nat) (pl : Placement) (late : Option (Nat × Nat)) :
    (s.claim b tenant pl late).installs = s.installs ++
        [⟨{ pl with reply := (placeOf b).keep (bulkHead b.body).session }, s.keysIn pl.planeKeys .empty,
          s.keysIn pl.planeKeys .live, b.port, b.body, late, []⟩] ∧
      (s.claim b tenant pl late).placements = s.placements ∧ (s.claim b tenant pl late).out = s.out := by
  have hframe := claimed_frame s (s.keysIn pl.planeKeys .empty) (s.keysIn pl.planeKeys .live)
  obtain ⟨hplaced, hout⟩ := dropObjects_keeps (s.claimed (s.keysIn pl.planeKeys .empty) (s.keysIn pl.planeKeys .live)) tenant pl.handle
  rw [claim_eq]
  refine ⟨congrArg (· ++ _) ?_, hplaced.trans ?_, hout.trans ?_⟩ <;> rw [hframe]

theorem dropObjects_gone (s : State) (tenant name : Nat) : ∀ x ∈ (s.dropObjects tenant name).objects,
    ¬ (x.tenant = tenant ∧ x.name = name ∧ (x.target = 0 ∨ x.target = 2 ∨ x.target = 3)) := by
  intro x hx
  simp only [State.dropObjects, State.dropObj, List.mem_filter, Obj.is, Bool.not_eq_true', Bool.and_eq_false_iff, beq_eq_false_iff_ne] at hx
  rintro ⟨rfl, rfl, ht⟩
  rcases ht with h | h | h <;> simp [h] at hx

theorem planeAt_of_cores {u t : State} (h : t.cores = u.cores) (x : Nat × Nat × Nat) : t.planeAt x = u.planeAt x := by
  rw [State.planeAt, State.planeAt, State.core, State.core, h]

theorem dropObjects_cores (u : State) (tenant name : Nat) : (u.dropObjects tenant name).cores = u.cores := rfl

theorem claim_planes (s : State) (b : BulkIn) (tenant : Nat) (pl : Placement) (late : Option (Nat × Nat)) :
    (∀ x ∈ pl.planeKeys, ((s.planeAt x).st = .empty → ((s.claim b tenant pl late).planeAt x).st = .programming) ∧
      ((s.planeAt x).st = .live → ((s.claim b tenant pl late).planeAt x).st = .fenced)) ∧
    (∀ x, x ∉ pl.planeKeys → (s.claim b tenant pl late).planeAt x = s.planeAt x) := by
  have hcores : (s.claim b tenant pl late).cores = (s.claimed (s.keysIn pl.planeKeys .empty) (s.keysIn pl.planeKeys .live)).cores := by
    rw [claim_eq]
    exact dropObjects_cores (s.claimed (s.keysIn pl.planeKeys .empty) (s.keysIn pl.planeKeys .live)) tenant pl.handle
  simp only [planeAt_of_cores hcores]
  exact claimed_planes s pl.planeKeys

theorem claim_objects (s : State) (b : BulkIn) (tenant : Nat) (pl : Placement) (late : Option (Nat × Nat)) :
    ∀ x ∈ (s.claim b tenant pl late).objects,
      ¬ (x.tenant = tenant ∧ x.name = pl.handle ∧ (x.target = 0 ∨ x.target = 2 ∨ x.target = 3)) := by
  rw [claim_eq]
  generalize s.claimed (s.keysIn pl.planeKeys .empty) (s.keysIn pl.planeKeys .live) = u
  exact dropObjects_gone u tenant pl.handle

/-! #### ROUTINE objects (R203) -/

theorem routineHead_good (hflags : leAt i.plain 0 1 < 16) (hzero : ∀ n, 1 ≤ n → n < 64 → leAt i.plain n 1 = 0) :
    (List.range 64).find? (fun n => if n = 0 then decide (16 ≤ leAt i.plain 0 1) else leAt i.plain n 1 != 0) = none := by
  rw [List.find?_eq_none]
  intro n hn
  by_cases h0 : n = 0
  · simp [h0, hflags]
  · simp [h0, hzero n (by omega) (List.mem_range.1 hn)]

theorem commitRoutine_waits {hd : Word128} {prog : List MInstr} (hkey : i.wkeyOk = true) (hgood : i.badRecord = none)
    (hlen : 64 ≤ i.plain.length) (hflags : leAt i.plain 0 1 < 16) (hzero : ∀ n, 1 ≤ n → n < 64 → leAt i.plain n 1 = 0)
    (htrans : translate true (i.plain.drop 64) = .ok (hd, prog)) (hnew : s.routines.find? (fun r => r.name == o.name) = none)
    (hroom : ∃ d, d < 4 ∧ (leAt i.plain 0 1).testBit d = true ∧
      (s.rsSpace d (ceilDiv (i.plain.drop 64).length 64)).isSome = true ∧ s.rdRoom d o.name = true) :
    ∃ t q, s.commitRoutine b tenant o i = t ∧
      t.routines = s.routines ++ [⟨o.name, tenant, leAt i.plain 0 1, none, [], [q]⟩] ∧ q.v.code = prog ∧ q.v.until_ = none ∧
      q.mask = leAt i.plain 0 1 ∧ t.objects = s.objects.filter (fun x => !(x.is tenant 1 o.name)) ∧
      t = { s with routines := t.routines, objects := t.objects } := by
  have hmask : leAt i.plain 0 1 % 16 = leAt i.plain 0 1 := Nat.mod_eq_of_lt hflags
  have hdies : ((List.range 4).filter (fun d => bitAt (leAt i.plain 0 1) d &&
      (s.rsSpace d (ceilDiv (i.plain.drop 64).length 64)).isSome && s.rdRoom d o.name)).isEmpty = false := by
    obtain ⟨d, hd, hbit, hspace, hrd⟩ := hroom
    rw [List.isEmpty_eq_false_iff_exists_mem]
    exact ⟨d, List.mem_filter.2 ⟨List.mem_range.2 hd, by rw [bitAt_eq_testBit, hbit, hspace, hrd]; rfl⟩⟩
  unfold State.commitRoutine
  simp only [hmask, hkey, hgood, hnew, routineHead_good hflags hzero, htrans, hdies, Nat.not_lt.2 hlen, Bool.not_true, Bool.false_eq_true, Option.isSome_none,
    or_self, if_false, Option.map_none, Option.getD_none, ne_eq, not_true_eq_false, Nat.not_le.2 (by omega : 0 < 4)]
  exact ⟨_, _, rfl, rfl, rfl, rfl, rfl, rfl, rfl⟩

end

/-- Settles O31: COMMIT by the object, the tests of a STAGING object, the claim of its planes, and a ROUTINE object. -/
theorem bulkCommits : Obligations.BulkCommits := by
  unfold Obligations.BulkCommits
  refine ⟨?commit, ?staging, ?claim, ?routine⟩
  case commit =>
    intro s b i tenant hready h
    have hexec := exec_bulkCommit (i := i) hready
    refine ⟨fun hnone => hexec.trans (congrArg _ ?_), fun o ho => ⟨fun hlack => hexec.trans (congrArg _ (bulkCommit_missing ho hlack)),
      fun hall hsess => hexec.trans (congrArg _ (bulkCommit_open ho hall hsess)), fun hall hsess => ?_⟩⟩
    · unfold State.bulkCommit
      rw [hnone]
    · have hwhole := hexec.trans (congrArg _ (bulkCommit_whole ho hall hsess))
      have hkind {n : Nat} (hn : h.target = n) :
          exec (.bulkCommit b i) s = .next (s.commitWhole b tenant n o i) := by rw [hwhole, ← hn]
      refine ⟨fun ht => ?_, fun ht => hkind ht, fun ht => hkind ht, fun ht => hkind ht⟩
      obtain ⟨t, hw, hrest⟩ := commitWaiting_waits (b := b) ho
      exact ⟨t, ht.elim (fun ht => (hkind ht).trans (congrArg _ hw)) (fun ht => (hkind ht).trans (congrArg _ hw)), hrest⟩
  case staging =>
    intro s b tenant o i hforeign hreg htab g sp recs s1
    have halone : s.alone tenant o := ⟨foreign_of hforeign, hreg, htab⟩
    refine ⟨fun hkey => commitStaging_locked halone hkey, fun hkey => ⟨fun hbad => commitStaging_unauthentic halone hkey hbad,
      fun hgood => ⟨fun hused => commitStaging_used halone hkey hgood hused, fun hplaced hinst =>
        ⟨fun d hbad => commitStaging_header halone hkey hgood hplaced hinst hbad,
          fun hhdr hne => commitStaging_handle halone hkey hgood hplaced hinst hhdr hne, ?_⟩⟩⟩⟩
    intro f hhdr hname hrec hlist hfmt htables hregion hrecs hpsig hlen hbwth hfit hflag hstop pl hpool
    exact (commitStaging_stages halone hkey hgood hplaced hinst hhdr hname hrec hlist hfmt htables hregion hrecs hpsig hlen hbwth
      hfit).trans (stageImage_claims hflag hstop rfl hpool)
  case claim =>
    intro s b tenant pl late t
    obtain ⟨hin, hout⟩ := claim_planes s b tenant pl late
    obtain ⟨hinstalls, hplaced, hsent⟩ := claim_keeps s b tenant pl late
    exact ⟨hin, hout, ⟨_, hinstalls, rfl, rfl, rfl, rfl⟩, claim_objects s b tenant pl late, hplaced, hsent⟩
  case routine =>
    intro s b tenant o i h prog hkey hgood hlen hflags hzero htrans hnew hroom
    exact commitRoutine_waits hkey hgood hlen hflags hzero htrans hnew hroom

end Sys2Proof.Machine
end

/-! ## Installed objects, planes in doubt and substitutions (2 R65 to R79, 10 R317 to R339, 13 R404 to R419) -/

section
namespace Sys2Proof.Machine
open Sys2Proof

/-! ### What replies and epochs leave -/

section
variable {s : State}

theorem reply_frame (s : State) (dest : Place) (bop session name : Nat) (pos : Option Nat) (status detail : Nat) (payload : List Byte) :
    s.reply dest bop session name pos status detail payload = { s with
      inst := { s.inst with refused := (s.reply dest bop session name pos status detail payload).inst.refused }
      out := (s.reply dest bop session name pos status detail payload).out
      secure := (s.reply dest bop session name pos status detail payload).secure
      pkg := { s.pkg with free := (s.reply dest bop session name pos status detail payload).pkg.free }
      pair := (s.reply dest bop session name pos status detail payload).pair } := by
  have hcount := countReply_frame s status
  unfold State.countReply at hcount
  unfold State.reply
  dsimp only
  rw [hcount]
  split
  · rw [sendPair_frame]
  · split
    · rfl
    · split
      · split
        · rw [sendSeg_frame]
        · rw [sendSeg_frame]
          rfl
      · rfl

theorem nextEpoch_frame (s : State) : s.nextEpoch = { s with pkg := s.nextEpoch.pkg, hubs := s.nextEpoch.hubs } := by
  unfold State.nextEpoch
  dsimp only
  split <;> rfl

theorem nextEpoch_epoch (s : State) : s.nextEpoch.pkg.epoch = (s.pkg.epoch + 1) % 2 ^ 32 := by
  unfold State.nextEpoch
  dsimp only
  split <;> rfl

/-- From `s` to `t` only what an answer takes differs: what was sent, its numbers, and what the partner is owed. -/
structure State.Replied (s t : State) : Prop where
  epoch : t.pkg.epoch = s.pkg.epoch
  placements : t.placements = s.placements
  installs : t.installs = s.installs
  routines : t.routines = s.routines
  cores : t.cores = s.cores
  commits : t.inst.commits = s.inst.commits

theorem State.Replied.trans {a b c : State} (hab : a.Replied b) (hbc : b.Replied c) : a.Replied c :=
  ⟨hbc.epoch.trans hab.epoch, hbc.placements.trans hab.placements, hbc.installs.trans hab.installs, hbc.routines.trans hab.routines,
    hbc.cores.trans hab.cores, hbc.commits.trans hab.commits⟩

theorem replyLater_replied (s : State) (l : List Nat) (name status detail : Nat) : s.Replied (s.replyLater l name status detail) := by
  unfold State.replyLater
  rw [reply_frame]
  exact ⟨rfl, rfl, rfl, rfl, rfl, rfl⟩

theorem mirrorCommit_replied (s : State) (target name : Nat) (l : List Nat) : s.Replied (s.mirrorCommit target name l) := by
  rw [mirrorCommit_frame]
  exact ⟨rfl, rfl, rfl, rfl, rfl, rfl⟩

theorem mirrorDone_replied (s : State) (port target name : Nat) : s.Replied (s.mirrorDone port target name) := by
  rw [mirrorDone_frame]
  exact ⟨rfl, rfl, rfl, rfl, rfl, rfl⟩

theorem planeThr_congr {t : State} (h : t.placements = s.placements) (spans : List SpanOn) (dyn : Option Nat) :
    t.planeThr spans dyn = s.planeThr spans dyn := by
  rw [State.planeThr, State.planeThr, h]

theorem beingEmptied_congr {t : State} (h : t.placements = s.placements) {x : Nat × Nat × Nat}
    (hspans : (t.planeAt x).spans = (s.planeAt x).spans) : t.beingEmptied x = s.beingEmptied x := by
  have hret : t.retiring = s.retiring := by funext n; rw [State.retiring, State.retiring, h]
  rw [State.beingEmptied, State.beingEmptied, hspans, hret]

/-! ### Installations that commit (R65, R317, R331, R332) -/

/-- A plane that a commit makes LIVE; one that a removal empties stays FENCED. -/
def State.livened (s : State) (x : Nat × Nat × Nat) (p : Plane) : Plane :=
  { p with st := if s.beingEmptied x then .fenced else .live, doubt := false, thr := s.planeThr p.spans p.dyn }

theorem planesLive_cons (s : State) (x : Nat × Nat × Nat) (l : List (Nat × Nat × Nat)) :
    s.planesLive (x :: l) = (s.modPlane x.1 x.2.1 x.2.2 (s.livened x)).planesLive l := rfl

theorem planesLive_frame (l : List (Nat × Nat × Nat)) (s : State) :
    s.planesLive l = { s with cores := (s.planesLive l).cores } := by
  induction l generalizing s with
  | nil => rfl
  | cons x l ih =>
    rw [planesLive_cons, ih]
    rfl

theorem livened_spans (s : State) (x y : Nat × Nat × Nat) :
    ((s.modPlane x.1 x.2.1 x.2.2 (s.livened x)).planeAt y).spans = (s.planeAt y).spans ∧
      ((s.modPlane x.1 x.2.1 x.2.2 (s.livened x)).planeAt y).dyn = (s.planeAt y).dyn := by
  rw [planeAt_modPlane]
  split
  · next h => rw [h]; exact ⟨rfl, rfl⟩
  · exact ⟨rfl, rfl⟩

theorem planesLive_planes (l : List (Nat × Nat × Nat)) (s : State) (y : Nat × Nat × Nat) :
    ((s.planesLive l).planeAt y).spans = (s.planeAt y).spans ∧ ((s.planesLive l).planeAt y).dyn = (s.planeAt y).dyn ∧
      (y ∈ l → ((s.planesLive l).planeAt y).st = (if s.beingEmptied y then .fenced else .live) ∧
        ((s.planesLive l).planeAt y).thr = s.planeThr (s.planeAt y).spans (s.planeAt y).dyn) ∧
      (y ∉ l → (s.planesLive l).planeAt y = s.planeAt y) := by
  induction l generalizing s with
  | nil => exact ⟨rfl, rfl, nofun, fun _ => rfl⟩
  | cons x l ih =>
    obtain ⟨hspans, hdyn⟩ := livened_spans s x y
    obtain ⟨ihs, ihd, ihin, ihout⟩ := ih (s.modPlane x.1 x.2.1 x.2.2 (s.livened x))
    rw [planesLive_cons]
    refine ⟨ihs.trans hspans, ihd.trans hdyn, fun hy => ?_, fun hy => ?_⟩
    · by_cases hl : y ∈ l
      · obtain ⟨h1, h2⟩ := ihin hl
        rw [beingEmptied_congr (s := s) (t := s.modPlane x.1 x.2.1 x.2.2 (s.livened x)) rfl hspans] at h1
        rw [planeThr_congr (s := s) (t := s.modPlane x.1 x.2.1 x.2.2 (s.livened x)) rfl, hspans, hdyn] at h2
        exact ⟨h1, h2⟩
      · obtain rfl := (List.mem_cons.1 hy).resolve_right hl
        rw [ihout hl, planeAt_modPlane, if_pos rfl]
        exact ⟨rfl, rfl⟩
    · rw [ihout (fun h => hy (List.mem_cons_of_mem _ h)), planeAt_modPlane, if_neg (by rintro rfl; exact hy List.mem_cons_self)]

/-- `s` with the installation `i` committed, before it is answered. -/
def State.placed (s : State) (i : Install) : State :=
  { s.nextEpoch with
    placements := s.nextEpoch.placements ++ [{ i.pl with commit := s.nextEpoch.pkg.epoch, reply := [] }]
    installs := s.nextEpoch.installs.filter (fun x => x.pl.handle != i.pl.handle)
    inst := { s.nextEpoch.inst with commits := inc s.nextEpoch.inst.commits } }

theorem commitInstall_replied (s : State) (i : Install) : ((s.placed i).planesLive (i.claimed ++ i.fenced)).Replied (s.commitInstall i) := by
  unfold State.commitInstall
  dsimp only
  split
  · exact mirrorCommit_replied ..
  · exact (mirrorDone_replied ..).trans (replyLater_replied ..)

theorem placed_fields (s : State) (i : Install) : (s.placed i).pkg.epoch = (s.pkg.epoch + 1) % 2 ^ 32 ∧
    (s.placed i).placements = s.placements ++ [{ i.pl with commit := (s.pkg.epoch + 1) % 2 ^ 32, reply := [] }] ∧
    (s.placed i).installs = s.installs.filter (fun x => x.pl.handle != i.pl.handle) ∧
    (s.placed i).inst.commits = s.inst.commits + 1 := by
  have hframe := nextEpoch_frame s
  have hplaced : s.nextEpoch.placements = s.placements := by rw [hframe]
  have hinstalls : s.nextEpoch.installs = s.installs := by rw [hframe]
  have hinst : s.nextEpoch.inst = s.inst := by rw [hframe]
  refine ⟨nextEpoch_epoch s, ?_, ?_, ?_⟩
  · show s.nextEpoch.placements ++ [_] = _
    rw [hplaced, nextEpoch_epoch]
  · show s.nextEpoch.installs.filter _ = _
    rw [hinstalls]
  · show s.nextEpoch.inst.commits + 1 = _
    rw [hinst]

theorem commitInstall_commits (s : State) (i : Install) {t : State} (ht : t = s.commitInstall i) :
    t.pkg.epoch = (s.pkg.epoch + 1) % 2 ^ 32 ∧
      t.placements = s.placements ++ [{ i.pl with commit := (s.pkg.epoch + 1) % 2 ^ 32, reply := [] }] ∧
      t.installs = s.installs.filter (fun x => x.pl.handle != i.pl.handle) ∧ t.inst.commits = s.inst.commits + 1 ∧
      (∀ x ∈ i.claimed ++ i.fenced, (t.planeAt x).st = (if t.beingEmptied x then .fenced else .live) ∧
        (t.planeAt x).thr = t.planeThr (t.planeAt x).spans (t.planeAt x).dyn) := by
  subst ht
  have hreplied := commitInstall_replied s i
  obtain ⟨hepoch, hplaced, hinstalls, hcommits⟩ := placed_fields s i
  have hframe := planesLive_frame (i.claimed ++ i.fenced) (s.placed i)
  have hp : (s.commitInstall i).placements = (s.placed i).placements := hreplied.placements.trans (by rw [hframe])
  refine ⟨(hreplied.epoch.trans (by rw [hframe])).trans hepoch, hp.trans hplaced, (hreplied.installs.trans (by rw [hframe])).trans
    hinstalls, (hreplied.commits.trans (by rw [hframe])).trans hcommits, fun x hx => ?_⟩
  have hplane := planeAt_of_cores hreplied.cores x
  obtain ⟨hspans, hdyn, hin, -⟩ := planesLive_planes (i.claimed ++ i.fenced) (s.placed i) x
  obtain ⟨hst, hthr⟩ := hin hx
  rw [beingEmptied_congr (s := s.placed i) hp (by rw [hplane, hspans]), planeThr_congr (s := s.placed i) hp, hplane, hspans, hdyn]
  exact ⟨hst, hthr⟩

theorem modPlane_frame (s : State) (k e p : Nat) (f : Plane → Plane) : s.modPlane k e p f = { s with cores := (s.modPlane k e p f).cores } := rfl

theorem writeSpans_frame (s : State) (p : Placement) : s.writeSpans p = { s with cores := (s.writeSpans p).cores } := by
  have hadd (l : List (Nat × Span)) (s : State) : l.foldl (fun s y => s.modPlane y.2.k y.2.engine y.2.plane
      (fun q => q.addSpan p.wfmt p.tenant p.handle y.2 (p.rowsOf y.1))) s = { s with
        cores := (l.foldl (fun s y => s.modPlane y.2.k y.2.engine y.2.plane
          (fun q => q.addSpan p.wfmt p.tenant p.handle y.2 (p.rowsOf y.1))) s).cores } := by
    induction l generalizing s with
    | nil => rfl
    | cons y l ih =>
      rw [List.foldl_cons, ih]
      rfl
  have hset (l : List (Nat × Nat × Nat)) (s : State) : l.foldl (fun s x => s.setRows x (s.withPatches x (s.planeAt x).rows)) s =
      { s with cores := (l.foldl (fun s x => s.setRows x (s.withPatches x (s.planeAt x).rows)) s).cores } := by
    induction l generalizing s with
    | nil => rfl
    | cons x l ih =>
      rw [List.foldl_cons, ih]
      rfl
  unfold State.writeSpans
  rw [hset, hadd]

section
variable {i : Install}

theorem exec_installDone (s : State) (h : Nat) : exec (.installDone h none) s = .next (s.installDone h none) := rfl

theorem installDone_waits (hi : s.installs.find? (fun x => x.pl.handle == i.pl.handle) = some i)
    (hblock : ∃ x ∈ i.pl.planeKeys, s.substBlocks x.1 [x.2.1] = true) : s.installDone i.pl.handle none = s := by
  obtain ⟨x, hx, hb⟩ := hblock
  unfold State.installDone
  rw [hi]
  exact if_pos (List.any_eq_true.2 ⟨x, hx, by rw [hb, Bool.true_or]⟩)

theorem find?_eq_of_agree {α : Type} {f g : α → Bool} {l : List α} (h : ∀ x ∈ l, f x = g x) : l.find? f = l.find? g := by
  induction l with
  | nil => rfl
  | cons a l ih => rw [List.find?_cons, List.find?_cons, h a List.mem_cons_self, ih fun x hx => h x (List.mem_cons_of_mem _ hx)]

/-- The planes of an installation that read something else than what is written. -/
def State.badPlanes (s : State) (i : Install) : List (Nat × Nat × Nat) :=
  i.pl.planeKeys.filter (fun x => !((s.writeSpans i.pl).planeBad x).isEmpty)

variable (hi : s.installs.find? (fun x => x.pl.handle == i.pl.handle) = some i)
  (hkeys : ∀ x ∈ i.pl.planeKeys, s.substBlocks x.1 [x.2.1] = false ∧ s.hasHardware x.1 = true ∧ s.coreUp x.1 = true)
include hi hkeys

/-- What the end of an installation decides, once no unit of it is being substituted. -/
theorem installDone_decides :
    (∀ x, (s.badPlanes i).find? (fun x => i.replaced.contains (x.1, x.2.1)) = some x →
      s.installDone i.pl.handle none = s.failInstall i 0x0D (i.pl.spanIndex x)) ∧
    (s.badPlanes i = [] → (i.late = none → s.installDone i.pl.handle none = (s.writeSpans i.pl).commitInstall i) ∧
      ∀ st d, i.late = some (st, d) → s.installDone i.pl.handle none = s.failInstall i st d) := by
  have hfree : ¬ (i.pl.planeKeys.any (fun x => s.substBlocks x.1 [x.2.1] || (s.hasHardware x.1 && !(s.coreUp x.1))) = true) := by
    rw [List.any_eq_true]
    rintro ⟨x, hx, hb⟩
    obtain ⟨h1, h2, h3⟩ := hkeys x hx
    simp [h1, h3] at hb
  have hbad : i.pl.planeKeys.filter (fun x => !((s.writeSpans i.pl).planeBad x).isEmpty || none == some (i.pl.spanIndex x) ||
      !(s.hasHardware x.1)) = s.badPlanes i :=
    List.filter_congr fun x hx => by simp [(hkeys x hx).2.1]
  have hgone : (s.badPlanes i).find? (fun x => i.replaced.contains (x.1, x.2.1) || !(s.hasHardware x.1)) =
      (s.badPlanes i).find? (fun x => i.replaced.contains (x.1, x.2.1)) :=
    find?_eq_of_agree fun x hx => by simp [(hkeys x (List.mem_filter.1 hx).1).2.1]
  unfold State.installDone
  rw [hi]
  dsimp only
  rw [if_neg hfree, hbad, hgone]
  refine ⟨fun x hx => by rw [hx], fun hnil => ?_⟩
  rw [hnil]
  exact ⟨fun hl => by rw [hl]; rfl, fun st d hl => by rw [hl]; rfl⟩

end

/-! ### Routines that become current (R202, R203) -/

section
variable {tenant name ep : Nat} {r : Routine} {q : Reload}

theorem exec_routineCommit (s : State) (tenant name : Nat) : exec (.routineCommit tenant name) s = .next (s.routineCommit tenant name) := rfl

/-- The routine `r` whose first version that waits, `q`, becomes current at the epoch `ep`. -/
def Routine.advanced (r : Routine) (ep : Nat) (q : Reload) (rest : List Reload) : Routine :=
  { r.endCurrent ep with
    current := some q.v.num, versions := (r.endCurrent ep).versions ++ [{ q.v with from_ := ep }], queue := rest
    dieMask := q.mask }

theorem countCommit_frame (s : State) (old new : List Version) : s.countCommit old new = { s with dsm := (s.countCommit old new).dsm } := rfl

/-- `s` with every routine of the name `name` replaced by `f` of it, and the versions that go counted. -/
def State.reRoutine (s : State) (old new : List Version) (name : Nat) (f : Nat → Routine → Routine) : State :=
  { s.countCommit old new with
    routines := s.routines.map (fun x => if x.name == name then f s.pkg.epoch x else x) }

theorem reRoutine_frees (s : State) (old new : List Version) (name : Nat) (f : Nat → Routine → Routine) :
    (s.reRoutine old new name f).freeVersions = { s with
      routines := (s.routines.map (fun x => if x.name == name then f s.pkg.epoch x else x)).map (fun r =>
        { r with versions := r.versions.filter (fun v => !v.dead) })
      dsm := (s.reRoutine old new name f).freeVersions.dsm } := rfl

theorem reRoutine_fields (s : State) (old new : List Version) (name : Nat) (f : Nat → Routine → Routine) :
    (s.nextEpoch.reRoutine old new name f).freeVersions.pkg.epoch = (s.pkg.epoch + 1) % 2 ^ 32 ∧
    (s.nextEpoch.reRoutine old new name f).freeVersions.routines = (s.routines.map (fun x =>
      if x.name == name then f ((s.pkg.epoch + 1) % 2 ^ 32) x else x)).map (fun r =>
        { r with versions := r.versions.filter (fun v => !v.dead) }) ∧
    (s.nextEpoch.reRoutine old new name f).freeVersions.placements = s.placements ∧
    (s.nextEpoch.reRoutine old new name f).freeVersions.cores = s.cores := by
  have hframe := nextEpoch_frame s
  have hr : s.nextEpoch.routines = s.routines := by rw [hframe]
  have hp : s.nextEpoch.placements = s.placements := by rw [hframe]
  have hc : s.nextEpoch.cores = s.cores := by rw [hframe]
  rw [reRoutine_frees, hr, nextEpoch_epoch]
  exact ⟨rfl, rfl, hp, hc⟩

theorem routineCommit_eq (hr : s.routines.find? (fun x => x.name == name && x.tenant == tenant) = some r) {rest : List Reload}
    (hq : r.queue = q :: rest) : s.routineCommit tenant name =
      ((s.nextEpoch.reRoutine r.versions [q.v] name (fun ep _ => r.advanced ep q rest)).freeVersions.mirrorDone
        (keptPlace q.reply).port 1 name).replyLater q.reply name 0 0 := by
  unfold State.routineCommit
  rw [hr]
  dsimp only
  rw [hq]
  rfl

theorem routineCommit_commits (hr : s.routines.find? (fun x => x.name == name && x.tenant == tenant) = some r) {rest : List Reload}
    (hq : r.queue = q :: rest) (hopen : q.v.until_ = none) (hep : ep = (s.pkg.epoch + 1) % 2 ^ 32) :
    ∃ t : State, exec (.routineCommit tenant name) s = .next t ∧ t.pkg.epoch = ep ∧
      (∃ x ∈ t.routines, x.name = name ∧ x.tenant = tenant ∧ x.current = some q.v.num ∧ x.queue = rest ∧
        x.dieMask = q.mask ∧ { q.v with from_ := ep } ∈ x.versions ∧
        (∀ v ∈ x.versions, v.until_ = none → v = { q.v with from_ := ep })) ∧
      t.placements = s.placements ∧ t.cores = s.cores := by
  obtain ⟨hname, htenant⟩ : r.name = name ∧ r.tenant = tenant := by simpa using List.find?_some hr
  obtain ⟨hepoch, hroutines, hplaced, hcores⟩ := reRoutine_fields s r.versions [q.v] name (fun ep _ => r.advanced ep q rest)
  have hreplied := (mirrorDone_replied (s.nextEpoch.reRoutine r.versions [q.v] name (fun ep _ => r.advanced ep q rest)).freeVersions
    (keptPlace q.reply).port 1 name).trans (replyLater_replied _ q.reply name 0 0)
  refine ⟨_, (exec_routineCommit ..).trans (congrArg _ (routineCommit_eq hr hq)), (hreplied.epoch.trans hepoch).trans hep.symm,
    ⟨{ r.advanced ep q rest with versions := (r.advanced ep q rest).versions.filter (fun v => !v.dead) }, ?_, hname, htenant, rfl,
      rfl, rfl, ?_, ?_⟩, hreplied.placements.trans hplaced, hreplied.cores.trans hcores⟩
  · rw [hreplied.routines, hroutines, ← hep]
    refine List.mem_map.2 ⟨r.advanced ep q rest, List.mem_map.2 ⟨r, List.mem_of_find?_eq_some hr, ?_⟩, rfl⟩
    rw [if_pos (by simpa using hname)]
  · refine List.mem_filter.2 ⟨List.mem_append_right _ List.mem_cons_self, ?_⟩
    simp [Version.dead, hopen]
  · intro v hv hopen'
    rcases List.mem_append.1 (List.mem_filter.1 hv).1 with hold | hnew
    · obtain ⟨w, -, rfl⟩ := List.mem_map.1 hold
      cases hw : w.until_ <;> simp [hw] at hopen'
    · exact List.mem_singleton.1 hnew

end

/-! ### REMOVE (R204, R335) -/

section
variable {b : BulkIn} {tenant : Nat} {h : BHead}

theorem exec_remove (hready : s.bulkReady 7 b tenant) : exec (.remove b) s = .next (s.removeObj b tenant (bulkHead b.body)) :=
  answer_eq_next hready.1 (bulkFrame_ready hready)

/-- A plane whose threshold is that of its placements. -/
def State.thrOf (s : State) (p : Plane) : Plane := { p with thr := s.planeThr p.spans p.dyn }

theorem thrPlanes_planes (u : State) (l : List (Nat × Nat × Nat)) (s : State) (y : Nat × Nat × Nat) :
    ((l.foldl (fun t x => t.modPlane x.1 x.2.1 x.2.2 u.thrOf) s).planeAt y = { s.planeAt y with
      thr := ((l.foldl (fun t x => t.modPlane x.1 x.2.1 x.2.2 u.thrOf) s).planeAt y).thr }) ∧
    (y ∈ l → ((l.foldl (fun t x => t.modPlane x.1 x.2.1 x.2.2 u.thrOf) s).planeAt y).thr =
      u.planeThr (s.planeAt y).spans (s.planeAt y).dyn) := by
  induction l generalizing s with
  | nil => exact ⟨rfl, nofun⟩
  | cons x l ih =>
    obtain ⟨hsame, hin⟩ := ih (s.modPlane x.1 x.2.1 x.2.2 u.thrOf)
    have hone : (s.modPlane x.1 x.2.1 x.2.2 u.thrOf).planeAt y = { s.planeAt y with
        thr := ((s.modPlane x.1 x.2.1 x.2.2 u.thrOf).planeAt y).thr } := by
      rw [planeAt_modPlane]
      split
      · next h => rw [h]; rfl
      · rfl
    rw [List.foldl_cons]
    refine ⟨hsame.trans (by rw [hone]), fun hy => ?_⟩
    by_cases hl : y ∈ l
    · rw [hin hl, hone]
    · obtain rfl := (List.mem_cons.1 hy).resolve_right hl
      rw [(modPlanes_planeAt u.thrOf l _ y).2 hl, planeAt_modPlane, if_pos rfl]
      rfl

/-- `s` with the placements of the handle `name` removed at the next epoch. -/
def State.unplaced (s : State) (name : Nat) : State :=
  { s.nextEpoch with
    placements := s.nextEpoch.placements.map (fun q =>
      if q.handle == name && q.removed.isNone then { q with removed := some s.nextEpoch.pkg.epoch } else q) }

theorem setThresholds_eq (s : State) (keys : List (Nat × Nat × Nat)) :
    s.setThresholds keys = keys.foldl (fun t x => t.modPlane x.1 x.2.1 x.2.2 s.thrOf) s := rfl

theorem removeObj_placement {p : Placement} (ht : h.target ≠ 1)
    (hp : s.placements.find? (fun p => p.handle == h.name && p.removed.isNone) = some p) :
    (p.tenant ≠ tenant → s.removeObj b tenant h = s.replyTo b none 7 0) ∧
      (p.tenant = tenant → s.removeObj b tenant h = ((s.unplaced h.name).setThresholds p.planeKeys).replyTo b none 0 0) := by
  unfold State.removeObj
  rw [if_neg ht, hp]
  exact ⟨fun hne => if_pos hne, fun heq => if_neg (not_not_intro heq)⟩

theorem removeObj_routine {r : Routine} (ht : h.target = 1)
    (hr : s.routines.find? (fun r => r.name == h.name && r.current.isSome) = some r) :
    (r.tenant ≠ tenant → s.removeObj b tenant h = s.replyTo b none 7 0) ∧
      (r.tenant = tenant → s.removeObj b tenant h =
        (s.nextEpoch.reRoutine r.versions [] h.name (fun ep x => x.endCurrent ep)).freeVersions.replyTo b none 0 0) := by
  unfold State.removeObj
  rw [if_pos ht, hr]
  exact ⟨fun hne => if_pos hne, fun heq => if_neg (not_not_intro heq)⟩

theorem unplaced_fields (s : State) (name : Nat) : (s.unplaced name).pkg.epoch = (s.pkg.epoch + 1) % 2 ^ 32 ∧
    (s.unplaced name).placements = s.placements.map (fun q =>
      if q.handle == name && q.removed.isNone then { q with removed := some ((s.pkg.epoch + 1) % 2 ^ 32) } else q) ∧
    (s.unplaced name).cores = s.cores := by
  have hframe := nextEpoch_frame s
  have hp : s.nextEpoch.placements = s.placements := by rw [hframe]
  refine ⟨nextEpoch_epoch s, ?_, ?_⟩
  · show s.nextEpoch.placements.map _ = _
    rw [hp, nextEpoch_epoch]
  · show s.nextEpoch.cores = _
    rw [hframe]

theorem setThresholds_sets (s : State) (keys : List (Nat × Nat × Nat)) {t : State} (ht : t = s.setThresholds keys) :
    t = { s with cores := t.cores } ∧ (∀ x, t.planeAt x = { s.planeAt x with thr := (t.planeAt x).thr }) ∧
      (∀ x ∈ keys, (t.planeAt x).thr = t.planeThr (t.planeAt x).spans (t.planeAt x).dyn) := by
  subst ht
  rw [setThresholds_eq]
  have hframe := modPlanes_frame s.thrOf keys s
  refine ⟨hframe, fun x => (thrPlanes_planes s keys s x).1, fun x hx => ?_⟩
  obtain ⟨hsame, hin⟩ := thrPlanes_planes s keys s x
  rw [planeThr_congr (s := s) (by rw [hframe]), hin hx, hsame]

end

/-! ### Placements that retire, and planes that are emptied (R335) -/

section
variable {handle ep : Nat} {p : Placement}

/-- A plane of a placement that retires: other placements share it, or none does. -/
def Plane.retiredFrom (handle : Nat) (q : Plane) : Plane :=
  if q.spans.any (fun y => y.handle != handle) then { q with st := .fenced } else { q with st := .retired }

theorem retiredFrom_st (handle : Nat) (q : Plane) : (q.retiredFrom handle).st =
    if q.spans.any (fun y => y.handle != handle) then .fenced else .retired := by
  unfold Plane.retiredFrom
  split <;> rfl

theorem retiredFrom_spans (handle : Nat) (q : Plane) : (q.retiredFrom handle).spans = q.spans := by
  unfold Plane.retiredFrom
  split <;> rfl

theorem retirePlanes_st (handle : Nat) (l : List (Nat × Nat × Nat)) (s : State) {y : Nat × Nat × Nat} (hy : y ∈ l) :
    ((l.foldl (fun s x => s.modPlane x.1 x.2.1 x.2.2 (Plane.retiredFrom handle)) s).planeAt y).st =
      if (s.planeAt y).spans.any (fun z => z.handle != handle) then .fenced else .retired := by
  induction l generalizing s with
  | nil => exact absurd hy List.not_mem_nil
  | cons x l ih =>
    have hspans : ((s.modPlane x.1 x.2.1 x.2.2 (Plane.retiredFrom handle)).planeAt y).spans = (s.planeAt y).spans := by
      rw [planeAt_modPlane]
      split
      · next h => rw [h, retiredFrom_spans]
      · rfl
    rw [List.foldl_cons]
    by_cases hl : y ∈ l
    · rw [ih _ hl, hspans]
    · obtain rfl := (List.mem_cons.1 hy).resolve_right hl
      rw [(modPlanes_planeAt _ l _ y).2 hl, planeAt_modPlane, if_pos rfl, retiredFrom_st]

theorem retirePlacement_retires (hp : s.placements.find? (fun p => p.handle == handle) = some p) (hep : p.removed = some ep)
    (hnew : p.retiring = false) (hfree : s.stillUsed handle ep = false) :
    ∃ t : State, exec (.placementRetire handle) s = .next t ∧ (∀ x ∈ p.planeKeys, (t.planeAt x).st =
      (if (s.planeAt x).spans.any (fun y => y.handle != handle) then .fenced else .retired)) ∧
      (∀ x, x ∉ p.planeKeys → t.planeAt x = s.planeAt x) ∧
      t.placements = s.placements.map (fun q => if q.handle == handle then { q with retiring := true } else q) := by
  have hgo : ¬ (p.retiring = true ∨ s.stillUsed handle ep = true) := by simp [hnew, hfree]
  have hframe := modPlanes_frame (Plane.retiredFrom handle) p.planeKeys s
  have hdone : s.retirePlacement handle =
      { p.planeKeys.foldl (fun s x => s.modPlane x.1 x.2.1 x.2.2 (Plane.retiredFrom handle)) s with
        placements := (p.planeKeys.foldl (fun s x => s.modPlane x.1 x.2.1 x.2.2 (Plane.retiredFrom handle)) s).placements.map
          (fun q => if q.handle == handle then { q with retiring := true } else q) } := by
    unfold State.retirePlacement
    rw [hp]
    dsimp only
    rw [hep]
    exact if_neg hgo
  refine ⟨_, answer_eq_next rfl hdone, fun x hx => retirePlanes_st handle p.planeKeys s hx,
    fun x hx => (modPlanes_planeAt _ p.planeKeys s x).2 hx, ?_⟩
  refine congrArg (List.map _) (?_ : _ = s.placements)
  rw [hframe]

end

section
variable {k e p : Nat} {x : Nat × Nat × Nat}

theorem exec_planeEmpty (hk : coreOk k = true) (he : engineOk e = true) (hp : p < 8) :
    exec (.planeEmpty k e p) s = .next (s.planeEmpty k e p) :=
  answer_eq_next (by rw [hk, he, decide_eq_true hp]; rfl) rfl

theorem planeEmpty_retired (hst : (s.planeAt (k, e, p)).st = .retired) :
    s.planeEmpty k e p = (s.modPlane k e p (fun _ => Plane.fresh)).freePlacements := by
  unfold State.planeEmpty
  dsimp only
  rw [hst]

theorem planeEmpty_shared (hst : (s.planeAt (k, e, p)).st = .fenced)
    (hdrops : (s.planeAt (k, e, p)).spans.filter (fun y => !(s.retiring y.handle)) ≠ (s.planeAt (k, e, p)).spans)
    (hheld : ∀ i ∈ s.installs, (k, e, p) ∉ i.fenced) :
    s.planeEmpty k e p = (s.modPlane k e p (fun q => s.afterDrop false (q.dropSpans s.retiring))).freePlacements := by
  have hany : (s.planeAt (k, e, p)).spans.any (fun x => s.retiring x.handle) = true := by
    refine Classical.byContradiction fun h => hdrops (List.filter_eq_self.2 fun y hy => ?_)
    simp only [List.any_eq_true, not_exists, not_and] at h
    simpa using h y hy
  have hnone : s.installs.any (fun i => i.fenced.contains (k, e, p)) = false := by
    rw [List.any_eq_false]
    intro i hi
    simpa using hheld i hi
  unfold State.planeEmpty
  dsimp only
  rw [hst]
  dsimp only
  rw [if_pos hany, hnone]

theorem freePlacements_planeAt (s : State) (y : Nat × Nat × Nat) : s.freePlacements.planeAt y = s.planeAt y := rfl

theorem planeEmpty_planes (f : Plane → Plane) :
    (s.modPlane k e p f).freePlacements.planeAt (k, e, p) = f (s.planeAt (k, e, p)) ∧
      ∀ y, y ≠ (k, e, p) → (s.modPlane k e p f).freePlacements.planeAt y = s.planeAt y := by
  refine ⟨?_, fun y hy => ?_⟩
  · rw [freePlacements_planeAt, planeAt_modPlane, if_pos rfl]
  · rw [freePlacements_planeAt, planeAt_modPlane, if_neg hy]

theorem afterDrop_empty {q : Plane} (hspans : q.spans.filter (fun y => !(s.retiring y.handle)) = []) (hdyn : q.dyn = none) :
    s.afterDrop false (q.dropSpans s.retiring) = Plane.fresh := by
  unfold State.afterDrop
  rw [if_pos ⟨by simp [Plane.dropSpans, hspans], by simp [Plane.dropSpans, hdyn]⟩]
  rfl

theorem afterDrop_shared {q : Plane} (hspans : q.spans.filter (fun y => !(s.retiring y.handle)) ≠ []) :
    (s.afterDrop false (q.dropSpans s.retiring)).spans = q.spans.filter (fun y => !(s.retiring y.handle)) ∧
      (s.afterDrop false (q.dropSpans s.retiring)).st = (if q.doubt || q.absorb || q.lost then .fenced else .live) := by
  unfold State.afterDrop
  rw [if_neg (by rintro ⟨h, -⟩; exact hspans (by simpa [Plane.dropSpans] using h))]
  exact ⟨rfl, by simp [Plane.dropSpans]⟩

end

end

/-- Settles O32: installations and routines that become current, what REMOVE ends, and planes that retire and are emptied. -/
theorem installedObjects : Obligations.InstalledObjects := by
  unfold Obligations.InstalledObjects
  refine ⟨?installs, ?routines, ?removes, ?retires, ?empties⟩
  case installs =>
    intro s i hi h keys w
    have hexec := exec_installDone s h
    refine ⟨fun hblock => hexec.trans (congrArg _ (installDone_waits hi hblock)), fun hkeys => ?_⟩
    obtain ⟨hreplaced, hgood⟩ := installDone_decides hi hkeys
    have hnone (hall : ∀ x ∈ keys, w.planeBad x = []) : s.badPlanes i = [] :=
      List.filter_eq_nil_iff.2 fun x hx => by
        rw [show (s.writeSpans i.pl).planeBad x = [] from hall x hx]
        simp
    refine ⟨fun hall hlate => ⟨_, hexec.trans (congrArg _ ((hgood (hnone hall)).1 hlate)), ?_⟩,
      fun hall st d hlate => hexec.trans (congrArg _ ((hgood (hnone hall)).2 st d hlate)),
      fun x hx => hexec.trans (congrArg _ (hreplaced x hx))⟩
    have hcommits := commitInstall_commits w i rfl
    have hframe : w = _ := writeSpans_frame s i.pl
    have hpkg : w.pkg = s.pkg := by rw [hframe]
    have hplaced : w.placements = s.placements := by rw [hframe]
    have hinstalls : w.installs = s.installs := by rw [hframe]
    have hinst : w.inst = s.inst := by rw [hframe]
    rw [hpkg, hplaced, hinstalls, hinst] at hcommits
    exact hcommits
  case routines =>
    intro s tenant name r hr ep
    refine ⟨fun hq => (exec_routineCommit s tenant name).trans (congrArg _ ?_), fun q rest hq hopen =>
      routineCommit_commits hr hq hopen rfl⟩
    unfold State.routineCommit
    rw [hr]
    dsimp only
    rw [hq]
  case removes =>
    intro s b tenant hready h ep
    have hexec := exec_remove hready
    refine ⟨fun p ht hp => ?_, fun ht hnone => hexec.trans (congrArg _ ?_), fun r ht hr => ?_⟩
    · obtain ⟨hother, hown⟩ := removeObj_placement (b := b) (tenant := tenant) ht hp
      refine ⟨fun hne => hexec.trans (congrArg _ (hother hne)), fun heq => ⟨_, hexec.trans (congrArg _ (hown heq)), ?_⟩⟩
      obtain ⟨hepoch, hplaced, hcores⟩ := unplaced_fields s h.name
      obtain ⟨hframe, hsame, hthr⟩ := setThresholds_sets (s.unplaced h.name) p.planeKeys rfl
      refine ⟨?_, ?_, fun x => (hsame x).trans ?_, hthr⟩
      · rw [hframe]
        exact hepoch
      · rw [hframe]
        exact hplaced
      · rw [planeAt_of_cores hcores]
    · unfold State.removeObj
      rw [if_neg ht, hnone]
    · obtain ⟨hother, hown⟩ := removeObj_routine (b := b) (tenant := tenant) ht hr
      refine ⟨fun hne => hexec.trans (congrArg _ (hother hne)), fun heq => ⟨_, hexec.trans (congrArg _ (hown heq)), ?_⟩⟩
      obtain ⟨hepoch, hroutines, hplaced, hcores⟩ := reRoutine_fields s r.versions [] h.name (fun ep x => x.endCurrent ep)
      refine ⟨hepoch, fun x hx hname => ?_, hplaced, hcores⟩
      rw [hroutines] at hx
      obtain ⟨y, hy, rfl⟩ := List.mem_map.1 hx
      obtain ⟨z, -, rfl⟩ := List.mem_map.1 hy
      by_cases hz : z.name = h.name
      · rw [if_pos (by simpa using hz)]
        refine ⟨rfl, fun v hv => ?_⟩
        obtain ⟨u, -, rfl⟩ := List.mem_map.1 (List.mem_filter.1 hv).1
        cases hu : u.until_ <;> simp [hu]
      · rw [if_neg (by simpa using hz)] at hname
        exact absurd hname hz
  case retires =>
    intro s h ep p hp hep hnew hfree
    exact retirePlacement_retires hp hep hnew hfree
  case empties =>
    intro s k e p hk he hp x q kept
    have hexec := exec_planeEmpty (s := s) hk he hp
    refine ⟨fun hst => ?_, fun hst hdrops hheld => ?_⟩
    · obtain ⟨hat, hout⟩ := planeEmpty_planes (s := s) (k := k) (e := e) (p := p) (fun _ => Plane.fresh)
      exact ⟨_, hexec.trans (congrArg _ (planeEmpty_retired hst)), hat, hout⟩
    · obtain ⟨hat, hout⟩ := planeEmpty_planes (s := s) (k := k) (e := e) (p := p)
        (fun q => s.afterDrop false (q.dropSpans s.retiring))
      refine ⟨_, hexec.trans (congrArg _ (planeEmpty_shared hst hdrops hheld)), hout, fun hnil hdyn => hat.trans
        (afterDrop_empty hnil hdyn), fun hkept => ?_⟩
      obtain ⟨hspans, hstate⟩ := afterDrop_shared hkept
      exact ⟨(congrArg Plane.spans hat).trans hspans, (congrArg Plane.st hat).trans hstate⟩

/-! ### Work on planes keeps the cells of the engines, and what the golden copies give -/

/-- From `s` to `t` the planes of engines may differ, and counters, but not the cells of the engines, what is written of
placements and golden copies, and what is being substituted. -/
structure State.Tended (s t : State) : Prop where
  placements : t.placements = s.placements
  hbm : t.hbmStacks = s.hbmStacks
  profile : t.profile = s.profile
  maps : t.maps = s.maps
  slices : t.grazer = s.grazer
  stuck : ∀ k e, ((t.core k).engine e).stuck = ((s.core k).engine e).stuck
  skipped : ∀ k e, ((t.core k).engine e).skipped = ((s.core k).engine e).skipped
  moved : ∀ k e, ((t.core k).engine e).moved = ((s.core k).engine e).moved
  substs : ∀ k e, ((t.core k).engine e).substs = ((s.core k).engine e).substs

section
variable {s t : State} {x : Nat × Nat × Nat}

theorem State.Tended.refl (s : State) : s.Tended s := ⟨rfl, rfl, rfl, rfl, rfl, fun _ _ => rfl, fun _ _ => rfl, fun _ _ => rfl, fun _ _ => rfl⟩

theorem State.Tended.trans {a b c : State} (hab : a.Tended b) (hbc : b.Tended c) : a.Tended c :=
  ⟨hbc.placements.trans hab.placements, hbc.hbm.trans hab.hbm, hbc.profile.trans hab.profile, hbc.maps.trans hab.maps,
    hbc.slices.trans hab.slices, fun k e => (hbc.stuck k e).trans (hab.stuck k e), fun k e => (hbc.skipped k e).trans (hab.skipped k e),
    fun k e => (hbc.moved k e).trans (hab.moved k e), fun k e => (hbc.substs k e).trans (hab.substs k e)⟩

/-- The cells of the engines are the same when each engine is but for its planes. -/
theorem tended_of_engines (hframe : t = { s with cores := t.cores })
    (h : ∀ k e, (t.core k).engine e = { (s.core k).engine e with planes := ((t.core k).engine e).planes }) : s.Tended t := by
  refine ⟨?_, ?_, ?_, ?_, ?_, fun k e => ?_, fun k e => ?_, fun k e => ?_, fun k e => ?_⟩
  · rw [hframe]
  · rw [hframe]
  · rw [hframe]
  · rw [hframe]
  · rw [hframe]
  · rw [h]
  · rw [h]
  · rw [h]
  · rw [h]

theorem modPlane_engine (s : State) (k e p : Nat) (f : Plane → Plane) (k' e' : Nat) : ((s.modPlane k e p f).core k').engine e' =
    { (s.core k').engine e' with planes := (((s.modPlane k e p f).core k').engine e').planes } := by
  unfold State.modPlane
  by_cases hk : k' = k
  · subst hk
    simp only [State_core_setCore_same, Core_engine_setEngine]
    split
    · next h => rw [h]; rfl
    · rfl
  · simp only [State_core_setCore_ne _ _ hk]

theorem modPlane_tended (s : State) (k e p : Nat) (f : Plane → Plane) : s.Tended (s.modPlane k e p f) :=
  tended_of_engines rfl (modPlane_engine s k e p f)

theorem modArr_engine (s : State) (k : Nat) (f : ArrayRegs → ArrayRegs) (k' e : Nat) :
    ((s.modArr k f).core k').engine e = (s.core k').engine e := by
  unfold State.modArr
  by_cases hk : k' = k
  · subst hk
    rw [State_core_modCore_same]
    rfl
  · rw [State_core_modCore_ne _ _ hk]

theorem modArr_tended (s : State) (k : Nat) (f : ArrayRegs → ArrayRegs) : s.Tended (s.modArr k f) :=
  tended_of_engines rfl (fun k' e => by rw [modArr_engine])

theorem planeAt_modArr (s : State) (k : Nat) (f : ArrayRegs → ArrayRegs) (y : Nat × Nat × Nat) :
    (s.modArr k f).planeAt y = s.planeAt y := by
  rw [State.planeAt, State.planeAt, modArr_engine]

theorem modArr_arr (s : State) (k : Nat) (f : ArrayRegs → ArrayRegs) : ((s.modArr k f).core k).arr = f (s.core k).arr := by
  unfold State.modArr
  rw [State_core_modCore_same]

theorem modPlane_arr (s : State) (k e p : Nat) (f : Plane → Plane) (j : Nat) : ((s.modPlane k e p f).core j).arr = (s.core j).arr := by
  unfold State.modPlane
  by_cases hj : j = k
  · subst hj
    rw [State_core_setCore_same]
    rfl
  · rw [State_core_setCore_ne _ _ hj]

theorem physCol_tended (h : s.Tended t) (k e n : Nat) : ((t.core k).engine e).physCol n = ((s.core k).engine e).physCol n := by
  simp only [Engine.physCol, Engine.columns, h.moved, h.skipped]

theorem spareCols_tended (h : s.Tended t) (k e : Nat) : ((t.core k).engine e).spareCols = ((s.core k).engine e).spareCols := by
  simp only [Engine.spareCols, Engine.columns, h.skipped, h.substs]

theorem patchedCells_tended (h : s.Tended t) (x : Nat × Nat × Nat) : t.patchedCells x = s.patchedCells x := by
  rw [State.patchedCells, State.patchedCells, h.placements]

theorem badCells_tended (h : s.Tended t) (x : Nat × Nat × Nat) (rows : Tbl Nat) : t.badCells x rows = s.badCells x rows := by
  simp only [State.badCells, patchedCells_tended h, h.stuck, physCol_tended h]

theorem readBack_tended (h : s.Tended t) (k e p r w : Nat) :
    ((t.core k).engine e).readBack p r w = ((s.core k).engine e).readBack p r w := by
  simp only [Engine.readBack, h.stuck, physCol_tended h]

theorem goldWhole_tended (h : s.Tended t) (x : Nat × Nat × Nat) : t.goldWhole x = s.goldWhole x := by
  have hcopy : t.goldCopy = s.goldCopy := by
    funext p n i
    simp only [State.goldCopy, State.stackUp, h.hbm]
  simp only [State.goldWhole, State.goldReads, h.placements, hcopy]

theorem goldenRows_tended (h : s.Tended t) (hspans : (t.planeAt x).spans = (s.planeAt x).spans)
    (hfmt : (t.planeAt x).wfmt = (s.planeAt x).wfmt) : t.goldenRows x = s.goldenRows x := by
  have hpatch (rows : Tbl Nat) : t.withPatches x rows = s.withPatches x rows := by
    simp only [State.withPatches, patchedCells_tended h, hfmt, readBack_tended h]
  simp only [State.goldenRows, hpatch, hspans, hfmt, h.placements]

end

/-! ### PLANE_DIAGNOSIS (R70) -/

section
variable {s : State} {x : Nat × Nat × Nat} {sweepOk : Bool}

theorem planeAt_setRows (s : State) (x y : Nat × Nat × Nat) (rows : Tbl Nat) :
    (s.setRows x rows).planeAt y = if y = x then { s.planeAt x with rows := rows } else s.planeAt y :=
  planeAt_modPlane s x.1 x.2.1 x.2.2 _ y

theorem planeAt_liveAgain (s : State) (x y : Nat × Nat × Nat) : (s.liveAgain x).planeAt y =
    if y = x then { s.planeAt x with st := .live, doubt := false, absorb := false } else s.planeAt y :=
  planeAt_modPlane s x.1 x.2.1 x.2.2 _ y

theorem planeAt_settled (s : State) (x y : Nat × Nat × Nat) : (s.settled x).planeAt y =
    if y = x then { s.planeAt x with doubt := false, absorb := false } else s.planeAt y :=
  planeAt_modPlane s x.1 x.2.1 x.2.2 _ y

theorem setRows_tended (s : State) (x : Nat × Nat × Nat) (rows : Tbl Nat) : s.Tended (s.setRows x rows) := modPlane_tended ..

theorem settled_tended (s : State) (x : Nat × Nat × Nat) : s.Tended (s.settled x) := modPlane_tended ..

theorem liveAgain_tended (s : State) (x : Nat × Nat × Nat) : s.Tended (s.liveAgain x) := modPlane_tended ..

variable (hbare : (s.planeAt x).bare = false)
include hbare

/-- A plane whose cells read what the golden copy gives (R70). -/
theorem diagnose_good (hwhole : s.goldWhole x = true) (hcells : s.badCells x (s.goldenRows x) = [])
    (hsweep : (s.planeAt x).rows = s.goldenRows x → sweepOk = true) :
    ∃ t : State, s.diagnose x sweepOk = t ∧
      t.planeAt x = { s.planeAt x with rows := s.goldenRows x, st := .live, doubt := false, absorb := false } ∧
      (∀ y, y ≠ x → t.planeAt y = s.planeAt y) ∧
      (t.core x.1).arr.transient = (s.core x.1).arr.transient + (if (s.planeAt x).rows = s.goldenRows x then 1 else 0) ∧
      (t.core x.1).arr.reprogram = (s.core x.1).arr.reprogram + (if (s.planeAt x).rows = s.goldenRows x then 0 else 1) := by
  unfold State.diagnose
  dsimp only
  rw [if_neg (by simp [hbare]), if_neg (by simp [hwhole]), hcells]
  by_cases hrows : (s.planeAt x).rows = s.goldenRows x
  · rw [if_pos ⟨hrows, rfl⟩, if_pos (hsweep hrows), if_pos hrows, if_pos hrows]
    refine ⟨_, rfl, ?_, fun y hy => ?_, ?_, ?_⟩
    · rw [State.countTransientPlane, planeAt_modArr, planeAt_liveAgain, if_pos rfl, ← hrows]
    · rw [State.countTransientPlane, planeAt_modArr, planeAt_liveAgain, if_neg hy]
    · rw [State.countTransientPlane, modArr_arr, State.liveAgain, modPlane_arr]
      rfl
    · rw [State.countTransientPlane, modArr_arr, State.liveAgain, modPlane_arr]
      simp
  · rw [if_neg (fun h => hrows h.1), if_pos (List.isEmpty_nil (α := Nat × Nat × Bool)), if_neg hrows, if_neg hrows]
    refine ⟨_, rfl, ?_, fun y hy => ?_, ?_, ?_⟩
    · rw [State.countReprogram, planeAt_modArr, planeAt_liveAgain, if_pos rfl, planeAt_setRows, if_pos rfl]
    · rw [State.countReprogram, planeAt_modArr, planeAt_liveAgain, if_neg hy, planeAt_setRows, if_neg hy]
    · rw [State.countReprogram, modArr_arr, State.liveAgain, modPlane_arr, State.setRows, modPlane_arr]
      simp
    · rw [State.countReprogram, modArr_arr, State.liveAgain, modPlane_arr, State.setRows, modPlane_arr]
      rfl

omit hbare in
/-- The cells of a plane under a placement that does not absorb them. -/
def State.hardCells (s : State) (x : Nat × Nat × Nat) : List (Nat × Nat × Bool) :=
  (s.badCells x (s.goldenRows x)).filter (fun c => ((s.planeAt x).coveredBy c.2.1).any (fun h => !(s.absorbs h)))

omit hbare in
theorem hardCells_eq (s : State) (p : Plane) (cells : List (Nat × Nat × Bool)) :
    cells.filter (fun c => match p.coveredBy c.2.1 with
      | some h => !(s.absorbs h)
      | none => false) = cells.filter (fun c => (p.coveredBy c.2.1).any (fun h => !(s.absorbs h))) :=
  List.filter_congr fun c _ => by cases p.coveredBy c.2.1 <;> rfl

/-- A plane with persistent cells, each of which a placement covers. -/
theorem diagnose_cells (hwhole : s.goldWhole x = true) (hcells : s.badCells x (s.goldenRows x) ≠ [])
    (hcovered : ∀ c ∈ s.badCells x (s.goldenRows x), ((s.planeAt x).coveredBy c.2.1).isSome = true) :
    s.diagnose x sweepOk =
      if (if !(s.hardCells x).isEmpty then s.hardCells x else if s.notesFit (s.planeAt x) (s.badCells x (s.goldenRows x)) then []
          else s.badCells x (s.goldenRows x)).isEmpty then
        (s.setRows x (s.goldenRows x)).noteCells x (s.badCells x (s.goldenRows x))
      else ((s.setRows x (s.goldenRows x)).settled x).beginColumns x.1 x.2.1
        ((if !(s.hardCells x).isEmpty then s.hardCells x else if s.notesFit (s.planeAt x) (s.badCells x (s.goldenRows x)) then []
          else s.badCells x (s.goldenRows x)).map (·.2.1)) := by
  have hloose : (s.badCells x (s.goldenRows x)).filter (fun c => ((s.planeAt x).coveredBy c.2.1).isNone) = [] :=
    List.filter_eq_nil_iff.2 fun c hc => by
      obtain ⟨h, hh⟩ := Option.isSome_iff_exists.1 (hcovered c hc)
      simp [hh]
  have hsome : (s.badCells x (s.goldenRows x)).isEmpty = false := by simpa using hcells
  unfold State.diagnose
  dsimp only
  rw [if_neg (by simp [hbare]), if_neg (by simp [hwhole]), if_neg (by simp [hsome]), hsome, hloose, State.hardCells, ← hardCells_eq]
  rfl

omit hbare

/-! #### The notes of the cells (R70, R74) -/

/-- `s` with the note `n` kept with the placement that it names. -/
def State.noted (s : State) (n : Nat × Nat) : State :=
  { s with placements := s.placements.map (fun q => if q.handle == n.1 && q.removed.isNone then
      { q with notes := q.notes ++ [n.2] } else q) }

/-- The notes of `l` that belong to the placement `q`. -/
def Placement.notesOf (q : Placement) (l : List (Nat × Nat)) : List Nat :=
  (l.filter (fun n => q.handle == n.1 && q.removed.isNone)).map (·.2)

theorem noteds_frame (l : List (Nat × Nat)) (s : State) : l.foldl State.noted s =
    { s with placements := s.placements.map (fun q => { q with notes := q.notes ++ q.notesOf l }) } := by
  induction l generalizing s with
  | nil => simp [Placement.notesOf]
  | cons n l ih =>
    rw [List.foldl_cons, ih]
    simp only [State.noted, List.map_map]
    congr 1
    refine List.map_congr_left fun q _ => ?_
    by_cases h : (q.handle == n.1 && q.removed.isNone) = true
    · simp only [Function.comp_apply, h, if_true, Placement.notesOf, List.filter_cons, List.map_cons, List.append_assoc,
        List.singleton_append]
    · simp only [Function.comp_apply, h, if_false, Placement.notesOf, List.filter_cons, Bool.false_eq_true]

/-- The notes of `cells` that no placement has yet. -/
def State.newNotes (s : State) (x : Nat × Nat × Nat) (cells : List (Nat × Nat × Bool)) : List (Nat × Nat) :=
  (cells.filterMap (fun c => ((s.planeAt x).coveredBy c.2.1).map (fun h => (h, noteOf h x c.1 c.2.1 c.2.2)))).filter
    (fun n => !(s.placements.any (fun q => q.handle == n.1 && q.removed.isNone && q.notes.contains n.2)))

/-- The plane of noted cells waits for a patch. -/
def State.absorbed (s : State) (x : Nat × Nat × Nat) : State :=
  s.modPlane x.1 x.2.1 x.2.2 (fun q => { q with doubt := false, absorb := true })

theorem noteCells_eq (s : State) (x : Nat × Nat × Nat) (cells : List (Nat × Nat × Bool)) : s.noteCells x cells =
    if (s.newNotes x cells).isEmpty then ((s.newNotes x cells).foldl State.noted s).absorbed x
    else (((s.newNotes x cells).foldl State.noted s).absorbed x).modArr x.1 (fun r =>
      { r with defectEvent := setBit r.defectEvent 0, defectCount := incBy r.defectCount (s.newNotes x cells).length }) := rfl

theorem noteCells_fields (s : State) (x : Nat × Nat × Nat) (cells : List (Nat × Nat × Bool)) :
    (s.noteCells x cells).placements = s.placements.map (fun q => { q with notes := q.notes ++ q.notesOf (s.newNotes x cells) }) ∧
      (s.noteCells x cells).maps = s.maps ∧
      (s.noteCells x cells).planeAt x = { s.planeAt x with doubt := false, absorb := true } ∧
      (∀ y, y ≠ x → (s.noteCells x cells).planeAt y = s.planeAt y) := by
  have habsorbed : ((s.newNotes x cells).foldl State.noted s).absorbed x =
      ({ s with placements := s.placements.map (fun q => { q with notes := q.notes ++ q.notesOf (s.newNotes x cells) }) } : State).absorbed x := by
    rw [noteds_frame]
  have hplane (y : Nat × Nat × Nat) : (((s.newNotes x cells).foldl State.noted s).absorbed x).planeAt y =
      if y = x then { s.planeAt x with doubt := false, absorb := true } else s.planeAt y := by
    rw [habsorbed]
    exact planeAt_modPlane _ x.1 x.2.1 x.2.2 _ y
  rw [noteCells_eq]
  split
  · refine ⟨?_, ?_, (hplane x).trans (if_pos rfl), fun y hy => (hplane y).trans (if_neg hy)⟩ <;> rw [habsorbed] <;> rfl
  · refine ⟨?_, ?_, ?_, fun y hy => ?_⟩
    · rw [habsorbed]
      rfl
    · rw [habsorbed]
      rfl
    · rw [planeAt_modArr, hplane, if_pos rfl]
    · rw [planeAt_modArr, hplane, if_neg hy]

theorem noteCells_notes (s : State) (x : Nat × Nat × Nat) {cells : List (Nat × Nat × Bool)} {c : Nat × Nat × Bool} (hc : c ∈ cells)
    {h : Nat} (hcov : (s.planeAt x).coveredBy c.2.1 = some h) (hq : ∃ q ∈ s.placements, q.handle = h ∧ q.removed = none) :
    ∃ q ∈ (s.noteCells x cells).placements, q.handle = h ∧ q.removed = none ∧ noteOf h x c.1 c.2.1 c.2.2 ∈ q.notes := by
  rw [(noteCells_fields s x cells).1]
  by_cases hold : s.placements.any (fun q => q.handle == h && q.removed.isNone && q.notes.contains (noteOf h x c.1 c.2.1 c.2.2)) = true
  · obtain ⟨q, hmem, hp⟩ := List.any_eq_true.1 hold
    simp only [Bool.and_eq_true, beq_iff_eq, Option.isNone_iff_eq_none, List.contains_eq_mem, decide_eq_true_eq] at hp
    exact ⟨_, List.mem_map.2 ⟨q, hmem, rfl⟩, hp.1.1, hp.1.2, List.mem_append_left _ hp.2⟩
  · obtain ⟨q, hmem, hh, hr⟩ := hq
    have hnote : (h, noteOf h x c.1 c.2.1 c.2.2) ∈ s.newNotes x cells :=
      List.mem_filter.2 ⟨List.mem_filterMap.2 ⟨c, hc, by simp [hcov]⟩, by simpa using hold⟩
    refine ⟨_, List.mem_map.2 ⟨q, hmem, rfl⟩, hh, hr, List.mem_append_right _ (List.mem_map.2 ⟨_, List.mem_filter.2 ⟨hnote, ?_⟩, rfl⟩)⟩
    simp [hh, hr]

/-! #### Columns that are substituted (R72) -/

/-- A LIVE plane that is fenced. -/
def Plane.fencedIfLive (q : Plane) : Plane := if q.st = .live then { q with st := .fenced } else q

theorem fenceEngine_eq (s : State) (k e : Nat) :
    s.fenceEngine k e = (List.range 8).foldl (fun s p => s.modPlane k e p Plane.fencedIfLive) s := rfl

theorem fencePlanes_planes (k e : Nat) (l : List Nat) (s : State) (y : Nat × Nat × Nat) :
    s.Tended (l.foldl (fun s p => s.modPlane k e p Plane.fencedIfLive) s) ∧
      ((l.foldl (fun s p => s.modPlane k e p Plane.fencedIfLive) s).planeAt y).rows = (s.planeAt y).rows ∧
      ((l.foldl (fun s p => s.modPlane k e p Plane.fencedIfLive) s).planeAt y).absorb = (s.planeAt y).absorb ∧
      ((s.planeAt y).st = .fenced → ((l.foldl (fun s p => s.modPlane k e p Plane.fencedIfLive) s).planeAt y).st = .fenced) := by
  induction l generalizing s with
  | nil => exact ⟨.refl s, rfl, rfl, id⟩
  | cons p l ih =>
    obtain ⟨h1, h2, h3, h4⟩ := ih (s.modPlane k e p Plane.fencedIfLive)
    have hone : ((s.modPlane k e p Plane.fencedIfLive).planeAt y).rows = (s.planeAt y).rows ∧
        ((s.modPlane k e p Plane.fencedIfLive).planeAt y).absorb = (s.planeAt y).absorb ∧
        ((s.planeAt y).st = .fenced → ((s.modPlane k e p Plane.fencedIfLive).planeAt y).st = .fenced) := by
      rw [planeAt_modPlane]
      split
      · next h =>
        rw [h, Plane.fencedIfLive]
        split <;> simp_all
      · exact ⟨rfl, rfl, id⟩
    obtain ⟨hr, ha, hs⟩ := hone
    exact ⟨(modPlane_tended ..).trans h1, h2.trans hr, h3.trans ha, fun h => h4 (hs h)⟩

/-- `s` with the units `l` being substituted. -/
def State.substOf (s : State) (l : List FaultUnit) : State := { s with maps := { s.maps with subst := l } }

theorem substOf_planeAt (s : State) (l : List FaultUnit) (y : Nat × Nat × Nat) : (s.substOf l).planeAt y = s.planeAt y := rfl

theorem beginColumns_begins {k e : Nat} {slots : List Nat} (hnone : s.maps.subst = [])
    (hroom : (sortedSet slots).length ≤ ((s.core k).engine e).spareCols) (y : Nat × Nat × Nat) :
    (s.beginColumns k e slots).maps.subst = (sortedSet slots).map (fun n => ⟨1, k, e, n⟩) ∧
      ((s.beginColumns k e slots).planeAt y).rows = (s.planeAt y).rows ∧
      ((s.beginColumns k e slots).planeAt y).absorb = (s.planeAt y).absorb ∧
      ((s.planeAt y).st = .fenced → ((s.beginColumns k e slots).planeAt y).st = .fenced) := by
  obtain ⟨htended, hrows, habsorb, hst⟩ := fencePlanes_planes k e (List.range 8) s y
  rw [← fenceEngine_eq] at htended hrows habsorb hst
  have hall : (sortedSet slots).filter (fun n => !(([] : List FaultUnit).any (fun u => u.slot == n))) = sortedSet slots :=
    List.filter_eq_self.2 fun _ _ => rfl
  have hmaps : (s.fenceEngine k e).maps.subst = [] := by rw [htended.maps, hnone]
  have hdone : s.beginColumns k e slots = (s.fenceEngine k e).substOf ((sortedSet slots).map (fun n => ⟨1, k, e, n⟩)) := by
    unfold State.beginColumns
    dsimp only
    rw [hnone, List.filter_nil, hall, if_neg (by simpa using hroom), hmaps, List.nil_append, State.substOf]
  rw [hdone, substOf_planeAt]
  exact ⟨rfl, hrows, habsorb, hst⟩

/-- Under ABSORB a plane with persistent cells waits for a patch, with a note of each (R70, R74). -/
theorem diagnose_absorbs (hbare : (s.planeAt x).bare = false) (hwhole : s.goldWhole x = true)
    (hcells : s.badCells x (s.goldenRows x) ≠ [])
    (hsoft : ∀ c ∈ s.badCells x (s.goldenRows x), ∃ h, (s.planeAt x).coveredBy c.2.1 = some h ∧ s.absorbs h = true)
    (hfit : s.notesFit (s.planeAt x) (s.badCells x (s.goldenRows x)) = true) :
    s.diagnose x sweepOk = (s.setRows x (s.goldenRows x)).noteCells x (s.badCells x (s.goldenRows x)) := by
  have hhard : s.hardCells x = [] := List.filter_eq_nil_iff.2 fun c hc => by
    obtain ⟨h, hh, ha⟩ := hsoft c hc
    simp [hh, ha]
  rw [diagnose_cells hbare hwhole hcells (fun c hc => by obtain ⟨h, hh, -⟩ := hsoft c hc; simp [hh]), hhard, hfit]
  rfl

/-- Under REPROGRAM the columns of persistent cells are substituted (R70, R72). -/
theorem diagnose_substitutes (hbare : (s.planeAt x).bare = false) (hwhole : s.goldWhole x = true) (hhard : s.hardCells x ≠ [])
    (hcovered : ∀ c ∈ s.badCells x (s.goldenRows x), ((s.planeAt x).coveredBy c.2.1).isSome = true) :
    s.diagnose x sweepOk = ((s.setRows x (s.goldenRows x)).settled x).beginColumns x.1 x.2.1 ((s.hardCells x).map (·.2.1)) := by
  have hcells : s.badCells x (s.goldenRows x) ≠ [] := fun h => hhard (by rw [State.hardCells, h]; rfl)
  have hsome : (s.hardCells x).isEmpty = false := by simpa using hhard
  rw [diagnose_cells hbare hwhole hcells hcovered, hsome, Bool.not_false, if_pos rfl, hsome, if_neg (by decide)]

theorem diagnose_begins (hbare : (s.planeAt x).bare = false) (hwhole : s.goldWhole x = true) (hhard : s.hardCells x ≠ [])
    (hcovered : ∀ c ∈ s.badCells x (s.goldenRows x), ((s.planeAt x).coveredBy c.2.1).isSome = true) (hnone : s.maps.subst = [])
    (hroom : (sortedSet ((s.hardCells x).map (·.2.1))).length ≤ ((s.core x.1).engine x.2.1).spareCols) :
    ((s.diagnose x sweepOk).planeAt x).rows = s.goldenRows x ∧ (s.diagnose x sweepOk).maps.subst =
      (sortedSet ((s.hardCells x).map (·.2.1))).map (fun n => ⟨1, x.1, x.2.1, n⟩) := by
  have htended := (setRows_tended s x (s.goldenRows x)).trans (settled_tended (s.setRows x (s.goldenRows x)) x)
  have hsettled := (planeAt_settled (s.setRows x (s.goldenRows x)) x x).trans (if_pos rfl)
  obtain ⟨hsubst, hrows, -⟩ := beginColumns_begins (s := (s.setRows x (s.goldenRows x)).settled x) (k := x.1) (e := x.2.1)
    (slots := (s.hardCells x).map (·.2.1)) (htended.maps ▸ hnone) (by rw [spareCols_tended htended]; exact hroom) x
  rw [hsettled, planeAt_setRows, if_pos rfl] at hrows
  rw [diagnose_substitutes hbare hwhole hhard hcovered]
  exact ⟨hrows, hsubst⟩

/-- `s` with a plane that lost its golden copies counted. -/
def State.countGone (s : State) : State :=
  { s with inst := { s.inst with lostEvent := setBit s.inst.lostEvent 0, lostCount := inc s.inst.lostCount } }

theorem countGone_planeAt (s : State) (y : Nat × Nat × Nat) : s.countGone.planeAt y = s.planeAt y := rfl

theorem goldGone_new (hnew : (s.planeAt x).lost = false) : s.goldGone x =
    (s.modPlane x.1 x.2.1 x.2.2 (fun p => { p with st := .fenced, lost := true })).countGone := by
  unfold State.goldGone
  rw [if_neg (by simp [hnew])]
  rfl

/-- A plane whose golden copies are lost stays FENCED (R333). -/
theorem diagnose_lost (hbare : (s.planeAt x).bare = false) (hwhole : s.goldWhole x = false) (hnew : (s.planeAt x).lost = false) :
    (s.diagnose x sweepOk).planeAt x = { s.planeAt x with st := .fenced, lost := true } ∧
      (s.diagnose x sweepOk).inst.lostCount = s.inst.lostCount + 1 := by
  have hdone : s.diagnose x sweepOk = s.goldGone x := by
    unfold State.diagnose
    dsimp only
    rw [if_neg (by simp [hbare]), if_pos (by simp [hwhole])]
  rw [hdone, goldGone_new hnew, countGone_planeAt, planeAt_modPlane, if_pos rfl]
  exact ⟨rfl, rfl⟩

end

section
variable {s : State} {k e p : Nat} {x : Nat × Nat × Nat}

theorem exec_planeDiagnosis (hk : coreOk k = true) (he : engineOk e = true) (hp : p < 8) (hx : x = (k, e, p)) {sweepOk : Bool}
    {lost : List GoldLoss} (hdue : s.toDiagnose x = true) (hpass : (s.core k).passOn e = false) (hsub : s.substBlocks k [e] = false)
    (hmay : s.mayProgram k e = true) : exec (.planeDiagnosis k e p ⟨sweepOk, lost⟩) s =
      .next (((s.yieldSlices k e).loseGold lost).diagnose x sweepOk) := by
  subst hx
  refine answer_eq_next (by rw [hk, he, decide_eq_true hp]; rfl) ?_
  rw [hdue, hpass, hsub, hmay]
  rfl

theorem exec_absorbWait (hk : coreOk k = true) (he : engineOk e = true) (hp : p < 8) (hx : x = (k, e, p)) :
    exec (.absorbWait k e p) s = .next (if (s.planeAt x).st = .fenced ∧ (s.planeAt x).absorb = true then
      ((s.dropPatches x).settled x).beginColumns k e ((s.badCells x (s.goldenRows x)).map (·.2.1)) else s) := by
  subst hx
  exact answer_eq_next (by rw [hk, he, decide_eq_true hp]; rfl) rfl

theorem dropPatches_none (h : ∀ q ∈ s.placements, q.patch = []) : s.dropPatches x = s := by
  unfold State.dropPatches
  rw [List.filter_eq_nil_iff.2 fun q hq => by simp [h q hq]]
  rfl

end

/-! ### PATCH_APPLY (R76 to R78) -/

section
variable {s : State} {x : Nat × Nat × Nat} {h : Nat} {p : Placement}

theorem countGone_tended (s : State) : s.Tended s.countGone :=
  ⟨rfl, rfl, rfl, rfl, rfl, fun _ _ => rfl, fun _ _ => rfl, fun _ _ => rfl, fun _ _ => rfl⟩

theorem goldGone_tended (s : State) (x : Nat × Nat × Nat) : s.Tended (s.goldGone x) := by
  cases hlost : (s.planeAt x).lost with
  | true =>
    rw [State.goldGone, if_pos hlost]
    exact .refl s
  | false =>
    rw [goldGone_new hlost]
    exact (modPlane_tended ..).trans (countGone_tended _)

theorem goldGone_planeAt (s : State) (x : Nat × Nat × Nat) {y : Nat × Nat × Nat} (hy : y ≠ x) : (s.goldGone x).planeAt y = s.planeAt y := by
  cases hlost : (s.planeAt x).lost with
  | true => rw [State.goldGone, if_pos hlost]
  | false => rw [goldGone_new hlost, countGone_planeAt, planeAt_modPlane, if_neg hy]

theorem patchedPlane_tended (s : State) (x : Nat × Nat × Nat) : s.Tended (s.patchedPlane x) := by
  unfold State.patchedPlane
  dsimp only
  split
  · exact goldGone_tended s x
  · split
    · exact (setRows_tended ..).trans (liveAgain_tended ..)
    · exact (setRows_tended ..).trans (modPlane_tended ..)

theorem patchedPlane_ne (s : State) {x y : Nat × Nat × Nat} (hy : y ≠ x) : (s.patchedPlane x).planeAt y = s.planeAt y := by
  unfold State.patchedPlane
  dsimp only
  split
  · exact goldGone_planeAt s x hy
  · have hset := (planeAt_setRows s x y (s.goldenRows x)).trans (if_neg hy)
    split
    · exact ((planeAt_liveAgain _ x y).trans (if_neg hy)).trans hset
    · exact ((planeAt_modPlane _ x.1 x.2.1 x.2.2 _ y).trans (if_neg hy)).trans hset

/-- A patched plane that verifies is LIVE, and holds its golden rows (R77). -/
theorem patchedPlane_verifies (hwhole : s.goldWhole x = true) (hcells : s.badCells x (s.goldenRows x) = []) :
    ((s.patchedPlane x).planeAt x).st = .live ∧ ((s.patchedPlane x).planeAt x).rows = s.goldenRows x := by
  have hset := (planeAt_setRows s x x (s.goldenRows x)).trans (if_pos rfl)
  have htended := setRows_tended s x (s.goldenRows x)
  have hgold : (s.setRows x (s.goldenRows x)).goldenRows x = s.goldenRows x :=
    goldenRows_tended htended (by rw [hset]) (by rw [hset])
  unfold State.patchedPlane
  dsimp only
  rw [if_neg (by simp [hwhole]), hgold, badCells_tended htended, hcells, if_pos (List.isEmpty_nil (α := Nat × Nat × Bool)),
    planeAt_liveAgain, if_pos rfl, hset]
  exact ⟨rfl, rfl⟩

theorem yieldSlices_none (h : s.grazer.slices = []) (k e : Nat) : s.yieldSlices k e = s := by
  unfold State.yieldSlices
  rw [h]
  rfl

/-- Planes patched one after the other, no slice being on. -/
theorem patchPlanes (l : List (Nat × Nat × Nat)) (hl : l.Nodup) (s : State) (hslices : s.grazer.slices = []) :
    s.Tended (l.foldl (fun s x => (s.yieldSlices x.1 x.2.1).patchedPlane x) s) ∧
      (∀ y, y ∉ l → (l.foldl (fun s x => (s.yieldSlices x.1 x.2.1).patchedPlane x) s).planeAt y = s.planeAt y) ∧
      (∀ y ∈ l, s.goldWhole y = true → s.badCells y (s.goldenRows y) = [] →
        ((l.foldl (fun s x => (s.yieldSlices x.1 x.2.1).patchedPlane x) s).planeAt y).st = .live ∧
          ((l.foldl (fun s x => (s.yieldSlices x.1 x.2.1).patchedPlane x) s).planeAt y).rows = s.goldenRows y) := by
  induction l generalizing s with
  | nil => exact ⟨.refl s, fun _ _ => rfl, nofun⟩
  | cons x l ih =>
    obtain ⟨hx, hl⟩ := List.nodup_cons.1 hl
    have htended := patchedPlane_tended s x
    obtain ⟨h1, h2, h3⟩ := ih hl (s.patchedPlane x) (by rw [htended.slices, hslices])
    rw [List.foldl_cons, yieldSlices_none hslices]
    refine ⟨htended.trans h1, fun y hy => ?_, fun y hy hwhole hcells => ?_⟩
    · obtain ⟨hne, hnot⟩ := not_or.1 (mt List.mem_cons.2 hy)
      exact (h2 y hnot).trans (patchedPlane_ne s hne)
    · by_cases hyx : y = x
      · subst hyx
        rw [h2 y hx]
        exact patchedPlane_verifies hwhole hcells
      · have hplane := patchedPlane_ne s hyx
        have hgold := goldenRows_tended htended (x := y) (by rw [hplane]) (by rw [hplane])
        rw [← hgold]
        refine h3 y ((List.mem_cons.1 hy).resolve_left hyx) ((goldWhole_tended htended y).trans hwhole) ?_
        rw [badCells_tended htended, hgold, hcells]

theorem nodup_eraseDups {α : Type} [BEq α] [LawfulBEq α] : ∀ l : List α, l.eraseDups.Nodup
  | [] => by simp
  | a :: l => by
    rw [List.eraseDups_cons]
    exact List.nodup_cons.2 ⟨by simp [List.mem_eraseDups], nodup_eraseDups _⟩
termination_by l => l.length
decreasing_by exact Nat.lt_succ_of_le (List.length_filter_le ..)

theorem exec_patchApply (hp : s.placements.find? (fun p => p.handle == h && p.removed.isNone) = some p) (hpatch : p.patch ≠ [])
    (hmay : ∀ x ∈ p.spans, s.mayProgram x.k x.engine = true) :
    (p.patchKeys.find? (fun x => !((s.planeAt x).st == .fenced && (s.planeAt x).absorb)) = none →
      exec (.patchApply h) s = .next (s.applyPatch p)) ∧
    (∀ x, p.patchKeys.find? (fun x => !((s.planeAt x).st == .fenced && (s.planeAt x).absorb)) = some x →
      exec (.patchApply h) s = .next (s.dropPatches x)) := by
  have hgo : ¬ (p.patch.isEmpty = true ∨ p.spans.any (fun x => !(s.mayProgram x.k x.engine)) = true) := by
    simp only [List.isEmpty_iff, hpatch, false_or, Bool.not_eq_true, List.any_eq_false]
    intro x hx
    simp [hmay x hx]
  refine ⟨fun hnone => answer_eq_next rfl ?_, fun x hx => answer_eq_next rfl ?_⟩
  · simp only [hp, if_neg hgo, hnone]
  · simp only [hp, if_neg hgo, hx]

/-- The placement `p` as its patch leaves it (R77). -/
def Placement.patchedBy (p : Placement) : Placement :=
  { p with
    gold := patchGold p
    patched := (p.patched ++ p.notes.filter (fun n => p.patchKeys.contains (notePlane n))).eraseDups
    patch := [], reply := [] }

/-- `s` with the placement `p` as its patch leaves it. -/
def State.patchPlaced (s : State) (p : Placement) : State :=
  { s with placements := s.placements.map (fun (x : Placement) =>
      if x.handle == p.handle && x.removed.isNone then p.patchedBy else x) }

theorem applyPatch_applies (hslices : s.grazer.slices = []) {t : State} (ht : t = s.applyPatch p) :
    t.placements = (s.patchPlaced p).placements ∧
      (∀ x ∈ p.patchKeys, (s.patchPlaced p).goldWhole x = true →
        (s.patchPlaced p).badCells x ((s.patchPlaced p).goldenRows x) = [] →
        (t.planeAt x).st = .live ∧ (t.planeAt x).rows = (s.patchPlaced p).goldenRows x) ∧
      (∀ x, x ∉ p.patchKeys → t.planeAt x = s.planeAt x) := by
  subst ht
  obtain ⟨htended, hout, hin⟩ := patchPlanes p.patchKeys (nodup_eraseDups _) (s.patchPlaced p) hslices
  have hreplied := (mirrorDone_replied (p.patchKeys.foldl (fun s x => (s.yieldSlices x.1 x.2.1).patchedPlane x) (s.patchPlaced p))
    (keptPlace p.reply).port 4 p.handle).trans (replyLater_replied _ p.reply p.handle 0 0)
  refine ⟨hreplied.placements.trans htended.placements, fun x hx hwhole hcells => ?_, fun x hx => ?_⟩
  · rw [planeAt_of_cores (t := s.applyPatch p) hreplied.cores]
    exact hin x hx hwhole hcells
  · rw [planeAt_of_cores (t := s.applyPatch p) hreplied.cores]
    exact hout x hx

/-- `s` with the patch of the placements of `p`'s handle dropped, and answered. -/
def State.unpatched (s : State) (p : Placement) : State :=
  { s with placements := s.placements.map (fun (q : Placement) => if q.handle == p.handle && q.removed.isNone then
      { q with patch := [], reply := [] } else q) }.replyLater p.reply p.handle 0x12 0

theorem unpatched_fields (s : State) (p : Placement) : (s.unpatched p).cores = s.cores ∧ (s.unpatched p).placements =
    s.placements.map (fun (q : Placement) => if q.handle == p.handle && q.removed.isNone then { q with patch := [], reply := [] } else q) :=
  have hreplied := replyLater_replied { s with placements := s.placements.map (fun (q : Placement) =>
    if q.handle == p.handle && q.removed.isNone then { q with patch := [], reply := [] } else q) } p.reply p.handle 0x12 0
  ⟨hreplied.cores, hreplied.placements⟩

/-- No placement of the handle `h` waits for a patch. -/
def State.unpatchedAt (s : State) (h : Nat) : Prop := ∀ q ∈ s.placements, q.handle = h → q.removed = none → q.patch = []

theorem unpatched_at (s : State) (p : Placement) (h : Nat) (hor : p.handle = h ∨ s.unpatchedAt h) : (s.unpatched p).unpatchedAt h := by
  intro q hq hh hr
  rw [(unpatched_fields s p).2] at hq
  obtain ⟨y, hy, rfl⟩ := List.mem_map.1 hq
  by_cases hc : (y.handle == p.handle && y.removed.isNone) = true
  · rw [if_pos hc]
  · rw [if_neg hc] at hh hr ⊢
    refine hor.elim (fun hph => absurd ?_ hc) (fun hall => hall y hy hh hr)
    simp [hh, hph, hr]

theorem dropPatches_drops (l : List Placement) (s : State) (h : Nat) (hor : (∃ p ∈ l, p.handle = h) ∨ s.unpatchedAt h) :
    (l.foldl State.unpatched s).cores = s.cores ∧ (l.foldl State.unpatched s).unpatchedAt h := by
  induction l generalizing s with
  | nil => exact ⟨rfl, hor.resolve_left (by rintro ⟨p, hp, -⟩; exact absurd hp List.not_mem_nil)⟩
  | cons p l ih =>
    have hnext : (∃ q ∈ l, q.handle = h) ∨ (s.unpatched p).unpatchedAt h := by
      rcases hor with ⟨q, hq, hh⟩ | hall
      · rcases List.mem_cons.1 hq with rfl | hq
        · exact .inr (unpatched_at s q h (.inl hh))
        · exact .inl ⟨q, hq, hh⟩
      · exact .inr (unpatched_at s p h (.inr hall))
    obtain ⟨hcores, hdone⟩ := ih (s.unpatched p) hnext
    exact ⟨hcores.trans (unpatched_fields s p).1, hdone⟩

end

/-! ### FENCE_WAIT (R337) -/

section
variable {s : State} {k : Nat} {f : Flight} {e : Entry} {fe : Nat × Nat}

/-- `s` with a frame that a fence stopped counted. -/
def State.countRequeue (s : State) : State := { s with inst := { s.inst with requeues := inc s.inst.requeues } }

theorem countRequeue_core (s : State) (j : Nat) : s.countRequeue.core j = s.core j := rfl

theorem haltEntry_halts (hlive : (s.core k).live = true) (q : QEntry) (reason detail : Nat) :
    (s.haltEntry k q reason detail).core k = (s.core k).halt q.ctx q.pc q.depth reason detail ∧
      (∀ j, j ≠ k → (s.haltEntry k q reason detail).core j = s.core j) ∧ (s.haltEntry k q reason detail).inst = s.inst := by
  rw [State.haltEntry, haltCore_of_live hlive]
  exact ⟨State_core_setCore_same .., fun j hj => State_core_setCore_ne _ _ hj, rfl⟩

theorem fenceExpired_decides (hlive : (s.core k).live = true) (hf : (s.core k).q.flights.find? (fun f => f.fence.isSome) = some f)
    (hfe : f.fence = some fe) (he : s.frameOf (s.core k) = some e) (hst : (((s.core k).engine fe.1).plane fe.2).st = .fenced)
    {h : Nat} (hh : h = (e.handleFor f.ent.handle).getD f.ent.handle) :
    (∀ q, s.replicaFor e h = some q → s.fenceExpired k = s.redirect e h q) ∧
      (s.replicaFor e h = none → s.fenceExpired k =
        (s.haltEntry k f.ent 0x40 (h * 2 ^ 16 + fe.1 * 2 ^ 11 + fe.2 * 2 ^ 8)).countRequeue) := by
  have hgo : ¬ ((((s.core k).engine fe.1).plane fe.2).st ≠ .fenced ∨ (!(s.core k).live) = true) := by simp [hst, hlive]
  unfold State.fenceExpired
  dsimp only
  rw [hf, he]
  dsimp only
  rw [hfe, Option.getD_some, if_neg hgo, ← hh]
  exact ⟨fun q hq => by rw [hq], fun hnone => by rw [hnone]; rfl⟩

theorem frameOf_entry? (he : s.frameOf (s.core k) = some e) : s.entry? e.cseq = some e := by
  obtain ⟨n, -, hn⟩ := Option.bind_eq_some_iff.1 he
  rw [entry?_cseq hn]
  exact hn

/-- The frame `x` on the placements `places`, with its ranks taken afresh. -/
def Entry.placedOn (x : Entry) (places : List Nat) (cores : List (Nat × Nat × Nat)) : Entry :=
  { x with frame := { x.frame with places := places, cores := cores } }

theorem requeue_keeps (s : State) (n order : Nat) (f : Entry → Entry) : (s.requeue n order f).cores = (s.clearFrame n).cores ∧
    (s.requeue n order f).inst = s.inst := by
  refine ⟨?_, ?_⟩
  · rw [State.requeue, commitEntry_frame]
  · rw [State.requeue, commitEntry_frame, clearFrame_frame]

theorem moveProgram_fields {n : Nat} {x : Entry} (hx : s.entry? n = some x) :
    (∃ y, (s.moveProgram n).entry? n = some y ∧ y.st = x.st ∧ y.frame.places = x.frame.places) ∧
      (s.moveProgram n).cores = s.cores ∧ (s.moveProgram n).inst = s.inst :=
  ⟨⟨_, entry?_modEntry (entry?_modEntry (f := fun x => { x with frame := { x.frame with rs := [] } }) hx rfl) rfl, rfl, rfl⟩,
    rfl, rfl⟩

theorem redirect_runs (he : s.entry? e.cseq = some e) (h : Nat) (q : Placement) :
    ∃ e1, (s.redirect e h q).entry? e.cseq = some e1 ∧ e1.st = .ready ∧
      e1.frame.places = e.frame.places.map (fun x => if x = h then q.handle else x) ∧
      (s.redirect e h q).inst.redirects = s.inst.redirects + 1 ∧
      (∀ j, (s.core j).entry = some e.cseq →
        ((s.redirect e h q).core j).entry = none ∧ ((s.redirect e h q).core j).st = .idle) := by
  obtain ⟨hcores, hinst⟩ := requeue_keeps s e.cseq 0 (fun x => x.placedOn
    (e.frame.places.map (fun x => if x = h then q.handle else x))
    (frameCores (s.placesAt (e.frame.places.map (fun x => if x = h then q.handle else x)) (e.epoch.getD 0))))
  have hentry := entry?_requeue he 0 (f := fun x => x.placedOn
    (e.frame.places.map (fun x => if x = h then q.handle else x))
    (frameCores (s.placesAt (e.frame.places.map (fun x => if x = h then q.handle else x)) (e.epoch.getD 0)))) (fun _ => rfl)
  obtain ⟨⟨y, hy, hst, hplaces⟩, hmcores, hminst⟩ := moveProgram_fields hentry
  refine ⟨y, hy, hst, hplaces, congrArg (fun r : InstRegs => r.redirects + 1) (hminst.trans hinst), ?_⟩
  exact (freed_of_cores (t := s.redirect e h q) (hmcores.trans hcores)).1

end

/-- Settles O33: the diagnosis of a plane, the wait for a patch, the patch, and the wait at a fence. -/
theorem planesInDoubt : Obligations.PlanesInDoubt := by
  unfold Obligations.PlanesInDoubt
  refine ⟨?diagnosis, ?absorb, ?patch, ?superseded, ?fence⟩
  case diagnosis =>
    intro s k e p sweepOk lost hk he hp x s1 pl gold cells hdue hpass hsub hmay hbare
    have hexec := exec_planeDiagnosis (sweepOk := sweepOk) (lost := lost) hk he hp (x := x) rfl hdue hpass hsub hmay
    have hset := (planeAt_setRows s1 x x gold).trans (if_pos rfl)
    refine ⟨fun hwhole hcells hsweep => ?_, fun hwhole hcells hsoft hfit => ?_, ?hard, fun hwhole hnew => ?_⟩
    · obtain ⟨t, ht, h⟩ := diagnose_good (sweepOk := sweepOk) hbare hwhole hcells hsweep
      exact ⟨t, hexec.trans (congrArg _ ht), h⟩
    · obtain ⟨hplaced, hmaps, hplane, hother⟩ := noteCells_fields (s1.setRows x gold) x cells
      rw [hset] at hplane
      refine ⟨_, hexec.trans (congrArg _ (diagnose_absorbs hbare hwhole hcells hsoft hfit)), hplane, fun c hc h hcov hq => ?_,
        fun y hy => (hother y hy).trans ((planeAt_setRows s1 x y gold).trans (if_neg hy)), hmaps⟩
      exact noteCells_notes (s1.setRows x gold) x hc (by rw [hset]; exact hcov) hq
    · intro hard slots hwhole hhard hcovered hnone hroom
      obtain ⟨hrows, hsubst⟩ := diagnose_begins (sweepOk := sweepOk) hbare hwhole (x := x) hhard hcovered hnone hroom
      exact ⟨_, hexec, hrows, hsubst⟩
    · obtain ⟨hplane, hcount⟩ := diagnose_lost (sweepOk := sweepOk) hbare hwhole hnew
      exact ⟨_, hexec, hplane, hcount⟩
  case absorb =>
    intro s k e p hk he hp x pl slots
    have hexec := exec_absorbWait (s := s) hk he hp (x := x) rfl
    refine ⟨fun hst habsorb hpatch hnone hroom => ?_, fun hno => hexec.trans (congrArg _ (if_neg ?_))⟩
    · rw [if_pos ⟨hst, habsorb⟩, dropPatches_none hpatch] at hexec
      have htended := settled_tended s x
      have hsettled := (planeAt_settled s x x).trans (if_pos rfl)
      obtain ⟨hsubst, -, habs, hfenced⟩ := beginColumns_begins (s := s.settled x) (k := k) (e := e)
        (slots := (s.badCells x (s.goldenRows x)).map (·.2.1)) (htended.maps ▸ hnone)
        (by rw [spareCols_tended htended]; exact hroom) x
      rw [hsettled] at habs hfenced
      exact ⟨_, hexec, habs, hfenced hst, hsubst⟩
    · rintro ⟨hst, habsorb⟩
      exact hno.elim (fun h => h hst) (fun h => Bool.false_ne_true (h.symm.trans habsorb))
  case patch =>
    intro s h p hp hpatch hmay hwait hslices q s1
    have hname : p.handle = h := by
      have hfound := List.find?_some hp
      simp only [Bool.and_eq_true, beq_iff_eq] at hfound
      exact hfound.1
    subst hname
    have hall : p.patchKeys.find? (fun x => !((s.planeAt x).st == .fenced && (s.planeAt x).absorb)) = none := by
      rw [List.find?_eq_none]
      intro x hx
      simp [hwait x hx]
    obtain ⟨hplaced, hin, hout⟩ := applyPatch_applies (p := p) hslices rfl
    exact ⟨_, (exec_patchApply hp hpatch hmay).1 hall, hplaced, hin, hout⟩
  case superseded =>
    intro s h p hp hpatch hmay ⟨x, hx, hno⟩
    have hbad : (!((s.planeAt x).st == .fenced && (s.planeAt x).absorb)) = true := by
      rcases hno with h | h <;> simp [h]
    cases hfound : p.patchKeys.find? (fun x => !((s.planeAt x).st == .fenced && (s.planeAt x).absorb)) with
    | none => exact absurd hbad (List.find?_eq_none.1 hfound x hx)
    | some y =>
      have hname : p.handle = h := by
        have hfound := List.find?_some hp
        simp only [Bool.and_eq_true, beq_iff_eq] at hfound
        exact hfound.1
      have hmem : p ∈ s.placements.filter (fun p => !p.patch.isEmpty && p.patchKeys.contains y) :=
        List.mem_filter.2 ⟨List.mem_of_find?_eq_some hp, by simp [hpatch, List.mem_of_find?_eq_some hfound]⟩
      obtain ⟨hcores, hdone⟩ := dropPatches_drops _ s h (.inl ⟨p, hmem, hname⟩)
      exact ⟨_, (exec_patchApply hp hpatch hmay).2 y hfound, hcores, hdone⟩
  case fence =>
    intro s k f e fe hk hlive hf hfe he hst h
    have hexec : exec (.fenceWait k) s = .next (s.fenceExpired k) := answer_eq_next hk rfl
    obtain ⟨hredirect, hhalt⟩ := fenceExpired_decides hlive hf hfe he hst (h := h) rfl
    refine ⟨fun hnone => ?_, fun q hq => ?_⟩
    · obtain ⟨hcore, hother, hinst⟩ := haltEntry_halts hlive f.ent 0x40 (h * 2 ^ 16 + fe.1 * 2 ^ 11 + fe.2 * 2 ^ 8)
      refine ⟨_, hexec.trans (congrArg _ (hhalt hnone)), ?_, ?_, congrArg (fun r : InstRegs => r.requeues + 1) hinst, hother⟩
      · rw [countRequeue_core, hcore]
        rfl
      · rw [countRequeue_core, hcore]
        rfl
    · obtain ⟨e1, h1⟩ := redirect_runs (frameOf_entry? he) h q
      exact ⟨_, e1, hexec.trans (congrArg _ (hredirect q hq)), h1⟩

end Sys2Proof.Machine
end

/-! ## Repairs, faults, the hubs and the Yoke -/

section
namespace Sys2Proof.Machine
open Sys2Proof

/-! ### Frames that end leave the hardware as it is

`State.worked s t`: from `s` to `t` only frames, their cores and memories, the ledger and what tells of it may differ. -/

def State.worked (s t : State) : Prop := t = { s with
  pkg := t.pkg, hubs := t.hubs, cores := t.cores, deposits := t.deposits, used := t.used, entries := t.entries
  routines := t.routines, dsm := t.dsm, pair := t.pair, out := t.out }

section
variable {s t : State}

theorem State.worked.trans {a b c : State} (hab : a.worked b) (hbc : b.worked c) : a.worked c := by
  unfold State.worked at *
  rw [hbc, hab]

theorem State.worked.keeps (h : s.worked t) {β : Type} (g : State → β) (hg : ∀ pkg hubs cores deposits used entries routines dsm pair out,
    g { s with pkg := pkg, hubs := hubs, cores := cores, deposits := deposits, used := used, entries := entries
               routines := routines, dsm := dsm, pair := pair, out := out } = g s) : g t = g s := by
  rw [show t = _ from h]
  exact hg ..

theorem worked_of_ledgered (h : s.ledgered t) : s.worked t := by
  rw [State.worked, show t = _ from h]

theorem State.worked.maps (h : s.worked t) : t.maps = s.maps := h.keeps State.maps (fun _ _ _ _ _ _ _ _ _ _ => rfl)

theorem worked_foldl {α : Type} {f : State → α → State} (hf : ∀ (s : State) a, s.worked (f s a)) (l : List α) (s : State) :
    s.worked (l.foldl f s) := by
  induction l generalizing s with
  | nil => rfl
  | cons a l ih => exact (hf s a).trans (ih _)

theorem clearFrame_worked (s : State) (n : Nat) : s.worked (s.clearFrame n) := by
  rw [State.worked, clearFrame_frame]

theorem commitEntry_worked (s : State) (n : Nat) (f : Entry → Entry) : s.worked (s.commitEntry n f) := by
  rw [State.worked, commitEntry_frame]

theorem requeue_worked (s : State) (n order : Nat) (f : Entry → Entry) : s.worked (s.requeue n order f) :=
  (clearFrame_worked s n).trans (commitEntry_worked ..)

theorem dropRefs_worked (s : State) (e : Entry) : s.worked (s.dropRefs e) := by
  rw [State.worked, dropRefs_frame]

theorem takeRefs_worked (s : State) (e : Entry) : s.worked (s.takeRefs e) := by
  rw [State.worked, takeRefs_frame]

theorem countFold_worked (s : State) (f : FoldRegs → FoldRegs) : s.worked (s.countFold f) := rfl

theorem completeAs_worked (s : State) (n : Nat) (st : ResStatus) (wreason : Nat) (payload : List Byte) :
    s.worked (s.completeAs n st wreason payload) := by
  unfold State.completeAs
  split
  · rfl
  · next e _ =>
    dsimp only
    have hclear := clearFrame_worked s n
    split <;> split
    · exact (hclear.trans (commitEntry_worked ..)).trans (dropRefs_worked ..)
    · exact (hclear.trans (b := s.clearFrame n) (c := (s.clearFrame n).modEntry n _) rfl).trans (dropRefs_worked ..)
    · exact hclear.trans (commitEntry_worked ..)
    · exact hclear.trans (b := s.clearFrame n) (c := (s.clearFrame n).modEntry n _) rfl

theorem endHalted_worked (s : State) (e : Entry) (r : HaltRec) : s.worked (s.endHalted e r) := by
  unfold State.endHalted
  split
  · exact completeAs_worked ..
  · split
    · split
      · exact completeAs_worked ..
      · exact (requeue_worked ..).trans (countFold_worked ..)
    · exact (requeue_worked ..).trans (countFold_worked ..)

theorem hwEnd_worked (s : State) (n : Nat) : s.worked (s.hwEnd n) := by
  unfold State.hwEnd
  split
  · split
    · exact endHalted_worked ..
    · rfl
  · rfl

theorem hwEnds_worked (l : List Nat) (s : State) : s.worked (l.foldl (fun s n => s.hwEnd n) s) := worked_foldl hwEnd_worked l s

theorem hwEndOn_worked (s : State) (p : Nat → Bool) : s.worked (s.hwEndOn p) := hwEnds_worked ..

theorem endOnUnit_worked (s : State) (lv k e : Nat) : s.worked (s.endOnUnit lv k e) := by
  unfold State.endOnUnit
  split
  · exact hwEnds_worked ..
  · exact hwEndOn_worked ..
  · exact hwEndOn_worked ..

theorem rewriteResult_worked (s : State) (e : Entry) : s.worked (s.rewriteResult e) := by
  unfold State.rewriteResult
  split
  · rfl
  · exact commitEntry_worked ..

theorem remirror_worked (s : State) (p : Parcel) (mirror : Bool) : s.worked (s.remirror p mirror).1 := by
  rw [State.worked, remirror_frame]

theorem parcelError_worked (s : State) (e : Entry) (input mirror both : Bool) : s.worked (s.parcelError e input mirror both) := by
  unfold State.parcelError
  split
  · refine (remirror_worked s (if input then e.ipar else e.rpar) mirror).trans ?_
    exact State.worked.trans (b := State.modEntry _ e.cseq _) rfl (countFold_worked ..)
  split
  · split <;> rfl
  split
  · split
    · rfl
    · exact (completeAs_worked ..).trans (countFold_worked ..)
  split
  · rfl
  split
  · exact rewriteResult_worked ..
  · exact (takeRefs_worked ..).trans (requeue_worked ..)

theorem parcelGone_worked (s : State) (n st : Nat) (input : Bool) : s.worked (s.parcelGone n st input) := by
  unfold State.parcelGone
  split
  · rfl
  · next e _ =>
    dsimp only
    generalize (if input = true then e.ipar else e.rpar) = p
    split
    · rfl
    · exact parcelError_worked ..

theorem parcelsGone_worked (s : State) (st : Nat) (l : List Nat) :
    s.worked (l.foldl (fun s n => (s.parcelGone n st true).parcelGone n st false) s) :=
  worked_foldl (fun s n => (parcelGone_worked s n st true).trans (parcelGone_worked _ n st false)) l s

/-! ### What the loss of hardware leaves of the maps -/

theorem golden_maps (s : State) (st : Nat) : ((s.rehomeGold st).shrinkPool).maps = s.maps := by
  rw [golden_frame]

theorem stackOut_maps (s : State) (st : Nat) : (s.stackOut st).maps = s.maps := rfl

theorem loseStack_eq (hup : s.stackUp st = true) {t : State} (ht : t = (s.stackHits st).foldl (fun s n => s.hwEnd n) (s.stackOut st)) :
    s.loseStack st = (((t.entries.map (·.cseq)).foldl (fun s n => (s.parcelGone n st true).parcelGone n st false) t).rehomeGold
      st).shrinkPool := by
  rw [ht]
  unfold State.loseStack
  rw [if_neg (by simp [hup])]
  rfl

theorem loseStack_maps (s : State) (st : Nat) : (s.loseStack st).maps = s.maps := by
  by_cases hup : s.stackUp st = true
  · rw [loseStack_eq hup rfl, golden_maps, (parcelsGone_worked _ st _).maps, (hwEnds_worked _ _).maps, stackOut_maps]
  · rw [loseStack_down (by simpa using hup)]

/-- Hardware is lost: nothing of what was marked comes back, and no substitution begins. -/
structure Maps.Loses (m n : Maps) : Prop where
  bad : ∀ b ∈ m.bad, b ∈ n.bad
  subst : ∀ u ∈ n.subst, u ∈ m.subst

theorem Maps.Loses.trans {a b c : Maps} (hab : a.Loses b) (hbc : b.Loses c) : a.Loses c :=
  ⟨fun x hx => hbc.bad x (hab.bad x hx), fun x hx => hab.subst x (hbc.subst x hx)⟩

theorem loses_of_eq {m n : Maps} (h : n = m) : m.Loses n := h ▸ ⟨fun _ h => h, fun _ h => h⟩

theorem railOut_maps (s : State) (d : Nat) : (s.railOut d).maps = s.maps := rfl

theorem loseDie_loses (s : State) (d : Nat) : s.maps.Loses (s.loseDie d).maps := by
  by_cases hup : (s.die d).up = true
  · have hstacks := foldl_keeps State.maps (f := fun s n => s.loseStack n) loseStack_maps (tabulate 4 (fun i => 4 * d + i))
      ((s.dieOut d).hwEndOn (fun k => dieOf k == d))
    have hends : ((s.dieOut d).hwEndOn (fun k => dieOf k == d)).maps = (s.dieOut d).maps :=
      (hwEndOn_worked ..).maps
    have hall : (s.loseDie d).maps = (s.dieOut d).maps := by rw [loseDie_eq hup, railOut_maps, hstacks, hends]
    exact ⟨fun _ h => by rw [hall]; exact h, fun _ h => by rw [hall] at h; exact (List.mem_filter.1 h).1⟩
  · rw [loseDie_down (by simpa using hup)]
    exact loses_of_eq rfl

/-- The maps once cluster `pc` of core `k` is lost. -/
def State.clusterOut (s : State) (k : Nat) : State :=
  { s with maps := { s.maps with
    bad := (4, dieOf k, s.pcOf k, 0, 0) :: s.maps.bad
    subst := s.maps.subst.filter (fun u => u.k / 16 != k / 16)
    cluster := Tbl.set s.maps.cluster (8 * dieOf k + clusterOf k) none } }.countLostUnit

theorem loseCluster_loses (s : State) (k : Nat) : s.maps.Loses (s.loseCluster k).maps := by
  have hout : s.maps.Loses (s.clusterOut k).maps := ⟨fun _ h => List.mem_cons_of_mem _ h, fun _ h => (List.mem_filter.1 h).1⟩
  have hends : ((s.clusterOut k).hwEndOn (fun j => dieOf j == dieOf k && clusterOf j == clusterOf k)).maps = (s.clusterOut k).maps :=
    (hwEndOn_worked ..).maps
  unfold State.loseCluster
  dsimp only
  split
  · exact hout.trans (loses_of_eq hends)
  · exact (hout.trans (loses_of_eq hends)).trans (loseDie_loses ..)

/-- A substitution that begins is of the level asked for or of one above, or the hardware is lost. -/
theorem beginSubst_begins (n : Nat) (s : State) (lv k e : Nat) : (∀ b ∈ s.maps.bad, b ∈ (s.beginSubst n lv k e).maps.bad) ∧
    ∀ u ∈ (s.beginSubst n lv k e).maps.subst, u ∈ s.maps.subst ∨ lv ≤ u.level := by
  induction n generalizing s lv e with
  | zero => exact ⟨fun _ h => h, fun _ h => .inl h⟩
  | succ n ih =>
    unfold State.beginSubst
    dsimp only
    split
    · exact ⟨fun _ h => h, fun _ h => .inl h⟩
    split
    · rw [(endOnUnit_worked ..).maps]
      refine ⟨fun _ h => h, fun u hu => ?_⟩
      rcases List.mem_append.1 hu with hu | hu
      · exact .inl hu
      · exact .inr (Nat.le_of_eq (congrArg FaultUnit.level (List.mem_singleton.1 hu)).symm)
    split
    · have h := loseCluster_loses s.countNospare k
      exact ⟨h.bad, fun u hu => .inl (h.subst u hu)⟩
    · obtain ⟨hbad, hsubst⟩ := ih s.countNospare (lv + 1) (if lv = 2 then 0 else e)
      exact ⟨hbad, fun u hu => (hsubst u hu).imp id fun h => by omega⟩

end

/-! ### Substitutions: what writing an engine anew leaves (R72, R413, R414) -/

/-- From `s` to `t` planes of engines of core `k` may differ, and counters, but not which columns and spares serve. -/
structure State.Rewrites (k : Nat) (s t : State) : Prop where
  maps : t.maps = s.maps
  flt : t.flt = s.flt
  others : ∀ j, j ≠ k → t.core j = s.core j
  diag : (t.core k).diag = (s.core k).diag
  mem : (t.core k).mem = (s.core k).mem
  colSubst : (t.core k).arr.colSubst = (s.core k).arr.colSubst
  moved : ∀ e, ((t.core k).engine e).moved = ((s.core k).engine e).moved
  substs : ∀ e, ((t.core k).engine e).substs = ((s.core k).engine e).substs

section
variable {s t : State} {k : Nat}

theorem State.Rewrites.refl (k : Nat) (s : State) : s.Rewrites k s :=
  ⟨rfl, rfl, fun _ _ => rfl, rfl, rfl, rfl, fun _ => rfl, fun _ => rfl⟩

theorem State.Rewrites.trans {a b c : State} (hab : a.Rewrites k b) (hbc : b.Rewrites k c) : a.Rewrites k c :=
  ⟨hbc.maps.trans hab.maps, hbc.flt.trans hab.flt, fun j hj => (hbc.others j hj).trans (hab.others j hj),
    hbc.diag.trans hab.diag, hbc.mem.trans hab.mem, hbc.colSubst.trans hab.colSubst,
    fun e => (hbc.moved e).trans (hab.moved e), fun e => (hbc.substs e).trans (hab.substs e)⟩

theorem rewrites_foldl {α : Type} {f : State → α → State} (hf : ∀ (s : State) a, s.Rewrites k (f s a)) (l : List α) (s : State) :
    s.Rewrites k (l.foldl f s) := by
  induction l generalizing s with
  | nil => exact .refl k s
  | cons a l ih => exact (hf s a).trans (ih _)

theorem modPlane_rewrites (s : State) (k e p : Nat) (f : Plane → Plane) : s.Rewrites k (s.modPlane k e p f) := by
  have hown : (s.modPlane k e p f).core k = { s.core k with engines := ((s.modPlane k e p f).core k).engines } := by
    unfold State.modPlane
    rw [State_core_setCore_same]
    rfl
  have htended := modPlane_tended s k e p f
  exact ⟨rfl, rfl, fun j hj => State_core_setCore_ne _ _ hj, by rw [hown], by rw [hown], by rw [modPlane_arr],
    htended.moved k, htended.substs k⟩

theorem modArr_rewrites (s : State) (k : Nat) {f : ArrayRegs → ArrayRegs} (hf : ∀ r, (f r).colSubst = r.colSubst) :
    s.Rewrites k (s.modArr k f) := by
  have hown : (s.modArr k f).core k = { s.core k with arr := f (s.core k).arr } := by
    unfold State.modArr
    rw [State_core_modCore_same]
  have htended := modArr_tended s k f
  exact ⟨rfl, rfl, fun j hj => State_core_modCore_ne _ _ hj, by rw [hown], by rw [hown], by rw [hown]; exact hf _,
    htended.moved k, htended.substs k⟩

theorem goldGone_rewrites (s : State) (x : Nat × Nat × Nat) : s.Rewrites x.1 (s.goldGone x) := by
  cases hlost : (s.planeAt x).lost with
  | true =>
    rw [State.goldGone, if_pos hlost]
    exact .refl _ s
  | false =>
    rw [goldGone_new hlost]
    have h := modPlane_rewrites s x.1 x.2.1 x.2.2 (fun p => { p with st := .fenced, lost := true })
    exact ⟨h.maps, h.flt, h.others, h.diag, h.mem, h.colSubst, h.moved, h.substs⟩

theorem refill_rewrites (s : State) (x : Nat × Nat × Nat) : s.Rewrites x.1 (s.refill x) := by
  unfold State.refill
  split <;> exact modPlane_rewrites ..

theorem rewritePlane_rewrites (s : State) (x : Nat × Nat × Nat) : s.Rewrites x.1 (s.rewritePlane x) := by
  have hrows : s.Rewrites x.1 (s.setRows x (s.goldenRows x)) := modPlane_rewrites ..
  unfold State.rewritePlane
  dsimp only
  split
  · exact refill_rewrites s x
  split
  · exact goldGone_rewrites s x
  split
  · exact hrows.trans ((modPlane_rewrites ..).trans (modArr_rewrites _ _ fun _ => rfl))
  · exact hrows.trans (modPlane_rewrites ..)

theorem rewriteEngine_rewrites (s : State) (k e : Nat) : s.Rewrites k (s.rewriteEngine k e) := by
  unfold State.rewriteEngine
  refine rewrites_foldl (fun s p => ?_) _ s
  dsimp only
  split
  · exact .refl k s
  split
  · exact modPlane_rewrites ..
  split
  · exact rewritePlane_rewrites s (k, e, p)
  split
  · exact modPlane_rewrites ..
  · exact goldGone_rewrites s (k, e, p)

/-! ### COLUMN_SUBSTITUTION and DYNAMIC_PLANE_TEST (R72, R73) -/

/-- `s` with the column of a slot substituted, before the planes are written anew. -/
def State.columnMoved (s : State) (k e slot us : Nat) : State :=
  ((((s.setCore k ((s.core k).setEngine e (((s.core k).engine e).substColumn slot))).endSubst ⟨1, k, e, slot⟩).modArr k
    (fun r => { r with colSubst := inc r.colSubst })).countSubst 1 us).addDue (dieOf k)
      (repairRecord 1 (s.pcOf k) (s.physCore k) (s.physEngine k e) (((s.core k).engine e).physCol slot) 0 0)

theorem addDue_frame (s : State) (d r : Nat) : s.addDue d r = { s with repair := (s.addDue d r).repair } := by
  unfold State.addDue
  split <;> rfl

theorem addDue_core (s : State) (d r j : Nat) : (s.addDue d r).core j = s.core j := by
  rw [addDue_frame]
  rfl

theorem addDue_maps (s : State) (d r : Nat) : (s.addDue d r).maps = s.maps := by
  rw [addDue_frame]

theorem addDue_flt (s : State) (d r : Nat) : (s.addDue d r).flt = s.flt := by
  rw [addDue_frame]

theorem countSubst_core (s : State) (lv us j : Nat) : (s.countSubst lv us).core j = s.core j := rfl

theorem endSubst_core (s : State) (u : FaultUnit) (j : Nat) : (s.endSubst u).core j = s.core j := rfl

theorem columnMoved_fields (s : State) (k e slot us : Nat) :
    (s.columnMoved k e slot us).maps.subst = s.maps.subst.filter (fun u => u != (⟨1, k, e, slot⟩ : FaultUnit)) ∧
      (s.columnMoved k e slot us).flt.subst = s.flt.subst + 1 ∧
      (∀ j, j ≠ k → (s.columnMoved k e slot us).core j = s.core j) ∧
      (s.columnMoved k e slot us).core k = { (s.core k).setEngine e (((s.core k).engine e).substColumn slot) with
        arr := { (s.core k).arr with colSubst := (s.core k).arr.colSubst + 1 } } := by
  unfold State.columnMoved
  simp only [addDue_core, addDue_maps, addDue_flt, countSubst_core, State.modArr]
  refine ⟨rfl, rfl, fun j hj => ?_, ?_⟩
  · rw [State_core_modCore_ne _ _ hj, endSubst_core, State_core_setCore_ne _ _ hj]
  · rw [State_core_modCore_same, endSubst_core, State_core_setCore_same]
    rfl

theorem columnSubst_substitutes (us : Nat) (lost : List GoldLoss) {e slot : Nat} (hin : (⟨1, k, e, slot⟩ : FaultUnit) ∈ s.maps.subst)
    (hpass : (s.core k).passOn e = false) (hmay : s.mayProgram k e = true) (hslices : s.grazer.slices = []) :
    (s.loseGold lost).columnMoved k e slot us |>.Rewrites k (s.columnSubst k e slot us lost) := by
  unfold State.columnSubst
  rw [yieldSlices_none hslices]
  dsimp only
  rw [if_neg (by simp [hin, hpass, hmay])]
  split
  · exact .refl k _
  · exact rewriteEngine_rewrites ..

theorem dynTest_good {e h : Nat} (hst : (((s.core k).engine e).plane 7).st = .fenced)
    (hdoubt : (((s.core k).engine e).plane 7).doubt = true) (hdyn : (((s.core k).engine e).plane 7).dyn = some h)
    (hpass : (s.core k).passOn e = false) (hsure : ∀ p, p < 7 → s.inDoubt (k, e, p) = false) (hsub : s.substBlocks k [e] = false)
    (hmay : s.mayProgram k e = true) (hslices : s.grazer.slices = []) (hgood : ∀ c ∈ ((s.core k).engine e).stuck, c.plane ≠ 7) :
    s.dynTest k e = (s.modPlane k e 7 (fun q => { q with
      rows := [], written := 0, tag := 0, st := .live, doubt := false })).countTransientPlane k := by
  have hnone : ((s.core k).engine e).stuck.filter (fun c => c.plane == 7) = [] :=
    List.filter_eq_nil_iff.2 fun c hc => by simpa using hgood c hc
  have hsures : (List.range 7).any (fun p => s.inDoubt (k, e, p)) = false :=
    List.any_eq_false.2 fun p hp => by simp [hsure p (List.mem_range.1 hp)]
  unfold State.dynTest
  dsimp only
  rw [yieldSlices_none hslices, if_neg (by simp [hst, hdoubt, hdyn, hsures, hpass, hsub, hmay]), hnone]
  rfl

end

/-! ### SUBSTITUTION_DONE: a spare takes the logical number (R17, R20, R414) -/

section
variable {s : State} {k : Nat}

/-- The core on new hardware, before its planes are written. -/
def State.renewedCore (s : State) (k : Nat) : State :=
  s.modCore k (fun c => { c with
    engines := c.engines.map (fun p => (p.1, s.renewed k p.1 p.2))
    wins := List.replicate 8 none
    mem := CoreMem.fresh
    diag := false, mended := false })

theorem renewCore_rewrites (s : State) (k : Nat) : (s.renewedCore k).Rewrites k (s.renewCore k) :=
  rewrites_foldl (fun s (p : Nat × Engine) => rewriteEngine_rewrites s k p.1) _ _

theorem renewCore_maps (s : State) (k : Nat) : (s.renewCore k).maps = s.maps := (renewCore_rewrites s k).maps

theorem renewCore_flt (s : State) (k : Nat) : (s.renewCore k).flt = s.flt := (renewCore_rewrites s k).flt

theorem renewCore_core (s : State) (k : Nat) : ((s.renewCore k).core k).diag = false ∧ ((s.renewCore k).core k).mem = CoreMem.fresh := by
  have hown : (s.renewedCore k).core k = _ := State_core_modCore_same s k _
  have h := renewCore_rewrites s k
  rw [h.diag, h.mem, hown]
  exact ⟨rfl, rfl⟩

/-- The maps of the cores `ks` on physical cluster `n`: each core and its engines take what is good there. -/
abbrev State.coreMapped (n : Nat) (good : List Nat) (s : State) (j : Nat) : State :=
  { s with maps := { s.maps with
    core := Tbl.set s.maps.core j (at' good (j % 16) (j % 16))
    engine := s.engineMap j n (at' good (j % 16) (j % 16)) } }

theorem coreMapped_frame (n : Nat) (good l : List Nat) (s : State) : (l.foldl (State.coreMapped n good) s).flt = s.flt ∧
    (l.foldl (State.coreMapped n good) s).maps.bad = s.maps.bad ∧ (l.foldl (State.coreMapped n good) s).maps.cluster = s.maps.cluster :=
  ⟨foldl_keeps State.flt (f := State.coreMapped n good) (fun _ _ => rfl) l s,
    foldl_keeps (fun s => s.maps.bad) (f := State.coreMapped n good) (fun _ _ => rfl) l s,
    foldl_keeps (fun s => s.maps.cluster) (f := State.coreMapped n good) (fun _ _ => rfl) l s⟩

/-- The package with cluster `n` in the place of that of core `k`. -/
abbrev State.clusterMoved (s : State) (k n : Nat) : State :=
  { s with maps := { s.maps with
    bad := (4, dieOf k, s.pcOf k, 0, 0) :: s.maps.bad
    cluster := Tbl.set s.maps.cluster (8 * dieOf k + clusterOf k) (some n) } }

/-- The cores of the cluster on the spare: mapped, and as on new hardware. -/
def State.coresMoved (s : State) (k n : Nat) : State :=
  (clusterCores (dieOf k) (clusterOf k)).foldl (fun s j => s.renewCore j)
    ((clusterCores (dieOf k) (clusterOf k)).foldl
      (State.coreMapped n ((List.range 17).filter (fun c => !((s.clusterMoved k n).isBad 3 (dieOf k) n c 0)))) (s.clusterMoved k n))

theorem coresMoved_fields (s : State) (k n : Nat) : (s.coresMoved k n).flt = s.flt ∧
    (s.coresMoved k n).maps.bad = (4, dieOf k, s.pcOf k, 0, 0) :: s.maps.bad ∧
    (s.coresMoved k n).maps.cluster = Tbl.set s.maps.cluster (8 * dieOf k + clusterOf k) (some n) := by
  obtain ⟨hflt, hbad, hcluster⟩ := coreMapped_frame n
    ((List.range 17).filter (fun c => !((s.clusterMoved k n).isBad 3 (dieOf k) n c 0))) (clusterCores (dieOf k) (clusterOf k))
    (s.clusterMoved k n)
  have hmaps : (s.coresMoved k n).maps = _ := foldl_keeps State.maps (f := fun s j => s.renewCore j) renewCore_maps _ _
  have hflts : (s.coresMoved k n).flt = _ := foldl_keeps State.flt (f := fun s j => s.renewCore j) renewCore_flt _ _
  rw [hmaps, hflts]
  exact ⟨hflt, hbad, hcluster⟩

/-- A substitution that ends with the spare in service counts the fault, and none of the unit goes on. -/
theorem substDone_takes {u : FaultUnit} (hin : u ∈ s.maps.subst) (hlevel : u.level ≠ 1) (hspare : s.hasSpare u = true) (us : Nat)
    (lost : List GoldLoss) {t : State} (ht : t = (s.loseGold lost).takeSpare u) :
    s.substDone u us true lost = (t.endWithin u).countSubst u.level us := by
  unfold State.substDone
  rw [if_neg (by simp [hin, hlevel]), if_neg (by simp [hspare]), if_pos rfl, ht]

theorem endWithin_counts (t : State) (u : FaultUnit) (lv us : Nat) : ((t.endWithin u).countSubst lv us).flt.subst = t.flt.subst + 1 ∧
    ((t.endWithin u).countSubst 2 us).flt.sEngine = t.flt.sEngine + 1 ∧
    ((t.endWithin u).countSubst 3 us).flt.sCore = t.flt.sCore + 1 ∧
    ((t.endWithin u).countSubst 4 us).flt.sCluster = t.flt.sCluster + 1 := ⟨rfl, rfl, rfl, rfl⟩

theorem endWithin_subst (t : State) (u : FaultUnit) : u ∉ (t.endWithin u).maps.subst := by
  intro h
  have h2 := (List.mem_filter.1 h).2
  simp at h2

theorem endSubst_subst (t : State) (u : FaultUnit) : u ∉ (t.endSubst u).maps.subst := by
  intro h
  have h2 := (List.mem_filter.1 h).2
  simp at h2

/-- The maps with spare engine `n` in the place of engine `e`. -/
def State.engineMoved (s : State) (k e n : Nat) : State :=
  { s with maps := { s.maps with
    bad := (2, dieOf k, s.pcOf k, s.physCore k, s.physEngine k e) :: s.maps.bad
    engine := Tbl.set s.maps.engine (32 * k + e) n } }

theorem takeSpare_engine {n : Nat} (e slot : Nat) (h : s.spareEngine k = some n) :
    (s.takeSpare ⟨2, k, e, slot⟩).flt = s.flt ∧ (s.takeSpare ⟨2, k, e, slot⟩).maps = (s.engineMoved k e n).maps := by
  have hspare : s.takeSpare ⟨2, k, e, slot⟩ = (match s.spareEngine k with
    | some n => ((s.engineMoved k e n).modCore k (fun c => c.setEngine e ((s.engineMoved k e n).renewed k e (c.engine e)))).rewriteEngine k e
    | none => s) := rfl
  rw [hspare, h]
  dsimp only
  rw [(rewriteEngine_rewrites ..).flt, (rewriteEngine_rewrites ..).maps]
  exact ⟨rfl, rfl⟩

/-- The maps with spare core `n` in the place of core `k`. -/
def State.coreMoved (s : State) (k n : Nat) : State :=
  { s with maps := { s.maps with
    bad := (3, dieOf k, s.pcOf k, s.physCore k, 0) :: s.maps.bad
    core := Tbl.set s.maps.core k n
    engine := s.engineMap k (s.pcOf k) n } }

theorem takeSpare_core {n : Nat} (e slot : Nat) (h : s.spareCore k = some n) : s.takeSpare ⟨3, k, e, slot⟩ = (s.coreMoved k n).renewCore k := by
  have hspare : s.takeSpare ⟨3, k, e, slot⟩ = (match s.spareCore k with
    | some n => (s.coreMoved k n).renewCore k
    | none => s) := rfl
  rw [hspare, h]

theorem takeSpare_cluster {n : Nat} (e slot : Nat) (h : s.spareCluster k = some n) :
    (s.takeSpare ⟨4, k, e, slot⟩).flt = (s.coresMoved k n).flt ∧ (s.takeSpare ⟨4, k, e, slot⟩).maps = (s.coresMoved k n).maps := by
  unfold State.takeSpare
  dsimp only
  split
  · next heq => cases heq
  · next heq => cases heq
  · rw [h]
    dsimp only
    rw [show (clusterCores (dieOf k) (clusterOf k)).foldl (fun s j => s.renewCore j) _ = s.coresMoved k n from rfl]
    generalize s.coresMoved k n = v
    split <;> exact ⟨rfl, rfl⟩

/-- A spare engine that fails its verify is out of service, and the level above follows (R414). -/
theorem substDone_drops {n e slot : Nat} (hin : (⟨2, k, e, slot⟩ : FaultUnit) ∈ s.maps.subst) (h : s.spareEngine k = some n) (us : Nat)
    (lost : List GoldLoss) : (⟨2, k, e, slot⟩ : FaultUnit) ∉ (s.substDone ⟨2, k, e, slot⟩ us false lost).maps.subst ∧
      (2, dieOf k, s.pcOf k, s.physCore k, n) ∈ (s.substDone ⟨2, k, e, slot⟩ us false lost).maps.bad := by
  have hdrop : (s.dropSpare ⟨2, k, e, slot⟩).maps.bad = (2, dieOf k, s.pcOf k, s.physCore k, n) :: s.maps.bad := by
    unfold State.dropSpare
    dsimp only
    rw [h]
    rfl
  unfold State.substDone
  rw [if_neg (by simp [hin]), if_neg (by simp [State.hasSpare, h])]
  dsimp only
  rw [if_neg Bool.false_ne_true, if_neg (by decide)]
  obtain ⟨hbad, hsubst⟩ := beginSubst_begins 3 ((s.dropSpare ⟨2, k, e, slot⟩).endSubst ⟨2, k, e, slot⟩) (2 + 1) k (if 2 = 2 then 0 else e)
  refine ⟨fun hu => ?_, hbad _ (by rw [State.endSubst, hdrop]; exact List.mem_cons_self)⟩
  rcases hsubst _ hu with h | h
  · exact endSubst_subst _ _ h
  · exact absurd (show 3 ≤ 2 from h) (by decide)

theorem beginSubst_core (hspare : s.spareLeft 3 k = true) (hnone : ∀ u ∈ s.maps.subst, coversUnit u 3 k 0 = false) :
    s.beginSubst 3 3 k 0 = (s.substOf (s.maps.subst ++ [(⟨3, k, 0, 0⟩ : FaultUnit)])).hwEndOn (fun j => j == k) := by
  rw [State.beginSubst, if_neg (by simpa using hnone), if_pos hspare]
  rfl

end

/-- Settles O34: columns, engines, cores and clusters are substituted, and diagnoses of cores end. -/
theorem substitutions : Obligations.Substitutions := by
  unfold Obligations.Substitutions
  refine ⟨⟨?column, ?dynamic⟩, ?spares, ?nothing, ?diagnosis⟩
  case column =>
    intro s k e slot us lost hk he hslot hin hpass hmay hslices g
    obtain ⟨hsubst, hflt, hothers, hown⟩ := columnMoved_fields (s.loseGold lost) k e slot us
    have h := columnSubst_substitutes us lost hin hpass hmay hslices
    refine ⟨_, answer_eq_next (t := s.columnSubst k e slot us lost) (by simp [hk, he, hslot]) rfl, (h.moved e).trans ?_, (h.substs e).trans ?_,
      (congrArg Maps.subst h.maps).trans hsubst, h.colSubst.trans (by rw [hown]; rfl),
      (congrArg FaultRegs.subst h.flt).trans hflt, fun j hj => (h.others j hj).trans (hothers j hj)⟩
    · rw [hown]
      exact congrArg Engine.moved ((Core_engine_setEngine ..).trans (if_pos rfl))
    · rw [hown]
      exact congrArg Engine.substs ((Core_engine_setEngine ..).trans (if_pos rfl))
  case dynamic =>
    intro s k e h hk he g hst hdoubt hdyn hpass hsure hsub hmay hslices hgood
    have hplane (x : Nat × Nat × Nat) := planeAt_modPlane s k e 7 (fun q => { q with
      rows := [], written := 0, tag := 0, st := .live, doubt := false }) x
    refine ⟨_, answer_eq_next (by simp [hk, he]) (dynTest_good hst hdoubt hdyn hpass hsure hsub hmay hslices hgood),
      (planeAt_modArr ..).trans ((hplane _).trans (if_pos rfl)), fun x hx => (planeAt_modArr ..).trans ((hplane x).trans (if_neg hx)), ?_⟩
    rw [State.countTransientPlane, modArr_arr, modPlane_arr]
    rfl
  case spares =>
    intro s u us n lost hk he hin was
    obtain ⟨lv, k, e, slot⟩ := u
    have hexec (ok : Bool) : exec (.substitutionDone ⟨lv, k, e, slot⟩ ⟨us, lost⟩ ok) s =
        .next (s.substDone ⟨lv, k, e, slot⟩ us ok lost) := answer_eq_next (by simp [hk, he]) rfl
    refine ⟨fun hlevel hspare => ⟨?engine, ?dropped⟩, fun hlevel hspare => ?core, fun hlevel hspare => ?cluster⟩
    all_goals obtain rfl : lv = _ := hlevel
    case engine =>
      obtain ⟨hflt, hmaps⟩ := takeSpare_engine (s := s.loseGold lost) e slot hspare
      have hdone := substDone_takes hin (by simp) (by simp [State.hasSpare, hspare]) us lost rfl
      refine ⟨_, (hexec true).trans (congrArg _ hdone), ?_, endWithin_subst _ _, ?_, ?_, ?_⟩
      · show (Tbl.get ((s.loseGold lost).takeSpare ⟨2, k, e, slot⟩).maps.engine (32 * k + e)).getD e = n
        rw [hmaps]
        exact congrArg (·.getD e) (Tbl_get_set_same ..)
      · show _ ∈ ((s.loseGold lost).takeSpare ⟨2, k, e, slot⟩).maps.bad
        rw [hmaps]
        exact List.mem_cons_self
      · rw [(endWithin_counts _ _ 2 us).2.1, hflt]
        rfl
      · rw [(endWithin_counts ..).1, hflt]
        rfl
    case dropped => exact ⟨_, hexec false, substDone_drops hin hspare us lost⟩
    case core =>
      have htake := takeSpare_core (s := s.loseGold lost) e slot hspare
      have hdone := substDone_takes hin (by simp) (by simp [State.hasSpare, hspare]) us lost htake.symm
      have hmaps := renewCore_maps ((s.loseGold lost).coreMoved k n) k
      have hflt := renewCore_flt ((s.loseGold lost).coreMoved k n) k
      refine ⟨_, (hexec true).trans (congrArg _ hdone), ?_, endWithin_subst _ _, ?_, ?_, ?_, renewCore_core ..⟩
      · show (Tbl.get (((s.loseGold lost).coreMoved k n).renewCore k).maps.core k).getD (k % 16) = n
        rw [hmaps]
        exact congrArg (·.getD (k % 16)) (Tbl_get_set_same ..)
      · show _ ∈ (((s.loseGold lost).coreMoved k n).renewCore k).maps.bad
        rw [hmaps]
        exact List.mem_cons_self
      · rw [(endWithin_counts _ _ 3 us).2.2.1, hflt]
        rfl
      · rw [(endWithin_counts ..).1, hflt]
        rfl
    case cluster =>
      obtain ⟨hflt, hmaps⟩ := takeSpare_cluster (s := s.loseGold lost) e slot hspare
      obtain ⟨hflts, hbad, hcluster⟩ := coresMoved_fields (s.loseGold lost) k n
      have hdone := substDone_takes hin (by simp) (by simp [State.hasSpare, hspare]) us lost rfl
      refine ⟨_, (hexec true).trans (congrArg _ hdone), ?_, endWithin_subst _ _, ?_, ?_, ?_⟩
      · show (Tbl.get ((s.loseGold lost).takeSpare ⟨4, k, e, slot⟩).maps.cluster (8 * dieOf k + clusterOf k)).getD (some (clusterOf k)) = _
        rw [hmaps, hcluster, Tbl_get_set_same]
        rfl
      · show _ ∈ ((s.loseGold lost).takeSpare ⟨4, k, e, slot⟩).maps.bad
        rw [hmaps, hbad]
        exact List.mem_cons_self
      · rw [(endWithin_counts _ _ 4 us).2.2.2, hflt, hflts]
        rfl
      · rw [(endWithin_counts ..).1, hflt, hflts]
        rfl
  case nothing =>
    intro s u us ok lost hk he hout
    refine answer_eq_next (by simp [hk, he]) ?_
    unfold State.substDone
    rw [if_pos (by simp [hout])]
  case diagnosis =>
    intro s k hk hdiag hcluster back
    have hclear : s.clearDoubt k = s := by rw [State.clearDoubt, if_neg (by simp [hcluster])]
    have hexec (faulty : Bool) : exec (.coreDiagnosisDone k faulty) s = .next (s.diagnosed k faulty) := answer_eq_next hk rfl
    simp only [State.diagnosed, hclear, hcluster, hdiag, Bool.not_true, Bool.false_and, Bool.false_eq_true, if_false] at hexec
    refine ⟨fun hmended => ?_, fun hmended => ?_, fun hspare hnone => ?_⟩
    · rw [hexec, if_neg Bool.false_ne_true, if_neg (by simp [hmended])]
      rfl
    · rw [hexec, if_neg Bool.false_ne_true, if_pos hmended]
      rfl
    · rw [hexec, if_pos rfl, beginSubst_core (s := s.toRetest 3 (s.coreTarget k)) hspare hnone]
      rfl

/-! ### Die shared memory (06 R185 to R195) -/

theorem regionOf_compute {die bank : Nat} (hd : die < 4) : regionOf die bank =
    if bank < 44 then .rs else if bank < 54 then .tb else if bank < 58 then .pm else if bank < 62 then .ps else .rd := by
  rw [regionOf, if_pos hd]

theorem regionOf_hub {die bank : Nat} (hd : 4 ≤ die) : regionOf die bank =
    if bank < 16 then .lg else if bank < 39 then .fs else if bank < 47 then .rm else .sc := by
  rw [regionOf, if_neg (by omega)]

section
variable {s : State} {die bank line : Nat} {m : Bool} {c : Option Nat}

theorem badWord_rs (hd : die < 4) (hb : bank < 44) :
    s.badWord die bank line m c = (s.badRs die bank line).haltReader c (dsmDetail die bank line) := by
  rw [State.badWord, regionOf_compute hd, if_pos hb]

/-- A bad word of a table, of a placement's map or of its spans halts the core that reads it, and nothing else (R194). -/
theorem badWord_shared (hd : die < 4) (hlow : 44 ≤ bank) (hhigh : bank < 62) :
    s.badWord die bank line m c = s.haltReader c (dsmDetail die bank line) := by
  rw [State.badWord, regionOf_compute hd, if_neg (by omega)]
  by_cases h54 : bank < 54
  · rw [if_pos h54]
  rw [if_neg h54]
  by_cases h58 : bank < 58
  · rw [if_pos h58]
  · rw [if_neg h58, if_pos hhigh]

theorem badWord_rd (hd : die < 4) (hb : 62 ≤ bank) : s.badWord die bank line m c = s.badRd die m := by
  rw [State.badWord, regionOf_compute hd, if_neg (by omega), if_neg (by omega), if_neg (by omega), if_neg (by omega)]

theorem badWord_lg (hd : 4 ≤ die) (hb : bank < 16) : s.badWord die bank line m c =
    if m then { s with ledgerLost := s.ledgerLost + 1 }.enterQuiet 3 else s := by
  rw [State.badWord, regionOf_hub hd, if_pos hb]

theorem badWord_fs (hd : 4 ≤ die) (hlow : 16 ≤ bank) (hhigh : bank < 39) : s.badWord die bank line m c = s := by
  rw [State.badWord, regionOf_hub hd, if_neg (by omega), if_pos hhigh]

theorem badWord_rm (hd : 4 ≤ die) (hlow : 39 ≤ bank) (hhigh : bank < 47) :
    s.badWord die bank line m c = s.badRm (die - 4) bank m := by
  rw [State.badWord, regionOf_hub hd, if_neg (by omega), if_neg (by omega), if_pos hhigh]

theorem badWord_sc (hd : 4 ≤ die) (hb : 47 ≤ bank) : s.badWord die bank line m c = if m then s.enterQuiet 4 else s := by
  rw [State.badWord, regionOf_hub hd, if_neg (by omega), if_neg (by omega), if_neg (by omega)]

end

theorem doubtMaster_core {s : State} (die : Nat) {k : Nat} (hidle : (s.core k).entry = none) :
    s.doubtMaster die 2 (some k) = s.setCore k { s.core k with diag := true } := by
  have hmatch : s.doubtMaster die 2 (some k) = (match (s.core k).entry with
    | some q => s.hwEnd q
    | none => s).modCore k (fun c => { c with diag := true }) := rfl
  rw [hmatch, hidle]
  rfl

theorem coresOk_of_all {c : Option Nat} (h : ∀ j, c = some j → coreOk j = true) : c.all coreOk = true := by
  cases c with
  | none => rfl
  | some j => exact h j rfl

theorem lineNo_eq (bank line : Nat) : lineNo bank line = bank * 16384 + line := by
  unfold lineNo dsmAddr
  omega

/-- Settles O35: errors, refused accesses and waits of die shared memory. -/
theorem dieSharedMemory : Obligations.DieSharedMemory := by
  unfold Obligations.DieSharedMemory
  intro s die bank line k hdie hbank hline hk one two halted
  have hecc (dbl m : Bool) (c : Option Nat) (hc : ∀ j, c = some j → coreOk j = true) :
      exec (.dsmEccError die bank line dbl m c) s = .next (s.dsmEcc die bank line dbl m c) :=
    answer_eq_next (by simp [hdie, hbank, hline, coresOk_of_all hc]) rfl
  refine ⟨fun dbl m c hc hoff => (hecc dbl m c hc).trans (by rw [State.dsmEcc, if_pos hoff]), fun hon => ?errors, ?denied, ?waits, ?wake⟩
  case errors =>
    have hone (m : Bool) (c : Option Nat) : s.dsmEcc die bank line false m c = one := by
      rw [State.dsmEcc, if_neg hon, if_neg Bool.false_ne_true]
      rfl
    have htwo (m : Bool) (c : Option Nat) : s.dsmEcc die bank line true m c = two.badWord die bank line m c := by
      rw [State.dsmEcc, if_neg hon, if_pos rfl]
      rfl
    have hnone (m : Bool) : exec (.dsmEccError die bank line true m none) s = .next (two.badWord die bank line m none) := by
      rw [hecc true m none (fun _ h => nomatch h), htwo]
    have hsome (m : Bool) : exec (.dsmEccError die bank line true m (some k)) s = .next (two.badWord die bank line m (some k)) := by
      rw [hecc true m (some k) (fun j h => Option.some.inj h ▸ hk), htwo]
    refine ⟨fun m c hc => by rw [hecc false m c hc, hone], fun hd hlow hhigh m => ?_, ?code, fun hd hb hup => ?_,
      fun hd hb => ?_, fun hd hb => ?_, fun hd hb => ?_, fun hd hlow hhigh => ?_, fun hd hlow hhigh => ?_, fun hd hb => ?_⟩
    · rw [hsome, badWord_shared hd hlow hhigh]
      rfl
    case code =>
      intro hd hb m t
      have ht : two.badRs die bank line = t := by rw [State.badRs, lineNo_eq]
      refine ⟨?_, ?_⟩
      · rw [hnone, badWord_rs hd hb, ht]
        rfl
      · rw [hsome, badWord_rs hd hb, ht]
        rfl
    · have hhubs : (two.hub 0).up = true ∨ (two.hub 1).up = true := hup
      rw [hnone, badWord_rd hd hb, State.badRd, if_neg (by rcases hhubs with h | h <;> simp [h])]
    · rw [hnone, badWord_rd hd hb, State.badRd, if_pos (.inl rfl)]
    · rw [hnone]
      rcases hb with hb | hb
      · by_cases h16 : bank < 16
        · rw [badWord_lg hd h16, if_neg Bool.false_ne_true]
        · rw [badWord_fs hd (by omega) hb]
      · rw [badWord_sc hd hb, if_neg Bool.false_ne_true]
    · rw [hnone, badWord_lg hd hb]
      rfl
    · rw [hnone, badWord_fs hd hlow hhigh]
    · rw [hnone, badWord_rm hd hlow hhigh, State.badRm, if_pos (.inl rfl)]
    · rw [hnone, badWord_sc hd hb]
      rfl
  case denied =>
    intro m w c hm hc t
    have hexec : exec (.dsmAccessDenied die m ⟨bank, line⟩ w c) s = .next (s.denyAccess die m bank line w c) :=
      answer_eq_next (by simp [hdie, hbank, hline, hm, coresOk_of_all hc]) rfl
    refine ⟨fun hmay => by rw [hexec, State.denyAccess, if_pos hmay], fun hno => ?_⟩
    rw [hexec, State.denyAccess, if_neg (by simp [hno])]
    refine ⟨fun hmaster => ?_, fun j hmaster hcore hidle => ?_, fun hmaster => ?_⟩
    · rcases hmaster with rfl | rfl | ⟨rfl, rfl⟩ <;> rfl
    · subst hmaster hcore
      have hown : (t.core j).entry = none := hidle
      exact congrArg _ (doubtMaster_core die hown)
    · have hhub : hubMaster m = true := by
        rcases hmaster with rfl | rfl | hmaster
        · rfl
        · rfl
        · have hlast : m = 5 ∨ m = 6 ∨ m = 7 := by omega
          rcases hlast with rfl | rfl | rfl <;> rfl
      exact congrArg _ (if_pos hhub)
  case waits =>
    intro m w hm
    exact answer_eq_next (by simp [hdie, hbank, hm]) rfl
  case wake => exact answer_eq_next (by simp [hdie, hbank]) rfl

/-! ### Hubs that fail (01 R25, 13 R420 to R424)

`State.Steady s t`: what commits that end, and results that are sent again, leave of the hubs. -/

structure State.Steady (s t : State) : Prop where
  up : ∀ h, (t.hub h).up = (s.hub h).up
  segs : ∀ h, (t.hub h).segs = (s.hub h).segs
  leader : t.pkg.leader = s.pkg.leader
  bulk : t.bulk = s.bulk
  yoke : t.yoke = s.yoke
  placements : t.placements = s.placements

section
variable {s t : State}

theorem State.Steady.refl (s : State) : s.Steady s := ⟨fun _ => rfl, fun _ => rfl, rfl, rfl, rfl, rfl⟩

theorem State.Steady.trans {a b c : State} (hab : a.Steady b) (hbc : b.Steady c) : a.Steady c :=
  ⟨fun h => (hbc.up h).trans (hab.up h), fun h => (hbc.segs h).trans (hab.segs h), hbc.leader.trans hab.leader,
    hbc.bulk.trans hab.bulk, hbc.yoke.trans hab.yoke, hbc.placements.trans hab.placements⟩

theorem steady_foldl {α : Type} {f : State → α → State} (hf : ∀ (s : State) a, s.Steady (f s a)) (l : List α) (s : State) :
    s.Steady (l.foldl f s) := by
  induction l generalizing s with
  | nil => exact .refl s
  | cons a l ih => exact (hf s a).trans (ih _)

theorem steady_of (hhubs : t.hubs = s.hubs) (hleader : t.pkg.leader = s.pkg.leader) (hbulk : t.bulk = s.bulk) (hyoke : t.yoke = s.yoke)
    (hplaced : t.placements = s.placements) : s.Steady t :=
  ⟨fun h => congrArg Hub.up (hub_of_hubs hhubs h), fun h => congrArg Hub.segs (hub_of_hubs hhubs h), hleader, hbulk, hyoke, hplaced⟩

theorem modHub_steady {f : Hub → Hub} (hup : ∀ x, (f x).up = x.up) (hsegs : ∀ x, (f x).segs = x.segs) (s : State) (h : Nat) :
    s.Steady (s.modHub h f) :=
  ⟨fun j => hub_modHub_keeps hup s h j, fun j => hub_modHub_keeps hsegs s h j, rfl, rfl, rfl, rfl⟩

theorem modFold_steady (s : State) (h : Nat) (f : FoldRegs → FoldRegs) : s.Steady (s.modFold h f) :=
  modHub_steady (f := fun x => { x with fold := f x.fold }) (fun _ => rfl) (fun _ => rfl) s h

theorem mapHubs_steady {f : Hub → Hub} (hup : ∀ x, (f x).up = x.up) (hsegs : ∀ x, (f x).segs = x.segs) (s : State) :
    s.Steady { s with hubs := s.hubs.map f } :=
  ⟨fun h => at'_map_keeps hup s.hubs h _, fun h => at'_map_keeps hsegs s.hubs h _, rfl, rfl, rfl, rfl⟩

theorem applied_steady (s : State) (n : Nat) : s.Steady (s.applied n) :=
  (mapHubs_steady (f := fun h => { h with digest := Config.digestStep h.digest n }) (fun _ => rfl) (fun _ => rfl) s).trans
    (steady_of rfl rfl rfl rfl rfl)

theorem gaveOut_steady (s : State) (n : Nat) : s.Steady (s.gaveOut n) := by
  unfold State.gaveOut
  split
  · exact .refl s
  · exact (applied_steady s n).trans (steady_of rfl rfl rfl rfl rfl)

theorem sendPair_steady (s : State) (pop : Nat) (fields : List (Nat × Nat)) (data : List Byte) : s.Steady (s.sendPair pop fields data) := by
  rw [sendPair_frame]
  exact steady_of rfl rfl rfl rfl rfl

theorem told_steady (s : State) (n : Nat) (e : Entry) (code : Nat) : s.Steady (s.told n e code) := by
  unfold State.told
  dsimp only
  split
  · exact .refl s
  split
  · exact steady_of rfl rfl rfl rfl rfl
  · exact (sendPair_steady ..).trans (steady_of rfl rfl rfl rfl rfl)

theorem ledger_steady (s : State) (e : Entry) : s.Steady (s.ledger e) := by
  rw [State.ledger, ledgerAs_eq]
  exact (gaveOut_steady ..).trans (told_steady ..)

theorem commitEntry_steady (s : State) (n : Nat) (f : Entry → Entry) : s.Steady (s.commitEntry n f) := by
  unfold State.commitEntry
  split
  · exact (steady_of rfl rfl rfl rfl rfl : s.Steady (s.modEntry n f)).trans (ledger_steady ..)
  · exact .refl s

theorem clearFrame_steady (s : State) (n : Nat) : s.Steady (s.clearFrame n) := by
  rw [clearFrame_frame]
  exact steady_of rfl rfl rfl rfl rfl

theorem dropRefs_steady (s : State) (e : Entry) : s.Steady (s.dropRefs e) := by
  rw [dropRefs_frame]
  exact steady_of rfl rfl rfl rfl rfl

theorem modEntry_steady (s : State) (n : Nat) (f : Entry → Entry) : s.Steady (s.modEntry n f) := steady_of rfl rfl rfl rfl rfl

theorem requeue_steady (s : State) (n order : Nat) (f : Entry → Entry) : s.Steady (s.requeue n order f) :=
  (clearFrame_steady s n).trans (commitEntry_steady ..)

theorem completeAs_steady (s : State) (n : Nat) (st : ResStatus) (wreason : Nat) (payload : List Byte) :
    s.Steady (s.completeAs n st wreason payload) := by
  unfold State.completeAs
  split
  · exact .refl s
  · dsimp only
    have hclear := clearFrame_steady s n
    split <;> split
    · exact (hclear.trans (commitEntry_steady ..)).trans (dropRefs_steady ..)
    · exact (hclear.trans (modEntry_steady ..)).trans (dropRefs_steady ..)
    · exact hclear.trans (commitEntry_steady ..)
    · exact hclear.trans (modEntry_steady ..)

theorem doCancel_steady (s : State) (e : Entry) (tseq : Nat) : s.Steady (s.doCancel e tseq) := by
  unfold State.doCancel
  dsimp only
  split
  · exact .refl s
  split
  · split
    · exact (completeAs_steady ..).trans (modEntry_steady ..)
    · exact modEntry_steady ..
  · exact modEntry_steady ..

theorem admitEntry_steady (s : State) (e : Entry) : s.Steady (s.admitEntry e) := by
  have happlied : s.Steady (({ s with entries := s.entries ++ [e] }.modStream e.stream (fun x => x.commit e)).applied e.cseq) := by
    refine State.Steady.trans ?_ (applied_steady ..)
    exact steady_of rfl rfl rfl rfl rfl
  unfold State.admitEntry
  dsimp only
  split
  · exact happlied.trans (doCancel_steady ..)
  · exact happlied

theorem sendAt_steady (s : State) (p addr : Nat) (h : Hdr) (body : List Byte) : s.Steady (s.sendAt p addr h body) := by
  rw [sendAt_frame]
  exact steady_of rfl rfl rfl rfl rfl

theorem accept_steady (s : State) (port addr tsid stream incarn seq flags cseq time : Nat) :
    s.Steady (s.accept port addr tsid stream incarn seq flags cseq time) := by
  unfold State.accept State.admitTime
  exact (sendAt_steady ..).trans (modFold_steady ..)

theorem noteAck_steady (s : State) (n p : Nat) : s.Steady (s.noteAck n p) := by
  unfold State.noteAck
  split
  · exact modEntry_steady ..
  · exact .refl s

theorem acceptDup_steady (s : State) (port addr tsid stream incarn seq time : Nat) :
    s.Steady (s.acceptDup port addr tsid stream incarn seq time) := by
  unfold State.acceptDup
  split
  · exact ((accept_steady ..).trans (noteAck_steady ..)).trans (modFold_steady ..)
  · exact (accept_steady ..).trans (modFold_steady ..)

theorem dropCopies_steady (s : State) (stream incarn seq : Nat) : s.Steady (s.dropCopies stream incarn seq) := by
  unfold State.dropCopies
  refine mapHubs_steady ?_ ?_ s <;> exact fun _ => rfl

theorem confirm_steady (s : State) (c : Commit) (time : Nat) : s.Steady (s.confirm c time) := by
  have hin : s.Steady ({ s.dropCopies c.entry.stream c.entry.incarn c.entry.seq with
      commits := s.commits.filter (fun x => x.cseq != c.cseq) }.admitEntry c.entry) := by
    refine (dropCopies_steady s c.entry.stream c.entry.incarn c.entry.seq).trans (State.Steady.trans ?_ (admitEntry_steady ..))
    exact steady_of rfl rfl rfl rfl rfl
  unfold State.confirm
  dsimp only
  refine State.Steady.trans ?_ (steady_foldl (fun s (p : Nat × Nat) => acceptDup_steady s p.1 p.2 ..) _ _)
  exact ((hin.trans (accept_steady ..)).trans (noteAck_steady ..)).trans (modFold_steady ..)

theorem dropHub_steady (s : State) (h : Nat) : s.Steady (s.dropHub h) := by
  refine steady_foldl (fun s c => ?_) _ s
  unfold State.progress
  split
  · exact confirm_steady ..
  · exact steady_of rfl rfl rfl rfl rfl

theorem sendSeg_steady (s : State) (p addr : Nat) (h : Hdr) (body : List Byte) : s.Steady (s.sendSeg p addr h body) := by
  rw [sendSeg_frame]
  exact steady_of rfl rfl rfl rfl rfl

theorem sendResult_steady (s : State) (e : Entry) (p : Nat) : s.Steady (s.sendResult e p) :=
  (steady_of rfl rfl rfl rfl rfl : s.Steady (s.wakeStacks [e.rpar.stack])).trans
    (steady_foldl (fun s (x : Nat × List Byte) => sendSeg_steady s p _ _ x.2) _ _)

theorem resendAll_steady (l : List Entry) (s : State) : s.Steady (s.resendAll l) := by
  induction l generalizing s with
  | nil => exact .refl s
  | cons e l ih =>
    rw [State.resendAll]
    refine State.Steady.trans ?_ (ih _)
    split
    · exact (sendResult_steady ..).trans (modFold_steady ..)
    · exact .refl s

theorem resendSent_steady (s : State) : s.Steady s.resendSent := by
  unfold State.resendSent
  split
  · exact .refl s
  · exact resendAll_steady ..

/-- The package as hub `h` leaves it, before commits that came to it are decided and results sent again. -/
def State.hubGone (s : State) (h : Nat) : State :=
  { (s.modHub h (fun x => { x with up := false, segs := [], copies := [], backlog := 0 })).countLostUnit with
    pkg := { s.pkg with leader := if s.pkg.leader = h then 1 - h else s.pkg.leader }
    bulk := s.bulk.map (fun b => if b.hub = h then { b with hub := 1 - h } else b) }

theorem hubFail_eq (s : State) (h : Nat) : s.hubFail h =
    ((if s.yoke.active = h then (s.hubGone h).yokeTakeover (1 - h) else s.hubGone h).uncontrolled.dropHub h).resendSent := rfl

theorem hubFail_fields {h : Nat} (hh : h < 2) (hin : h < s.hubs.length) : ((s.hubFail h).hub h).up = false ∧ ((s.hubFail h).hub h).segs = [] ∧
    (s.hubFail h).pkg.leader = (if s.pkg.leader = h then 1 - h else s.pkg.leader) ∧ (∀ b ∈ (s.hubFail h).bulk, b.hub ≠ h) ∧
    (s.hubFail h).yoke.active = (if s.yoke.active = h then 1 - h else s.yoke.active) ∧ (s.hubFail h).placements = s.placements := by
  have hown : (s.hubGone h).hub h = { s.hub h with up := false, segs := [], copies := [], backlog := 0 } :=
    (hub_modHub s hin _ h).trans (if_pos rfl)
  have hbulk : ∀ b ∈ (s.hubGone h).bulk, b.hub ≠ h := by
    intro b hb
    obtain ⟨x, -, rfl⟩ := List.mem_map.1 hb
    split
    · show 1 - h ≠ h
      omega
    · next hne => exact hne
  have hsteady (u : State) := (dropHub_steady u.uncontrolled h).trans (resendSent_steady (u.uncontrolled.dropHub h))
  rw [hubFail_eq]
  split
  · have h := hsteady ((s.hubGone h).yokeTakeover (1 - h))
    exact ⟨(h.up _).trans (congrArg Hub.up hown), (h.segs _).trans (congrArg Hub.segs hown), h.leader,
      fun b hb => hbulk b (by rw [h.bulk] at hb; exact hb), congrArg Yoke.active h.yoke, h.placements⟩
  · have h := hsteady (s.hubGone h)
    exact ⟨(h.up _).trans (congrArg Hub.up hown), (h.segs _).trans (congrArg Hub.segs hown), h.leader,
      fun b hb => hbulk b (by rw [h.bulk] at hb; exact hb), by rw [h.yoke]; rfl, h.placements⟩

/-! ### QUIET (R422, R423) -/

/-- A cause that ends running frames is left in the strictest way. -/
theorem quietEnds_iff {cause : Nat} (hc : cause ≤ 7) (h0 : cause ≠ 0) : quietEnds cause = true ↔ cause = 1 ∨ cause = 4 ∨ cause = 6 := by
  exact (by decide : ∀ cause ≤ 7, cause ≠ 0 → (quietEnds cause = true ↔ cause = 1 ∨ cause = 4 ∨ cause = 6)) cause hc h0

theorem quietRank_le {cause : Nat} (h : quietEnds cause = false) : quietRank cause ≤ 2 := by
  have hthree : quietRank cause ≤ 3 := by
    unfold quietRank
    split <;> decide
  rw [quietEnds, beq_eq_false_iff_ne] at h
  omega

theorem quietRank_pos {cause : Nat} (h0 : cause ≠ 0) : 0 < quietRank cause := by
  unfold quietRank
  split
  · exact absurd rfl h0
  all_goals decide

/-- `s` in QUIET of cause `c`, counted when QUIET begins. -/
def State.quieted (s : State) (cause : Nat) : State :=
  if s.pkg.quiet = 0 then { s with
    pkg := { s.pkg with quiet := if quietRank 0 < quietRank cause then cause else 0 }
    flt := { s.flt with event := setBit s.flt.event 3, quiet := s.flt.quiet + 1 } }
  else { s with pkg := { s.pkg with quiet := if quietRank s.pkg.quiet < quietRank cause then cause else s.pkg.quiet } }

theorem enterQuiet_eq (s : State) (cause : Nat) : s.enterQuiet cause = if quietEnds cause then
    (s.entries.filter (fun e => e.st == .running && !e.ended && (s.quieted cause).runsHere e)).foldl
      (fun s e => s.requeue e.cseq 0 id) (s.quieted cause) else s.quieted cause := by
  unfold State.enterQuiet State.quieted
  by_cases hq : s.pkg.quiet = 0
  · simp only [hq, if_true]
    rfl
  · simp only [hq, if_false]

theorem enterQuiet_quiets {cause : Nat} (hnone : quietEnds cause = false ∨ ∀ e ∈ s.entries, e.st ≠ .running) :
    s.enterQuiet cause = s.quieted cause := by
  rw [enterQuiet_eq]
  rcases hnone with h | h
  · rw [if_neg (by simp [h])]
  · have hno : s.entries.filter (fun e => e.st == .running && !e.ended && (s.quieted cause).runsHere e) = [] :=
      List.filter_eq_nil_iff.2 fun e he => by simp [h e he]
    rw [hno, List.foldl_nil, ite_self]

/-- A running frame, the only one, is READY again. -/
theorem enterQuiet_requeues {cause : Nat} (hends : quietEnds cause = true) {e : Entry} (h : s.entries = [e]) (hst : e.st = .running)
    (hended : e.ended = false) (hhere : s.runsHere e = true) :
    ∃ e1, (s.enterQuiet cause).entry? e.cseq = some e1 ∧ e1.st = .ready ∧ e1.replays = e.replays := by
  have hentries : (s.quieted cause).entries = [e] := by
    unfold State.quieted
    split <;> exact h
  have hruns : (s.quieted cause).runsHere e = true := by
    unfold State.quieted
    split <;> exact hhere
  have hone : s.entries.filter (fun e => e.st == .running && !e.ended && (s.quieted cause).runsHere e) = [e] := by
    rw [h, List.filter_cons_of_pos (by simp [hst, hended, hruns]), List.filter_nil]
  rw [enterQuiet_eq, if_pos hends, hone]
  exact ⟨_, entry?_requeue (f := id) (entry?_single hentries) 0 (fun _ => rfl), rfl, rfl⟩

end

/-- Settles O36: heartbeats, hubs that fail, and QUIET. -/
theorem hubsAndQuiet : Obligations.HubsAndQuiet := by
  unfold Obligations.HubsAndQuiet
  refine ⟨?hubs, ?quiet⟩
  case hubs =>
    intro s h hh
    have hok : hubOk h = true := decide_eq_true hh
    have hloss : exec (.hubHeartbeatLoss h) s = .next (s.heartbeatLoss h) := answer_eq_next hok rfl
    have hself : exec (.hubSelfCheckFail h) s = .next (s.selfCheckFail h) := answer_eq_next hok rfl
    refine ⟨fun b r => answer_eq_next hok ?_, ?heartbeats, fun hup hother => hself.trans ?_, fun hdown => ⟨hself.trans ?_, hloss.trans ?_⟩,
      fun hin => hubFail_fields hh hin, fun h0 h1 hbridge hdigest => answer_eq_next rfl (if_pos ⟨h0, h1, hbridge, hdigest⟩),
      fun hno => answer_eq_next rfl (if_neg ?_), ?bridges, answer_eq_next rfl rfl⟩
    case heartbeats =>
      intro t hup hother
      have hdecides : s.heartbeatLoss h = if (s.hub h).beatBridge then t
          else if (s.hub h).beatDie then { t with pkg := { t.pkg with bridges := [false, false] } }.enterQuiet 2 else t.hubFail h := by
        rw [State.heartbeatLoss, if_neg (by simp [hup, hother])]
      refine ⟨fun hbridge => hloss.trans ?_, fun hbridge hdie => hloss.trans ?_, fun hbridge hdie => hloss.trans ?_, hself.trans ?_⟩
      · rw [hdecides, if_pos hbridge]
      · rw [hdecides, if_neg (by simp [hbridge]), if_pos hdie]
      · rw [hdecides, if_neg (by simp [hbridge]), if_neg (by simp [hdie])]
      · rw [State.selfCheckFail, if_neg (by simp [hup]), if_pos hother]
    case bridges =>
      intro t
      have hback (eq : Bool) : exec (.bridgeRestored h eq) s = .next (s.bridgeBack h eq) := answer_eq_next (decide_eq_true hh) rfl
      refine ⟨fun hq eq => (hback eq).trans ?_, fun hq => (hback true).trans ?_, fun hq => (hback false).trans ?_⟩
      · rw [State.bridgeBack, if_pos hq]
      · rw [State.bridgeBack, if_neg (not_not_intro hq), if_pos rfl]
      · rw [State.bridgeBack, if_neg (not_not_intro hq), if_neg Bool.false_ne_true]
    · unfold State.heartbeat
      cases (s.hub h).up <;> rfl
    · rw [State.selfCheckFail, if_neg (by simp [hup]), if_neg (by simp [hother])]
    · rw [State.selfCheckFail, if_pos (by simp [hdown])]
    · rw [State.heartbeatLoss, if_pos (by simp [hdown])]
    · rintro ⟨h0, h1, hbridge, hdigest⟩
      rcases hno with h | h | h | h
      · exact Bool.false_ne_true (h.symm.trans h0)
      · exact Bool.false_ne_true (h.symm.trans h1)
      · exact Bool.false_ne_true (h.symm.trans hbridge)
      · exact hdigest h
  case quiet =>
    intro s cause hcause h0 ends
    have hiff := quietEnds_iff hcause h0
    have hnot (h : ¬ ends) : quietEnds cause = false := Bool.eq_false_iff.2 (fun hc => h (hiff.1 hc))
    refine ⟨fun hno hq => ?_, fun hq hno => ?_, fun hq hcases => ?_, fun h e hentries hst hended hhere =>
      enterQuiet_requeues (hiff.2 h) hentries hst hended hhere⟩
    · rw [enterQuiet_quiets (hno.imp hnot id), State.quieted, if_pos hq, if_pos (show quietRank 0 < _ from quietRank_pos h0)]
    · have hrank : quietRank s.pkg.quiet = 2 := by rcases hq with h | h | h <;> rw [h] <;> rfl
      have hle := quietRank_le (hnot hno)
      have hne : s.pkg.quiet ≠ 0 := by omega
      rw [enterQuiet_quiets (.inl (hnot hno)), State.quieted, if_neg hne, if_neg (by omega)]
    · have hrank : quietRank cause = 2 := by rcases hcases with h | h | h <;> rw [h] <;> rfl
      have hlow : quietRank s.pkg.quiet = 1 := by rw [hq]; rfl
      have hends : quietEnds cause = false := by rw [quietEnds, hrank]; rfl
      rw [enterQuiet_quiets (.inl hends), State.quieted, if_neg (by omega), if_pos (by omega)]

/-! ### YOKE_TICK (12 R377 to R386) -/

section
variable {s t : State}

theorem at'_mapIdx {α β : Type} (f : Nat → α → β) (l : List α) {i : Nat} (hi : i < l.length) (d : α) (d' : β) :
    at' (l.mapIdx f) i d' = f i (at' l i d) := by
  unfold at'
  rw [List.getElem?_mapIdx, List.getElem?_eq_getElem hi]
  rfl

/-- What ends and fails at the start of a tick leaves everything that the demand counts. -/
structure State.Ticks (s t : State) : Prop where
  frame : t = { s with cores := t.cores, dsm := t.dsm, hubs := t.hubs }
  up : ∀ h, (t.hub h).up = (s.hub h).up
  entry : ∀ k, (t.core k).entry = (s.core k).entry
  st : ∀ k, (t.core k).st = (s.core k).st

theorem State.Ticks.trans {a b c : State} (hab : a.Ticks b) (hbc : b.Ticks c) : a.Ticks c :=
  ⟨by rw [hbc.frame, hab.frame], fun h => (hbc.up h).trans (hab.up h), fun k => (hbc.entry k).trans (hab.entry k),
    fun k => (hbc.st k).trans (hab.st k)⟩

theorem ballastFails_ticks (l : List (Nat × Nat × Nat)) (s : State) : s.Ticks (s.ballastFails l) := by
  unfold State.ballastFails
  induction l generalizing s with
  | nil => exact ⟨rfl, fun _ => rfl, fun _ => rfl, fun _ => rfl⟩
  | cons x l ih =>
    refine State.Ticks.trans ?_ (ih _)
    dsimp only
    split
    · refine ⟨rfl, fun _ => rfl, fun k => ?_, fun k => ?_⟩
      all_goals
        by_cases hk : k = x.1
        · subst hk
          rw [State_core_modCore_same]
          rfl
        · rw [State_core_modCore_ne _ _ hk]
    · exact ⟨rfl, fun _ => rfl, fun _ => rfl, fun _ => rfl⟩

theorem tickEnds_ticks (s : State) : s.Ticks s.tickEnds := by
  refine ⟨rfl, fun h => ?_, fun _ => rfl, fun _ => rfl⟩
  exact at'_map_keeps (f := fun h : Hub => { h with backlog := h.backlog - 64000 * (s.pkg.bridges.filter id).length })
    (g := Hub.up) (fun _ => rfl) s.hubs h _

theorem onDie_ticks (h : s.Ticks t) (e : Entry) (d : Nat) : t.onDie e d = s.onDie e d := by
  simp only [State.onDie, Core.live, h.entry, h.st]

theorem frameDemand_ticks (h : s.Ticks t) (d : Nat) (e : Entry) : t.frameDemand d e = s.frameDemand d e := by
  simp only [State.frameDemand]
  rw [onDie_ticks h]
  rw [h.frame]
  rfl

theorem demands_ticks (h : s.Ticks t) (i : TickPower) : t.demands i = s.demands i := by
  simp only [State.demands, show t.frameDemand = s.frameDemand from funext fun d => funext fun e => frameDemand_ticks h d e]
  rw [h.frame]
  rfl

theorem dieParts_ticks (h : s.Ticks t) (env : Nat) (dem : List Nat) : t.dieParts env dem = s.dieParts env dem := by
  simp only [State.dieParts, State.domCeilings, h.up]
  rw [h.frame]
  rfl

theorem tickEnergy_ticks (h : s.Ticks t) (i : TickPower) (j : TickCounts) (n : Nat) : t.tickEnergy i j n = s.tickEnergy i j n := by
  rw [h.frame]
  rfl

/-- Placing ballast leaves everything of a die but its ballast and the clusters that wake for it. -/
structure State.Places (s t : State) : Prop where
  frame : t = { s with dies := t.dies, cores := t.cores, clusters := t.clusters, dsm := t.dsm, standby := t.standby }
  act : ∀ d, (t.die d).act = (s.die d).act
  standing : ∀ d, (t.die d).standing = (s.die d).standing
  part : ∀ d, (t.die d).part = (s.die d).part

theorem State.Places.trans {a b c : State} (hab : a.Places b) (hbc : b.Places c) : a.Places c :=
  ⟨by rw [hbc.frame, hab.frame], fun d => (hbc.act d).trans (hab.act d), fun d => (hbc.standing d).trans (hab.standing d),
    fun d => (hbc.part d).trans (hab.part d)⟩

theorem places_foldl {α : Type} {f : State → α → State} (hf : ∀ (s : State) a, s.Places (f s a)) (l : List α) (s : State) :
    s.Places (l.foldl f s) := by
  induction l generalizing s with
  | nil => exact ⟨rfl, fun _ => rfl, fun _ => rfl, fun _ => rfl⟩
  | cons a l ih => exact (hf s a).trans (ih _)

theorem places_of_dies (hframe : t = { s with cores := t.cores, clusters := t.clusters, dsm := t.dsm, standby := t.standby }) :
    s.Places t := by
  have hdie (d : Nat) : t.die d = s.die d := by rw [hframe]; rfl
  exact ⟨by rw [hframe], fun d => by rw [hdie], fun d => by rw [hdie], fun d => by rw [hdie]⟩

theorem modCluster_frame (s : State) (d l : Nat) (f : Core → Core) : s.modCluster d l f = { s with cores := (s.modCluster d l f).cores } := by
  unfold State.modCluster
  generalize clusterCores d l = ks
  induction ks generalizing s with
  | nil => rfl
  | cons k ks ih =>
    rw [List.foldl_cons, ih]
    rfl

theorem startWake_frame (s : State) (d c : Nat) : s.startWake d c = { s with
    cores := (s.startWake d c).cores
    clusters := (s.startWake d c).clusters
    dsm := (s.startWake d c).dsm } := by
  unfold State.startWake
  dsimp only
  split
  · rw [modCluster_frame]
    generalize (s.modCluster d _ wakeRetained).cores = c
    rfl
  · rfl

theorem die_modDie_keeps {β : Type} {f : Die → Die} {g : Die → β} (hg : ∀ x, g (f x) = g x) (s : State) (d j : Nat) :
    g ((s.modDie d f).die j) = g (s.die j) := at'_modAt_keeps hg s.dies d j _

theorem modDie_places {f : Die → Die} (hact : ∀ x, (f x).act = x.act) (hstanding : ∀ x, (f x).standing = x.standing)
    (hpart : ∀ x, (f x).part = x.part) (s : State) (d : Nat) : s.Places (s.modDie d f) :=
  ⟨rfl, die_modDie_keeps hact s d, die_modDie_keeps hstanding s d, die_modDie_keeps hpart s d⟩

theorem placeBallast_places (s : State) (d : Nat) : s.Places (s.placeBallast d) := by
  have hbal : s.Places (s.modDie d (fun x => { x with bal := s.newBallast d (s.die d).balN })) :=
    modDie_places (f := fun x => { x with bal := s.newBallast d (s.die d).balN }) (fun _ => rfl) (fun _ => rfl) (fun _ => rfl) s d
  refine hbal.trans (places_foldl (fun s c => places_of_dies ?_) _ _)
  rw [State.modCl, startWake_frame]

theorem runOrIdle_places (s : State) (d c : Nat) : s.Places (s.runOrIdle d c) := by
  unfold State.runOrIdle
  dsimp only
  split
  · exact places_of_dies rfl
  · exact places_of_dies rfl

theorem copyYoke_places (s : State) : s.Places s.copyYoke := by
  unfold State.copyYoke
  split <;> exact places_of_dies rfl

/-- What estimates and parts leave of a tick. -/
theorem balance_fields (s : State) (i : TickPower) (j : TickCounts) (parts : List Nat) :
    (s.balance i j parts).yoke = { s.yoke with
      doms := s.yoke.doms.mapIdx (fun n d => d.tick (at' i.standing n 0) (s.tickEnergy i j n)) } ∧
    (∀ d, d < s.dies.length → ((s.balance i j parts).die d).act = 0 ∧ ((s.balance i j parts).die d).standing = at' i.standing d 0 ∧
      ((s.balance i j parts).die d).part = if (s.die d).up then at' parts d 0 else 0) ∧
    s.balance i j parts = { s with yoke := (s.balance i j parts).yoke, dies := (s.balance i j parts).dies } := by
  refine ⟨rfl, fun d hd => ?_, rfl⟩
  have hdie : (s.balance i j parts).die d = _ := at'_mapIdx _ s.dies hd Die.fresh Die.fresh
  rw [hdie]
  exact ⟨rfl, rfl, rfl⟩

/-- The package as the Yoke's envelope has moved, before estimates and parts. -/
def State.tickStarts (s : State) (y : Yoke) (j : TickCounts) : State :=
  (({ s with pkg := { s.pkg with aon := (s.pkg.aon + 100) % 2 ^ 64 }, yoke := y } : State).ballastFails j.fails).tickEnds

theorem tickStarts_ticks (s : State) (y : Yoke) (j : TickCounts) :
    State.Ticks { s with pkg := { s.pkg with aon := (s.pkg.aon + 100) % 2 ^ 64 }, yoke := y } (s.tickStarts y j) :=
  (ballastFails_ticks ..).trans (tickEnds_ticks _)

theorem tickEnergy_yoke (s : State) (p : Pkg) {y : Yoke} (hcoef : y.coef = s.yoke.coef) (i : TickPower) (j : TickCounts) (n : Nat) :
    State.tickEnergy { s with pkg := p, yoke := y } i j n = s.tickEnergy i j n := by
  unfold State.tickEnergy
  dsimp only
  rw [hcoef]
  rfl

theorem places_frame {v u b t : State} (hv : v.Ticks u) (hu : b = { u with yoke := b.yoke, dies := b.dies }) (hb : b.Places t) :
    t = { v with yoke := t.yoke, dies := t.dies, cores := t.cores, clusters := t.clusters, dsm := t.dsm, hubs := t.hubs
                 standby := t.standby } := by
  rw [hb.frame, hu, hv.frame]

theorem tick_clocked (hclocked : s.clocked = true) (i : TickPower) (j : TickCounts) {y : Yoke}
    (hy : y = if s.pkg.phase = .warm
      then stepEnvelope s.profile.power { s.yoke with falling := true } ((i.standing.take 7).foldl (· + ·) 0) ((i.standing.take 7).foldl (· + ·) 0)
      else stepEnvelope s.profile.power s.yoke (s.newTarget i) ((i.standing.take 7).foldl (· + ·) 0)) :
    ((s.tickStarts y j).balance i j ((s.tickStarts y j).dieParts (y.envelope / 1000) ((s.tickStarts y j).demands i))).Places (s.tick i j) := by
  have hpower : y = stepEnvelope s.profile.power { s.yoke with falling := s.yoke.falling || s.pkg.phase == .warm }
      (if s.pkg.phase = .warm then (i.standing.take 7).foldl (· + ·) 0 else s.newTarget i) ((i.standing.take 7).foldl (· + ·) 0) := by
    rw [hy]
    by_cases hwarm : s.pkg.phase = .warm
    · simp [hwarm]
    · rw [if_neg hwarm, if_neg hwarm, beq_eq_false_iff_ne.2 hwarm, Bool.or_false]
  have htick : s.tick i j = ((List.range 36).foldl (fun s i => s.runOrIdle (i / 9) (i % 9))
      ((List.range 4).foldl (fun s d => s.placeBallast d)
        ((s.tickStarts y j).balance i j ((s.tickStarts y j).dieParts (y.envelope / 1000) ((s.tickStarts y j).demands i))))).copyYoke := by
    rw [hpower]
    unfold State.tick
    dsimp only
    rw [if_neg (by simp [hclocked])]
    rfl
  rw [htick]
  exact ((places_foldl placeBallast_places _ _).trans (places_foldl (fun s i => runOrIdle_places s (i / 9) (i % 9)) _ _)).trans
    (copyYoke_places _)

/-! ### The envelope (R380, R382) -/

/-- The envelope after a tick, `d` being the most that it moves. -/
theorem stepEnvelope_envelope (p : ProfPower) (y : Yoke) (target standing : Nat) : (stepEnvelope p y target standing).envelope =
    if y.envelope < target * 1000 then min (target * 1000) (y.envelope + p.ceiling * p.slew)
    else if y.falling = true ∧ target ≤ y.target
      then min y.envelope (max (max (target * 1000) (standing * 1000)) (y.envelope - p.ceiling * p.slew)) else y.envelope := by
  simp only [stepEnvelope, Bool.and_eq_true, decide_eq_true_eq]

/-! ### Samples (R376, R378, R383) -/

theorem newKappa_zero {kappa m : Nat} (free : Nat) (hm : 0 < m) : newKappa kappa m 0 free = (131072, true) := by
  rw [newKappa, if_neg (by omega), if_pos rfl]

theorem newKappa_pos {kappa m e : Nat} (free : Nat) (he : 0 < e) : newKappa kappa m e free =
    if kappa * m / e < 32768 then (32768, true) else if 131072 < kappa * m / e then (131072, true) else (kappa * m / e, false) := by
  rw [newKappa, if_neg (by omega), if_neg (by omega)]

theorem newKappa_held (kappa m e free : Nat) : 32768 ≤ (newKappa kappa m e free).1 ∧ (newKappa kappa m e free).1 ≤ 131072 := by
  have hfree : free % 98305 < 98305 := Nat.mod_lt _ (by decide)
  unfold newKappa
  dsimp only
  split
  · exact ⟨by dsimp only; omega, by dsimp only; omega⟩
  split
  · exact ⟨by decide, by decide⟩
  split
  · exact ⟨by decide, by decide⟩
  split
  · exact ⟨by decide, by decide⟩
  · exact ⟨by dsimp only; omega, by dsimp only; omega⟩

/-- A domain with its new kappa. -/
theorem calibrate_eq {g : Nat} {d : Domain} (hd : s.yoke.doms[g]? = some d) (mw : Nat) {k : Nat × Bool}
    (hk : k = newKappa d.kappa (mw * 100) d.estE (Config.openValue 20 s.pkg.free 0 % 2 ^ 32)) : s.calibrate g mw = { s with
      pkg := { s.pkg with free := s.pkg.free + 1 }
      yoke := { s.yoke with
        doms := s.yoke.doms.set g { kappa := k.1, est := d.est, estS := d.est, estE := 0, limited := k.2, draw := mw }
        regs := if k.2 then { s.yoke.regs with event := setBit s.yoke.regs.event 0, cal := s.yoke.regs.cal + 1 } else s.yoke.regs } } := by
  obtain rfl : at' s.yoke.doms g Domain.fresh = d := by rw [at', hd]; rfl
  rw [hk]
  rfl

/-! ### The start comb (R393, R394) -/

theorem mem_insertStart {offset : Nat} {w x : Nat × Nat × Nat} {l : List (Nat × Nat × Nat)} :
    x ∈ insertStart offset w l ↔ x = w ∨ x ∈ l := by
  induction l with
  | nil => simp [insertStart]
  | cons y l ih =>
    unfold insertStart
    split
    · exact List.mem_cons
    · rw [List.mem_cons, ih, List.mem_cons]
      exact ⟨fun h => h.elim (.inr ∘ .inl) (fun h => h.imp id .inr), fun h => h.elim (.inr ∘ .inl) (fun h => h.imp id .inr)⟩

theorem mem_insertStarts {offset : Nat} {x : Nat × Nat × Nat} (l : List (Nat × Nat × Nat)) (a : List (Nat × Nat × Nat))
    (h : x ∈ l ∨ x ∈ a) : x ∈ l.foldl (fun l w => insertStart offset w l) a := by
  induction l generalizing a with
  | nil => exact h.elim (fun h => absurd h List.not_mem_nil) id
  | cons w l ih =>
    refine ih _ ?_
    rw [List.mem_cons] at h
    rcases h with (h | h) | h
    · exact .inr (mem_insertStart.2 (.inl h))
    · exact .inl h
    · exact .inr (mem_insertStart.2 (.inr h))

/-- A start is granted, or waits on. -/
theorem grantStarts_keeps (l : List (Nat × Nat × Nat)) (n : Nat) {w : Nat × Nat × Nat} (hw : w ∈ l) :
    (w.1, w.2.1) ∈ (grantStarts n l).1 ∨ ∃ m, (w.1, w.2.1, m) ∈ (grantStarts n l).2 := by
  induction l generalizing n with
  | nil => exact absurd hw List.not_mem_nil
  | cons x l ih =>
    rw [List.mem_cons] at hw
    unfold grantStarts
    split
    · rcases hw with rfl | hw
      · exact .inl List.mem_cons_self
      · exact (ih _ hw).imp (List.mem_cons_of_mem _) id
    · rcases hw with rfl | hw
      · exact .inr ⟨_, List.mem_cons_self⟩
      · exact .inr ⟨w.2.2, List.mem_cons_of_mem _ hw⟩

/-- The die with its new window. -/
def State.windowed (s : State) (amps : Nat) (x : Die) : Die :=
  let limit := if amps = 0 then s.profile.power.comb else min s.profile.power.comb (40000 / amps)
  let alive := fun (w : Nat × Nat × Nat) => (s.core w.1).live
  let old := (x.waiting.take x.ordered).filter alive
  let new := (x.waiting.drop x.ordered).filter alive
  let due := old ++ new.foldl (fun l w => insertStart x.offset w l) []
  let g := grantStarts limit due
  { x with
    limit := limit
    stops := 0
    starts := min limit ((due.map (·.2.2)).foldl (· + ·) 0)
    granted := (x.granted.filter (fun w => (s.core w.1).live)) ++ g.1
    waiting := g.2
    ordered := g.2.length
    offset := if new.isEmpty then x.offset else (x.offset + 1) % 128 }

theorem windowed_keeps (s : State) (amps : Nat) (x : Die) {w : Nat × Nat × Nat} (hw : w ∈ x.waiting) (hlive : (s.core w.1).live = true) :
    (w.1, w.2.1) ∈ (s.windowed amps x).granted ∨ ∃ n, (w.1, w.2.1, n) ∈ (s.windowed amps x).waiting := by
  have hdue : w ∈ (x.waiting.take x.ordered).filter (fun w => (s.core w.1).live) ++
      ((x.waiting.drop x.ordered).filter (fun w => (s.core w.1).live)).foldl (fun l w => insertStart x.offset w l) [] := by
    rw [← List.take_append_drop x.ordered x.waiting, List.mem_append] at hw
    rw [List.mem_append]
    exact hw.imp (fun h => List.mem_filter.2 ⟨h, hlive⟩) (fun h => mem_insertStarts _ _ (.inl (List.mem_filter.2 ⟨h, hlive⟩)))
  exact (grantStarts_keeps _ _ hdue).imp (List.mem_append_right _) id

theorem windowed_empty (s : State) (amps : Nat) (x : Die) (h : x.waiting = []) : s.windowed amps x = { x with
    limit := (s.windowed amps x).limit, starts := 0, stops := 0, ordered := 0
    granted := x.granted.filter (fun w => (s.core w.1).live) } := by
  unfold State.windowed
  simp [h, grantStarts]

end

/-- Settles O37: ticks of the Yoke, samples, and windows of the comb. -/
theorem envelopeAndSamples : Obligations.EnvelopeAndSamples := by
  unfold Obligations.EnvelopeAndSamples
  refine ⟨⟨?stopped, ?tick, ?envelope, ?hold⟩, ⟨?kappa, ?sample, ?unclocked, ?draw, ?missing, ?rail⟩, ?comb⟩
  case stopped =>
    intro s i j hclocked
    refine answer_eq_next rfl ?_
    unfold State.tick
    dsimp only
    rw [if_pos (by simp [hclocked])]
  case tick =>
    intro s i j hclocked standing y
    have hplaces := tick_clocked hclocked i j (y := y) rfl
    have hticks := tickStarts_ticks s y j
    have hdoms : y.doms = s.yoke.doms ∧ y.coef = s.yoke.coef := by
      show (if _ then _ else _ : Yoke).doms = _ ∧ (if _ then _ else _ : Yoke).coef = _
      split <;> exact ⟨rfl, rfl⟩
    have hyoke := congrArg State.yoke hticks.frame
    have hdies := congrArg State.dies hticks.frame
    obtain ⟨hbal, hdie, hframe⟩ := balance_fields (s.tickStarts y j) i j
      ((s.tickStarts y j).dieParts (y.envelope / 1000) ((s.tickStarts y j).demands i))
    refine ⟨_, answer_eq_next rfl rfl, ?_, fun d hd => ?_, places_frame hticks hframe hplaces⟩
    · have henergy (n : Nat) : (s.tickStarts y j).tickEnergy i j n = s.tickEnergy i j n :=
        (tickEnergy_ticks hticks i j n).trans (tickEnergy_yoke s _ hdoms.2 i j n)
      rw [congrArg State.yoke hplaces.frame, hbal]
      simp only [henergy, hyoke, hdoms.1]
    · obtain ⟨hact, hstanding, hpart⟩ := hdie d (by rw [hdies]; exact hd)
      refine ⟨(hplaces.act d).trans hact, (hplaces.standing d).trans hstanding, (hplaces.part d).trans (hpart.trans ?_)⟩
      rw [State.die, hdies, dieParts_ticks hticks, demands_ticks hticks]
      rfl
  case envelope =>
    intro p y target standing x d
    have henv : x.envelope = _ := stepEnvelope_envelope p y target standing
    have hbelow : x.below = decide (target * 1000 < x.envelope) := rfl
    have hfalling : x.falling = (y.falling && decide (target ≤ y.target) && decide (target * 1000 < x.envelope)) := rfl
    refine ⟨rfl, rfl, fun hle => ?_, fun hge hno => ?_, fun hge hfall htarget => ?_, fun hge => ?_, ?_, ?_⟩
    · rw [henv]
      split
      · rfl
      split <;> omega
    · rw [henv, if_neg (by omega), if_neg]
      rintro ⟨hfall, htarget⟩
      rcases hno with h | h
      · exact Bool.false_ne_true (h.symm.trans hfall)
      · omega
    · rw [henv, if_neg (by omega), if_pos ⟨hfall, htarget⟩]
    · rw [henv, if_neg (by omega)]
      split <;> omega
    · simp [hbelow]
    · simp [hfalling, and_assoc]
  case hold => exact fun s => answer_eq_next rfl rfl
  case kappa =>
    intro kappa m e free
    obtain ⟨hlow, hhigh⟩ := newKappa_held kappa m e free
    refine ⟨hlow, hhigh, fun he hl hh => ?_, fun he hl => ?_, fun he hh => ?_, newKappa_zero free⟩
    · rw [newKappa_pos free he, if_neg (by omega), if_neg (by omega)]
    · rw [newKappa_pos free he, if_pos hl]
    · rw [newKappa_pos free he, if_neg (by omega), if_pos hh]
  case sample =>
    intro s g volts amps d hclocked hg hd rails mw k s1
    obtain ⟨hlen, -⟩ := List.getElem?_eq_some_iff.1 hd
    have hone : s1 = _ := calibrate_eq (s := { s with yoke := { s.yoke with rails := rails } }) hd mw (k := k) rfl
    refine ⟨by rw [hone], ?_, fun j hj => ?_, by rw [hone], by rw [hone], answer_eq_next (decide_eq_true hg) ?_⟩
    · rw [hone]
      exact List.getElem?_set_self hlen
    · rw [hone]
      exact List.getElem?_set_ne (Ne.symm hj)
    · rw [if_pos hclocked]
      have havs : s.avs g volts amps = if g = 5
          then ((if g < 4 then s1.railRead g volts else s1).calibrate 6 (if g < 4 then s1.railRead g volts else s1).yoke.cocoonDraw).checkDraw
          else if g < 4 then s1.railRead g volts else s1 := rfl
      rw [havs]
      by_cases h4 : g < 4
      · rw [if_neg (by omega), if_pos h4, if_pos h4]
      rw [if_neg h4, if_neg h4]
      by_cases h5 : g = 5
      · have hcocoon : s1.yoke.cocoonDraw = at' s.yoke.pmb 2 0 := by rw [hone]; rfl
        rw [if_pos h5, if_neg (by omega), hcocoon]
      · rw [if_neg h5, if_pos (by omega)]
  case unclocked =>
    intro s g volts amps hg hclocked
    exact answer_eq_next (decide_eq_true hg) (if_neg (by simp [hclocked]))
  case draw =>
    intro s r above short
    unfold State.checkDraw
    dsimp only
    by_cases habove : s.yoke.envelope * 102 < s.drawTotal * 1000 * 100
    · by_cases hshort : s.drawTotal * 1000 * 100 < s.yoke.envelope * 98
      · simp [above, short, habove, hshort, r, inc]
      · simp [above, short, habove, hshort, r, inc]
    · by_cases hshort : s.drawTotal * 1000 * 100 < s.yoke.envelope * 98
      · simp [above, short, habove, hshort, r, inc]
      · simp [above, short, habove, hshort, r]
  case missing =>
    intro s rail mw hrail hmissing
    exact answer_eq_next (decide_eq_true hrail) (if_pos (by simp [hmissing]))
  case rail =>
    intro s rail mw hrail hhere pmb hub
    refine ⟨_, answer_eq_next (decide_eq_true hrail) (if_neg (by simp [hhere])), rfl, fun j d hd => ?_, rfl⟩
    show (modAt (modAt s.yoke.doms 4 _) 6 _)[j]? = _
    rw [getElem?_modAt, getElem?_modAt, hd]
    by_cases h4 : j = 4
    · subst h4
      rfl
    · rw [if_neg h4, if_neg h4]
      split <;> rfl
  case comb =>
    intro s d amps hd hin x
    have hdie (j : Nat) := die_modDie hin (s.windowed amps) j
    have hown : (s.newWindow d amps).die d = s.windowed amps x := (hdie d).trans (if_pos rfl)
    refine ⟨_, answer_eq_next (decide_eq_true hd) rfl, ?_, ?_, ?_, fun hnone => ?_, fun w hw hlive => ?_,
      fun j hj => (hdie j).trans (if_neg hj), rfl⟩
    · rw [hown]
      rfl
    · rw [hown]
      exact Nat.min_le_left ..
    · rw [hown]
      rfl
    · rw [hown]
      exact windowed_empty s amps x hnone
    · rw [hown]
      exact windowed_keeps s amps x hw hlive

/-! ### Cores that halt together -/

/-- The live cores of `ks` halt, or, when there is none, the fault is a local one. -/
def State.haltAll (s : State) (ks : List Nat) (reason detail : Nat) : State :=
  if (ks.filter (fun k => (s.core k).live)).isEmpty then s.localFault
  else (ks.filter (fun k => (s.core k).live)).foldl (fun s k => s.haltDue k reason detail) s

section
variable {s t : State}

theorem haltAll_core (s : State) (ks : List Nat) (reason detail j : Nat) :
    (s.haltAll ks reason detail).core j = if j ∈ ks ∧ (s.core j).live = true then
      (s.core j).halt (s.core j).ctl.ctx (s.core j).ctl.pc (s.core j).ctl.calls.length reason detail else s.core j := by
  unfold State.haltAll
  split
  · next hnone =>
    refine Eq.trans (b := s.core j) rfl (if_neg fun h => ?_).symm
    have hin : j ∈ ks.filter (fun k => (s.core k).live) := List.mem_filter.2 h
    simp [List.isEmpty_iff.1 hnone] at hin
  · rw [haltDues_core]
    simp only [List.mem_filter, and_assoc, and_self]

theorem haltDues_frame (reason detail : Nat) (l : List Nat) (s : State) : l.foldl (fun s k => s.haltDue k reason detail) s = { s with
    cores := (l.foldl (fun s k => s.haltDue k reason detail) s).cores
    deposits := (l.foldl (fun s k => s.haltDue k reason detail) s).deposits } := by
  induction l generalizing s with
  | nil => rfl
  | cons k l ih => rw [List.foldl_cons, ih, haltDue_frame]

theorem haltAll_frame (s : State) (ks : List Nat) (reason detail : Nat) : s.haltAll ks reason detail = { s with
    cores := (s.haltAll ks reason detail).cores, deposits := (s.haltAll ks reason detail).deposits
    flt := (s.haltAll ks reason detail).flt
    pkg := { s.pkg with faultPulse := (s.haltAll ks reason detail).pkg.faultPulse } } := by
  unfold State.haltAll
  split
  · rfl
  · rw [haltDues_frame]

/-- A live core of the list has halted with its reason and detail. -/
theorem haltAll_halts {ks : List Nat} {j : Nat} (hj : j ∈ ks) (hlive : (s.core j).live = true) (reason detail : Nat) :
    ((s.haltAll ks reason detail).core j).st = .halted ∧
      ((s.haltAll ks reason detail).core j).haltRec.map (fun r => (r.reason, r.detail)) = some (reason, detail) := by
  rw [haltAll_core, if_pos ⟨hj, hlive⟩]
  exact ⟨rfl, rfl⟩

theorem mem_tabulate {α : Type} {n : Nat} {f : Nat → α} {x : α} : x ∈ tabulate n f ↔ ∃ i, i < n ∧ f i = x := by
  simp [tabulate]

theorem mem_dieCores {d k : Nat} : k ∈ dieCores d ↔ k / 128 = d := by
  rw [dieCores, mem_tabulate]
  constructor
  · rintro ⟨i, hi, rfl⟩
    omega
  · exact fun h => ⟨k % 128, Nat.mod_lt _ (by decide), by omega⟩

theorem mem_clusterCores {d c k : Nat} : k ∈ clusterCores d c ↔ k / 16 = 8 * d + c := by
  rw [clusterCores, mem_tabulate]
  constructor
  · rintro ⟨i, hi, rfl⟩
    omega
  · exact fun h => ⟨k % 16, Nat.mod_lt _ (by decide), by omega⟩

theorem cl_modCl_of (s : State) (d c c' : Nat) (f : Cluster → Cluster) :
    (s.modCl d c f).cl d c' = if c' = c then f (s.cl d c) else s.cl d c' := by
  by_cases hc : c' = c
  · rw [if_pos hc, hc, cl_modCl]
  · rw [if_neg hc]
    simp only [State.cl, State.modCl]
    rw [Tbl_get_set_ne _ _ (by omega)]

/-! ### Heat (12 R381, R405, R563) -/

theorem newTarget_bounds (h : s.profile.power.floor ≤ s.profile.power.ceiling) (i : TickPower) :
    s.profile.power.floor * 1000 ≤ s.newTarget i ∧ s.newTarget i ≤ s.profile.power.ceiling * 1000 := by
  unfold State.newTarget
  dsimp only
  split <;> omega

theorem risesTo_iff {old new n : Nat} : risesTo old new n = true ↔ old < n ∧ n ≤ new := by
  simp [risesTo]

/-- The registers of the Yoke after a report of `temp` for a die that was at `old`. -/
def YokeRegs.heated (r : YokeRegs) (warn old temp : Nat) : YokeRegs :=
  let r1 := if risesTo old temp warn then { r with event := setBit r.event 2, twarn := inc r.twarn } else r
  if risesTo old temp 105 then { r1 with event := setBit r1.event 3, tlimit := inc r1.tlimit } else r1

theorem heated_fields (r : YokeRegs) (warn old temp : Nat) :
    (r.heated warn old temp).tlimit = (if old < 105 ∧ 105 ≤ temp then r.tlimit + 1 else r.tlimit) ∧
    (r.heated warn old temp).twarn = (if old < warn ∧ warn ≤ temp then r.twarn + 1 else r.twarn) ∧
    r.heated warn old temp = { r with
      event := (r.heated warn old temp).event
      twarn := (r.heated warn old temp).twarn
      tlimit := (r.heated warn old temp).tlimit } := by
  unfold YokeRegs.heated
  simp only [risesTo_iff]
  split <;> split <;> exact ⟨rfl, rfl, rfl⟩

theorem tempReport_regs (s : State) (die temp : Nat) :
    (s.tempReport die temp).yoke.regs = s.yoke.regs.heated s.profile.power.tjWarn (at' s.yoke.temps die 0) temp := rfl

theorem tempReport_frame (s : State) (die temp : Nat) : s.tempReport die temp = { s with yoke := { s.yoke with
    temps := (s.tempReport die temp).yoke.temps
    hot := (s.tempReport die temp).yoke.hot
    regs := (s.tempReport die temp).yoke.regs } } := rfl

theorem stopClocks_stuck (s : State) (k e : Nat) : ((s.stopClocks.core k).engine e).stuck = ((s.core k).engine e).stuck := by
  rw [State_stopClocks_core, State.core]
  cases Tbl.get s.cores k with
  | none => rfl
  | some c =>
    rw [Option.map_some, Option.getD_some, Option.getD_some, Core_stopped_engine, Core.engine]
    cases Tbl.get c.engines e <;> rfl

/-! ### Voltage (R403) -/

/-- The die in alarm, with no ballast, and its clusters out of RUN. -/
def State.alarmed (s : State) (d : Nat) : State :=
  (List.range 9).foldl (fun s c => s.modCl d c (fun x => { x with st := if x.st = .run then .idle else x.st }))
    (s.modDie d (fun x => { x with alarm := true, okReads := 0, ballast := 0, bal := [], balN := 0 }))

theorem idled_frame (d : Nat) (l : List Nat) (s : State) :
    l.foldl (fun s c => s.modCl d c (fun x => { x with st := if x.st = .run then .idle else x.st })) s = { s with
      clusters := (l.foldl (fun s c => s.modCl d c (fun x => { x with st := if x.st = .run then .idle else x.st })) s).clusters } := by
  induction l generalizing s with
  | nil => rfl
  | cons c l ih =>
    rw [List.foldl_cons, ih]
    rfl

theorem idled_cl (d : Nat) (l : List Nat) (s : State) {c : Nat} (hc : c ∈ l ∨ (s.cl d c).st ≠ .run) :
    ((l.foldl (fun s c => s.modCl d c (fun x => { x with st := if x.st = .run then .idle else x.st })) s).cl d c).st ≠ .run := by
  induction l generalizing s with
  | nil => exact hc.resolve_left List.not_mem_nil
  | cons b l ih =>
    refine ih _ ?_
    by_cases hin : c ∈ l
    · exact .inl hin
    refine .inr ?_
    rw [cl_modCl_of]
    by_cases hb : c = b
    · rw [if_pos hb]
      dsimp only
      split
      · decide
      · assumption
    · rw [if_neg hb]
      exact hc.resolve_left fun h => (List.mem_cons.1 h).elim hb hin

theorem alarmed_frame (s : State) (d : Nat) : s.alarmed d = { s with dies := (s.alarmed d).dies, clusters := (s.alarmed d).clusters } := by
  rw [State.alarmed, idled_frame]
  rfl

theorem alarmed_dies (s : State) (d : Nat) : (s.alarmed d).dies =
    (s.modDie d (fun x => { x with alarm := true, okReads := 0, ballast := 0, bal := [], balN := 0 })).dies := by
  rw [State.alarmed, idled_frame]

theorem alarmed_die (s : State) {d : Nat} (hd : d < s.dies.length) :
    (s.alarmed d).die d = { s.die d with alarm := true, okReads := 0, ballast := 0, bal := [], balN := 0 } := by
  rw [State.die, alarmed_dies]
  exact (die_modDie hd _ d).trans (if_pos rfl)

theorem alarmed_cores (s : State) (d : Nat) : (s.alarmed d).cores = s.cores := by
  rw [alarmed_frame]

theorem alarmed_core (s : State) (d k : Nat) : (s.alarmed d).core k = s.core k := by
  rw [State.core, State.core, alarmed_cores]

theorem voltAlarm_begins {d : Nat} (hup : (s.die d).up = true) (halarm : (s.die d).alarm = false) :
    s.voltAlarm d = (s.haltAll (dieCores d) 0x25 (d * 2 ^ 28)).alarmed d := by
  unfold State.voltAlarm
  rw [if_neg (by simp [hup]), if_neg (by simp [halarm])]
  rfl

theorem voltAlarm_again {d : Nat} (hup : (s.die d).up = true) (halarm : (s.die d).alarm = true) :
    s.voltAlarm d = s.modDie d (fun x => { x with okReads := 0 }) := by
  rw [State.voltAlarm, if_neg (by simp [hup]), if_pos halarm]

end

/-- Settles O38: the target, temperatures, THERMTRIP, and alarms of the voltage. -/
theorem heatAndVoltage : Obligations.HeatAndVoltage := by
  unfold Obligations.HeatAndVoltage
  refine ⟨?heat, ?voltage⟩
  case heat =>
    intro s
    refine ⟨fun i h => if_pos h, fun i h => newTarget_bounds h i, fun die temp hdie => ?temp, fun die hdie => ?trip⟩
    case temp =>
      obtain ⟨-, -, hregs⟩ := heated_fields s.yoke.regs s.profile.power.tjWarn (at' s.yoke.temps die 0) temp
      refine ⟨_, answer_eq_next (decide_eq_true hdie) rfl, rfl, fun old hold => ?_, ?_, ?_⟩
      · have hat : at' s.yoke.temps die 0 = old := by rw [at', hold]; rfl
        obtain ⟨hlimit, hwarn, -⟩ := heated_fields s.yoke.regs s.profile.power.tjWarn old temp
        rw [tempReport_regs, hat, hlimit, hwarn]
        exact ⟨fun h => if_pos h, fun h => if_neg h, fun h => if_pos h, fun h => if_neg h⟩
      · simp [State.tempReport]
      · rw [← tempReport_regs (s := s) die temp] at hregs
        exact (tempReport_frame s die temp).trans (congrArg (fun r : YokeRegs => { s with yoke := { s.yoke with
          temps := (s.tempReport die temp).yoke.temps, hot := (s.tempReport die temp).yoke.hot, regs := r } }) hregs)
    case trip =>
      cases hclocked : s.clocked with
      | false => exact ⟨_, answer_eq_next (decide_eq_true hdie) (if_neg (by simp [hclocked])), rfl, fun _ => rfl, fun h => nomatch h⟩
      | true =>
        refine ⟨_, answer_eq_next (decide_eq_true hdie) (if_pos hclocked), rfl, fun h => (nomatch h), fun _ => ⟨rfl, rfl, rfl, rfl, rfl, fun k => ?_,
          rfl, rfl, fun k e => ?_⟩⟩
        · show (State.core (State.stopClocks _) k).live = false
          rw [State_stopClocks_core]
          cases Tbl.get s.cores k <;> rfl
        · show ((State.core (State.stopClocks _) k).engine e).stuck = _
          exact stopClocks_stuck s k e
  case voltage =>
    intro s d hd hin hup
    have hexec : exec (.voltageAlarm d) s = .next (s.voltAlarm d) := answer_eq_next (decide_eq_true hd) rfl
    refine ⟨fun halarm => ?begins, fun halarm => hexec.trans (congrArg _ (voltAlarm_again hup halarm)), fun v hlow hhigh => ?_, fun v hout => ?_,
      fun halarm => answer_eq_next (decide_eq_true hd) (if_pos halarm),
      fun halarm => answer_eq_next (decide_eq_true hd) (if_neg (by simp [halarm]))⟩
    case begins =>
      have hframe := haltAll_frame s (dieCores d) 0x25 (d * 2 ^ 28)
      have hdies : (s.haltAll (dieCores d) 0x25 (d * 2 ^ 28)).dies = s.dies := by rw [hframe]
      have hdie := alarmed_die (s.haltAll (dieCores d) 0x25 (d * 2 ^ 28)) (d := d) (by rw [hdies]; exact hin)
      refine ⟨_, hexec.trans (congrArg _ (voltAlarm_begins hup halarm)), congrArg Die.alarm hdie, congrArg Die.ballast hdie,
        congrArg Die.bal hdie, fun c hc => idled_cl d _ _ (.inl (List.mem_range.2 hc)), fun k hk hlive => ?_, fun k hk => ?_, ?_⟩
      · rw [alarmed_core]
        exact haltAll_halts (mem_dieCores.2 hk) hlive 0x25 (d * 2 ^ 28)
      · rw [alarmed_core, haltAll_core, if_neg (fun h => hk (mem_dieCores.1 h.1))]
      · rw [alarmed_frame, hframe]
    · rw [State.railRead]
      dsimp only
      rw [if_pos ⟨hlow, hhigh⟩, die_modDie hin, if_pos rfl]
      cases halarm : (s.die d).alarm with
      | true => simp
      | false => simp
    · rw [hexec, State.railRead, if_neg (by omega)]

/-! ### Cluster clocks and sleep (12 R397 to R401) -/

section
variable {s t : State} {d c l : Nat}

theorem modCores_core_of (f : Core → Core) (l : List Nat) (hl : l.Nodup) (s : State) (k : Nat) :
    (l.foldl (fun s k => s.modCore k f) s).core k = if k ∈ l then f (s.core k) else s.core k := by
  induction l generalizing s with
  | nil => exact (if_neg List.not_mem_nil).symm
  | cons j l ih =>
    rw [List.nodup_cons] at hl
    rw [List.foldl_cons, ih hl.2]
    by_cases hk : k = j
    · subst hk
      rw [if_neg hl.1, if_pos List.mem_cons_self, State_core_modCore_same]
    · simp only [State_core_modCore_ne _ _ hk, List.mem_cons, hk, false_or]

theorem nodup_clusterCores (d l : Nat) : (clusterCores d l).Nodup :=
  List.pairwise_map.2 (List.nodup_range.imp fun hne heq => hne (by omega))

theorem modCluster_core (s : State) (d l : Nat) (f : Core → Core) (k : Nat) :
    (s.modCluster d l f).core k = if k / 16 = 8 * d + l then f (s.core k) else s.core k := by
  rw [State.modCluster, modCores_core_of f _ (nodup_clusterCores d l)]
  simp only [mem_clusterCores]

/-- The cluster without its lock, and its die without the ballast on it. -/
def State.unlock (s : State) (d c : Nat) : State :=
  (s.modCl d c (fun x => { x with unlocked := true })).modDie d (fun x => { x with
    bal := x.bal.filter (fun y => s.logCluster d c != some (clusterOf y.1)) })

theorem clockLoss_some (hlocked : (s.cl d c).unlocked = false) (hst : (s.cl d c).st = .run ∨ (s.cl d c).st = .idle)
    (hl : s.logCluster d c = some l) : s.clockLoss d c = (s.unlock d c).haltAll (clusterCores d l) 0x24 (d * 2 ^ 30 + l * 2 ^ 27) := by
  unfold State.clockLoss
  rw [if_neg (by rcases hst with h | h <;> simp [hlocked, h])]
  dsimp only
  rw [hl]
  rw [State.unlock, hl]
  rfl

theorem clockLoss_none (hlocked : (s.cl d c).unlocked = false) (hst : (s.cl d c).st = .run ∨ (s.cl d c).st = .idle)
    (hl : s.logCluster d c = none) : s.clockLoss d c = (s.unlock d c).localFault := by
  unfold State.clockLoss
  rw [if_neg (by rcases hst with h | h <;> simp [hlocked, h])]
  dsimp only
  rw [hl]
  rw [State.unlock, hl]

theorem replaceCluster_none (hl : s.logCluster d c = none) :
    s.replaceCluster d c = { s with maps := { s.maps with bad := (4, d, c, 0, 0) :: s.maps.bad } } := by
  rw [State.replaceCluster, State.firstCore, hl]
  rfl

theorem replaceCluster_some (hl : s.logCluster d c = some l) (hspare : s.spareLeft 4 (128 * d + 16 * l) = true)
    (hnone : ∀ u ∈ s.maps.subst, coversUnit u 4 (128 * d + 16 * l) 0 = false) :
    s.replaceCluster d c = (s.substOf (s.maps.subst ++ [(⟨4, 128 * d + 16 * l, 0, 0⟩ : FaultUnit)])).hwEndOn
      (fun j => j / 16 == (128 * d + 16 * l) / 16) := by
  rw [State.replaceCluster, State.firstCore, hl]
  show s.beginSubst 3 4 (128 * d + 16 * l) 0 = _
  rw [State.beginSubst, if_neg (by simpa using hnone), if_pos hspare]
  rfl

/-- The cluster in DOZE, its sheets in RETENTION, before its die sleeps. -/
def State.dozed (s : State) (d c l : Nat) : State :=
  { (s.modCl d c (fun x => { x with st := .doze, woken := false })).modCluster d l (moveSheets .on .retention) with
    yoke := { s.yoke with regs := { s.yoke.regs with dozes := s.yoke.regs.dozes + 1 } } }

theorem doze_some (hl : s.logCluster d c = some l) (hst : (s.cl d c).st = .idle) (hbal : s.holdsBallast d c = false)
    (hwaking : (s.cl d c).waking = false) (hneeded : s.clusterNeeded d l = false) (hworks : s.clusterWorks d c = false) :
    s.doze d c = (s.dozed d c l).sleepDie d := by
  unfold State.doze
  dsimp only
  rw [hl]
  dsimp only
  rw [if_neg (by simp [hst, hbal, hwaking, hneeded, hworks]), modCluster_frame]
  rw [State.dozed, modCluster_frame]
  generalize (State.modCluster _ _ _ _).cores = u
  rfl

theorem modCluster_cores {k : Nat} (s : State) (d l : Nat) (f : Core → Core) :
    (k / 16 = 8 * d + l → (s.modCluster d l f).core k = f (s.core k)) ∧
      (k / 16 ≠ 8 * d + l → (s.modCluster d l f).core k = s.core k) := by
  rw [modCluster_core]
  exact ⟨fun h => if_pos h, fun h => if_neg h⟩

theorem modCluster_cl (s : State) (d l : Nat) (f : Core → Core) (d' c' : Nat) : (s.modCluster d l f).cl d' c' = s.cl d' c' := by
  have hclusters : (s.modCluster d l f).clusters = s.clusters := by rw [modCluster_frame]
  rw [State.cl, State.cl, hclusters]

theorem dozed_fields (s : State) (d c l : Nat) : ((s.dozed d c l).cl d c).st = .doze ∧
    (∀ k, (s.dozed d c l).core k = if k / 16 = 8 * d + l then moveSheets .on .retention (s.core k) else s.core k) ∧
    s.dozed d c l = { s with
      clusters := (s.dozed d c l).clusters, cores := (s.dozed d c l).cores
      yoke := { s.yoke with regs := { s.yoke.regs with dozes := s.yoke.regs.dozes + 1 } } } := by
  have hframe := modCluster_frame (s.modCl d c (fun x => { x with st := .doze, woken := false })) d l (moveSheets .on .retention)
  have hcl := modCluster_cl (s.modCl d c (fun x => { x with st := .doze, woken := false })) d l (moveSheets .on .retention) d c
  have hcore := modCluster_core (s.modCl d c (fun x => { x with st := .doze, woken := false })) d l (moveSheets .on .retention)
  unfold State.dozed
  generalize State.modCluster _ _ _ _ = u at hframe hcl hcore ⊢
  refine ⟨?_, hcore, ?_⟩
  · rw [cl_modCl] at hcl
    exact congrArg Cluster.st hcl
  · rw [hframe]
    rfl

theorem sleepDie_fields (s : State) (d : Nat) : (s.sleepDie d).dieAsleep d = s.dieAsleep d ∧
    (s.dieAsleep d = true → (s.sleepDie d).hbmStacks = s.hbmStacks.mapIdx (fun i x => if i / 4 = d then (x.1, x.1) else x)) ∧
    (s.dieAsleep d = false → s.sleepDie d = s) ∧
    s.sleepDie d = { s with hbmStacks := (s.sleepDie d).hbmStacks, dsm := (s.sleepDie d).dsm } := by
  unfold State.sleepDie
  cases hasleep : s.dieAsleep d with
  | true =>
    rw [if_neg (by decide)]
    exact ⟨hasleep, fun _ => rfl, fun h => (nomatch h), rfl⟩
  | false =>
    rw [if_pos (Bool.not_false : (!false) = true)]
    exact ⟨hasleep, fun h => (nomatch h), fun _ => rfl, rfl⟩

theorem getElem?_stacks {f : Bool × Bool → Bool × Bool} {n : Nat} {x : Bool × Bool} {stacks' : List (Bool × Bool)} (h : stacks'[n]? = some x) :
    (stacks'.mapIdx (fun i x => if i / 4 = d then f x else x))[n]? = some (if n / 4 = d then f x else x) := by
  rw [List.getElem?_mapIdx, h]
  rfl

/-! #### OFF and the end of a wake -/

/-- The cluster out of power. -/
def State.gated (s : State) (d c l : Nat) : State := (s.modCl d c (fun x => { x with st := .off })).modCluster d l offCore

theorem clusterOff_some (hl : s.logCluster d c = some l) (hst : (s.cl d c).st = .doze) (hwaking : (s.cl d c).waking = false)
    (hplaced : s.holdsPlacement d l = false) (hneeded : s.clusterNeeded d l = false) : s.clusterOff d c = s.gated d c l := by
  unfold State.clusterOff
  dsimp only
  rw [hl]
  dsimp only
  rw [if_neg (by simp [hst, hwaking, hplaced, hneeded])]
  rfl

/-- An engine without power loses its planes (R399). -/
def Engine.unpowered (g : Engine) : Engine := { g with planes := [] }

theorem offCore_fields (c : Core) : (offCore c).mem.spad = [] ∧ (∀ m, (offCore c).sheet m = .off) ∧
    (∀ e p, ((offCore c).engine e).plane p = Plane.fresh) ∧ (offCore c).ctl = c.ctl := by
  refine ⟨rfl, fun m => ?_, fun e p => ?_, rfl⟩
  · show at' (c.mem.sheets.map (fun _ => SheetSt.off)) m .off = .off
    rw [at', List.getElem?_map]
    cases c.mem.sheets[m]? <;> rfl
  · have hget : Tbl.get (offCore c).engines e = (Tbl.get c.engines e).map Engine.unpowered := Tbl_get_map Engine.unpowered c.engines e
    rw [Core.engine, hget]
    cases Tbl.get c.engines e <;> rfl

/-- The cluster awake, with its die's banks and stacks. -/
def State.awake (s : State) (d c l : Nat) : State :=
  State.modDsm { (s.modCl d c (fun x => { x with st := .run, waking := false })).modCluster d l
      (fun c => moveSheets .retention .on (moveSheets .waking .on c)) with
    yoke := { s.yoke with regs := { s.yoke.regs with wakes := s.yoke.regs.wakes + 1 } }
    hbmStacks := s.hbmStacks.mapIdx (fun i x => if i / 4 = d then (x.1, false) else x)
    dsm := s.dsm } d (fun x => { x with banks := x.banks.map (fun b => if b = .retention ∨ b = .waking then .on else b) })

theorem awake_fields (s : State) (d c l : Nat) : ((s.awake d c l).cl d c).st = .run ∧ ((s.awake d c l).cl d c).waking = false ∧
    (∀ k, (s.awake d c l).core k = if k / 16 = 8 * d + l then moveSheets .retention .on (moveSheets .waking .on (s.core k)) else s.core k) ∧
    s.awake d c l = { s with
      clusters := (s.awake d c l).clusters, cores := (s.awake d c l).cores
      dsm := modAt s.dsm d (fun x => { x with banks := x.banks.map (fun b => if b = .retention ∨ b = .waking then .on else b) })
      hbmStacks := s.hbmStacks.mapIdx (fun i x => if i / 4 = d then (x.1, false) else x)
      yoke := { s.yoke with regs := { s.yoke.regs with wakes := s.yoke.regs.wakes + 1 } } } := by
  have hframe := modCluster_frame (s.modCl d c (fun x => { x with st := .run, waking := false })) d l
    (fun c => moveSheets .retention .on (moveSheets .waking .on c))
  have hcl := modCluster_cl (s.modCl d c (fun x => { x with st := .run, waking := false })) d l
    (fun c => moveSheets .retention .on (moveSheets .waking .on c)) d c
  have hcore := modCluster_core (s.modCl d c (fun x => { x with st := .run, waking := false })) d l
    (fun c => moveSheets .retention .on (moveSheets .waking .on c))
  unfold State.awake
  generalize State.modCluster _ _ _ _ = u at hframe hcl hcore ⊢
  rw [cl_modCl] at hcl
  refine ⟨congrArg Cluster.st hcl, congrArg Cluster.waking hcl, hcore, ?_⟩
  rw [hframe]
  rfl

theorem wakeDone_some (hl : s.logCluster d c = some l) (hwaking : (s.cl d c).waking = true) : s.wakeDone d c = s.awake d c l := by
  unfold State.wakeDone
  rw [if_neg (by simp [hwaking])]
  dsimp only
  rw [hl]
  dsimp only
  rw [State.awake, modCluster_frame]
  generalize (State.modCluster _ _ _ _).cores = u
  rfl

end

/-- Settles O39: clusters that lose their clock, doze, turn off and wake. -/
theorem clusters : Obligations.Clusters := by
  unfold Obligations.Clusters
  refine ⟨?clocks, ?sleep, ?refresh⟩
  case clocks =>
    intro s d c hd hc lost
    have hok : (computeOk d && decide (c < 9)) = true := by rw [show computeOk d = true from decide_eq_true hd, decide_eq_true hc]; rfl
    have hexec : exec (.clockLoss d c) s = .next (s.clockLoss d c) := answer_eq_next hok rfl
    refine ⟨fun hlocked hst => ⟨fun l hl => ?lost, fun hl => hexec.trans (congrArg _ (clockLoss_none hlocked hst hl))⟩,
      fun h => answer_eq_next hok (if_pos h), fun h => answer_eq_next hok (if_neg (by simp [h])), replaceCluster_none,
      fun l hl hspare hnone => replaceCluster_some hl hspare hnone, answer_eq_next hok rfl⟩
    case lost =>
      have hframe := haltAll_frame (s.unlock d c) (clusterCores d l) 0x24 (d * 2 ^ 30 + l * 2 ^ 27)
      refine ⟨_, hexec.trans (congrArg _ (clockLoss_some hlocked hst hl)), ?_, ?_, fun k hk hlive =>
        haltAll_halts (s := s.unlock d c) (mem_clusterCores.2 hk) hlive 0x24 (d * 2 ^ 30 + l * 2 ^ 27), fun k hk => ?_, ?_⟩
      · have hclusters : ((s.unlock d c).haltAll (clusterCores d l) 0x24 (d * 2 ^ 30 + l * 2 ^ 27)).clusters = (s.unlock d c).clusters := by
          rw [hframe]
        rw [State.cl, hclusters]
        exact congrArg Cluster.unlocked (cl_modCl s d c (fun x => { x with unlocked := true }))
      · rw [hframe]
        rfl
      · rw [haltAll_core, if_neg (fun h => hk (mem_clusterCores.1 h.1))]
        rfl
      · rw [hframe]
        rfl
  case sleep =>
    intro s d c l hd hc hl
    have hok : (computeOk d && decide (c < 9)) = true := by rw [show computeOk d = true from decide_eq_true hd, decide_eq_true hc]; rfl
    refine ⟨fun hst hbal hwaking hneeded hworks => ?doze, fun hst hwaking hplaced hneeded => ?off, fun hwaking => ?wake⟩
    case doze =>
      obtain ⟨hdoze, hcore, hdozed⟩ := dozed_fields s d c l
      obtain ⟨hasleep, hstacks, hawake, hframe⟩ := sleepDie_fields (s.dozed d c l) d
      have hcores : ((s.dozed d c l).sleepDie d).cores = (s.dozed d c l).cores := by rw [hframe]
      have hkept (k : Nat) : ((s.dozed d c l).sleepDie d).core k = (s.dozed d c l).core k := by rw [State.core, State.core, hcores]
      have hclusters : ((s.dozed d c l).sleepDie d).clusters = (s.dozed d c l).clusters := by rw [hframe]
      refine ⟨_, answer_eq_next hok (doze_some hl hst hbal hwaking hneeded hworks), ?_, fun k hk => ?_, fun k hk => ?_,
        fun h n x hx => ?_, fun h => ?_, ?_⟩
      · rw [State.cl, hclusters]
        exact hdoze
      · rw [hkept, hcore, if_pos hk]
      · rw [hkept, hcore, if_neg hk]
      · rw [hasleep] at h
        rw [hstacks h]
        refine getElem?_stacks (f := fun x => (x.1, x.1)) ?_
        rw [hdozed]
        exact hx
      · rw [hasleep] at h
        rw [hawake h, hdozed]
        exact ⟨rfl, rfl⟩
      · rw [hframe, hdozed]
    case off =>
      have hcore := modCluster_core (s.modCl d c (fun x => { x with st := .off })) d l offCore
      refine ⟨_, answer_eq_next hok (clusterOff_some hl hst hwaking hplaced hneeded), ?_, fun k hk => ?_, fun k hk => ?_, ?_⟩
      · rw [State.gated, modCluster_cl, cl_modCl]
      · rw [State.gated, hcore, if_pos hk]
        exact offCore_fields _
      · rw [State.gated, hcore, if_neg hk]
        rfl
      · rw [State.gated, modCluster_frame]
        generalize (State.modCluster _ _ _ _).cores = u
        rfl
    case wake =>
      obtain ⟨hrun, hdone, hcore, hframe⟩ := awake_fields s d c l
      refine ⟨_, answer_eq_next hok (wakeDone_some hl hwaking), hrun, hdone, fun k hk => (hcore k).trans (if_pos hk),
        fun k hk => (hcore k).trans (if_neg hk), ?_, fun n x hx => ?_, ?_⟩
      · rw [hframe]
      · rw [hframe]
        exact getElem?_stacks (f := fun x => (x.1, false)) hx
      · rw [hframe]
  case refresh =>
    intro s n hn
    refine answer_eq_next (decide_eq_true hn) ?_
    simp only [Bool.and_eq_true]

end Sys2Proof.Machine
end

/-! ## Self-test, repair, reset and start -/

section
namespace Sys2Proof.Machine
open Sys2Proof

/-! ### Slices and rounds of Grazer (14 R446 to R455) -/

section
variable {s : State} {t : Target} {x : Slice}

theorem nodup_targetCores (s : State) (t : Target) : (s.targetCores t).Nodup := by
  unfold State.targetCores
  split
  · split
    · exact nodup_clusterCores _ _
    · exact List.nodup_nil
  · cases s.logCore t.die t.cluster t.core with
    | none => exact List.nodup_nil
    | some k => exact List.nodup_cons.2 ⟨List.not_mem_nil, List.nodup_nil⟩

theorem modTarget_core (s : State) (t : Target) (f : Core → Core) (k : Nat) :
    (s.modTarget t f).core k = if k ∈ s.targetCores t then f (s.core k) else s.core k :=
  modCores_core_of f _ (nodup_targetCores s t) s k

theorem modTarget_frame (s : State) (t : Target) (f : Core → Core) : s.modTarget t f = { s with cores := (s.modTarget t f).cores } :=
  modCores_frame f _ s

/-! #### A slice starts (R388, R451, R455) -/

theorem sliceStart_starts (hmay : s.sliceMay t = true) (hawake : s.targetAwake t = true) :
    (∀ k, (s.sliceStart t).core k = if t.kind = 1 ∧ k ∈ s.targetCores t then zeroiseCore (s.core k) else s.core k) ∧
    s.sliceStart t = { s with
      grazer := { s.grazer with slices := s.grazer.slices ++ [⟨t, 0, s.sliceLimit t, s.pkg.aon % 2 ^ 32, 0, false, 0⟩] }
      dies := modAt s.dies t.die (fun d => { d with ballast := d.ballast - at' d.slicemW t.kind 0 })
      cores := (s.sliceStart t).cores } := by
  have hframe := modTarget_frame (s.modDie t.die (fun d => { d with ballast := d.ballast - at' d.slicemW t.kind 0 })) t zeroiseCore
  have hcore := modTarget_core (s.modDie t.die (fun d => { d with ballast := d.ballast - at' d.slicemW t.kind 0 })) t zeroiseCore
  unfold State.sliceStart
  rw [if_neg (by simp [hmay]), if_neg (by simp [hawake])]
  dsimp only
  by_cases hkind : t.kind = 1
  · rw [if_pos hkind]
    generalize State.modTarget _ t zeroiseCore = u at hframe hcore ⊢
    refine ⟨fun k => (hcore k).trans ?_, ?_⟩
    · simp only [hkind, true_and]
      rfl
    · rw [hframe]
      rfl
  · rw [if_neg hkind]
    refine ⟨fun k => ?_, rfl⟩
    rw [if_neg (fun h => hkind h.1)]
    rfl

/-! #### Units of a slice (R447) -/

theorem slice_t (hx : s.grazer.slices.find? (fun x => x.t == t) = some x) : x.t = t := by
  simpa using List.find?_some hx

theorem mark_setMark (g : Grazer) (t : Target) (n : Nat) : (g.setMark t n).mark t = n := by
  have hfound : ∀ l : List (Target × Nat), l.any (fun x => x.1 == t) = true →
      (l.map (fun x => if x.1 == t then (t, n) else x)).find? (fun x => x.1 == t) = some (t, n) := by
    intro l hl
    induction l with
    | nil => cases hl
    | cons x l ih =>
      rw [List.map_cons]
      by_cases hx : (x.1 == t) = true
      · rw [if_pos hx, List.find?_cons_of_pos (by simp)]
      · rw [if_neg hx, List.find?_cons_of_neg (p := fun x : Target × Nat => x.1 == t) hx]
        exact ih (by simpa [hx] using hl)
  unfold Grazer.mark Grazer.setMark
  dsimp only
  split
  · next hany => rw [hfound _ hany]; rfl
  · next hany =>
    have hnone : g.progress.find? (fun x => x.1 == t) = none := List.find?_eq_none.2 fun x hx h => hany (List.any_eq_true.2 ⟨x, hx, h⟩)
    rw [List.find?_append, hnone]
    simp

theorem unitEffect_frame (s : State) (t : Target) (p : Nat) : s.unitEffect t p = { s with cores := (s.unitEffect t p).cores } := by
  unfold State.unitEffect
  split
  · split <;> rfl
  · exact modTarget_frame ..
  · rfl

/-- What a completed unit leaves of the round and of its slice. -/
theorem unit_fields (hx : x.t = t) (n tried p q : Nat) (good : Bool) {u : State}
    (hu : u = (s.unitDone { x with tried := tried } (s.grazer.mark t + n) good p).unitEffect t q) :
    u.grazer.mark t = s.grazer.mark t + n ∧
      u.grazer.slices = s.grazer.slices.map (fun y => if y.t == t then
        { x with units := x.units + 1, tried := tried, failed := !good, bad := if good then x.bad else p } else y) ∧
      u = { s with
        grazer := { s.grazer with slices := u.grazer.slices, progress := u.grazer.progress }
        cores := u.cores } := by
  subst hx
  have hgrazer : u.grazer = (s.unitDone { x with tried := tried } (s.grazer.mark x.t + n) good p).grazer := by
    rw [hu, unitEffect_frame]
  refine ⟨?_, ?_, ?_⟩
  · rw [hgrazer]
    exact mark_setMark ..
  · rw [hgrazer]
    rfl
  · rw [hgrazer, hu, unitEffect_frame]
    rfl

/-! #### The end of a slice and of a round (R448, R449, R452, R453) -/

theorem spareRests_frame (s : State) (t : Target) : s.spareRests t = { s with clusters := (s.spareRests t).clusters } := by
  unfold State.spareRests
  split <;> rfl

theorem spareRests_logical (h : (s.logCluster t.die t.cluster).isSome = true ∨ 6 ≤ t.kind) : s.spareRests t = s := by
  unfold State.spareRests
  rw [if_neg]
  rcases h with h | h
  · obtain ⟨l, hl⟩ := Option.isSome_iff_exists.1 h
    simp [hl]
  · simp [Nat.not_lt.2 h]

theorem coverage_frame (s : State) : s.coverage = { s with
    pkg := { s.pkg with free := s.coverage.pkg.free }
    grazer := { s.grazer with regs := { s.grazer.regs with cov := s.coverage.grazer.regs.cov } } } := rfl

/-- The slice gone, with its report in the ring. -/
def State.reported (s : State) (x : Slice) (r : Nat) : State :=
  { s with grazer := { s.grazer with
    slices := s.grazer.slices.filter (fun y => y.t != x.t), regs := pushReport s.grazer.regs (s.sliceReport x r) } }

theorem ring_pushReport (r : GrzRegs) (w : List Word) (h : r.head ≤ r.ring.length) : (pushReport r w).ring[r.head]? = some w := by
  unfold pushReport
  dsimp only
  split
  · next hle =>
    have hlen : r.ring.length = r.head := by omega
    rw [← hlen, List.getElem?_concat_length]
  · next hlt => exact List.getElem?_set_self (by omega)

/-- What a slice that ends with a result leaves (R448, R455, R469). -/
theorem closeSlice_fields (s : State) (x : Slice) (r : Nat) {u : State} (hu : u = s.closeSlice x r) :
    u.grazer.slices = s.grazer.slices.filter (fun y => y.t != x.t) ∧ u.grazer.regs.slices = s.grazer.regs.slices + 1 ∧
      u.grazer.regs.head = (s.grazer.regs.head + 1) % 64 ∧
      (s.grazer.regs.head ≤ s.grazer.regs.ring.length → u.grazer.regs.ring[s.grazer.regs.head]? = some (s.sliceReport x r)) ∧
      ((s.logCluster x.t.die x.t.cluster).isSome = true ∨ 6 ≤ x.t.kind → u.clusters = s.clusters) ∧
      u = { s with grazer := u.grazer, cores := u.cores, clusters := u.clusters, pkg := { s.pkg with free := u.pkg.free } } := by
  obtain ⟨v, hv⟩ : ∃ v, v = if x.t.kind = 1 then (s.reported x r).modTarget x.t sheetsOff else s.reported x r := ⟨_, rfl⟩
  have hclose : u = (v.spareRests x.t).coverage := by rw [hu, hv]; rfl
  have hframe : v = { s.reported x r with cores := v.cores } := by
    rw [hv]
    split
    · exact modTarget_frame ..
    · rfl
  have hrests := spareRests_frame v x.t
  have hcover := coverage_frame (v.spareRests x.t)
  rw [← hclose] at hcover
  have hgrazer : (v.spareRests x.t).grazer = (s.reported x r).grazer := by rw [hrests, hframe]
  have hclusters : u.clusters = (v.spareRests x.t).clusters := by rw [hcover]
  have hring : u.grazer.regs = { (s.reported x r).grazer.regs with cov := u.grazer.regs.cov } := by
    rw [hcover, hgrazer]
  refine ⟨?_, ?_, ?_, fun h => ?_, fun h => ?_, ?_⟩
  · rw [hcover]
    exact congrArg Grazer.slices hgrazer
  · rw [hring]
    rfl
  · rw [hring]
    rfl
  · rw [hring]
    exact ring_pushReport s.grazer.regs _ h
  · have hsame : (v.logCluster x.t.die x.t.cluster).isSome = true ∨ 6 ≤ x.t.kind := by rw [hframe]; exact h
    rw [hclusters, spareRests_logical hsame, hframe]
    rfl
  · rw [hcover, hrests, hframe]
    rfl

theorem endRound_next (h : s.roundDone = true) : s.endRound = { s with grazer := { s.grazer with
    regs := s.endRound.grazer.regs
    progress := [], overran := false, roundStart := s.pkg.aon } } ∧ s.endRound.grazer.regs.rounds = s.grazer.regs.rounds + 1 ∧
    s.endRound.grazer.regs.last = s.grazer.regs.cov ∧ s.endRound.grazer.regs.cov = [0, 0, 0, 0] := by
  unfold State.endRound
  rw [if_neg (by simp [h])]
  exact ⟨rfl, rfl, rfl, rfl⟩

theorem endRound_same (h : s.roundDone = false) : s.endRound = s := by
  rw [State.endRound, if_pos (by simp [h])]

end

/-- Settles O40: slices that start, go on, end and stop, and rounds. -/
theorem slicesAndRounds : Obligations.SlicesAndRounds := by
  unfold Obligations.SlicesAndRounds
  refine ⟨?slices, ?rounds⟩
  case slices =>
    intro s t ht g
    have hstart : exec (.grazerSliceStart t) s = .next (s.sliceStart t) := answer_eq_next ht rfl
    have hunit (ok : Bool) (row : Nat) : exec (.sliceUnitDone t ok row) s = .next (s.sliceUnit t ok row) := answer_eq_next ht rfl
    have hend : exec (.sliceEnd t) s = .next (s.sliceEnd t) := answer_eq_next ht rfl
    have hstop : exec (.sliceStop t) s = .next (s.sliceStop t) := answer_eq_next ht rfl
    refine ⟨fun h => hstart.trans ?_, fun h hasleep => hstart.trans ?_, fun h hawake => ⟨_, hstart, sliceStart_starts h hawake⟩,
      fun hnone => ?none, fun x hx => ⟨fun hgood hmore ok row => ?unit, fun hfailed => ⟨hend.trans ?_, hstop.trans ?_⟩,
        fun hgood hdone => hend.trans ?_, fun hgood hmore hplane => hend.trans ?_, ?stopped⟩,
      fun x r => closeSlice_fields s x r rfl⟩
    case none =>
      have hfind : s.grazer.slices.find? (fun x => x.t == t) = none := List.find?_eq_none.2 fun x hx => by simpa using hnone x hx
      refine ⟨fun ok row => (hunit ok row).trans ?_, hend.trans ?_, hstop.trans ?_⟩
      · rw [State.sliceUnit, hfind]
      · rw [State.sliceEnd, hfind]
      · rw [State.sliceStop, hfind]
    case unit =>
      intro unit
      have hxt := slice_t hx
      have hdecides : s.sliceUnit t ok row = if t.kind = 3 then (match s.nextPlane x with
          | some p => (s.unitDone { x with tried := x.tried + 2 ^ p } (g.mark t + 2 ^ p) (s.planeGood t p ok) p).unitEffect t p
          | none => s) else (s.unitDone x (g.mark t + 1) ok row).unitEffect t 0 := by
        rw [State.sliceUnit, hx]
        exact if_neg (by simp [hgood, hmore])
      refine ⟨fun hkind => ?_, fun hkind hnone => (hunit ok row).trans ?_, fun hkind p hp => ?_⟩
      · rw [if_neg hkind] at hdecides
        exact ⟨_, (hunit ok row).trans (congrArg _ hdecides), unit_fields (x := x) hxt 1 x.tried row 0 ok rfl⟩
      · rw [hdecides, if_pos hkind, hnone]
      · rw [if_pos hkind, hp] at hdecides
        exact ⟨_, (hunit ok row).trans (congrArg _ hdecides), unit_fields (x := x) hxt (2 ^ p) (x.tried + 2 ^ p) p p _ rfl⟩
    case stopped =>
      intro hgood c
      refine hstop.trans ?_
      rw [State.sliceStop, hx]
      exact congrArg _ (if_neg (by simp [hgood]))
    · rw [State.sliceStart, if_pos (by simp [h])]
    · rw [State.sliceStart, if_neg (by simp [h]), if_pos (by simp [hasleep])]
    · rw [State.sliceEnd, hx]
      exact congrArg _ (if_pos hfailed)
    · rw [State.sliceStop, hx]
      exact congrArg _ (if_pos hfailed)
    · rw [State.sliceEnd, hx]
      refine congrArg _ ((if_neg (by simp [hgood])).trans (if_neg ?_))
      rcases hdone with h | ⟨hkind, h⟩
      · omega
      · simp [hkind, h]
    · rw [State.sliceEnd, hx]
      refine congrArg _ ((if_neg (by simp [hgood])).trans (if_pos ⟨hmore, hplane.imp id ?_⟩))
      exact fun h => Option.isSome_iff_ne_none.2 h
  case rounds =>
    intro s g
    refine ⟨fun hs ho => answer_eq_next rfl (if_pos (by simp [g] at *; simp [hs, ho])), fun h => answer_eq_next rfl (if_neg ?_), fun h => ?_, endRound_same⟩
    · rcases h with h | h <;> simp [g] at * <;> simp [h]
    · obtain ⟨hframe, hrounds, hlast, hcov⟩ := endRound_next h
      refine ⟨hrounds, ?_, ?_, ?_, hlast, hcov, ?_⟩ <;> rw [hframe]

/-! ### Sweeps (14 R450) -/

section
variable {s : State} {k e p : Nat}

/-- What a sweep does to a plane that fails, but for the plane: the fault is noted. -/
theorem sweepFails_eq (s : State) (hst : (s.planeAt (k, e, p)).st ≠ .empty) :
    s.sweepFails k e p = (if s.compares k e p then s.localFault.countSweepFail k else s.localFault).modPlane k e p Plane.suspect := by
  unfold State.sweepFails
  dsimp only
  rw [if_neg hst]

theorem sweepFails_frame (s : State) (hst : (s.planeAt (k, e, p)).st ≠ .empty) : s.sweepFails k e p = { s with
    cores := (s.sweepFails k e p).cores, flt := (s.sweepFails k e p).flt
    pkg := { s.pkg with faultPulse := (s.sweepFails k e p).pkg.faultPulse } } := by
  rw [sweepFails_eq s hst]
  split <;> rfl

theorem sweepFails_planeAt (s : State) (hst : (s.planeAt (k, e, p)).st ≠ .empty) (y : Nat × Nat × Nat) :
    (s.sweepFails k e p).planeAt y = if y = (k, e, p) then (s.planeAt y).suspect else s.planeAt y := by
  have hsame (x : Nat × Nat × Nat) : (if s.compares k e p then s.localFault.countSweepFail k else s.localFault).planeAt x = s.planeAt x := by
    split
    · exact planeAt_modArr s.localFault k _ x
    · rfl
  rw [sweepFails_eq s hst, planeAt_modPlane]
  simp only [hsame]
  split
  · next h => rw [h]
  · rfl

/-- The planes that fail, one after the other. -/
theorem sweepAll_planeAt (l : List Nat) (hl : l.Nodup) (s : State) (hst : ∀ p ∈ l, (s.planeAt (k, e, p)).st ≠ .empty) :
    (∀ y, (l.foldl (fun s p => s.sweepFails k e p) s).planeAt y =
      if y.1 = k ∧ y.2.1 = e ∧ y.2.2 ∈ l then (s.planeAt y).suspect else s.planeAt y) ∧
    l.foldl (fun s p => s.sweepFails k e p) s = { s with
      cores := (l.foldl (fun s p => s.sweepFails k e p) s).cores, flt := (l.foldl (fun s p => s.sweepFails k e p) s).flt
      pkg := { s.pkg with faultPulse := (l.foldl (fun s p => s.sweepFails k e p) s).pkg.faultPulse } } := by
  induction l generalizing s with
  | nil => exact ⟨fun y => by simp, rfl⟩
  | cons p l ih =>
    rw [List.nodup_cons] at hl
    have hp := sweepFails_planeAt s (hst p List.mem_cons_self)
    obtain ⟨hplanes, hframe⟩ := ih hl.2 (s.sweepFails k e p) fun q hq => by
      rw [hp, if_neg (fun h => hl.1 (by cases h; exact hq))]
      exact hst q (List.mem_cons_of_mem _ hq)
    refine ⟨fun y => ?_, ?_⟩
    · rw [List.foldl_cons, hplanes, hp]
      obtain ⟨a, b, c⟩ := y
      simp only [Prod.mk.injEq, List.mem_cons]
      by_cases hplace : a = k ∧ b = e
      · obtain ⟨rfl, rfl⟩ := hplace
        by_cases hc : c = p
        · subst hc
          simp [hl.1]
        · simp [hc]
      · have hother (q : Prop) : ¬ (a = k ∧ b = e ∧ q) := fun h => hplace ⟨h.1, h.2.1⟩
        rw [if_neg (hother _), if_neg (hother _), if_neg (hother _)]
    · rw [List.foldl_cons, hframe, sweepFails_frame s (hst p List.mem_cons_self)]

theorem clearDyns_planeAt (l : List Nat) (hl : l.Nodup) (s : State) (y : Nat × Nat × Nat) :
    (l.foldl (fun s p => s.modPlane k e p clearDyn) s).planeAt y =
      if y.1 = k ∧ y.2.1 = e ∧ y.2.2 ∈ l then clearDyn (s.planeAt y) else s.planeAt y := by
  induction l generalizing s with
  | nil => simp
  | cons p l ih =>
    rw [List.nodup_cons] at hl
    rw [List.foldl_cons, ih hl.2, planeAt_modPlane]
    obtain ⟨a, b, c⟩ := y
    simp only [Prod.mk.injEq, List.mem_cons]
    by_cases hplace : a = k ∧ b = e
    · obtain ⟨rfl, rfl⟩ := hplace
      by_cases hc : c = p
      · subst hc
        simp [hl.1]
      · simp [hc]
    · have hother (q : Prop) : ¬ (a = k ∧ b = e ∧ q) := fun h => hplace ⟨h.1, h.2.1⟩
      rw [if_neg (hother _), if_neg (hother _), if_neg (hother _)]

theorem clearDyns_frame (l : List Nat) (s : State) : l.foldl (fun s p => s.modPlane k e p clearDyn) s =
    { s with cores := (l.foldl (fun s p => s.modPlane k e p clearDyn) s).cores } := by
  induction l generalizing s with
  | nil => rfl
  | cons p l ih =>
    rw [List.foldl_cons, ih]
    rfl

/-- The planes of an engine that fail a sweep. -/
def State.sweepBad (s : State) (k e : Nat) (v : Bool) : List Nat :=
  (s.sweepPlanes k e).filter (fun p => !(s.compares k e p) || (!v && (s.planeAt (k, e, p)).st != .empty))

theorem mem_sweepPlanes {q : Nat} : q ∈ s.sweepPlanes k e ↔ q < 8 ∧ s.sweepSkips k e q = false := by
  simp [State.sweepPlanes]

theorem sweep_sweeps {v : Bool} (hmay : s.mayStart ⟨4, s.engineTarget k e⟩ = true) (hpass : (s.core k).passOn e = false)
    (hsub : s.substBlocks k [e] = false) (hempty : ∀ p, (s.planeAt (k, e, p)).st = .empty → p < 8 → s.compares k e p = true) :
    (∀ y, (s.sweep k e v).planeAt y = if y.1 = k ∧ y.2.1 = e ∧ y.2.2 ∈ s.sweepPlanes k e then
      clearDyn (if y.2.2 ∈ s.sweepBad k e v then (s.planeAt y).suspect else s.planeAt y) else s.planeAt y) ∧
    s.sweep k e v = { s with
      cores := (s.sweep k e v).cores, flt := (s.sweep k e v).flt
      pkg := { s.pkg with faultPulse := (s.sweep k e v).pkg.faultPulse } } := by
  have hsweep : s.sweep k e v = (s.sweepPlanes k e).foldl (fun s p => s.modPlane k e p clearDyn)
      ((s.sweepBad k e v).foldl (fun s p => s.sweepFails k e p) s) := by
    unfold State.sweep
    rw [if_neg (by simp [hmay, hpass, hsub])]
    rfl
  have hnodup : (s.sweepPlanes k e).Nodup := List.nodup_range.filter _
  have hst (p : Nat) (hp : p ∈ s.sweepBad k e v) : (s.planeAt (k, e, p)).st ≠ .empty := by
    obtain ⟨hin, hbad⟩ := List.mem_filter.1 hp
    intro h
    simp [h, hempty p h (mem_sweepPlanes.1 hin).1] at hbad
  obtain ⟨hplanes, hframe⟩ := sweepAll_planeAt (k := k) (e := e) (s.sweepBad k e v) (hnodup.filter _) s hst
  rw [hsweep]
  refine ⟨fun y => ?_, ?_⟩
  · rw [clearDyns_planeAt _ hnodup, hplanes]
    by_cases hy : y.1 = k ∧ y.2.1 = e ∧ y.2.2 ∈ s.sweepPlanes k e
    · rw [if_pos hy, if_pos hy]
      simp only [hy.1, hy.2.1, true_and]
    · have hno : ¬ (y.1 = k ∧ y.2.1 = e ∧ y.2.2 ∈ s.sweepBad k e v) := fun h => hy ⟨h.1, h.2.1, (List.mem_filter.1 h.2.2).1⟩
      rw [if_neg hy, if_neg hy, if_neg hno]
  · rw [clearDyns_frame, hframe]

/-- A plane that is swept and not EMPTY is LIVE. -/
theorem suspect_swept (hskip : s.sweepSkips k e p = false) :
    (s.planeAt (k, e, p)).suspect = { s.planeAt (k, e, p) with st := .fenced, doubt := true } := by
  unfold State.sweepSkips at hskip
  unfold Plane.suspect
  cases hst : (s.planeAt (k, e, p)).st <;> simp [hst] at hskip ⊢

end

/-! ### Marches (R459 to R464) -/

section
variable {s : State} {t : Target}

/-- The march of `t` is over, and a spare cluster rests. -/
def State.marchGone (s : State) (t : Target) : State :=
  ({ s with grazer := { s.grazer with marches := s.grazer.marches.filter (fun x => x.1 != t) } } : State).spareRests t

theorem marchGone_frame (s : State) (t : Target) : s.marchGone t = { s with
    grazer := { s.grazer with marches := s.grazer.marches.filter (fun x => x.1 != t) }
    clusters := (s.marchGone t).clusters } := by
  rw [State.marchGone, spareRests_frame]

/-- Whether a spare cluster rests does not turn on its cores: it has none. -/
theorem spareRests_cores (s : State) (t : Target) (c : Tbl Core) :
    ({ s with cores := c } : State).spareRests t = { s.spareRests t with cores := c } := by
  have hlog : ({ s with cores := c } : State).logCluster t.die t.cluster = s.logCluster t.die t.cluster := rfl
  have hrests : (decide (t.kind < 6) && (({ s with cores := c } : State).logCluster t.die t.cluster).isNone &&
      !(({ s with cores := c } : State).clusterWorks t.die t.cluster)) =
      (decide (t.kind < 6) && (s.logCluster t.die t.cluster).isNone && !(s.clusterWorks t.die t.cluster)) := by
    cases hl : s.logCluster t.die t.cluster with
    | some l => simp [hlog, hl]
    | none => simp only [State.clusterWorks, hlog, hl]
  unfold State.spareRests
  rw [hrests]
  by_cases h : (decide (t.kind < 6) && (s.logCluster t.die t.cluster).isNone && !(s.clusterWorks t.die t.cluster)) = true
  · rw [if_pos h, if_pos h]
    rfl
  · rw [if_neg h, if_neg h]

/-- What follows of the march's result, once it is gone. -/
theorem marchEnd_eq {b : Bool} (h : s.grazer.marches.find? (fun m => m.1 == t) = some (t, b)) (rows : List Nat) (hkeep : b = true ∨ t.kind ≠ 5) :
    s.marchEnd t rows = if t.kind < 4 then
        if rows.isEmpty then s.marchGone t else (s.marchGone t).spareFails (if t.kind = 1 then 3 else if t.kind = 2 then 4 else 2) t
      else (s.marchGone t).rowsFail t rows := by
  have hmarched (u : State) : u.marched t b = u := if_pos (hkeep.imp id id)
  have hlevel : (match t.kind with | 1 => 3 | 2 => 4 | _ => 2) = if t.kind = 1 then 3 else if t.kind = 2 then 4 else 2 := by
    split
    · next h1 => rw [if_pos h1]
    · next h2 => rw [if_neg (by omega), if_pos h2]
    · next h1 h2 => rw [if_neg h1, if_neg h2]
  unfold State.marchEnd
  rw [h]
  dsimp only
  rw [hmarched, ← hlevel]
  rfl

theorem rowsFail_nil (s : State) (t : Target) : s.rowsFail t [] = s := by
  simp [State.rowsFail]

/-- A march that finds nothing leaves its target as it is, but for what a destructive one erases. -/
theorem marchEnd_good {b : Bool} (h : s.grazer.marches.find? (fun m => m.1 == t) = some (t, b)) (hkeep : b = true ∨ t.kind ≠ 5) :
    s.marchEnd t [] = s.marchGone t := by
  rw [marchEnd_eq h [] hkeep, rowsFail_nil]
  simp

/-- What a destructive march leaves of a core's tile registers. -/
def Core.erased (c : Core) : Core := { c with mem := { c.mem with treg := [], rowTag := [], tregBad := [], tagBad := [] } }

theorem marchEnd_erases (h : s.grazer.marches.find? (fun m => m.1 == t) = some (t, false)) (hkind : t.kind = 5) :
    (∀ k, (s.marchEnd t []).core k = if k ∈ s.targetCores t then (s.core k).erased else s.core k) ∧
      s.marchEnd t [] = { s.marchGone t with cores := (s.marchEnd t []).cores } := by
  obtain ⟨u, hu⟩ : ∃ u, u = State.modTarget { s with grazer := { s.grazer with marches := s.grazer.marches.filter (fun x => x.1 != t) } } t
    Core.erased := ⟨_, rfl⟩
  have hend : s.marchEnd t [] = u.spareRests t := by
    unfold State.marchEnd
    rw [h, hu]
    dsimp only
    rw [if_neg (by omega), rowsFail_nil, State.marched, if_neg (by simp [hkind])]
    rfl
  have hcore (k : Nat) : u.core k = if k ∈ s.targetCores t then (s.core k).erased else s.core k := by
    rw [hu]
    exact modTarget_core _ t Core.erased k
  have hframe : u = { s with grazer := { s.grazer with marches := s.grazer.marches.filter (fun x => x.1 != t) }, cores := u.cores } := by
    rw [hu, modTarget_frame]
  have hrests : u.spareRests t = { s.marchGone t with cores := u.cores } := by
    have hcores := spareRests_cores { s with grazer := { s.grazer with marches := s.grazer.marches.filter (fun x => x.1 != t) } } t u.cores
    rw [← hframe] at hcores
    exact hcores
  rw [hend, hrests]
  exact ⟨hcore, rfl⟩

/-- A unit out of service that fails. -/
theorem spareFails_eq (s : State) (lv : Nat) (t : Target) {key : Nat × Nat × Nat × Nat × Nat} (hkey : key = unitKey lv t) :
    s.spareFails lv t = if key ∈ s.maps.bad ∧ key ∉ s.maps.retest then s
      else (if key ∈ s.maps.bad then s else { s with maps := { s.maps with bad := key :: s.maps.bad } }).addDue t.die
        (repairRecord lv t.cluster (if lv = 4 then 0 else t.core) (if lv = 2 then t.engine else 0) 0 0 0) := by
  subst hkey
  unfold State.spareFails State.leavePool
  simp only [Bool.and_eq_true, Bool.not_eq_true', List.contains_eq_mem, decide_eq_true_eq, decide_eq_false_iff_not]

theorem spareFails_bad (s : State) (lv : Nat) (t : Target) : unitKey lv t ∈ (s.spareFails lv t).maps.bad := by
  rw [spareFails_eq s lv t rfl]
  split
  · next h => exact h.1
  · rw [addDue_maps]
    split
    · assumption
    · exact List.mem_cons_self

theorem leavePool_bad (lv : Nat) (h : unitKey lv t ∈ s.maps.bad) : s.leavePool lv t = s := by
  unfold State.leavePool
  rw [if_pos (by simpa using h)]

/-! #### Soft repair (R462 to R464) -/

theorem rep_modRep (s : State) {d : Nat} (hd : d < s.repair.length) (f : Repair → Repair) (j : Nat) :
    (s.modRep d f).rep j = if j = d then f (s.rep j) else s.rep j := at'_modAt s.repair hd f j _

theorem rep_addDue (s : State) (d r j : Nat) : (s.addDue d r).rep j = { s.rep j with due := ((s.addDue d r).rep j).due } := by
  unfold State.addDue
  split
  · by_cases hd : d < s.repair.length
    · rw [rep_modRep s hd]
      by_cases hj : j = d
      · rw [if_pos hj]
        split <;> rfl
      · rw [if_neg hj]
    · rw [State.modRep, at'_modAt_out hd]
  · rfl

theorem rep_addDue_ne (s : State) {d j : Nat} (r : Nat) (hj : j ≠ d) : (s.addDue d r).rep j = s.rep j := by
  unfold State.addDue
  split
  · by_cases hd : d < s.repair.length
    · rw [rep_modRep s hd, if_neg hj]
    · rw [State.modRep, at'_modAt_out hd]
  · rfl

/-- A row that takes a spare: its segment has one fewer left, and its record is due. -/
def State.rowSpared (s : State) (t : Target) (row : Nat) : State :=
  (s.modRep t.die (fun r => { r with
    spares := Tbl.setNum r.spares (segmentOf t row) (Tbl.num r.spares (segmentOf t row) + 1)
    event := setBit r.event 0, soft := inc r.soft })).addDue t.die (rowRecord t row)

theorem softRepair_spare {row : Nat} (h : Tbl.num (s.rep t.die).spares (segmentOf t row) < 4) :
    s.softRepair t row = (s.rowSpared t row).mend t := by
  unfold State.softRepair
  dsimp only
  rw [if_pos h]
  rfl

/-- A segment with no spare row left. -/
def State.rowOut (s : State) (t : Target) : State :=
  s.modRep t.die (fun r => { r with event := setBit r.event 2, rowsOut := r.rowsOut + 1 })

theorem softRepair_out {row : Nat} (h : 4 ≤ Tbl.num (s.rep t.die).spares (segmentOf t row)) :
    s.softRepair t row = (s.rowOut t).rowLost t row := by
  unfold State.softRepair
  dsimp only
  rw [if_neg (by omega)]
  rfl

theorem rowSpared_frame (s : State) (t : Target) (row : Nat) : s.rowSpared t row = { s with repair := (s.rowSpared t row).repair } := by
  rw [State.rowSpared, addDue_frame]
  rfl

theorem rowSpared_rep {row : Nat} (hin : t.die < s.repair.length) (d : Nat) :
    (d = t.die → (∀ j, Tbl.num ((s.rowSpared t row).rep d).spares j = if j = segmentOf t row
        then Tbl.num (s.rep d).spares (segmentOf t row) + 1 else Tbl.num (s.rep d).spares j) ∧
      ((s.rowSpared t row).rep d).soft = (s.rep d).soft + 1) ∧
    (d ≠ t.die → (s.rowSpared t row).rep d = s.rep d) := by
  refine ⟨fun hd => ?_, fun hd => ?_⟩
  · rw [State.rowSpared, rep_addDue, rep_modRep s hin, if_pos hd]
    refine ⟨fun j => ?_, rfl⟩
    dsimp only
    rw [Tbl_num_setNum]
  · rw [State.rowSpared, rep_addDue_ne _ _ hd, rep_modRep s hin, if_neg hd]

/-- A core under diagnosis whose scratchpad row has been repaired. -/
def Core.mendIf (c : Core) : Core := { c with mended := c.mended || c.diag }

theorem mend_frame (s : State) (t : Target) : s.mend t = { s with cores := (s.mend t).cores } := by
  unfold State.mend
  split
  · exact modTarget_frame ..
  · rfl

theorem mend_core (s : State) (t : Target) (k : Nat) : (s.mend t).core k =
    if t.kind = 4 ∧ k ∈ s.targetCores t ∧ (s.core k).diag = true then { s.core k with mended := true } else s.core k := by
  unfold State.mend
  by_cases hkind : t.kind = 4
  · have hcore := modTarget_core s t Core.mendIf k
    rw [if_pos hkind]
    refine hcore.trans ?_
    by_cases hk : k ∈ s.targetCores t
    · cases hdiag : (s.core k).diag with
      | true => simp [hkind, hk, Core.mendIf, hdiag]
      | false =>
        have hsame : (s.core k).mendIf = s.core k := by
          rw [Core.mendIf, show ((s.core k).mended || (s.core k).diag) = (s.core k).mended by rw [hdiag, Bool.or_false]]
        simp [hk, hsame]
    · simp [hk]
  · rw [if_neg hkind, if_neg (fun h => hkind h.1)]

theorem leavePool_frame (s : State) (lv : Nat) (t : Target) : s.leavePool lv t = { s with maps := { s.maps with bad := (s.leavePool lv t).maps.bad } } := by
  unfold State.leavePool
  split <;> rfl

theorem mem_leavePool (s : State) (lv : Nat) (t : Target) : unitKey lv t ∈ (s.leavePool lv t).maps.bad := by
  unfold State.leavePool
  split
  · next h => simpa using h
  · exact List.mem_cons_self

theorem rowsFail_one (s : State) (t : Target) (row : Nat) : s.rowsFail t [row] =
    if t.kind = 6 ∨ s.targetCores t ≠ [] then s.softRepair t row else (s.softRepair t row).leavePool 3 t := by
  simp [State.rowsFail]

/-- A row with a spare left, of a march that preserves. -/
theorem rowsFail_spared {row : Nat} (hin : t.die < s.repair.length) (h : Tbl.num (s.rep t.die).spares (segmentOf t row) < 4) {u : State}
    (hu : u = s.rowsFail t [row]) :
    (∀ j, Tbl.num (u.rep t.die).spares j = if j = segmentOf t row then Tbl.num (s.rep t.die).spares (segmentOf t row) + 1
      else Tbl.num (s.rep t.die).spares j) ∧
    (u.rep t.die).soft = (s.rep t.die).soft + 1 ∧ (∀ d, d ≠ t.die → u.rep d = s.rep d) ∧
    (∀ k, u.core k = if t.kind = 4 ∧ k ∈ s.targetCores t ∧ (s.core k).diag = true then { s.core k with mended := true } else s.core k) ∧
    (t.kind = 6 ∨ s.targetCores t ≠ [] → u.maps = s.maps) ∧
    (t.kind ≠ 6 → s.targetCores t = [] → (3, t.die, t.cluster, t.core, 0) ∈ u.maps.bad) ∧
    u = { s with repair := u.repair, cores := u.cores, maps := { s.maps with bad := u.maps.bad } } := by
  obtain ⟨v, hv⟩ : ∃ v, v = (s.rowSpared t row).mend t := ⟨_, rfl⟩
  have hrows : u = if t.kind = 6 ∨ s.targetCores t ≠ [] then v else v.leavePool 3 t := by
    rw [hu, rowsFail_one, softRepair_spare h, hv]
  have hspared := rowSpared_frame s t row
  have hframe : v = { s with repair := (s.rowSpared t row).repair, cores := v.cores } := by
    rw [hv, mend_frame, hspared]
  have hcore (k : Nat) : v.core k = if t.kind = 4 ∧ k ∈ s.targetCores t ∧ (s.core k).diag = true
      then { s.core k with mended := true } else s.core k := by
    rw [hv, mend_core, hspared]
    rfl
  have hpool : u = { v with maps := { v.maps with bad := u.maps.bad } } := by
    rw [hrows]
    split
    · rfl
    · exact leavePool_frame ..
  have hrepair : u.repair = (s.rowSpared t row).repair := by rw [hpool, hframe]
  have hrep (d : Nat) : u.rep d = (s.rowSpared t row).rep d := by rw [State.rep, State.rep, hrepair]
  obtain ⟨hspares, hsoft⟩ := (rowSpared_rep (row := row) hin t.die).1 rfl
  refine ⟨fun j => ?_, ?_, fun d hd => ?_, fun k => ?_, fun hkind => ?_, fun hkind hnone => ?_, ?_⟩
  · rw [hrep, hspares]
  · rw [hrep, hsoft]
  · rw [hrep, (rowSpared_rep hin d).2 hd]
  · rw [← hcore k, hpool]
    rfl
  · rw [hrows, if_pos hkind, hframe]
  · rw [hrows, if_neg (fun h => h.elim hkind fun h => h hnone)]
    exact mem_leavePool v 3 t
  · rw [hpool, hframe]

/-- The line is among the bad ones of its die. -/
theorem lineRetired (s : State) {d : Nat} (hd : d < s.dsm.length) (bank line : Nat) :
    (bank, line) ∈ ((s.modDsm d (fun x =>
      if x.badLines.contains (bank, line) then x else { x with badLines := x.badLines ++ [(bank, line)] })).dsmOf d).badLines := by
  have hown (f : Dsm → Dsm) : (s.modDsm d f).dsmOf d = f (s.dsmOf d) := (at'_modAt s.dsm hd f d _).trans (if_pos rfl)
  rw [hown]
  split
  · next h => simpa using h
  · exact List.mem_append_right _ (List.mem_singleton_self _)

/-- A row with no spare left, of a bank: its line is retired. -/
theorem rowsFail_bank {row : Nat} (h : 4 ≤ Tbl.num (s.rep t.die).spares (segmentOf t row)) (hkind : t.kind = 6) :
    s.rowsFail t [row] = if regionOf t.die t.bank = .rs
      then ((s.rowOut t).modRep t.die (fun r => { r with retired := r.retired + 1 })).badRs t.die t.bank (row % 16384)
      else ((s.rowOut t).modRep t.die (fun r => { r with retired := r.retired + 1 })).modDsm t.die (fun d =>
        if d.badLines.contains (t.bank, row % 16384) then d else { d with badLines := d.badLines ++ [(t.bank, row % 16384)] }) := by
  rw [rowsFail_one, if_pos (.inl hkind), softRepair_out h, State.rowLost, if_pos hkind]
  rfl

/-- A row of a bank outside the routine store with no spare left retires its line. -/
theorem rowsFail_retires {row : Nat} (h : 4 ≤ Tbl.num (s.rep t.die).spares (segmentOf t row)) (hkind : t.kind = 6)
    (hrs : regionOf t.die t.bank ≠ .rs) (hin : t.die < s.repair.length) (hdsm : t.die < s.dsm.length) {u : State}
    (hu : u = s.rowsFail t [row]) :
    (u.rep t.die).retired = (s.rep t.die).retired + 1 ∧ (u.rep t.die).rowsOut = (s.rep t.die).rowsOut + 1 ∧
      (t.bank, row % 16384) ∈ (u.dsmOf t.die).badLines ∧ u = { s with repair := u.repair, dsm := u.dsm } := by
  rw [rowsFail_bank h hkind, if_neg hrs] at hu
  have hout : (s.rowOut t).rep t.die = { s.rep t.die with event := setBit (s.rep t.die).event 2, rowsOut := (s.rep t.die).rowsOut + 1 } :=
    (rep_modRep s hin _ t.die).trans (if_pos rfl)
  have hlen : t.die < (s.rowOut t).repair.length := by
    rw [State.rowOut, State.modRep, length_modAt]
    exact hin
  have hrep := (rep_modRep (s.rowOut t) hlen (fun r => { r with retired := r.retired + 1 }) t.die).trans (if_pos rfl)
  rw [hout] at hrep
  have hline := lineRetired ((s.rowOut t).modRep t.die (fun r => { r with retired := r.retired + 1 })) (d := t.die) hdsm
    t.bank (row % 16384)
  subst hu
  exact ⟨congrArg Repair.retired hrep, congrArg Repair.rowsOut hrep, hline, rfl⟩

theorem rowsFail_core {row k : Nat} (h : 4 ≤ Tbl.num (s.rep t.die).spares (segmentOf t row)) (hkind : t.kind ≠ 6)
    (hk : (s.targetCores t).head? = some k) : s.rowsFail t [row] = (s.rowOut t).beginSubst 3 3 k 0 := by
  have hcores : (s.rowOut t).targetCores t = s.targetCores t := rfl
  rw [rowsFail_one, if_pos (.inr (fun h0 => by simp [h0] at hk)), softRepair_out h, State.rowLost, if_neg hkind, hcores]
  cases hl : s.targetCores t with
  | nil => rw [hl] at hk; cases hk
  | cons j l =>
    rw [hl] at hk
    obtain rfl : j = k := by simpa using hk
    rfl

theorem rowsFail_spare {row : Nat} (h : 4 ≤ Tbl.num (s.rep t.die).spares (segmentOf t row)) (hkind : t.kind ≠ 6)
    (hnone : s.targetCores t = []) : s.rowsFail t [row] = (s.rowOut t).spareFails 3 t := by
  have hcores : (s.rowOut t).targetCores t = [] := hnone
  rw [rowsFail_one, if_neg (fun h => h.elim hkind fun h => h hnone), softRepair_out h, State.rowLost, if_neg hkind, hcores]
  exact leavePool_bad 3 (spareFails_bad _ 3 t)

end

/-! ### Fuse burns (R465 to R468) -/

/-- A burn without the tally of the slots left. -/
def burnOnce (r : Nat) (ok : Bool) (x : Repair) : Repair :=
  if ok then { x with event := setBit x.event 1, hard := inc x.hard, due := x.due.filter (fun y => y != r) }
  else { x with
    event := setBit x.event 4, burnFail := inc x.burnFail
    due := if x.records.any (fun y => y.1 == r && !y.2) then x.due.filter (fun y => y != r)
      else if x.due.contains r then x.due else x.due ++ [r] }

theorem burnRecord_fields {r : Nat} {x : Repair} (hdue : r ∈ x.due) (ok : Bool) :
    (burnRecord r ok x).records = x.records ++ [(r, ok)] ∧
      (burnRecord r ok x).hard = (if ok then x.hard + 1 else x.hard) ∧
      (burnRecord r ok x).burnFail = (if ok then x.burnFail else x.burnFail + 1) ∧
      (burnRecord r ok x).low = (if x.records.length = 3840 then x.low + 1 else x.low) ∧
      (r ∈ (burnRecord r ok x).due ↔ ok = false ∧ (r, false) ∉ x.records) := by
  have hagain : x.records.any (fun y => y.1 == r && !y.2) = true ↔ (r, false) ∈ x.records := by
    rw [List.any_eq_true]
    constructor
    · rintro ⟨⟨a, b⟩, hin, h⟩
      obtain ⟨rfl, rfl⟩ : a = r ∧ b = false := by simpa using h
      exact hin
    · exact fun h => ⟨_, h, by simp⟩
  have hlow : (x.records.length + 1 = 3841) = (x.records.length = 3840) := by
    rw [Nat.add_right_cancel_iff (n := 1) (m := x.records.length) (k := 3840)]
  have hburned : burnRecord r ok x = { burnOnce r ok x with
      event := if x.records.length = 3840 then setBit (burnOnce r ok x).event 3 else (burnOnce r ok x).event
      low := if x.records.length = 3840 then inc (burnOnce r ok x).low else (burnOnce r ok x).low
      records := (burnOnce r ok x).records ++ [(r, ok)] } := by
    have hburn : burnRecord r ok x = (let y := if x.records.length + 1 = 3841
        then { burnOnce r ok x with event := setBit (burnOnce r ok x).event 3, low := inc (burnOnce r ok x).low } else burnOnce r ok x
      { y with records := y.records ++ [(r, ok)] }) := rfl
    rw [hburn]
    by_cases h : x.records.length = 3840
    · simp only [h, if_true]
    · simp only [Nat.reduceEqDiff, h, if_false]
  rw [hburned]
  unfold burnOnce
  cases ok with
  | true => exact ⟨rfl, rfl, rfl, rfl, by simp⟩
  | false =>
    refine ⟨rfl, rfl, rfl, rfl, ?_⟩
    dsimp only
    by_cases h : (r, false) ∈ x.records
    · simp [hagain.2 h, h]
    · simp [Bool.eq_false_iff.2 (fun hc => h (hagain.1 hc)), h, hdue]

/-- Settles O41: sweeps, marches, soft repair, fuse burns, and the end of a wipe. -/
theorem sweepsAndMarches : Obligations.SweepsAndMarches := by
  unfold Obligations.SweepsAndMarches
  refine ⟨?sweeps, ?starts, ?marches, ?rows, ?burns, fun s => answer_eq_next rfl rfl⟩
  case sweeps =>
    intro s0 k e v hk he s good
    have hexec : exec (.bellwetherSweep k e v) s0 = .next (s.sweep k e v) := answer_eq_next (by simp [hk, he]) rfl
    refine ⟨fun hno => hexec.trans ?_, fun hmay hpass hsub hempty => ?_, fun p hst hbad => ?_⟩
    · rw [State.sweep, if_pos (by simpa using hno)]
    · obtain ⟨hplanes, hframe⟩ := sweep_sweeps (v := v) hmay hpass hsub hempty
      have hgood (p : Nat) (hin : p ∈ s.sweepPlanes k e) : p ∈ s.sweepBad k e v ↔ good p = false := by
        simp only [State.sweepBad, List.mem_filter, hin, true_and, good]
        cases s.compares k e p <;> cases v <;> simp
      refine ⟨_, hexec, fun p hp => ?_, fun p hp hskip h => ?_, fun p hp hskip h => ?_, fun x hx => ?_, hframe⟩
      · rw [hplanes, if_neg]
        rintro ⟨-, -, hin⟩
        obtain ⟨hlt, hskip⟩ := mem_sweepPlanes.1 hin
        rcases hp with hp | hp
        · exact absurd hlt (Nat.not_lt.2 hp)
        · exact Bool.false_ne_true (hskip.symm.trans hp)
      · have hin := mem_sweepPlanes.2 ⟨hp, hskip⟩
        rw [hplanes, if_pos ⟨rfl, rfl, hin⟩, if_neg (fun hb => by simp [(hgood p hin).1 hb] at h)]
      · have hin := mem_sweepPlanes.2 ⟨hp, hskip⟩
        rw [hplanes, if_pos ⟨rfl, rfl, hin⟩, if_pos ((hgood p hin).2 h), suspect_swept hskip]
      · rw [hplanes, if_neg (fun h => hx.elim (fun hx => hx h.1) fun hx => hx h.2.1)]
    · unfold State.sweepFails
      dsimp only
      rw [if_pos hst, if_neg (by simp [hbad])]
  case starts =>
    intro s t b ht
    refine answer_eq_next ht (ite_congr (propext ?_) (fun _ => rfl) (fun _ => rfl))
    simp [and_assoc]
  case marches =>
    intro s t b ht hfind gone out
    have hexec (rows : List Nat) : exec (.marchDone t rows) s = .next (s.marchEnd t rows) := answer_eq_next ht rfl
    refine ⟨fun hkeep => (hexec []).trans (congrArg _ (marchEnd_good hfind hkeep)), fun hb hkind => ?_, fun row rows => ⟨fun hkind => ?_,
      fun hkind => ?_, fun hkind => ?_⟩⟩
    · subst hb
      obtain ⟨hcore, hframe⟩ := marchEnd_erases hfind hkind
      exact ⟨_, hexec [], hcore, hframe⟩
    · have hend := marchEnd_eq hfind (row :: rows) (.inr (by omega))
      rw [if_pos (by omega), if_neg (by simp), if_pos hkind, spareFails_eq _ 3 t rfl] at hend
      exact (hexec (row :: rows)).trans (congrArg _ hend)
    · have hend := marchEnd_eq hfind (row :: rows) (.inr (by omega))
      rw [if_pos (by omega), if_neg (by simp), if_neg (by omega), if_pos hkind, spareFails_eq _ 4 t rfl] at hend
      exact (hexec (row :: rows)).trans (congrArg _ hend)
    · have hend := marchEnd_eq hfind (row :: rows) (.inr (by omega))
      rw [if_pos (by omega), if_neg (by simp), if_neg (by omega), if_neg (by omega), spareFails_eq _ 2 t rfl] at hend
      exact (hexec (row :: rows)).trans (congrArg _ hend)
  case rows =>
    intro s t row ht hfind hkind hin seg gone
    have hexec : exec (.marchDone t [row]) s = .next (gone.rowsFail t [row]) := by
      refine answer_eq_next ht ((marchEnd_eq hfind [row] (.inl rfl)).trans (if_neg (by omega)))
    have hgone : gone = _ := marchGone_frame s t
    have hrepair : gone.repair = s.repair := by rw [hgone]
    have hrep (d : Nat) : gone.rep d = s.rep d := by rw [State.rep, State.rep, hrepair]
    have hcores : gone.targetCores t = s.targetCores t := by rw [hgone]; rfl
    refine ⟨fun hspare => ?_, ?out⟩
    · obtain ⟨hspares, hsoft, hother, hcore, hmaps, hbad, hframe⟩ := rowsFail_spared (s := gone) (t := t) (row := row)
        (by rw [hrepair]; exact hin) (by rw [hrep]; exact hspare) rfl
      rw [hrep] at hspares hsoft
      rw [hcores] at hmaps hbad hcore
      have hgonemaps : gone.maps = s.maps := by rw [hgone]
      have hgonecore (k : Nat) : gone.core k = s.core k := by rw [hgone]; rfl
      refine ⟨_, hexec, hspares, hsoft, fun d hd => (hother d hd).trans (hrep d), fun k => ?_, fun h => (hmaps h).trans hgonemaps, hbad, ?_⟩
      · rw [hcore, hgonecore]
      · rw [← hgonemaps]
        exact hframe
    case out =>
      intro hspare none'
      have hout : 4 ≤ Tbl.num (gone.rep t.die).spares (segmentOf t row) := by rw [hrep]; exact hspare
      refine ⟨fun h6 hrs => ?_, fun h6 hrs hdsm => ?_, fun h6 hnone => ?_, fun h6 k hk => ?_⟩
      · rw [hexec, rowsFail_bank hout h6, if_pos hrs]
        rfl
      · obtain ⟨hretired, hrows, hline, hframe⟩ := rowsFail_retires hout h6 hrs (by rw [hrepair]; exact hin)
          (by rw [hgone]; exact hdsm) rfl
        rw [hrep] at hretired hrows
        exact ⟨_, hexec, hretired, hrows, hline, hframe⟩
      · rw [hexec, rowsFail_spare hout h6 (hcores.trans hnone)]
        rfl
      · rw [hexec, rowsFail_core hout h6 (by rw [hcores]; exact hk)]
        rfl
  case burns =>
    intro s d r hd hr hin
    have hok : (decide (d < 6) && decide (r < 2 ^ 64)) = true := by rw [decide_eq_true hd, decide_eq_true hr]; rfl
    refine ⟨fun hno ok => answer_eq_next hok (if_neg (by simp [hno])), fun hmay ok => ?_⟩
    obtain ⟨hrecords, hhard, hfail, hlow, hdue⟩ := burnRecord_fields (x := s.rep d) (r := r) (by
      simp only [State.mayBurn, Bool.and_eq_true] at hmay
      simpa using hmay.1.2) ok
    have hrep := rep_modRep s hin (burnRecord r ok)
    have hown := (hrep d).trans (if_pos rfl)
    refine ⟨_, answer_eq_next hok (if_pos hmay), ?_, ?_, ?_, ?_, ?_, fun j hj => (hrep j).trans (if_neg hj), rfl⟩ <;> rw [hown]
    · exact hrecords
    · exact hhard
    · exact hfail
    · exact hlow
    · exact hdue

end Sys2Proof.Machine
end

/-! ## Tamper, power-on reset, starts and warm restarts (R497, R505 to R529) -/

section
namespace Sys2Proof.Machine
open Sys2Proof

/-! #### Tamper and power-on reset (R197, R422, R498, R560) -/

theorem ledger_quiet (s : State) (e : Entry) : (s.ledger e).pkg.quiet = s.pkg.quiet := by
  unfold State.ledger State.ledgerAs State.sendRecord State.sendPair
  grind [State.applied, State.await]

theorem commitEntry_quiet (s : State) (n : Nat) (f : Entry → Entry) : (s.commitEntry n f).pkg.quiet = s.pkg.quiet := by
  unfold State.commitEntry
  split
  · exact ledger_quiet ..
  · rfl

theorem requeue_quiet (s : State) (n order : Nat) (f : Entry → Entry) : (s.requeue n order f).pkg.quiet = s.pkg.quiet := by
  rw [State.requeue, commitEntry_quiet, clearFrame_frame]

theorem enterQuiet_cause (s : State) (cause : Nat) :
    (s.enterQuiet cause).pkg.quiet = if quietRank s.pkg.quiet < quietRank cause then cause else s.pkg.quiet := by
  have hquieted : (s.quieted cause).pkg.quiet = if quietRank s.pkg.quiet < quietRank cause then cause else s.pkg.quiet := by
    unfold State.quieted
    split
    · next h => rw [h]
    · rfl
  rw [enterQuiet_eq]
  split
  · exact (foldl_keeps (fun t : State => t.pkg.quiet) (fun t (e : Entry) => requeue_quiet t e.cseq 0 id) _ _).trans hquieted
  · exact hquieted

/-- What QUIET leaves of the state. -/
theorem enterQuiet_keeps (s : State) (cause : Nat) {β : Type} (g : State → β) (hflt : ∀ (t : State) pkg flt, g { t with pkg := pkg, flt := flt } = g t)
    (hg : ∀ (t : State) pkg hubs cores deposits used entries routines dsm pair out, g { t with
      pkg := pkg, hubs := hubs, cores := cores, deposits := deposits, used := used, entries := entries, routines := routines
      dsm := dsm, pair := pair, out := out } = g t) : g (s.enterQuiet cause) = g s := by
  have hquieted : g (s.quieted cause) = g s := by
    unfold State.quieted
    split
    · exact hflt s _ _
    · exact hflt s _ s.flt
  rw [enterQuiet_eq]
  split
  · exact (foldl_keeps g (fun t (e : Entry) => (requeue_worked t e.cseq 0 id).keeps g (hg t)) _ _).trans hquieted
  · exact hquieted

theorem abandon_frame (s : State) (a : Activity) : s.abandon a = { s with
    maint := (s.abandon a).maint, mgmt := (s.abandon a).mgmt, secure := (s.abandon a).secure, out := (s.abandon a).out } := by
  rw [State.abandon, State.mgmtReply, sendAt_frame]

theorem abandon_held (s : State) (a : Activity) : (s.abandon a).secure.held = s.secure.held :=
  State_sendAt_keeps (g := fun t => t.secure.held) (fun _ _ => rfl) (fun _ _ => rfl) _ _ _ _ _

theorem wipe_frame (s : State) : s.wipe = { s with
    maint := s.wipe.maint, mgmt := s.wipe.mgmt, dsm := s.wipe.dsm, ports := s.wipe.ports, out := s.wipe.out
    secure := { wiping := true, dwrap := false, pwrap := false, content := [], sessions := [], ivs := [], held := s.secure.held } } := by
  have hframe (l : List Activity) : l.foldl (fun s a => s.abandon a) s = { s with
      maint := (l.foldl (fun s a => s.abandon a) s).maint, mgmt := (l.foldl (fun s a => s.abandon a) s).mgmt
      secure := (l.foldl (fun s a => s.abandon a) s).secure, out := (l.foldl (fun s a => s.abandon a) s).out } := by
    induction l generalizing s with
    | nil => rfl
    | cons a l ih => rw [List.foldl_cons, ih, abandon_frame]
  have hheld := foldl_keeps (fun t : State => t.secure.held) abandon_held (s.maint.filter (·.running)) s
  rw [State.wipe]
  dsimp only
  rw [hheld, hframe]

theorem wakeDone_frame (s : State) (d c : Nat) : s.wakeDone d c = { s with
    cores := (s.wakeDone d c).cores, clusters := (s.wakeDone d c).clusters, yoke := (s.wakeDone d c).yoke
    hbmStacks := (s.wakeDone d c).hbmStacks, dsm := (s.wakeDone d c).dsm } := by
  unfold State.wakeDone
  split
  · rfl
  · dsimp only
    split
    · rw [modCluster_frame]
      generalize (State.modCluster _ _ _ _).cores = u
      rfl
    · rfl

theorem wakeDozing_frame (s : State) : s.wakeDozing = { s with
    cores := s.wakeDozing.cores, clusters := s.wakeDozing.clusters, yoke := s.wakeDozing.yoke
    hbmStacks := s.wakeDozing.hbmStacks, dsm := s.wakeDozing.dsm } := by
  unfold State.wakeDozing
  generalize List.range 36 = l
  induction l generalizing s with
  | nil => rfl
  | cons i l ih =>
    rw [List.foldl_cons, ih]
    split
    · rw [wakeDone_frame, startWake_frame]
    · rfl

/-- A core whose planes are given up. -/
def Core.emptied (c : Core) : Core :=
  sheetsOff (zeroiseCore { c with engines := c.engines.map (fun g => (g.1, { g.2 with planes := [], pool := [] })) })

/-- An engine whose planes are given up. -/
def Engine.emptied (g : Engine) : Engine := { g with planes := [], pool := [], nu := NearUnit.fresh, active := none, shadow := none }

theorem zeroisePlanes_core (s : State) (k : Nat) : s.zeroisePlanes.core k = ((Tbl.get s.cores k).map Core.emptied).getD Core.fresh :=
  congrArg (·.getD Core.fresh) (Tbl_get_map Core.emptied s.cores k)

theorem emptied_plane (c : Core) (e p : Nat) : (c.emptied.engine e).plane p = Plane.fresh := by
  have hengines : c.emptied.engines = c.engines.map (fun g => (g.1, g.2.emptied)) := List.map_map
  rw [Core.engine, hengines, Tbl_get_map Engine.emptied]
  cases Tbl.get c.engines e <;> rfl

/-- The package once tamper is counted, its secure parts wiped and QUIET entered. -/
def State.tampered (s : State) (source : Nat) : State :=
  ({ s with trust := { s.trust with
    event := setBit s.trust.event 0, tamperCnt := inc s.trust.tamperCnt, tamperSrc := word (source % 8) } } : State).wipe.enterQuiet 1

theorem tampered_fields (s : State) (n : Nat) :
    (s.tampered n).pkg.quiet = (if quietRank s.pkg.quiet < 3 then 1 else s.pkg.quiet) ∧
    (s.tampered n).trust = { s.trust with
      event := setBit s.trust.event 0, tamperCnt := inc s.trust.tamperCnt, tamperSrc := word (n % 8) } ∧
    (s.tampered n).secure = { wiping := true, dwrap := false, pwrap := false, content := [], sessions := [], ivs := [], held := s.secure.held } ∧
    (s.tampered n).fuses = s.fuses ∧ (s.tampered n).nvm = s.nvm := by
  unfold State.tampered
  have hkeeps {β : Type} (g : State → β) (hflt : ∀ (t : State) pkg flt, g { t with pkg := pkg, flt := flt } = g t)
      (hg : ∀ (t : State) pkg hubs cores deposits used entries routines dsm pair out, g { t with
        pkg := pkg, hubs := hubs, cores := cores, deposits := deposits, used := used, entries := entries, routines := routines
        dsm := dsm, pair := pair, out := out } = g t) (u : State) : g (u.enterQuiet 1) = g u := enterQuiet_keeps u 1 g hflt hg
  refine ⟨?_, ?_, ?_, ?_, ?_⟩
  · rw [enterQuiet_cause, wipe_frame]
    rfl
  · rw [hkeeps State.trust (fun _ _ _ => rfl) (fun _ _ _ _ _ _ _ _ _ _ _ => rfl), wipe_frame]
  · rw [hkeeps State.secure (fun _ _ _ => rfl) (fun _ _ _ _ _ _ _ _ _ _ _ => rfl), wipe_frame]
  · rw [hkeeps State.fuses (fun _ _ _ => rfl) (fun _ _ _ _ _ _ _ _ _ _ _ => rfl), wipe_frame]
  · rw [hkeeps State.nvm (fun _ _ _ => rfl) (fun _ _ _ _ _ _ _ _ _ _ _ => rfl), wipe_frame]

/-- Settles O42: what tamper and power-on reset leave. -/
theorem tamperAndPowerOnReset : Obligations.TamperAndPowerOnReset := by
  unfold Obligations.TamperAndPowerOnReset
  refine ⟨fun s n => ⟨fun h => answer_eq_next rfl (if_pos h), fun hlcs hphase => ?tamper⟩, fun s => ?porst⟩
  case tamper =>
    have hexec : exec (.tamper n) s = .next (s.tampered n).wakeDozing.zeroisePlanes := answer_eq_next rfl (if_neg (not_or.2 ⟨hlcs, hphase⟩))
    obtain ⟨hquiet, htrust, hsecure, hfuses, hnvm⟩ := tampered_fields s n
    refine ⟨_, hexec, ?_⟩
    have hframe := wakeDozing_frame (s.tampered n)
    have hmoved {β : Type} (g : State → β) (hg : ∀ t cores clusters yoke hbmStacks dsm, g { t with
        cores := cores, clusters := clusters, yoke := yoke, hbmStacks := hbmStacks, dsm := dsm } = g t) :
        g (s.tampered n).wakeDozing = g (s.tampered n) := (congrArg g hframe).trans (hg ..)
    generalize (s.tampered n).wakeDozing = w at hmoved
    refine ⟨?_, ?_, ?_, ?_, rfl, rfl, ?_, ?_, fun k e p => ?_, fun k => ?_⟩
    · exact (hmoved (fun t => t.trust.tamperCnt) fun _ _ _ _ _ _ => rfl).trans (congrArg TrustRegs.tamperCnt htrust)
    · exact (hmoved (fun t => t.trust.tamperSrc) fun _ _ _ _ _ _ => rfl).trans (congrArg TrustRegs.tamperSrc htrust)
    · exact (hmoved (fun t => t.pkg.quiet) fun _ _ _ _ _ _ => rfl).trans hquiet
    · exact (hmoved State.secure fun _ _ _ _ _ _ => rfl).trans hsecure
    · exact (hmoved State.fuses fun _ _ _ _ _ _ => rfl).trans hfuses
    · exact (hmoved State.nvm fun _ _ _ _ _ _ => rfl).trans hnvm
    · rw [zeroisePlanes_core]
      cases Tbl.get _ k with
      | none => rfl
      | some c => exact emptied_plane c e p
    · rw [zeroisePlanes_core]
      cases Tbl.get _ k with
      | none => exact ⟨rfl, rfl, rfl⟩
      | some c => exact ⟨rfl, rfl, rfl⟩
  case porst =>
    have hport (n : Nat) : (s.stopClocks.port n).up = false := by
      rw [State.port, State.stopClocks, at', List.getElem?_map]
      cases s.ports[n]? <;> rfl
    refine ⟨_, answer_eq_next rfl rfl, rfl, rfl, rfl, rfl, rfl, rfl, rfl, rfl, rfl, rfl, rfl, rfl, rfl, fun k => ?_, fun n => ⟨?_, rfl, rfl⟩,
      rfl, fun k e => ?_⟩
    · show (s.stopClocks.core k).live = false
      rw [State_stopClocks_core]
      cases Tbl.get s.cores k <;> rfl
    · show (((s.stopClocks.port n).up && _) && _) = false
      rw [hport, Bool.false_and, Bool.false_and]
    · exact stopClocks_stuck s k e

/-! #### The cold start keeps the profile in force (R511, R524) -/

section
variable (s : State)

theorem addDue_profile (d r : Nat) : (s.addDue d r).profile = s.profile := by rw [addDue_frame]

theorem modTarget_profile (t : Target) (f : Core → Core) : (s.modTarget t f).profile = s.profile := by rw [modTarget_frame]

theorem mend_profile (t : Target) : (s.mend t).profile = s.profile := by
  unfold State.mend
  split
  · exact modTarget_profile ..
  · rfl

/-- The line that a bank gives up. -/
theorem rowLost_bank_profile {t : Target} (h : t.kind = 6) (row : Nat) : (s.rowLost t row).profile = s.profile := by
  rw [State.rowLost, if_pos h]
  dsimp only
  split <;> rfl

theorem startRow_profile (x : Target × Nat) : (s.startRow x).profile = s.profile := by
  unfold State.startRow
  dsimp only
  split
  · next h =>
    unfold State.softRepair
    dsimp only
    split
    · rw [mend_profile, addDue_profile]
      rfl
    · next hout => exact rowLost_bank_profile _ (h.resolve_left hout) _
  · split <;> rfl

theorem mapClusters_profile (d : Nat) : (s.mapClusters d).profile = s.profile := by
  unfold State.mapClusters
  split <;> rfl

theorem mapCore_profile (b : Nat × Nat × Nat × Nat × Nat) : (s.mapCore b).profile = s.profile := by
  unfold State.mapCore
  split <;> rfl

theorem mapEngine_profile (b : Nat × Nat × Nat × Nat × Nat) : (s.mapEngine b).profile = s.profile := by
  unfold State.mapEngine
  split <;> rfl

theorem mapColumns_profile (b : Nat × Nat × Nat × Nat × Nat) : (s.mapColumns b).profile = s.profile := by
  unfold State.mapColumns
  split
  · split <;> rfl
  · rfl

theorem startCluster_profile (d c : Nat) : (s.startCluster d c).profile = s.profile := by
  unfold State.startCluster
  dsimp only
  split
  · rfl
  · split <;> rfl

theorem assign_profile (i : StartIn) : (s.assign i).profile = s.profile := by
  unfold State.assign
  dsimp only
  rw [foldl_keeps State.profile fun s n => startCluster_profile s _ _, foldl_keeps State.profile mapColumns_profile,
    foldl_keeps State.profile mapEngine_profile, foldl_keeps State.profile mapCore_profile, foldl_keeps State.profile mapClusters_profile]
  exact (foldl_keeps State.profile startRow_profile _ _).trans (foldl_keeps State.profile (fun s x => addDue_profile s _ _) _ _)

theorem checkMod_frame (n : Nat) : s.checkMod n = { s with ports := (s.checkMod n).ports, idr := (s.checkMod n).idr } := by
  unfold State.checkMod
  dsimp only
  split <;> rfl

theorem checkMods_frame : s.checkMods = { s with ports := s.checkMods.ports, idr := s.checkMods.idr } := by
  unfold State.checkMods
  generalize List.range 8 = l
  induction l generalizing s with
  | nil => rfl
  | cons n l ih => rw [List.foldl_cons, ih, checkMod_frame]

theorem settle'_profile : s.settle'.profile = s.profile := by
  rw [State.settle', checkMods_frame]

theorem units_profile (i : StartIn) : (s.units i).profile = s.profile := by
  have h := assign_profile s i
  rw [State.units]
  generalize s.assign i = u at *
  exact h

theorem startWith_valid {i : StartIn} {p : ProfSlot} (h : s.profOk i.psel = some p) :
    s.startWith i = ((s.inForce i.psel p).units i).settle' ∧ (s.startWith i).profile = p.prof := by
  have hstart : s.startWith i = ((s.inForce i.psel p).units i).settle' := by
    rw [State.startWith, h]
  refine ⟨hstart, ?_⟩
  rw [hstart, settle'_profile, units_profile]
  rfl

theorem startWith_none {i : StartIn} (h : s.profOk i.psel = none) : s.startWith i = if s.fuses.lcs = 3
    then { (s.units i).settle' with
      pkg := { (s.units i).settle'.pkg with phase := .held }
      idr := { (s.units i).settle'.idr with
        event := setBit (s.units i).settle'.idr.event 0, hold := (s.units i).settle'.idr.hold + 1 } }
    else (s.units i).settle' := by
  rw [State.startWith, h]
  rfl

end

/-- A cold start in a chain of boot that runs on (R511 step 4 on). -/
def State.coldBooted (s b : State) (i : StartIn) (n : Nat) : State :=
  if !(bitAt i.regs 4) ∨ !(bitAt i.regs 5) then ((b.boot n).identity i).stop 5
  else if s.fuses.lcs = 0 then ((b.boot n).identity i).stop 6
  else if s.fuses.lcs = 1 then (((b.boot n).identity i).units i).settle'
  else ((b.boot n).identity i).startWith i

theorem coldStart_checked {s : State} {i : StartIn} (hcool : (s.coldBase i).pkg.therm = false) (hok : i.sfdpOk = true)
    (hsize : 512 ≤ i.nvmMbit) : s.coldStart i = if s.fuses.lcs ≠ 0 ∧ (!i.chainOk) = true then (s.coldBase i).stop 3
      else match (s.coldBase i).bootSlot with
        | none => (s.coldBase i).stop 4
        | some n => s.coldBooted (s.coldBase i) i n := by
  unfold State.coldStart
  dsimp only
  rw [hcool, if_neg (by decide), if_neg (by simp [hok]; omega)]
  rfl

/-! #### READY (R501, R527) -/

/-- The SVN floor that READY leaves (R501). -/
abbrev State.floorFuses (s : State) : Fuses :=
  { s.fuses with svnFloor := if s.profile.work.svnAuto then max s.fuses.svnFloor s.pkg.fwSvn else s.fuses.svnFloor }

theorem raiseFloor_eq (s : State) : s.raiseFloor = { s with fuses := s.floorFuses } := by
  have h := State_raiseFloor_svnFloor s
  have hframe : s.raiseFloor = { s with fuses := { s.fuses with svnFloor := s.raiseFloor.fuses.svnFloor } } := by
    unfold State.raiseFloor
    split <;> rfl
  rw [hframe, h]

theorem dropEntry_pkg (s : State) (e : Entry) : (s.dropEntry e).pkg = s.pkg := by
  have hfree : ((s.freeParcel e.ipar).freeParcel e.rpar).pkg = s.pkg := by rw [freeParcel_frame, freeParcel_frame]
  unfold State.dropEntry
  dsimp only
  split
  · rw [dropRefs_frame]
    exact hfree
  · exact hfree

theorem entryGone_pkg (s : State) (e : Entry) : (s.entryGone e).pkg = s.pkg := foldl_keeps State.pkg dropEntry_pkg _ s

theorem losesEntries_fwSvn (n : Nat) (s : State) : (State.losesEntries n s).pkg.fwSvn = s.pkg.fwSvn := by
  induction n generalizing s with
  | zero => rfl
  | succ n ih =>
    rw [State.losesEntries, ih]
    split
    · rw [entryGone_pkg]
      rfl
    · rfl

theorem compareLogs_fields (s : State) : s.compareLogs.pkg.quiet = 0 ∧ s.compareLogs.ledgerLost = 0 ∧
    s.compareLogs.pkg.fwSvn = s.pkg.fwSvn ∧ ∀ x ∈ s.compareLogs.hubs, ∀ y ∈ s.compareLogs.hubs, x.digest = y.digest := by
  refine ⟨rfl, rfl, ?_, fun x hx y hy => ?_⟩
  · unfold State.compareLogs
    dsimp only
    split
    · rfl
    · exact losesEntries_fwSvn _ _
  · obtain ⟨a, -, rfl⟩ := List.mem_map.1 hx
    obtain ⟨b, -, rfl⟩ := List.mem_map.1 hy
    rfl

/-- The banks of the hubs once a warm restart ends. -/
def State.banksOn (s : State) : State :=
  (s.modDsm 4 (fun x => { x with banks := x.banks.map (fun b => if b = .retention then .on else b) })).modDsm 5
    (fun x => { x with banks := x.banks.map (fun b => if b = .retention then .on else b) })

theorem banksOn_none {s : State} {d : Nat} {x : Dsm} (hd : d = 4 ∨ d = 5) (h : s.banksOn.dsm[d]? = some x) : BankSt.retention ∉ x.banks := by
  have hout (y : Dsm) : BankSt.retention ∉ y.banks.map (fun b => if b = .retention then .on else b) := by
    intro hy
    obtain ⟨b, -, hb⟩ := List.mem_map.1 hy
    split at hb
    · cases hb
    · next hne => exact hne hb
  rw [State.banksOn, State.modDsm, getElem?_modAt, State.modDsm, getElem?_modAt] at h
  rcases hd with rfl | rfl
  · rw [if_neg (by decide), if_pos rfl, Option.map_eq_some_iff] at h
    obtain ⟨y, -, rfl⟩ := h
    exact hout y
  · rw [if_pos rfl, if_neg (by decide), Option.map_eq_some_iff] at h
    obtain ⟨y, -, rfl⟩ := h
    exact hout y

/-- A package that runs again after a warm restart. -/
def State.rerun (s : State) : State := { s.banksOn with pkg := { s.pkg with phase := .running, leaving := false } }

/-- A package that runs again, and leaves QUIET where it was to. -/
abbrev State.rerunLeft (s : State) : State :=
  if s.pkg.leaving = true ∧ (s.pkg.quiet = 3 ∨ s.pkg.quiet = 5) then s.rerun.compareLogs else s.rerun

theorem readyWarm_eq (s : State) : s.readyWarm = if s.rerunLeft.pkg.quiet = 0 then s.rerunLeft.raiseFloor else s.rerunLeft := rfl

theorem readyWarm_stays {s : State} (h : s.pkg.leaving = false ∨ (s.pkg.quiet ≠ 3 ∧ s.pkg.quiet ≠ 5)) : s.readyWarm = { s with
    pkg := { s.pkg with phase := .running, leaving := false }, dsm := s.banksOn.dsm
    fuses := if s.pkg.quiet = 0 then s.floorFuses else s.fuses } := by
  have hno : ¬(s.pkg.leaving = true ∧ (s.pkg.quiet = 3 ∨ s.pkg.quiet = 5)) := by
    rintro ⟨hleave, hq⟩
    rcases h with h | ⟨h3, h5⟩
    · rw [h] at hleave
      cases hleave
    · exact hq.elim h3 h5
  have hleft : s.rerunLeft = s.rerun := if_neg hno
  rw [readyWarm_eq, hleft, raiseFloor_eq]
  by_cases hq : s.pkg.quiet = 0
  · rw [if_pos hq, if_pos (show s.rerun.pkg.quiet = 0 from hq)]
    rfl
  · rw [if_neg hq, if_neg (show ¬s.rerun.pkg.quiet = 0 from hq)]
    rfl

theorem readyWarm_leaves {s : State} (h : s.pkg.leaving = true) (hq : s.pkg.quiet = 3 ∨ s.pkg.quiet = 5) :
    s.readyWarm = s.rerun.compareLogs.raiseFloor := by
  have hleft : s.rerunLeft = s.rerun.compareLogs := if_pos ⟨h, hq⟩
  rw [readyWarm_eq, hleft]
  exact if_pos rfl

/-- Settles O43: cold starts, READY, and a boot hub that does not report. -/
theorem starts : Obligations.Starts := by
  unfold Obligations.Starts
  refine ⟨?cold, ?ready⟩
  case cold =>
    intro s i b
    refine ⟨fun h => answer_eq_next rfl (if_neg h), fun h => ?_⟩
    have hchecked (hchain : s.fuses.lcs = 0 ∨ i.chainOk = true) : ¬(s.fuses.lcs ≠ 0 ∧ (!i.chainOk) = true) := by
      rintro ⟨h0, hno⟩
      exact hchain.elim h0 fun hchain => by simp [hchain] at hno
    have hfuses (n : Nat) : ((b.boot n).identity i).fuses = s.fuses := by
      rw [State_identity_fuses]
      rfl
    have htherm' : (s.coldBase i).pkg.therm = (s.pkg.therm && i.hot) := rfl
    have hexec {t : State} (ht : s.coldStart i = t) : exec (.coldStart i) s = .next t := answer_eq_next rfl ((if_pos h).trans ht)
    refine ⟨rfl, rfl, rfl, rfl, rfl, rfl, rfl, rfl, rfl, fun htherm hhot => hexec ?_, fun hcool hnvm => hexec ?_, fun hcool hok hsize => ?_⟩
    · exact if_pos (htherm'.trans (by rw [htherm, hhot]; rfl))
    · unfold State.coldStart
      dsimp only
      rw [htherm', if_neg (by simp [hcool])]
      exact if_pos (hnvm.imp (fun h => by simp [h]) id)
    · have hstart := coldStart_checked (by rw [htherm']; exact hcool) hok hsize
      refine ⟨fun hlcs hchain => hexec ?_, fun hchain hslot => hexec ?_, fun hchain n hslot => ?_⟩
      · rw [hstart, if_pos ⟨hlcs, by simp [hchain]⟩]
      · rw [hstart, if_neg (hchecked hchain), hslot]
      intro c hubs
      have hbooted : exec (.coldStart i) s = .next (s.coldBooted b i n) := hexec (by rw [hstart, if_neg (hchecked hchain), hslot])
      refine ⟨fun hh => ?_, fun hh hlcs => ?_, fun hh hlcs => ?_, fun hh h0 h1 => ⟨fun p hp => ?_, fun hp h3 => ?_, fun hp h3 => ?_⟩⟩
      · exact hbooted.trans (congrArg _ (if_pos ((Bool.and_eq_false_iff.1 hh).imp (congrArg (! ·)) (congrArg (! ·)))))
      all_goals
        rw [State.coldBooted, if_neg (by simpa [hubs] using hh)] at hbooted
      · exact hbooted.trans (congrArg _ (if_pos hlcs))
      · exact hbooted.trans (congrArg _ ((if_neg (by omega)).trans (if_pos hlcs)))
      all_goals
        rw [if_neg h0, if_neg h1] at hbooted
      · obtain ⟨hforce, hprofile⟩ := startWith_valid c hp
        rw [hforce] at hprofile
        exact ⟨hbooted.trans (congrArg _ hforce), hprofile⟩
      all_goals
        have hnone := startWith_none c hp
        rw [show c.fuses = s.fuses from hfuses n] at hnone
      · exact hbooted.trans (congrArg _ (hnone.trans (if_neg h3)))
      · exact ⟨_, hbooted.trans (congrArg _ (hnone.trans (if_pos h3))), rfl, rfl, rfl⟩
  case ready =>
    intro s floor
    have hexec {t : State} (ht : (match s.pkg.phase with
      | .starting => s.readyCold
      | .dozing => s.readyWarm
      | _ => s) = t) : exec .readyAssert s = .next t := answer_eq_next rfl ht
    have hcold (h : s.pkg.phase = .starting) : exec .readyAssert s = .next s.readyCold := hexec (by rw [h])
    have hwarm (h : s.pkg.phase = .dozing) : exec .readyAssert s = .next s.readyWarm := hexec (by rw [h])
    refine ⟨fun h hq => (hcold h).trans (congrArg _ ?_), fun h hq => (hcold h).trans (congrArg _ (if_pos hq)), fun h hstay => ?stays,
      fun h hleave hq => ?leaves, fun hs hd => hexec ?other, fun h hb => answer_eq_next rfl (if_pos ⟨h, hb⟩),
      fun h => answer_eq_next rfl (if_neg fun hb => h.elim (· hb.1) (· hb.2))⟩
    · rw [State.readyCold, if_neg (by simp [hq]), raiseFloor_eq]
    case stays =>
      exact ⟨_, (hwarm h).trans (congrArg _ (readyWarm_stays hstay)), fun d x => banksOn_none, rfl⟩
    case leaves =>
      obtain ⟨hquiet, hlost, hsvn, hdigest⟩ := compareLogs_fields s.rerun
      rw [readyWarm_leaves hleave hq, raiseFloor_eq] at hwarm
      refine ⟨_, hwarm h, hquiet, hlost, ?_, hdigest⟩
      dsimp only [State.floorFuses]
      rw [hsvn, State_compareLogs_profile, State_compareLogs_fuses]
      rfl
    case other =>
      split
      · next hp => exact absurd hp hs
      · next hp => exact absurd hp hd
      · rfl
/-! #### The warm restart (R407, R505, R524, R527) -/

/-- The clusters of `l` doze. -/
def State.dozeAll (s : State) (l : List Nat) : State :=
  l.foldl (fun s i => s.modCl (i / 9) (i % 9) (fun c => { c with st := .doze, waking := false, woken := false })) s

theorem dozeAll_frame (s : State) (l : List Nat) : s.dozeAll l = { s with clusters := (s.dozeAll l).clusters } := by
  unfold State.dozeAll
  induction l generalizing s with
  | nil => rfl
  | cons i l ih =>
    rw [List.foldl_cons, ih]
    rfl

theorem dozeAll_st (s : State) (l : List Nat) (i : Nat) :
    ((s.dozeAll l).cl (i / 9) (i % 9)).st = if i ∈ l then .doze else (s.cl (i / 9) (i % 9)).st := by
  unfold State.dozeAll
  induction l generalizing s with
  | nil => simp
  | cons a l ih =>
    rw [List.foldl_cons, ih]
    by_cases hi : i ∈ l
    · rw [if_pos hi, if_pos (List.mem_cons_of_mem _ hi)]
    · rw [if_neg hi]
      by_cases ha : i = a
      · rw [ha, cl_modCl, if_pos List.mem_cons_self]
      · rw [if_neg (by simp [ha, hi]), State.cl, State.modCl, Tbl_get_set_ne _ _ (by omega)]
        rfl

/-- The clusters that a warm restart puts to sleep. -/
def State.awakeClusters (s : State) : List Nat :=
  (List.range 36).filter (fun i => (s.cl (i / 9) (i % 9)).st == .idle || (s.cl (i / 9) (i % 9)).st == .run || (s.cl (i / 9) (i % 9)).waking)

theorem dozeAll_sleeps (s : State) {i : Nat} (hi : i < 36) :
    ((s.dozeAll s.awakeClusters).cl (i / 9) (i % 9)).st = .doze ∨ ((s.dozeAll s.awakeClusters).cl (i / 9) (i % 9)).st = .off := by
  rw [dozeAll_st]
  split
  · exact .inl rfl
  · next hno =>
    have hst : ¬((s.cl (i / 9) (i % 9)).st = .idle ∨ (s.cl (i / 9) (i % 9)).st = .run) := by
      intro h
      refine hno (List.mem_filter.2 ⟨List.mem_range.2 hi, ?_⟩)
      rcases h with h | h <;> simp [h]
    cases h : (s.cl (i / 9) (i % 9)).st with
    | off => exact .inr rfl
    | doze => exact .inl rfl
    | idle => exact absurd (.inl h) hst
    | run => exact absurd (.inr h) hst

/-- Every cluster sleeps, with its sheets, banks and stacks. -/
def State.slept (s : State) : State :=
  { s with
    clusters := (s.dozeAll s.awakeClusters).clusters
    cores := s.cores.map (fun p => (p.1, moveSheets .on .retention (moveSheets .waking .retention p.2)))
    dsm := s.dsm.mapIdx (fun d x => { x with banks := x.banks.mapIdx (fun b y =>
      if y ≠ .off ∧ regionOf d b ≠ .sc then .retention else y) })
    hbmStacks := s.hbmStacks.map (fun x => (x.1, x.1))
    yoke := { s.yoke with regs := { s.yoke.regs with dozes := incBy s.yoke.regs.dozes s.awakeClusters.length } }
    idr := { s.idr with warm := inc s.idr.warm }
    mgmt := { s.mgmt with challenge := Config.drbg s.pkg.free % 2 ^ 128 }
    pkg := { s.pkg with phase := .dozing, lastWarm := true, free := s.pkg.free + 1 } }

/-- A die without ballast, whose core rails are set for the margin. -/
def Die.settled (margin : Nat) (d : Die) : Die := { d with vset := d.vmin + margin, ballast := 0, bal := [], balN := 0 }

theorem warmDoze_eq (s : State) : s.warmDoze = { s.slept.warmBoot.warmProfile with
    dies := s.slept.warmBoot.warmProfile.dies.map (Die.settled s.slept.warmBoot.warmProfile.profile.power.vmargin) } := by
  have h : s.slept = { s.dozeAll s.awakeClusters with
      cores := (s.dozeAll s.awakeClusters).cores.map (fun p => (p.1, moveSheets .on .retention (moveSheets .waking .retention p.2)))
      dsm := (s.dozeAll s.awakeClusters).dsm.mapIdx (fun d x => { x with banks := x.banks.mapIdx (fun b y =>
        if y ≠ .off ∧ regionOf d b ≠ .sc then .retention else y) })
      hbmStacks := (s.dozeAll s.awakeClusters).hbmStacks.map (fun x => (x.1, x.1))
      yoke := { (s.dozeAll s.awakeClusters).yoke with regs := { (s.dozeAll s.awakeClusters).yoke.regs with
        dozes := incBy (s.dozeAll s.awakeClusters).yoke.regs.dozes s.awakeClusters.length } }
      idr := { (s.dozeAll s.awakeClusters).idr with warm := inc (s.dozeAll s.awakeClusters).idr.warm }
      mgmt := { (s.dozeAll s.awakeClusters).mgmt with challenge := Config.drbg s.pkg.free % 2 ^ 128 }
      pkg := { (s.dozeAll s.awakeClusters).pkg with phase := .dozing, lastWarm := true, free := s.pkg.free + 1 } } := by
    rw [State.slept, dozeAll_frame]
  rw [h]
  rfl

theorem warmBoot_frame (s : State) : s.warmBoot = { s with pkg := s.warmBoot.pkg } ∧
    s.warmBoot.pkg.phase = s.pkg.phase ∧ s.warmBoot.pkg.lastWarm = s.pkg.lastWarm ∧ s.warmBoot.pkg.usePending = s.pkg.usePending ∧
    s.warmBoot.pkg.profSlot = s.pkg.profSlot := by
  unfold State.warmBoot
  dsimp only
  split <;> exact ⟨rfl, rfl, rfl, rfl, rfl⟩

theorem warmBoot_slot {s : State} {m : Nat} (h : [s.pkg.fwNext.getD s.pkg.fwSlot, 1 - s.pkg.fwNext.getD s.pkg.fwSlot].find? s.fwOk = some m) :
    s.warmBoot.pkg.fwSlot = m := by
  unfold State.warmBoot
  dsimp only
  rw [h]
  rfl

theorem warmProfile_frame (s : State) : s.warmProfile = { s with
      pkg := s.warmProfile.pkg, profile := s.warmProfile.profile, pages := s.warmProfile.pages, ports := s.warmProfile.ports } ∧
    s.warmProfile.pkg.phase = s.pkg.phase ∧ s.warmProfile.pkg.lastWarm = s.pkg.lastWarm ∧ s.warmProfile.pkg.fwSlot = s.pkg.fwSlot := by
  unfold State.warmProfile
  dsimp only
  split <;> exact ⟨rfl, rfl, rfl, rfl⟩

theorem warmProfile_profile (s : State) : s.warmProfile.profile =
    ((s.profOk (s.pkg.usePending.getD s.pkg.profSlot)).map ProfSlot.prof).getD s.profile := by
  unfold State.warmProfile
  dsimp only
  split
  · next h => rw [h]; rfl
  · next h => rw [h]; rfl

theorem slept_sheet (s : State) (k m : Nat) : (s.slept.core k).sheet m ≠ .on ∧ (s.slept.core k).sheet m ≠ .waking := by
  have hout (x : SheetSt) : (if (if x = .waking then SheetSt.retention else x) = .on then SheetSt.retention
      else (if x = .waking then SheetSt.retention else x)) ≠ .on ∧ (if (if x = .waking then SheetSt.retention else x) = .on
      then SheetSt.retention else (if x = .waking then SheetSt.retention else x)) ≠ .waking := by
    cases x <;> decide
  have hcore : s.slept.core k = ((Tbl.get s.cores k).map (fun c => moveSheets .on .retention (moveSheets .waking .retention c))).getD
      Core.fresh := congrArg (·.getD Core.fresh) (Tbl_get_map (fun c : Core => moveSheets .on .retention (moveSheets .waking .retention c)) s.cores k)
  rw [hcore]
  cases Tbl.get s.cores k with
  | none =>
    have hoff : Core.fresh.sheet m = .off := by
      show at' (List.replicate 32 SheetSt.off) m .off = .off
      rw [at', List.getElem?_replicate]
      split <;> rfl
    rw [Option.map_none, Option.getD_none, hoff]
    decide
  | some c =>
    rw [Option.map_some, Option.getD_some, Core.sheet, moveSheets, moveSheets, at', List.getElem?_map, List.getElem?_map]
    cases c.mem.sheets[m]? with
    | none => decide
    | some x => exact hout x

theorem warmDoze_chooses (s : State) {t : State} (ht : t = s.warmDoze) :
    t.pkg.phase = .dozing ∧ t.idr.warm = s.idr.warm + 1 ∧ t.pkg.lastWarm = true ∧ t.entries = s.entries ∧ t.placements = s.placements ∧
    t.clusters = (s.dozeAll s.awakeClusters).clusters ∧ t.cores = s.slept.cores ∧ (∀ d ∈ t.dies, d.bal = [] ∧ d.ballast = 0) ∧
    t.profile = ((s.profOk (s.pkg.usePending.getD s.pkg.profSlot)).map ProfSlot.prof).getD s.profile ∧
    (∀ m, [s.pkg.fwNext.getD s.pkg.fwSlot, 1 - s.pkg.fwNext.getD s.pkg.fwSlot].find? s.fwOk = some m → t.pkg.fwSlot = m) := by
  obtain ⟨hboot, hbphase, hbwarm, hbuse, hbprof⟩ := warmBoot_frame s.slept
  obtain ⟨hprof, hpphase, hpwarm, hpslot⟩ := warmProfile_frame s.slept.warmBoot
  have hprofile := warmProfile_profile s.slept.warmBoot
  have hok (n : Nat) : s.slept.warmBoot.profOk n = s.profOk n := by
    rw [hboot]
    rfl
  have hbefore : s.slept.warmBoot.profile = s.profile := by rw [hboot]; rfl
  rw [hbuse, hbprof, hok, hbefore] at hprofile
  have hslot (m : Nat) (h : [s.pkg.fwNext.getD s.pkg.fwSlot, 1 - s.pkg.fwNext.getD s.pkg.fwSlot].find? s.fwOk = some m) :
      s.slept.warmBoot.pkg.fwSlot = m := warmBoot_slot (s := s.slept) h
  have hkept {β : Type} (g : State → β) (hg : ∀ u pkg profile pages ports, g { u with
      pkg := pkg, profile := profile, pages := pages, ports := ports } = g u) : g s.slept.warmBoot.warmProfile = g s.slept :=
    (congrArg g hprof).trans ((hg ..).trans ((congrArg g hboot).trans (hg s.slept _ _ _ _)))
  rw [warmDoze_eq] at ht
  generalize s.slept.warmBoot.warmProfile = w at *
  subst ht
  refine ⟨hpphase.trans hbphase, congrArg IdRegs.warm (hkept State.idr fun _ _ _ _ _ => rfl), hpwarm.trans hbwarm,
    hkept State.entries fun _ _ _ _ _ => rfl, hkept State.placements fun _ _ _ _ _ => rfl, hkept State.clusters fun _ _ _ _ _ => rfl,
    hkept State.cores fun _ _ _ _ _ => rfl, fun d hd => ?_, hprofile, fun m h => hpslot.trans (hslot m h)⟩
  obtain ⟨x, -, rfl⟩ := List.mem_map.1 hd
  exact ⟨rfl, rfl⟩

theorem beginWarm_fields (s : State) : s.beginWarm.pkg.phase = .warm ∧ (∀ b ∈ s.beginWarm.bulk, b.aborted = true) ∧
    (∀ o ∈ s.beginWarm.objects, o.waiting = true) ∧ s.beginWarm.nvm.xfer = Xfer.idle ∧ s.beginWarm.grazer.marches = [] := by
  refine ⟨rfl, fun b hb => ?_, fun o ho => (List.mem_filter.1 ho).2, rfl, rfl⟩
  obtain ⟨x, -, rfl⟩ := List.mem_map.1 hb
  rfl

/-! #### Modules and ports (R371, R489, R515) -/

theorem port_modAt {s : State} {n : Nat} (hin : n < s.ports.length) (f : Port → Port) (m : Nat) :
    at' (modAt s.ports n f) m ⟨false, false, false, false, 0, 0⟩ = if m = n then f (s.port m) else s.port m :=
  at'_modAt s.ports hin f m _

theorem linkDown_port (l : List Port) (n : Nat) {d : Port} (hd : d.up = false) :
    (at' (modAt l n (fun p => { p with up := false, secured := false })) n d).up = false ∧
      ∀ m, m ≠ n → at' (modAt l n (fun p => { p with up := false, secured := false })) m d = at' l m d := by
  simp only [at', getElem?_modAt]
  refine ⟨?_, fun m hm => by rw [if_neg hm]⟩
  rw [if_true]
  cases l[n]? with
  | none => exact hd
  | some p => rfl

theorem checkMod_port {s : State} {n : Nat} (hin : n < s.ports.length) (m : Nat) : (s.checkMod n).port m = if m = n
    then { s.port n with overs := s.modOver n, up := (s.port n).up && !s.modOver n, secured := (s.port n).secured && !s.modOver n }
    else s.port m := by
  have hports : (s.checkMod n).ports = modAt s.ports n (fun p => { p with
      overs := s.modOver n, up := p.up && !s.modOver n, secured := p.secured && !s.modOver n }) := by
    unfold State.checkMod
    dsimp only
    split <;> rfl
  rw [State.port, hports, port_modAt hin]
  split
  · next h => rw [h]
  · rfl

theorem checkMod_idr {s : State} {n : Nat} (hbefore : (s.port n).overs = false) : (s.checkMod n).idr = if s.modOver n = true
    then { s.idr with event := setBit s.idr.event 1, modpwr := s.idr.modpwr + 1 } else s.idr := by
  unfold State.checkMod
  dsimp only
  rw [hbefore]
  cases s.modOver n <;> rfl

theorem moduleAt_port {s : State} {n : Nat} (hin : n < s.ports.length) (power m : Nat) : (s.moduleAt n power).port m = if m = n
    then ⟨false, false, true, false, power, (s.port n).drops⟩ else s.port m := by
  rw [State.port, State.moduleAt, port_modAt hin]
  split
  · next h => rw [h]
  · rfl

/-- What a module's insertion leaves. -/
theorem moduleIn_fields {s : State} {n power : Nat} (hin : n < s.ports.length) {t : State} (ht : t = (s.moduleAt n power).checkMod n) :
    (t.port n).present = true ∧ (t.port n).power = power ∧ (t.port n).up = false ∧
      (s.profile.net.modPmax < power → (t.port n).overs = true) ∧
      ((t.port n).overs = true → t.idr = { s.idr with event := setBit s.idr.event 1, modpwr := s.idr.modpwr + 1 }) ∧
      ((t.port n).overs = false → t.idr = s.idr) ∧ (∀ m, m ≠ n → t.port m = s.port m) ∧ t = { s with ports := t.ports, idr := t.idr } := by
  have hin' : n < (s.moduleAt n power).ports.length := by
    rw [State.moduleAt, length_modAt]
    exact hin
  have hmodule := (moduleAt_port hin power n).trans (if_pos rfl)
  have hport := checkMod_port hin'
  have hidr := checkMod_idr (s := s.moduleAt n power) (n := n) (by rw [hmodule])
  have hframe : t = { s with ports := t.ports, idr := t.idr } := by
    rw [ht, checkMod_frame]
    rfl
  have hover (h : s.profile.net.modPmax < power) : (s.moduleAt n power).modOver n = true := by
    rw [State.modOver, hmodule]
    simp only [Bool.true_and, Bool.or_eq_true, decide_eq_true_eq]
    exact .inl h
  have hown := (hport n).trans (if_pos rfl)
  rw [hmodule] at hown
  subst ht
  rw [hown]
  refine ⟨rfl, rfl, rfl, hover, fun h => hidr.trans (if_pos h),
    fun h => hidr.trans (if_neg (by simp [show (s.moduleAt n power).modOver n = false from h])),
    fun m hm => ?_, hframe⟩
  rw [hport, if_neg hm, moduleAt_port hin, if_neg hm]

/-! #### Boundary scan (R458, R562) -/

theorem tapInstr_bypass {s : State} {ir : Nat} (h : ir = 0 ∨ (ir = 3 ∧ s.pkg.phase ≠ .down) ∨ (4 ≤ ir ∧ s.fuses.lcs ≠ 7)) :
    s.tapInstr ir = 0 := by
  rcases h with rfl | ⟨rfl, hup⟩ | ⟨hir, hlcs⟩
  · rfl
  · exact if_neg hup
  · rw [State.tapInstr, if_neg (by omega), if_neg (by omega), if_neg hlcs]

theorem tapInstr_shifts {s : State} {ir : Nat} (h : ir = 2 ∨ (ir = 3 ∧ s.pkg.phase = .down) ∨ (4 ≤ ir ∧ s.fuses.lcs = 7)) :
    2 ≤ s.tapInstr ir := by
  rcases h with rfl | ⟨rfl, hdown⟩ | ⟨hir, hlcs⟩
  · exact Nat.le_refl 2
  · rw [show s.tapInstr 3 = 3 from if_pos hdown]
    decide
  · rw [State.tapInstr, if_neg (by omega), if_neg (by omega), if_pos hlcs]
    decide

/-- Settles O44: warm restarts and what leads to them, modules, ports and boundary scan. -/
theorem warmRestartsAndPorts : Obligations.WarmRestartsAndPorts := by
  unfold Obligations.WarmRestartsAndPorts
  refine ⟨⟨fun s => ⟨fun h => answer_eq_next rfl (if_pos h), fun h => answer_eq_next rfl (if_neg h), beginWarm_fields s⟩, ?doze, ?switch,
    ?activation, ?defer⟩, ?insert, ?down, ?up, ?scan⟩
  case doze =>
    intro s
    refine ⟨fun h => answer_eq_next rfl (if_neg fun hgo => h.elim (· hgo.1) (fun h => absurd hgo.2 (by omega))), fun hwarm hlow => ?_⟩
    obtain ⟨hphase, hcount, hlast, hentries, hplaced, hclusters, hcores, hdies, hprofile, hslot⟩ := warmDoze_chooses s rfl
    refine ⟨_, answer_eq_next rfl (if_pos ⟨hwarm, hlow⟩), hphase, hcount, hlast, hentries, hplaced, fun i hi => ?_, fun k m => ?_, hdies,
      fun p hp => ?_, fun hp => ?_, hslot⟩
    · rw [State.cl, hclusters]
      exact dozeAll_sleeps s hi
    · rw [State.core, hcores]
      exact slept_sheet s k m
    · rw [hprofile, hp]
      rfl
    · rw [hprofile, hp]
      rfl
  case switch =>
    intro s
    have hexec {t : State} (ht : s.profileSwitch = t) : exec .profileSwitch s = .next t := answer_eq_next rfl ht
    refine ⟨fun h => hexec (by rw [State.profileSwitch, h]), fun a ha => ⟨fun hfirst => hexec ?_, fun hnone => ⟨fun hp => hexec ?_, fun p hp => hexec ?_⟩⟩⟩
    · rw [State.profileSwitch, ha]
      exact if_pos (by simpa using hfirst)
    all_goals
      have hno : ¬s.maint.any (fun x => x.code == 8) = true := by simpa using hnone
      rw [State.profileSwitch, ha]
      dsimp only
      rw [if_neg hno, hp]
  case activation =>
    intro s
    have hexec {t : State} (ht : s.firmwareActivation = t) : exec .firmwareActivation s = .next t := answer_eq_next rfl ht
    refine ⟨fun h => hexec (by rw [State.firmwareActivation, h]), fun a ha => ⟨fun hok => hexec ?_, fun hok => hexec ?_⟩⟩
    · rw [State.firmwareActivation, ha]
      exact if_pos (by simp [hok])
    · rw [State.firmwareActivation, ha]
      exact if_neg (by simp [hok])
  case defer =>
    intro s n late
    have hexec {t : State} (ht : s.maintDefer n = t) : exec (.maintDefer n) s = .next t := answer_eq_next rfl ht
    refine ⟨fun h => hexec ((if_pos (by omega)).trans (if_pos h)), fun h h16 => hexec ((if_pos h16).trans (if_neg (by omega))),
      fun h hrun => hexec ((if_neg (by omega)).trans ?_), fun h a ha => ⟨fun hc => hexec ((if_neg (by omega)).trans ?_), fun hc => hexec ((if_neg (by omega)).trans ?_)⟩⟩
    · rw [List.find?_eq_none.2 fun a ha => by simpa using hrun a ha]
    · rw [ha]
      exact if_pos hc
    · rw [ha]
      exact if_neg hc
  case insert =>
    intro s n power hok hin
    refine ⟨fun h => answer_eq_next hok (if_neg ?_), fun hclock hphase => ⟨_, answer_eq_next hok (if_pos ?_), moduleIn_fields hin rfl⟩⟩
    · rcases h with h | h <;> simp [h]
    · simp [hclock, hphase]
  case down =>
    intro s n hok
    obtain ⟨hup, hother⟩ := linkDown_port s.ports n (d := ⟨false, false, false, false, 0, 0⟩) rfl
    refine ⟨_, answer_eq_next hok rfl, ?_, hother, rfl⟩
    show ((Port.up (at' _ n _) && _) && _) = false
    rw [hup, Bool.false_and, Bool.false_and]
  case up =>
    intro s n mka hok hin fit
    refine ⟨fun h => ⟨_, answer_eq_next hok (if_pos h), ?_, ?_, fun m hm => (port_modAt hin _ m).trans (if_neg hm), rfl⟩,
      fun h => answer_eq_next hok (if_neg (Bool.eq_false_iff.1 h))⟩
    all_goals
      have hown := (port_modAt hin (fun p => { p with up := true, secured := p.secured || (mka && s.macsecPort n && s.secure.dwrap) }) n).trans
        (if_pos rfl)
    · exact congrArg Port.up hown
    · refine Iff.trans (iff_of_eq (congrArg (· = true) (congrArg Port.secured hown))) ?_
      simp [and_assoc]
  case scan =>
    intro s tap dr htap
    have hexec {ir : Nat} {t : State} (ht : s.scan tap ir dr = t) : exec (.boundaryScan tap ir dr) s = .next t :=
      answer_eq_next (decide_eq_true htap) ht
    refine ⟨fun ir h => hexec ?_, hexec rfl, fun ir h => hexec ?_⟩
    · rw [State.scan, tapInstr_bypass h]
      rfl
    · have hshift := tapInstr_shifts h
      unfold State.scan
      split
      · omega
      · omega
      · rfl

end Sys2Proof.Machine
end

/-! ## Management frames (R535 to R548) -/

section
namespace Sys2Proof.Machine
open Sys2Proof

/-! #### Requests and READ (R476, R477, R535 to R540) -/

/-- A segment that a working port sends. -/
theorem sendAt_up {s : State} {p : Nat} (hp : s.portUp p = true) (addr : Nat) (h : Hdr) (body : List Byte) :
    s.sendAt p addr h body = { s with secure := (s.nextIv p h.tsid).1.secure, out := s.out ++ [s.segOut p addr h body] } := by
  have hsecure : (s.sendAt p addr h body).secure = (s.nextIv p h.tsid).1.secure := by
    rw [State.sendAt, if_pos hp]
    rfl
  rw [sendAt_frame, hsecure, sendAt_out hp]

theorem answerMgmt_up {s : State} {m : MgmtIn} (hp : s.portUp m.port = true) (st : Nat) (f : List Byte) :
    s.answerMgmt m st f = { s with secure := (s.nextIv m.port m.tsid).1.secure, out := s.out ++
      [s.segOut m.port m.addr (headOf 6 m.tsid 0 0 0) (mgmtBody m.mop m.mtag st f)] } := sendAt_up hp ..

theorem valid_iff (m : MgmtIn) : m.valid = true ↔ m.hdr.single m.body.length = true ∧ 16 ≤ m.body.length ∧ m.mdir = 0 ∧
    beAt m.body 4 12 = 0 ∧ m.shaped = true := by
  simp [MgmtIn.valid, and_assoc]

section
variable {s : State} {m : MgmtIn} {mop : Nat} {allowed own : Bool} {f : State → State}

theorem request_untaken (h : s.takes m.port m.wire = false) : s.request m mop allowed own f = s.discard m.port m.wire :=
  if_pos (by rw [h]; rfl)

/-- A frame of the transport that is this row's: what its checks leave. -/
theorem request_own (htakes : s.takes m.port m.wire = true) (hkind : m.hdr.kind = 6) (hmop : m.mop = mop) (hdef : mopDefined mop = true) :
    s.request m mop allowed own f = if m.auth = false ∨ m.mdir = 1 ∨ allowed = false then s.dropMgmt
      else if (m.busy && m.mop != 0x43) = true then s.turnAway m 1
      else if m.valid = false then s.turnAway m 6 else if own then f s else s := by
  subst hmop
  unfold State.request
  rw [if_neg (by simp [htakes]), if_neg (by simp [hkind])]
  simp [hdef, or_assoc]

theorem request_reserved (htakes : s.takes m.port m.wire = true) (hkind : m.hdr.kind = 6) (hdef : mopDefined m.mop = false)
    (hauth : m.auth = true) (hdir : m.mdir ≠ 1) (hbusy : m.busy = false) (hsession : (s.session? m.tsid).isSome = true) :
    s.request m mop allowed own f = s.turnAway m 6 := by
  unfold State.request
  rw [if_neg (by simp [htakes]), if_neg (by simp [hkind, hdef])]
  simp [hdef, hauth, hdir, hbusy, hsession]

end

theorem beAt_fields (m : MgmtIn) (off n : Nat) : beAt m.fields off n = beAt m.body (16 + off) n := by
  simp only [beAt, slice, MgmtIn.fields, List.drop_drop]

theorem reads_iff (m : MgmtIn) (a n : Nat) : m.reads a n = true ↔ a = beAt m.body 16 4 ∧ n = beAt m.body 20 2 := by
  rw [MgmtIn.reads, beAt_fields, beAt_fields, Bool.and_eq_true, beq_iff_eq, beq_iff_eq]

/-- A READ request that passes its checks. -/
theorem readFrame_requested {s : State} {m : MgmtIn} (h : s.requested m 1) (hsession : s.mgmtSession m.tsid = true) (a n : Nat) :
    s.readFrame m a n = if m.reads a n = true then s.readReply m a n else s := by
  rw [State.readFrame, hsession]
  exact State_requested_request h rfl _ _

section
variable {s : State} (m : MgmtIn) {a n : Nat}

theorem readReply_shape (h : a % 4 ≠ 0 ∨ n = 0 ∨ 2048 < n) : s.readReply m a n = s.answerMgmt m 6 [] :=
  if_pos (by omega)

/-- A READ of a well-formed range of addresses. -/
theorem readReply_range (ha : a % 4 = 0) (hn : 1 ≤ n) (hmax : n ≤ 2048) : s.readReply m a n =
    match (wordAddrs a n).find? (fun x => (blockAt x).isNone) with
    | some x => s.answerMgmt m 9 (beBytes 4 x)
    | none =>
      match (wordAddrs a n).find? (fun x => !((blockAt x).any (fun b => s.blockUp b.1))) with
      | some x => s.answerMgmt m 0x0A (beBytes 4 x)
      | none => ((s.readWords ((wordAddrs a n).filterMap blockAt)).1.modMgmt (fun x => { x with reads := x.reads + 1 })).answerMgmt m 0
          (readFields a n (s.readWords ((wordAddrs a n).filterMap blockAt)).2) := by
  unfold State.readReply
  dsimp only
  rw [if_neg (by omega)]
  rfl

theorem readReply_served (ha : a % 4 = 0) (hn : 1 ≤ n) (hmax : n ≤ 2048)
    (h : ∀ x ∈ wordAddrs a n, (blockAt x).any (fun b => s.blockUp b.1) = true) : s.readReply m a n =
      ((s.readWords ((wordAddrs a n).filterMap blockAt)).1.modMgmt (fun x => { x with reads := x.reads + 1 })).answerMgmt m 0
        (readFields a n (s.readWords ((wordAddrs a n).filterMap blockAt)).2) := by
  have hassigned : (wordAddrs a n).find? (fun x => (blockAt x).isNone) = none := List.find?_eq_none.2 fun x hx => by
    have hany := h x hx
    cases hb : blockAt x with
    | none => rw [hb] at hany; cases hany
    | some b => simp
  rw [readReply_range m ha hn hmax, hassigned]
  dsimp only
  rw [List.find?_eq_none.2 fun x hx => by simp [h x hx]]

end

/-- A READ of one word that its block serves. -/
theorem readFrame_word {s : State} {m : MgmtIn} {a i : Nat} {b : Block} (h : s.requested m 1) (hsession : s.mgmtSession m.tsid = true)
    (hreads : m.reads a 1 = true) (ha : a % 4 = 0) (hb : blockAt a = some (b, i)) (hup : s.blockUp b = true) :
    s.readFrame m a 1 = ((s.readEffect b i).modMgmt (fun x => { x with reads := x.reads + 1 })).answerMgmt m 0
      (readFields a 1 [(s.readBlock b i).toNat]) := by
  have hone : wordAddrs a 1 = [a] := rfl
  rw [readFrame_requested h hsession, if_pos hreads, readReply_served m ha (by decide) (by decide) (fun x hx => ?_), hone]
  · simp only [List.filterMap_cons, hb, List.filterMap_nil, State.readWords]
  · rw [hone, List.mem_singleton] at hx
    rw [hx, hb]
    exact hup

theorem nextIv_of_secure {s u : State} (h : u.secure = s.secure) (p tsid : Nat) :
    (u.nextIv p tsid).1.secure = (s.nextIv p tsid).1.secure := by
  unfold State.nextIv
  rw [h]
  split
  · exact h
  · rfl

/-- The reply to a READ of one word leaves, and the read's effect stays. -/
theorem readFrame_sends {s u : State} {m : MgmtIn} {a i : Nat} {b : Block} (h : s.requested m 1) (hsession : s.mgmtSession m.tsid = true)
    (hreads : m.reads a 1 = true) (ha : a % 4 = 0) (hb : blockAt a = some (b, i)) (hup : s.blockUp b = true)
    (hu : (s.readEffect b i).modMgmt (fun x => { x with reads := x.reads + 1 }) = u) (hp : u.portUp m.port = s.portUp m.port)
    (hsecure : u.secure = s.secure) (hout : u.out = s.out) : s.readFrame m a 1 = { u with
      secure := (s.nextIv m.port m.tsid).1.secure
      out := s.out ++ [s.segOut m.port m.addr (headOf 6 m.tsid 0 0 0) (mgmtBody 1 m.mtag 0 (readFields a 1 [(s.readBlock b i).toNat]))] } := by
  rw [readFrame_word h hsession hreads ha hb hup]
  obtain ⟨-, htakes, -, hmop, -⟩ := h
  have hiv := nextIv_of_secure hsecure m.port m.tsid
  rw [hu, answerMgmt_up (hp.trans (portUp_of_takes htakes)), hout, hiv, segOut_congr hsecure, hmop]

/-- Settles O45: requests, READ, and the three reads with an effect. -/
theorem reads : Obligations.Reads := by
  unfold Obligations.Reads
  refine ⟨?requests, ?operands, ?reads, ?effects⟩
  case requests =>
    intro s m mop allowed own f r
    refine ⟨request_untaken, ?own, valid_iff m, fun n => rfl, fun st g hp => ?out, request_reserved⟩
    case out => rw [answerMgmt_up hp]; rfl
    intro htakes hkind hmop hdef full
    have hown := request_own (allowed := allowed) (own := own) (f := f) htakes hkind hmop hdef
    refine ⟨fun h => hown.trans (if_pos h), fun hauth hdir hallowed => ?_⟩
    rw [if_neg (by simp [hauth, hdir, hallowed])] at hown
    refine ⟨fun hfull => hown.trans (if_pos hfull), fun hfull hvalid => ?_, fun hfull hvalid => ?_⟩
    · exact (hown.trans (if_neg (Bool.eq_false_iff.1 hfull))).trans (if_pos hvalid)
    · exact (hown.trans (if_neg (Bool.eq_false_iff.1 hfull))).trans (if_neg (by simp [hvalid]))
  case operands =>
    intro s m a n h hsession hne
    refine answer_eq_next h.1 ?_
    rw [readFrame_requested h hsession, if_neg fun hr => ?_]
    obtain ⟨ha, hn⟩ := (reads_iff m a n).1 hr
    exact hne.elim (· ha) (· hn)
  case reads =>
    intro s m h hsession a n no
    have hexec {t : State} (ht : s.readReply m a n = t) : exec (.mgmtRead m a n) s = .next t := by
      refine answer_eq_next h.1 ((readFrame_requested h hsession a n).trans ?_)
      rw [if_pos ((reads_iff m a n).2 ⟨rfl, rfl⟩), ht]
    refine ⟨fun hbad => hexec (readReply_shape m hbad), fun ha hn hmax => ⟨fun x hx => hexec ?_, fun hassigned x hx => hexec ?_,
      fun hserved => hexec (readReply_served m ha hn hmax hserved)⟩⟩
    · rw [readReply_range m ha hn hmax, hx]
    · have hnone : (wordAddrs a n).find? (fun x => (blockAt x).isNone) = none :=
        List.find?_eq_none.2 fun x hx => by simpa [Option.isSome_iff_ne_none] using hassigned x hx
      rw [readReply_range m ha hn hmax, hnone, hx]
  case effects =>
    intro s m h hsession sent counted
    have hreq := h
    obtain ⟨hport, htakes, -, hmop, -⟩ := h
    have hp := portUp_of_takes htakes
    refine ⟨fun i hi hup hr => ?admitMax, fun hr => ?subst, fun hr => ?time⟩
    case subst =>
      have haddr : blockAt 0x2030 = some (.package 2, 12) := rfl
      have hword : s.readBlock (.package 2) 12 = s.flt.substMax := rfl
      have hsent := readFrame_sends hreq hsession hr rfl haddr rfl rfl rfl rfl rfl
      have hexec : exec (.substMaxRead m) s = .next (s.readFrame m 0x2030 1) := answer_eq_next hport rfl
      rw [hword] at hsent
      exact ⟨_, hexec.trans (congrArg _ hsent), ⟨rfl, rfl⟩, rfl⟩
    case time =>
      have hword : s.readBlock (.package 4) 18 = word s.pkg.aon := rfl
      have haddr : blockAt 0x4048 = some (.package 4, 18) := rfl
      have hsent := readFrame_sends hreq hsession hr rfl haddr rfl rfl rfl rfl rfl
      rw [hword, show (word s.pkg.aon).toNat = s.pkg.aon % 2 ^ 32 from BitVec.toNat_ofNat ..] at hsent
      exact ⟨_, answer_eq_next hport hsent, ⟨rfl, rfl⟩, rfl⟩
    case admitMax =>
      have hexec : exec (.admitMaxRead m i) s = .next (s.readFrame m (0x100060 + 0x1000 * i) 1) :=
        answer_eq_next (by rw [hport]; exact decide_eq_true hi) (by rw [show 0x100000 + 0x1000 * i + 0x60 = 0x100060 + 0x1000 * i by omega])
      have haddr : blockAt (0x100060 + 0x1000 * i) = some (.fold i, 24) := by
        rcases (by omega : i = 0 ∨ i = 1) with rfl | rfl <;> decide
      have hword : s.readBlock (.fold i) 24 = (s.hub i).fold.admitMax := rfl
      have hsent := readFrame_sends hreq hsession hr (by omega) haddr hup rfl (portUp_congr (s := s) (t := s.modFold i (fun r => { r with admitMax := 0 })) rfl rfl (modFold_up s i _) _) rfl rfl
      rw [hword] at hsent
      exact ⟨_, hexec.trans (congrArg _ hsent), ⟨rfl, rfl⟩, rfl⟩

/-! #### Commands (R541 to R545) -/

section
variable {s : State} {e : Envelope} {code : Nat} {states : List Nat} {q : QCol} {signer : Option Nat} {own : Bool} {f : State → CmdOut}
  {after : State → State}

/-- What the checks of R541 make of a COMMAND whose request is in order. -/
theorem command_checked (hreq : s.requested e.req 0x10) (hsess : s.mgmtSession e.req.tsid = true) :
    s.command e code states q signer own f after =
      if !(cmdDefined e.cmd) then s.answerMgmt e.req 6 []
      else if e.cmd ≠ code then s
      else if !(states.contains s.fuses.lcs) then s.answerMgmt e.req 3 []
      else if !(s.qAllows q) then s.answerMgmt e.req 8 []
      else if e.serial ≠ s.fuses.serial then s.answerMgmt e.req 6 []
      else if e.chal ≠ s.mgmt.challenge then s.answerMgmt e.req 0x0B (beBytes 4 0)
      else if some e.signer ≠ signer then s.answerMgmt e.req 2 []
      else if !e.sigOk then (s.answerMgmt e.req 2 []).countAuthFail
      else if e.lenOk && !own then s
      else
        let o := if e.lenOk then f s else refused s 6 0
        let s1 := o.st.recordCmd code o.status
        let s2 := if o.later then s1 else s1.answerMgmt e.req o.status o.fields
        if o.status = 0 then after s2 else s2 := by
  rw [State.command, hsess]
  exact (State_requested_request hreq rfl true _).trans (if_pos rfl)

/-- A command that is put off: its reply waits (R543). -/
theorem command_later (h : s.commanded e code states q signer) (hcode : cmdDefined code = true) {t : State} (hf : f s = ⟨t, 0, [], true⟩) :
    s.command e code states q signer true f after = after (t.recordCmd code 0) := by
  rw [State_command_of_commanded h hcode, hf]
  rfl

end

/-! What a row of a command gives: other operands, an effect, a refusal, or a reply that waits. -/

section
variable {s : State} {e : Envelope} {code : Nat} {states : List Nat} {q : QCol} {signer : Option Nat}
  (h : s.commanded e code states q signer) (hcode : cmdDefined code = true) {own : Bool} {f : State → CmdOut} {after : State → State}
include h hcode

theorem exec_other (hown : own = false) :
    answer (portOk e.req.port) (s.command e code states q signer own f after) = .next s := by
  subst hown
  exact answer_eq_next h.1.1 (State_command_other h hcode f after)

theorem exec_done (hown : own = true) {t : State} {fields : List Byte} (hf : f s = done t fields) :
    answer (portOk e.req.port) (s.command e code states q signer own f after) = .next (after (t.answered e code 0 fields)) := by
  subst hown
  exact answer_eq_next h.1.1 (State_command_done h hcode after hf)

theorem exec_refused (hown : own = true) {t : State} {status field : Nat} (hf : f s = refused t status field) (hstatus : status ≠ 0) :
    answer (portOk e.req.port) (s.command e code states q signer own f after) = .next (t.answered e code status (errField status field)) := by
  subst hown
  exact answer_eq_next h.1.1 (State_command_refused h hcode after hf hstatus)

theorem exec_later (hown : own = true) {t : State} (hf : f s = ⟨t, 0, [], true⟩) :
    answer (portOk e.req.port) (s.command e code states q signer own f after) = .next (after (t.recordCmd code 0)) := by
  subst hown
  exact answer_eq_next h.1.1 (command_later h hcode hf)

end

theorem at'_modAt_clears {α : Type} {f : α → α} {g : α → Word} {d : α} (l : List α) (n : Nat) {m : Nat}
    (hg : ∀ x, g (f x) = g x &&& ~~~(word m)) (hd : g d = 0) : g (at' (modAt l n f) n d) = g (at' l n d) &&& ~~~(word m) := by
  rw [at', getElem?_modAt, if_pos rfl, at']
  cases l[n]? with
  | none =>
    rw [Option.map_none, Option.getD_none, hd]
    exact BitVec.zero_and.symm
  | some x => exact hg x

/-- A register with the bits of a mask cleared reads so (R545). -/
theorem clearAt_reads (s : State) {b : Block} {i : Nat} (h : (w1cMask b i).isSome = true) (m : Nat) :
    (s.clearAt b i m).readBlock b i = s.readBlock b i &&& ~~~(word m) := by
  have hcore (k : Nat) (f : Core → Core) : (s.modCore k f).core k = f (s.core k) := State_core_modCore_same ..
  unfold w1cMask at h
  split at h
  case h_9 => exact at'_modAt_clears (g := fun x : Hub => x.fold.event) s.hubs _ (fun _ => rfl) rfl
  case h_10 => exact at'_modAt_clears (g := Dsm.err) s.dsm _ (fun _ => rfl) rfl
  case h_11 => exact at'_modAt_clears (g := Repair.event) s.repair _ (fun _ => rfl) rfl
  case h_12 k => exact congrArg (fun c : Core => c.arr.bwEvent) (hcore k _)
  case h_13 k => exact congrArg (fun c : Core => c.arr.defectEvent) (hcore k _)
  case h_14 k => exact congrArg (fun c : Core => c.sp.err) (hcore k _)
  case h_15 k => exact congrArg (fun c : Core => c.sp.tregErr) (hcore k _)
  case h_16 => cases h
  all_goals rfl

theorem clearAll_unsound {s : State} {pairs : List (Nat × Nat)}
    (h : ¬(1 ≤ pairs.length ∧ pairs.length ≤ 64 ∧ ∀ p ∈ pairs, maskBad p = false)) : s.clearAll pairs = refused s 6 0 := by
  refine if_pos ?_
  simp only [List.any_eq_true]
  refine Classical.byContradiction fun hno => h ?_
  simp only [not_or, Nat.not_lt, not_exists, not_and, Bool.not_eq_true] at hno
  exact hno

theorem clearAll_sound {s : State} {pairs : List (Nat × Nat)} (hsound : 1 ≤ pairs.length ∧ pairs.length ≤ 64 ∧ ∀ p ∈ pairs, maskBad p = false) :
    s.clearAll pairs = match pairs.find? (fun p => !(isW1C p.1)) with
      | some p => refused s 9 p.1
      | none =>
        match pairs.find? (fun p => !((blockAt p.1).any (fun b => s.blockUp b.1))) with
        | some p => refused s 0x0A p.1
        | none => done (pairs.foldl (fun s p => match blockAt p.1 with
            | some b => s.clearAt b.1 b.2 p.2
            | none => s) s) [] := by
  obtain ⟨hmin, hmax, hmask⟩ := hsound
  have hno : ¬pairs.any maskBad = true := by simpa using hmask
  refine if_neg ?_
  rintro (h | h | h)
  · omega
  · omega
  · exact hno h

/-- What USE-PROFILE leaves once it has its slot. -/
theorem useProfile_held {s : State} {e : Envelope} {slot : Nat} (hslot : slot < 4) (hheld : s.pkg.phase = .held) :
    s.useProfile e slot = match s.profOk slot with
      | none => refused s 0x11 0
      | some p => done { (s.inForce slot p).settle' with pkg := { (s.inForce slot p).settle'.pkg with phase := .starting } } [] := by
  exact (if_neg (by omega)).trans (if_pos hheld)

theorem useProfile_resumes {s : State} {e : Envelope} {slot : Nat} (hslot : slot < 4) (hheld : s.pkg.phase = .held) {p : ProfSlot}
    (hp : s.profOk slot = some p) {t : State} (ht : (s.inForce slot p).settle' = t) :
    s.useProfile e slot = done { t with pkg := { t.pkg with phase := .starting } } [] := by
  subst ht
  rw [useProfile_held hslot hheld, hp]

theorem useProfile_waits {s : State} {e : Envelope} {slot : Nat} (hslot : slot < 4) (hheld : s.pkg.phase ≠ .held) : s.useProfile e slot =
    ⟨((s.maint.filter (fun a => a.code == 7)).foldl (fun t a => t.abandon a) s).queueActivity e 7 slot, 0, [], true⟩ := by
  rw [State.useProfile, if_neg (by omega), if_neg hheld]

/-- Settles O46: the checks of a command, and the owner's commands. -/
theorem commands : Obligations.Commands := by
  unfold Obligations.Commands
  refine ⟨?checks, ?owner⟩
  case checks =>
    intro s e code states q signer own f after hreq hsess c no
    have hc : c = _ := command_checked hreq hsess
    refine ⟨fun hdef => ?_, fun hdef hcode => ?_⟩
    · rw [hc, if_pos (by simp [hdef])]
      rfl
    rw [if_neg (by simp [hdef]), if_neg (by simp [hcode])] at hc
    refine ⟨fun hlc => ?_, fun hlc => ?_⟩
    · rw [hc, if_pos (by simp only [hlc]; rfl)]
      rfl
    rw [if_neg (by simp only [hlc]; decide)] at hc
    refine ⟨fun hq => ?_, fun hq => ?_⟩
    · rw [hc, if_pos (by simp [hq])]
      rfl
    rw [if_neg (by simp [hq])] at hc
    refine ⟨fun hserial => ?_, fun hserial => ?_⟩
    · rw [hc, if_pos hserial]
      rfl
    rw [if_neg (not_not_intro hserial)] at hc
    refine ⟨fun hchal => ?_, fun hchal => ?_⟩
    · rw [hc, if_pos hchal]
      rfl
    rw [if_neg (not_not_intro hchal)] at hc
    refine ⟨fun hsigner => ?_, fun hsigner hsig => ?_, fun hsigner hsig hlen => ?_, fun hsigner hsig hlen hown => ?_⟩
    · rw [hc, if_pos hsigner]
      rfl
    all_goals rw [if_neg (not_not_intro hsigner)] at hc
    · rw [hc, if_pos (by simp [hsig])]
      rfl
    · rw [hc, if_neg (by simp [hsig]), if_neg (by simp [hlen]), hlen]
      rfl
    · rw [hc, if_neg (by simp [hsig]), if_pos (by simp [hlen, hown])]
  case owner =>
    intro s e cmd
    refine ⟨?clears, fun b i m h => clearAt_reads s h m, fun h => exec_done h rfl rfl rfl, ?svn, ?profile, ?firmware⟩
    case clears =>
      intro h pairs gives sound
      have hown := beq_self_eq_true pairs
      refine ⟨fun l hl => exec_other h rfl (beq_false_of_ne hl), fun hbad => exec_refused h rfl hown (clearAll_unsound hbad) (by decide),
        fun hsound p hp => ?_, fun hsound hw1c => ?_⟩
      · exact exec_refused h rfl hown ((clearAll_sound hsound).trans (by rw [hp])) (by decide)
      have hnone : pairs.find? (fun p => !(isW1C p.1)) = none := List.find?_eq_none.2 fun p hp => by simp [hw1c p hp]
      have hall := clearAll_sound (s := s) hsound
      rw [hnone] at hall
      refine ⟨fun p hp => exec_refused h rfl hown (hall.trans (by rw [hp])) (by decide), fun hup => ?_⟩
      have hserved : pairs.find? (fun p => !((blockAt p.1).any (fun b => s.blockUp b.1))) = none :=
        List.find?_eq_none.2 fun p hp => by simp [hup p hp]
      rw [hserved] at hall
      exact exec_done h rfl hown hall
    case svn =>
      intro h n
      refine ⟨fun x hx => exec_other h rfl (beq_false_of_ne hx), fun hle => exec_done h rfl (beq_self_eq_true _) (if_neg (by omega)),
        fun hlt => exec_refused h rfl (beq_self_eq_true _) (if_pos hlt) (by decide)⟩
    case profile =>
      intro h slot
      have hown := beq_self_eq_true slot
      refine ⟨fun x hx => exec_other h rfl (beq_false_of_ne hx), fun hle => exec_refused h rfl hown (if_pos hle) (by decide),
        fun hlt hheld hp => ?_, fun hlt hheld p hp => ?_, fun hlt hheld => exec_later h rfl hown (useProfile_waits hlt hheld)⟩
      · exact exec_refused h rfl hown ((useProfile_held hlt hheld).trans (by rw [hp])) (by decide)
      · intro t
        have hresumes := useProfile_resumes (e := e) hlt hheld hp (t := t) rfl
        clear_value t
        exact exec_done h rfl hown hresumes
    case firmware =>
      intro h slot
      exact ⟨fun x hx => exec_other h rfl (beq_false_of_ne hx), fun hle => exec_refused h rfl (beq_self_eq_true _) (if_pos hle) (by decide),
        fun hlt => exec_later h rfl (beq_self_eq_true _) (if_neg (by omega))⟩

/-! #### Transfers to the NVM (R546) -/

theorem nvmBegin_sized {s : State} {target len : Nat} (digest : Nat)
    (h : target < 7 ∧ (target = 0 → len = 68) ∧ (target ≠ 0 → len ≤ regionSize target)) : s.nvmBegin target len digest =
      if s.slotInForce target then refused s 0x10 target
      else if s.nvm.xfer.st = .programming then refused s 1 0
      else done { s with nvm := { s.nvm with xfer := ⟨.receiving, target, len, digest, 0, []⟩ } } [] := by
  obtain ⟨h7, h0, hmax⟩ := h
  refine if_neg ?_
  rintro (h | ⟨h, hlen⟩ | ⟨h, hlen⟩)
  · omega
  · exact hlen (h0 h)
  · exact absurd (hmax h) (by omega)

theorem nvmBegin_unsized {s : State} {target len : Nat} (digest : Nat)
    (h : ¬(target < 7 ∧ (target = 0 → len = 68) ∧ (target ≠ 0 → len ≤ regionSize target))) :
    s.nvmBegin target len digest = refused s 6 0 := by
  refine if_pos ?_
  refine Classical.byContradiction fun hno => h ?_
  simp only [not_or, not_and, Nat.not_le, Classical.not_not, Nat.not_lt, ne_eq] at hno
  exact hno

/-- Data at the cursor (R546 step 3). -/
theorem nvmData_staged {s : State} {off : Nat} {data : List Byte} (hmin : 1 ≤ data.length) (hmax : data.length ≤ 8192)
    (hst : s.nvm.xfer.st = .receiving) (hfit : off + data.length ≤ s.nvm.xfer.total) (hoff : off = s.nvm.xfer.cursor) :
    s.nvmData off data = s.stageNvm s.nvm.xfer data := by
  unfold State.nvmData
  rw [if_neg (by omega), if_neg (not_not_intro hst), if_neg (by omega), if_pos hoff]

/-- Data away from the cursor. -/
theorem nvmData_away {s : State} {off : Nat} {data : List Byte} (hmin : 1 ≤ data.length) (hmax : data.length ≤ 8192)
    (hst : s.nvm.xfer.st = .receiving) (hfit : off + data.length ≤ s.nvm.xfer.total) (hoff : off ≠ s.nvm.xfer.cursor) :
    s.nvmData off data = if off + data.length ≤ s.nvm.xfer.cursor then (s, 0, s.nvm.xfer.cursor) else (s, 0x0E, s.nvm.xfer.cursor) := by
  unfold State.nvmData
  rw [if_neg (by omega), if_neg (not_not_intro hst), if_neg (by omega), if_neg hoff]

section
variable (m : Nvm) (part serial : Nat) (i : NvmImage)

theorem program_select (h : i.target = 0) : m.program part serial i = { m with fwsel := headerSlot i.data } := by
  rw [Nvm.program, h]
  rfl

theorem program_firmware (h : i.target = 1 ∨ i.target = 2) :
    m.program part serial i = { m with fw := m.fw.set (i.target - 1) (fwSlotOf i.target i.data i.sigOk) } := by
  rcases h with h | h
  · rw [Nvm.program, h]
    rfl
  · rw [Nvm.program, h]
    rfl

theorem program_profile (h : 3 ≤ i.target) : m.program part serial i =
    { m with prof := m.prof.set (i.target - 3) (profSlotOf part serial i.target i.data i.sigOk i.cakOk) } := by
  unfold Nvm.program
  split
  · omega
  · omega
  · omega
  · rfl

end

/-- Settles O47: transfers to the NVM. -/
theorem nvmTransfers : Obligations.NvmTransfers := by
  unfold Obligations.NvmTransfers
  refine ⟨?begins, ?data, ?programs⟩
  case begins =>
    intro s e h target len digest
    have hown : (target == target && len == len && digest == digest) = true := by simp
    refine ⟨fun x y z hne => exec_other h rfl (Bool.eq_false_iff.2 fun heq => ?_), fun hun => exec_refused h rfl hown (nvmBegin_unsized digest hun) (by decide),
      fun hsize hforce => exec_refused h rfl hown ((nvmBegin_sized digest hsize).trans (if_pos hforce)) (by decide), fun hsize hforce hst => ?_, fun hsize hforce hst => ?_⟩
    · simp only [Bool.and_eq_true, beq_iff_eq] at heq
      exact hne.elim (· heq.1.1) (·.elim (· heq.1.2) (· heq.2))
    all_goals
      have hbegin := (nvmBegin_sized digest hsize).trans (if_neg (Bool.eq_false_iff.1 hforce))
    · exact exec_refused h rfl hown (hbegin.trans (if_pos hst)) (by decide)
    · exact exec_done h rfl hown (hbegin.trans (if_neg hst))
  case data =>
    intro s m h hsession off data
    have hrun (a : Nat) (b : List Byte) : exec (.nvmData m a b) s = .next (if (a == beAt m.fields 0 4 && b == m.fields.drop 16) = true
        then (s.nvmData a b).1.answerMgmt m (s.nvmData a b).2.1 (beBytes 4 (s.nvmData a b).2.2) else s) := by
      refine answer_eq_next h.1 ?_
      rw [hsession]
      exact State_requested_request h rfl _ _
    have hoperands : beAt m.fields 0 4 = off ∧ m.fields.drop 16 = data :=
      ⟨beAt_fields m 0 4, by simp only [MgmtIn.fields, List.drop_drop, data]⟩
    rw [hoperands.1, hoperands.2] at hrun
    have hown {t : State} {st v : Nat} (hd : s.nvmData off data = (t, st, v)) :
        exec (.nvmData m off data) s = .next (t.answerMgmt m st (beBytes 4 v)) := by
      rw [hrun, if_pos (by simp), hd]
    refine ⟨fun a b hne => ?_, fun hlen => hown (if_pos (by omega)), fun hmin hmax => ⟨fun hst => hown ?_, fun hst hover => hown ?_,
      fun hst hfit => ⟨fun hoff hbelow => hown ?_, fun hoff habove => hown ?_, fun hoff => ?staged⟩⟩⟩
    · rw [hrun, if_neg fun heq => ?_]
      simp only [Bool.and_eq_true, beq_iff_eq] at heq
      exact hne.elim (· heq.1) (· heq.2)
    · exact (if_neg (by omega)).trans (if_pos hst)
    · exact (if_neg (by omega)).trans ((if_neg (not_not_intro hst)).trans (if_pos hover))
    · exact (nvmData_away hmin hmax hst hfit hoff).trans (if_pos hbelow)
    · exact (nvmData_away hmin hmax hst hfit hoff).trans (if_neg (by omega))
    case staged =>
      intro y
      have hstage := nvmData_staged hmin hmax hst hfit hoff
      refine ⟨fun hlt => hown (hstage.trans (if_pos hlt)), fun heq hdig => hown (hstage.trans ((if_neg ?_).trans (if_neg hdig))),
        fun heq hdig => hown (hstage.trans ((if_neg ?_).trans (if_pos hdig)))⟩
      all_goals exact fun hlt => absurd hlt (Nat.not_lt.2 (Nat.le_of_eq heq.symm))
  case programs =>
    intro s sig cak x n
    refine ⟨fun h ok => answer_eq_next rfl (if_pos h), fun h => answer_eq_next rfl (if_neg (not_not_intro h)),
      fun h => answer_eq_next rfl (if_neg (not_not_intro h)), fun h => ?_, fun h => ?_, fun h => ?_⟩
    · rw [show n = _ from program_select s.nvm _ _ ⟨x.target, x.data, sig, cak⟩ h]
      exact ⟨rfl, rfl, rfl⟩
    · rw [show n = _ from program_firmware s.nvm _ _ ⟨x.target, x.data, sig, cak⟩ h]
      exact ⟨rfl, rfl, fun i hi => List.getElem?_set_ne (Ne.symm hi), fun hin => List.getElem?_set_self hin⟩
    · rw [show n = _ from program_profile s.nvm _ _ ⟨x.target, x.data, sig, cak⟩ h]
      exact ⟨rfl, rfl, fun i hi => List.getElem?_set_ne (Ne.symm hi), fun hin => List.getElem?_set_self hin⟩

/-! #### The pair is bound and unbound (R425, R436, R547) -/

theorem answered_frame (s : State) (e : Envelope) (code st : Nat) (f : List Byte) : s.answered e code st f = { s with
    mgmt := (s.answered e code st f).mgmt, secure := (s.answered e code st f).secure, out := (s.answered e code st f).out
    pkg := { s.pkg with free := (s.answered e code st f).pkg.free } } := by
  rw [State.answered, State.answerMgmt, State.mgmtReply, sendAt_frame]
  rfl

theorem answered_keeps {β : Type} {g : State → β} (hg : ∀ (t : State) mgmt secure out free, g { t with
    mgmt := mgmt, secure := secure, out := out, pkg := { t.pkg with free := free } } = g t) (s : State) (e : Envelope) (code st : Nat)
    (f : List Byte) : g (s.answered e code st f) = g s := (congrArg g (answered_frame s e code st f)).trans (hg ..)

theorem answered_pwrap (s : State) (e : Envelope) (code st : Nat) (f : List Byte) : (s.answered e code st f).secure.pwrap = s.secure.pwrap :=
  State_sendAt_keeps (g := fun t => t.secure.pwrap) (fun _ _ => rfl) (fun _ _ => rfl) _ _ _ _ _

/-- The checks of PAIR-BIND that come before those of R425. -/
theorem pairBind_roles {s : State} {partner : List Nat} {w : Nat} {u : Bool}
    (h : s.pkg.pairRole = 0 ∧ w = 0 ∨ s.pkg.pairRole ≠ 0 ∧ 0 < w ∧ u = true) : s.pairBind partner w u =
      match s.bindFails partner with
      | some n => refused s 0x0C n
      | none =>
        if 16 ≤ s.fuses.bindings then refused s 0x0D 0
        else if s.pkg.pairRole == 0 then
          done (({ s with pkg := { s.pkg with free := s.pkg.free + 2 } } : State).bindTo (Config.drbg s.pkg.free % 2 ^ 256) partner)
            (beBytes 512 (Config.openValue 25 (s.pkg.free + 1) (at' partner 2 0)))
        else done (s.bindTo (Config.openValue 26 0 w % 2 ^ 256) partner) [] := by
  unfold State.pairBind
  dsimp only
  rcases h with ⟨hrole, rfl⟩ | ⟨hrole, hw, rfl⟩
  · exact (if_neg (by simp [hrole])).trans (if_neg (by simp [hrole]))
  · exact (if_neg (by simp [beq_false_of_ne hrole, beq_false_of_ne (Nat.ne_of_gt hw)])).trans (if_neg (by simp))

/-- What a binding leaves, before the seed's draw. -/
theorem bindTo_answered (s : State) (n seed : Nat) (partner : List Nat) (e : Envelope) (f : List Byte) {t : State}
    (ht : t = (({ s with pkg := { s.pkg with free := n } } : State).bindTo seed partner).answered e 0x30 0 f) :
    t.fuses = { s.fuses with pairSeed := some seed, bindings := s.fuses.bindings + 1 } ∧
      t.pair.st = .joining ∧ t.pair.bound = true ∧ t.pair.leader = (s.pkg.pairRole == 0) ∧ t.pair.partner = partner ∧
      t.pair.peerBoot = none ∧ t.secure.pwrap = true ∧
      t = { s with fuses := t.fuses, secure := t.secure, pair := t.pair, pkg := { s.pkg with free := t.pkg.free }, mgmt := t.mgmt,
                   out := t.out } := by
  have hframe := answered_frame (({ s with pkg := { s.pkg with free := n } } : State).bindTo seed partner) e 0x30 0 f
  have hpwrap := answered_pwrap (({ s with pkg := { s.pkg with free := n } } : State).bindTo seed partner) e 0x30 0 f
  rw [← ht] at hframe hpwrap
  have hpair : t.pair = _ := congrArg State.pair hframe
  have hfuses : t.fuses = { s.fuses with pairSeed := some seed, bindings := s.fuses.bindings + 1 } := congrArg State.fuses hframe
  rw [hfuses, hpair]
  exact ⟨rfl, rfl, rfl, rfl, rfl, rfl, hpwrap, hframe⟩

theorem replyLater_keeps {β : Type} {g : State → β} (hg : ∀ (t : State) refused out secure free pair, g { t with
    inst := { t.inst with refused := refused }, out := out, secure := secure, pkg := { t.pkg with free := free }, pair := pair } = g t)
    (s : State) (l : List Nat) (name status detail : Nat) : g (s.replyLater l name status detail) = g s := by
  rw [State.replyLater, reply_frame]
  exact hg ..

/-- What is left of the partner's commits and sessions. -/
theorem partnerGone_keeps {β : Type} {g : State → β} (hg : ∀ (t : State) inst out secure free pair, g { t with
    inst := inst, out := out, secure := secure, pkg := { t.pkg with free := free }, pair := pair } = g t)
    (hcommits : ∀ (t : State) commits, g { t with commits := commits } = g t) (s : State) : g s.partnerGone = g s := by
  have hsessions (t : State) (x : Session) : g (match x.waits with
      | some w => t.mgmtReply w.1 w.2.1 x.tsid 0x42 w.2.2 0 (sessionFields x.tsid x.tenant)
      | none => t) = g t := by
    split
    · rw [State.mgmtReply, sendAt_frame]
      exact hg t t.inst _ _ t.pkg.free t.pair
    · rfl
  have hreplies (t : State) (r : List Nat) : g (t.replyLater (r.drop 2) (at' r 1 0) 0 0) = g t :=
    replyLater_keeps (fun t refused out secure free pair => hg t { t.inst with refused := refused } out secure free pair) ..
  have hall := (foldl_keeps g hreplies s.pair.replies _).trans (foldl_keeps g hsessions (s.secure.sessions.filter (·.waits.isSome)) s)
  refine Eq.trans ?_ hall
  unfold State.partnerGone
  dsimp only
  generalize s.pair.replies.foldl _ _ = u
  exact (hg { u with commits := u.commits.map (fun c => { c with needPeer := false }) } u.inst u.out _ u.pkg.free _).trans (hcommits u _)

/-- What an unbound pair leaves. -/
theorem unbind_answered (s : State) (e : Envelope) {t : State} (ht : t = s.unbind.answered e 0x31 0 []) :
    t.pair.st = .unpaired ∧ t.pair.bound = false ∧ t.pair.unconf = [] ∧
      t.entries = s.entries.map (fun x => { x with homeHere := true, away := false }) ∧
      t.streams = s.streams.map (fun p => (p.1, { p.2 with homeHere := true })) ∧
      t.pkg.quiet = (if s.pkg.quiet = 7 then 0 else s.pkg.quiet) ∧ t.fuses = s.fuses ∧ t.cores = s.cores := by
  have hgone {β : Type} (g : State → β) (hg : ∀ (t : State) inst out secure free pair, g { t with
      inst := inst, out := out, secure := secure, pkg := { t.pkg with free := free }, pair := pair } = g t)
      (hcommits : ∀ (t : State) commits, g { t with commits := commits } = g t) : g s.partnerGone = g s := partnerGone_keeps hg hcommits s
  have hkeep {β : Type} (g : State → β) (hg : ∀ (t : State) mgmt secure out free, g { t with
      mgmt := mgmt, secure := secure, out := out, pkg := { t.pkg with free := free } } = g t) : g t = g s.unbind := by
    rw [ht]
    exact answered_keeps hg ..
  rw [hkeep State.pair fun _ _ _ _ _ => rfl, hkeep State.entries fun _ _ _ _ _ => rfl, hkeep State.streams fun _ _ _ _ _ => rfl,
    hkeep (fun t => t.pkg.quiet) fun _ _ _ _ _ => rfl, hkeep State.fuses fun _ _ _ _ _ => rfl, hkeep State.cores fun _ _ _ _ _ => rfl]
  refine ⟨rfl, rfl, rfl, ?_, ?_, ?_, ?_, ?_⟩
  · exact congrArg (List.map _) (hgone State.entries (fun _ _ _ _ _ _ => rfl) fun _ _ => rfl)
  · exact congrArg (List.map _) (hgone State.streams (fun _ _ _ _ _ _ => rfl) fun _ _ => rfl)
  · exact congrArg (fun q => if q = 7 then 0 else q) (hgone (fun t => t.pkg.quiet) (fun _ _ _ _ _ _ => rfl) fun _ _ => rfl)
  · exact hgone State.fuses (fun _ _ _ _ _ _ => rfl) fun _ _ => rfl
  · exact hgone State.cores (fun _ _ _ _ _ _ => rfl) fun _ _ => rfl

/-- Settles O48: PAIR-BIND and PAIR-UNBIND. -/
theorem pairsAreBound : Obligations.PairsAreBound := by
  unfold Obligations.PairsAreBound
  refine ⟨?binds, ?unbinds⟩
  case binds =>
    intro s e h partner w does fits
    have hown : (partner == partner && w == w) = true := by simp
    refine ⟨fun l x u hne => exec_other h rfl (Bool.eq_false_iff.2 fun heq => ?_), fun u hbad => exec_refused h rfl hown (if_pos ?_) (by decide),
      fun hrole hw => exec_refused h rfl hown ((if_neg ?_).trans (if_pos ?_)) (by decide), fun n hn u hfit => ?_, fun hn hmany u hfit => ?_, fun hn hfew u hfit => ?draws⟩
    · simp only [Bool.and_eq_true, beq_iff_eq] at heq
      exact hne.elim (· heq.1) (· heq.2)
    · rcases hbad with ⟨hrole, hw⟩ | ⟨hrole, hw⟩
      · simp [hrole]
        omega
      · simp [hrole, hw]
    · simp [beq_false_of_ne hrole, beq_false_of_ne (Nat.ne_of_gt hw)]
    · simp [hrole]
    · exact exec_refused h rfl hown ((pairBind_roles hfit).trans (by rw [hn])) (by decide)
    · exact exec_refused h rfl hown ((pairBind_roles hfit).trans (by rw [hn]; exact if_pos hmany)) (by decide)
    case draws =>
      have hbind := pairBind_roles (partner := partner) hfit
      rw [hn] at hbind
      dsimp only at hbind
      rw [if_neg (by omega)] at hbind
      cases hrole : s.pkg.pairRole == 0 with
      | true =>
        rw [if_pos hrole] at hbind
        have hleft := bindTo_answered s (s.pkg.free + 2) (Config.drbg s.pkg.free % 2 ^ 256) partner e
          (beBytes 512 (Config.openValue 25 (s.pkg.free + 1) (at' partner 2 0))) rfl
        rw [hrole] at hleft
        exact ⟨_, _, exec_done h rfl hown hbind, hleft⟩
      | false =>
        rw [if_neg (by simp [hrole])] at hbind
        have hleft := bindTo_answered s s.pkg.free (Config.openValue 26 0 w % 2 ^ 256) partner e [] rfl
        rw [hrole] at hleft
        exact ⟨_, _, exec_done h rfl hown hbind, hleft⟩
  case unbinds =>
    intro s e h
    refine ⟨fun hno => exec_refused h rfl rfl (if_neg ?_) (by decide), fun hgo => ⟨_, exec_done h rfl rfl (if_pos ?_), unbind_answered s e rfl⟩⟩
    · rcases hno with h | h | h | ⟨h, hlive⟩
      · simp [h]
      · simp [h]
      · simp [h]
      · simp [h, hlive]
    · rcases hgo with h | h | ⟨h, hlive⟩
      · exact .inl h
      · exact .inr (.inl h)
      · exact .inr (.inr ⟨h, by simp [hlive]⟩)

end Sys2Proof.Machine
end

/-! ## Trust operations and the pair (R425 to R438, R476 to R486) -/

section
namespace Sys2Proof.Machine
open Sys2Proof

/-! #### The bytes of a list of fields (R3) -/

theorem length_leBytes (n v : Nat) : (leBytes n v).length = n := by
  induction n generalizing v with
  | zero => rfl
  | succ n ih => rw [leBytes, List.length_cons, ih]

theorem leNat_leBytes (n v : Nat) : leNat (leBytes n v) = v % 256 ^ n := by
  induction n generalizing v with
  | zero => rw [leBytes, leNat, Nat.pow_zero, Nat.mod_one]
  | succ n ih =>
    rw [leBytes, leNat, ih, BitVec.toNat_ofNat]
    exact (Nat.mod_mul (a := 256) (b := 256 ^ n)).symm.trans (by rw [Nat.pow_succ'])

theorem beNat_reverse (l : List Byte) : beNat l.reverse = leNat l := by
  rw [beNat, List.foldl_reverse]
  induction l with
  | nil => rfl
  | cons b l ih =>
    rw [List.foldr_cons, ih, leNat]
    omega

theorem length_beBytes (n v : Nat) : (beBytes n v).length = n := by
  rw [beBytes, List.length_reverse, length_leBytes]

theorem beNat_beBytes (n v : Nat) : beNat (beBytes n v) = v % 256 ^ n := by
  rw [beBytes, beNat_reverse, leNat_leBytes]

theorem length_fieldBytes (l : List (Nat × Nat)) : (fieldBytes l).length = (l.map Prod.fst).sum := by
  induction l with
  | nil => rfl
  | cons x l ih =>
    rw [fieldBytes, List.flatMap_cons, List.length_append, length_beBytes, List.map_cons, List.sum_cons, ← ih]
    rfl

theorem beAt_append {pre mid post : List Byte} {off len : Nat} (hoff : pre.length = off) (hlen : mid.length = len) :
    beAt (pre ++ (mid ++ post)) off len = beNat mid := by
  rw [beAt, slice, List.drop_left' hoff, List.take_left' hlen]

/-- Field `k` of a list of fields is read at the sum of the widths before it. -/
theorem beAt_field (l : List (Nat × Nat)) (rest : List Byte) (k : Nat) {w v off : Nat} (hk : l[k]? = some (w, v))
    (hoff : ((l.take k).map Prod.fst).sum = off) : beAt (fieldBytes l ++ rest) off w = v % 256 ^ w := by
  have hl : l = l.take k ++ (w, v) :: l.drop (k + 1) := by
    obtain ⟨hlt, hget⟩ := List.getElem?_eq_some_iff.1 hk
    rw [← hget, List.getElem_cons_drop, List.take_append_drop]
  have hbytes : fieldBytes l ++ rest = fieldBytes (l.take k) ++ (beBytes w v ++ (fieldBytes (l.drop (k + 1)) ++ rest)) := by
    conv => lhs; rw [hl]
    simp only [fieldBytes, List.flatMap_append, List.flatMap_cons, List.append_assoc]
  rw [hbytes, beAt_append ((length_fieldBytes _).trans hoff) (length_beBytes w v), beNat_beBytes]

/-! #### The trust operations (R477 to R486) -/

/-- The fields of a report before its entries (R480). -/
def State.reportHead (s : State) (nonce first nlist : Nat) : List (Nat × Nat) :=
  [(4, 0xA7E5), (2, 1), (2, s.fuses.part), (2, 0xB0), (1, s.fuses.lcs),
      (1, s.pair.st.code * 16 + s.pkg.pairRole % 2 * 8), (1, s.pkg.quiet), (1, s.pkg.profSlot), (1, s.pkg.fwSvn), (1, 0),
      (16, s.fuses.serial), (64, nonce), (64, s.pkg.fwDigest), (64, s.pkg.profDigest), (64, s.setDigest)] ++ s.tallies
    ++ [(8, s.pkg.aon), (4, s.placements.length), (2, first),
      (2, ((s.byHandle.filter (fun p => decide (first ≤ p.handle))).take nlist).length), (48, 0), (512, s.dwrapModulus),
      (512, s.pwrapModulus), (64, s.fuses.owner.getD 0), (64, 0)]

/-- The fields of a report (R480). -/
def State.reportFields (s : State) (nonce first nlist : Nat) : List (Nat × Nat) :=
  s.reportHead nonce first nlist ++ ((s.byHandle.filter (fun p => decide (first ≤ p.handle))).take nlist).flatMap
      (fun p => [(2, p.handle), (1, flag (s.allLive p)), (13, 0), (64, p.digest)])

/-- The widths of the fields before the entries. -/
def reportWidths : List Nat :=
  [4, 2, 2, 2, 1, 1, 1, 1, 1, 1, 16, 64, 64, 64, 64, 1, 1, 1, 1, 2, 2, 2, 2, 2, 2, 16, 8, 4, 2, 2, 48, 512, 512, 64, 64]

theorem reportHead_widths (s : State) (nonce first nlist : Nat) : (s.reportHead nonce first nlist).map Prod.fst = reportWidths := rfl

theorem report_eq (s : State) (nonce first nlist : Nat) : s.report nonce first nlist = fieldBytes (s.reportFields nonce first nlist) ++
    beBytes 512 (Config.openValue 29 s.pkg.free (shaOf (s.reportBody nonce first nlist))) := rfl

theorem length_report (s : State) (nonce first nlist : Nat) : (s.report nonce first nlist).length =
    2048 + 80 * ((s.byHandle.filter (fun p => decide (first ≤ p.handle))).take nlist).length := by
  have hlist (l : List Placement) : ((l.flatMap (fun p => [(2, p.handle), (1, flag (s.allLive p)), (13, 0), (64, p.digest)])).map
      Prod.fst).sum = 80 * l.length := by
    induction l with
    | nil => rfl
    | cons p l ih =>
      rw [List.flatMap_cons, List.map_append, List.sum_append, ih, List.length_cons]
      simp
      omega
  have hhead : ((s.reportHead nonce first nlist).map Prod.fst).sum = 1536 := by
    rw [reportHead_widths]
    decide
  rw [report_eq, List.length_append, length_beBytes, length_fieldBytes, State.reportFields, List.map_append, List.sum_append, hlist, hhead]
  omega

/-- A field of the report's head, of `e` bits. -/
theorem report_field (s : State) (nonce first nlist k : Nat) {w v off e : Nat} (hk : (s.reportHead nonce first nlist)[k]? = some (w, v))
    (hoff : (reportWidths.take k).sum = off) (he : 8 * w = e) :
    beAt (s.report nonce first nlist) off w = v % 2 ^ e := by
  have hlt := (List.getElem?_eq_some_iff.1 hk).1
  rw [report_eq, ← he, Nat.pow_mul]
  refine beAt_field _ _ k ?_ ?_
  · rw [State.reportFields, List.getElem?_append_left hlt, hk]
  · rw [State.reportFields, List.take_append_of_le_length (by omega), List.map_take, reportHead_widths, hoff]

/-- A request beyond the limits of R477. -/
theorem request_busy {s : State} {m : MgmtIn} {mop : Nat} (h : s.requested m mop) (hdef : mopDefined mop = true) (hclose : mop ≠ 0x43)
    (hdata : mop ≠ 0x11) (own : Bool) (f : State → State) : s.request { m with busy := true } mop true own f = s.answerMgmt m 1 [] := by
  obtain ⟨-, htakes, hkind, hmop, hauth, -, hvalid⟩ := h
  obtain ⟨-, -, hdir, -⟩ := (valid_iff m).1 hvalid
  have hown := request_own (m := { m with busy := true }) (allowed := true) (own := own) (f := f) htakes hkind hmop hdef
  rw [if_neg (by rintro (h | h | h)
                 · exact absurd (hauth.symm.trans h) (by decide)
                 · exact absurd (hdir.symm.trans h) (by decide)
                 · cases h),
    if_pos (by show (true && m.mop != 0x43) = true; rw [hmop]; simpa using hclose)] at hown
  rw [hown, State.turnAway, if_neg (by show ¬m.mop = 0x11; rw [hmop]; exact hdata)]
  rfl

theorem requested_idle {s : State} {m : MgmtIn} {mop : Nat} (h : s.requested m mop) : { m with busy := false } = m := by
  obtain ⟨-, -, -, -, -, hbusy, -⟩ := h
  cases m
  cases hbusy
  rfl

/-- The lowest free `TSID` is given (R484). -/
theorem openTsid_gives {s : State} {n : Nat} (h : (tabulate 4096 (· + 1)).find? s.tsidFree = some n) (m : MgmtIn) (tenant : Nat)
    {x : Session} (hx : ⟨n, tenant, if s.paired then some (m.port, m.addr, m.mtag) else none, m.sessionKey⟩ = x) {u : State}
    (hu : { s with secure := { s.secure with sessions := s.secure.sessions ++ [x] } } = u) : s.openTsid m tenant =
      if s.paired then (u.keysync x true).await 0 2 n 0 0
      else (if s.mirrors then u.keysync x true else u).mgmtReply m.port m.addr n 0x42 m.mtag 0 (sessionFields n tenant) := by
  subst hx hu
  unfold State.openTsid
  generalize (tabulate 4096 (· + 1)).find? s.tsidFree = o at h
  subst h
  rfl

theorem sessionFields_eq (n tenant : Nat) : sessionFields n tenant = beBytes 2 n ++ beBytes 16 tenant := by
  rw [sessionFields, fieldBytes, List.flatMap_cons, List.flatMap_cons, List.flatMap_nil, List.append_nil]

/-- The tests of R484 before those of the request's own proof. -/
theorem sessionOpen_open {s : State} (hlcs : s.fuses.lcs = 3) (hquiet : s.sessionsQuiet = false) (m : MgmtIn) (tenant w : Nat) (sig un : Bool) :
    s.sessionOpen m tenant w sig un = if (sig && un && s.namesUs w) = false then (s.answerMgmt m 2 []).countAuthFail
      else if ¬(s.profile.work.tenantList = [] ∨ tenant ∈ s.profile.work.tenantList) then s.answerMgmt m 4 []
      else if 4096 ≤ s.secure.sessions.length then s.answerMgmt m 5 [] else s.openTsid m tenant := by
  unfold State.sessionOpen
  dsimp only
  rw [if_neg (not_not_intro hlcs), if_neg (by simp [hquiet])]
  refine ite_congr (propext ?_) (fun _ => rfl) (fun _ => ite_congr (propext ?_) (fun _ => rfl) (fun _ => rfl))
  · cases sig <;> cases un <;> simp
  · simp

/-- An ATTEST that is answered (R479). -/
def attestChecked (m : MgmtIn) (nonce first nlist : Nat) (s : State) : State :=
  if s.fuses.lcs = 0 then s.answerMgmt m 3 []
  else if 64 < nlist then s.answerMgmt m 6 []
  else s.withKeys (.attest m nonce first nlist) (fun s => s.attest m nonce first nlist)

theorem certBytes_three (s : State) : ∃ a b c : List Byte,
    s.certBytes = beBytes 4 a.length ++ a ++ beBytes 4 b.length ++ b ++ beBytes 4 c.length ++ c ∧ a.length + b.length + c.length ≤ 8223 := by
  refine ⟨beBytes (Config.openValue 36 0 s.fuses.serial % 2742) (Config.openValue 30 0 s.fuses.serial),
    beBytes (Config.openValue 36 1 s.fuses.serial % 2742) (Config.openValue 30 1 s.fuses.serial),
    beBytes (Config.openValue 36 2 s.fuses.serial % 2742) (Config.openValue 30 2 s.fuses.serial), ?_, ?_⟩
  · rw [length_beBytes, length_beBytes, length_beBytes]
    simp [State.certBytes, List.range_succ, List.append_assoc]
  · rw [length_beBytes, length_beBytes, length_beBytes]
    omega

/-- The body of SESSION-CLOSE (R486). -/
def State.closeSession (s : State) (m : MgmtIn) : State :=
  if s.sessionsQuiet then s.answerMgmt m 8 []
  else if s.tsidBound m.tsid then s.answerMgmt m 7 []
  else
    let s1 := s.answerMgmt m 0 []
    let s2 : State := { s1 with secure := { s1.secure with sessions := s1.secure.sessions.filter (fun x => x.tsid != m.tsid) } }
    if s.mirrors then s2.keysync ⟨m.tsid, 0, none, 0⟩ false else s2

/-- Settles O50: attestation, certificates and sessions. -/
theorem trustOperations : Obligations.TrustOperations := by
  unfold Obligations.TrustOperations
  intro s m
  refine ⟨?attest, ?certs, ?opens, ?report, fun x b => rfl, ?closes⟩
  case attest =>
    intro h hsession nonce first n
    have hexec (x y z : Nat) (b : Bool) : exec (.attest m x y z b) s = .next (s.request { m with busy := b } 0x40 true
        (x == beAt m.fields 0 64 && y == beAt m.fields 64 2 && z == beAt m.fields 66 2) (attestChecked m x y z)) := by
      refine answer_eq_next h.1 ?_
      rw [hsession]
      rfl
    have hrun (x y z : Nat) : exec (.attest m x y z false) s = .next (if (x == beAt m.fields 0 64 && y == beAt m.fields 64 2 &&
        z == beAt m.fields 66 2) = true then attestChecked m x y z s else s) := by
      rw [hexec, requested_idle h, State_requested_request h rfl]
    rw [beAt_fields, beAt_fields, beAt_fields] at hrun
    have hown : exec (.attest m nonce first n false) s = .next (attestChecked m nonce first n s) := by
      rw [hrun, if_pos (by simp [nonce, first, n])]
    refine ⟨fun x y z => ?_, fun x y z hne => ?_, fun h0 => hown.trans (congrArg _ (if_pos h0)),
      fun h0 hn => hown.trans (congrArg _ ((if_neg h0).trans (if_pos hn))), fun h0 hn hw => hown.trans (congrArg _ ?_), fun h0 hn hw => hown.trans (congrArg _ ?_)⟩
    · rw [hexec, request_busy h rfl (by decide) (by decide)]
    · rw [hrun, if_neg fun heq => ?_]
      simp only [Bool.and_eq_true, beq_iff_eq] at heq
      exact hne.elim (· heq.1.1) (·.elim (· heq.1.2) (· heq.2))
    · rw [attestChecked, if_neg h0, if_neg (by omega), State.withKeys, if_neg (by simp [hw])]
      rfl
    · rw [attestChecked, if_neg h0, if_neg (by omega), State.withKeys, if_pos hw]
  case certs =>
    intro h hsession
    have hexec (b : Bool) : exec (.certs m b) s = .next (s.request { m with busy := b } 0x41 true true (fun s =>
        if s.fuses.lcs = 0 then s.answerMgmt m 3 [] else s.answerMgmt m 0 s.certBytes)) := by
      refine answer_eq_next h.1 ?_
      rw [hsession]
    have hown : exec (.certs m false) s = .next (if s.fuses.lcs = 0 then s.answerMgmt m 3 [] else s.answerMgmt m 0 s.certBytes) := by
      rw [hexec, requested_idle h, State_requested_request h rfl, if_pos rfl]
    refine ⟨?_, fun h0 => ?_, fun h0 => hown.trans (congrArg _ (if_pos h0))⟩
    · rw [hexec, request_busy h rfl (by decide) (by decide)]
    · obtain ⟨a, b, c, hbytes, hlen⟩ := certBytes_three s
      exact ⟨a, b, c, hown.trans (congrArg _ ((if_neg h0).trans (by rw [hbytes]))), hlen⟩
  case opens =>
    intro h htsid tenant w sig un does proved welcome
    have hexec (b : Bool) : exec (.sessionOpen m tenant w sig un b) s = .next (s.request { m with busy := b } 0x42 true true (fun s =>
        s.withKeys (.sessionOpen m tenant w sig un) (fun s => s.sessionOpen m tenant w sig un))) := by
      refine answer_eq_next h.1 ?_
      rw [htsid]
      rfl
    have hown : exec (.sessionOpen m tenant w sig un false) s = .next (s.withKeys (.sessionOpen m tenant w sig un)
        (fun s => s.sessionOpen m tenant w sig un)) := by
      rw [hexec, requested_idle h, State_requested_request h rfl, if_pos rfl]
    refine ⟨?_, fun hw => hown.trans (congrArg _ (if_pos hw)), fun hw => ?_⟩
    · rw [hexec, request_busy h rfl (by decide) (by decide)]
    rw [State.withKeys, if_neg (by simp [hw])] at hown
    refine ⟨fun h3 => hown.trans (congrArg _ (if_pos h3)), fun h3 hquiet => hown.trans (congrArg _ ((if_neg (not_not_intro h3)).trans (if_pos hquiet))), fun h3 hquiet => ?_⟩
    have hopen := sessionOpen_open h3 hquiet m tenant w sig un
    refine ⟨fun hno => hown.trans (congrArg _ (hopen.trans (if_pos hno))), fun hp hno => ?_, fun hp hwelcome hfull => ?_, fun hp hwelcome hroom n hn => ?_⟩
    all_goals rw [if_neg (show ¬(sig && un && s.namesUs w) = false from by rw [show (sig && un && s.namesUs w) = true from hp]; decide)] at hopen
    · exact hown.trans (congrArg _ (hopen.trans (if_pos hno)))
    all_goals rw [if_neg (not_not_intro hwelcome)] at hopen
    · exact hown.trans (congrArg _ (hopen.trans (if_pos hfull)))
    intro x with' told
    have hgives := openTsid_gives hn m tenant rfl rfl
    rw [sessionFields_eq] at hgives
    rw [if_neg (by omega), hgives] at hopen
    refine ⟨fun hpaired => hown.trans (congrArg _ (hopen.trans ?_)), fun hpaired => hown.trans (congrArg _ (hopen.trans ?_))⟩
    all_goals rw [hpaired]
    · rfl
    · rfl
  case report =>
    intro nonce first n hnonce r l
    have hfield (k : Nat) {w v off e : Nat} := report_field s nonce first n k (w := w) (v := v) (off := off) (e := e)
    have hmagic := hfield 0 (off := 0x000) (e := 32) rfl (by decide) rfl
    have hlcs := hfield 4 (off := 0x00A) (e := 8) rfl (by decide) rfl
    have hserial := hfield 10 (off := 0x010) (e := 128) rfl (by decide) rfl
    have hnonce' := hfield 11 (off := 0x020) (e := 512) rfl (by decide) rfl
    have hdigest := hfield 14 (off := 0x0E0) (e := 512) rfl (by decide) rfl
    have hrotations := hfield 15 (off := 0x120) (e := 8) rfl (by decide) rfl
    have haon := hfield 26 (off := 0x140) (e := 64) rfl (by decide) rfl
    have hcount := hfield 29 (off := 0x14E) (e := 16) rfl (by decide) rfl
    have howner := hfield 33 (off := 0x580) (e := 512) rfl (by decide) rfl
    exact ⟨length_report s nonce first n, hmagic, hlcs, hserial, hnonce'.trans (Nat.mod_eq_of_lt hnonce), hdigest, hrotations, haon, hcount, howner⟩
  case closes =>
    intro h hsession
    have hown : exec (.sessionClose m) s = .next (s.closeSession m) := by
      refine answer_eq_next h.1 ?_
      rw [hsession]
      exact (State_requested_request h rfl true _).trans (if_pos rfl)
    refine ⟨fun hq => hown.trans (congrArg _ (if_pos hq)), fun hq hb => hown.trans (congrArg _ ((if_neg (by simp [hq])).trans (if_pos hb))), fun hq hb => ?_⟩
    intro t u
    exact hown.trans (congrArg _ ((if_neg (by simp [hq])).trans (if_neg (by simp [hb]))))

/-! #### PAIR frames and the loss of the partner (R340, R429 to R432) -/

/-- What a frame sent to the partner leaves of the pair. -/
def Pair.unsent (p : Pair) : Pair := { p with pseq := 0, failedObj := false }

theorem sendPair_unsent (s : State) (pop : Nat) (fields : List (Nat × Nat)) (data : List Byte) :
    (s.sendPair pop fields data).pair.unsent = s.pair.unsent := by
  unfold State.sendPair
  split <;> rfl

theorem sendPair_fields (s : State) (pop : Nat) (fields : List (Nat × Nat)) (data : List Byte) : s.sendPair pop fields data = { s with
    out := (s.sendPair pop fields data).out, pair := { s.pair with pseq := (s.sendPair pop fields data).pair.pseq } } := by
  unfold State.sendPair
  split <;> rfl

theorem sendPair_ports (s : State) (pop : Nat) (fields : List (Nat × Nat)) (data : List Byte) :
    (s.sendPair pop fields data).out = s.out ++ s.pairPorts.map (s.pairOut pop fields data) := by
  unfold State.sendPair
  split
  · next h => rw [List.isEmpty_iff.1 h, List.map_nil, List.append_nil]
  · rfl

theorem reply_unsent (s : State) (dest : Place) (bop session name : Nat) (pos : Option Nat) (status detail : Nat) (payload : List Byte) :
    (s.reply dest bop session name pos status detail payload).pair.unsent = s.pair.unsent := by
  have hcount := countReply_frame s status
  unfold State.countReply at hcount
  unfold State.reply
  dsimp only
  rw [hcount]
  split
  · exact sendPair_unsent ..
  · split
    · rfl
    · split
      · split
        · rw [sendSeg_frame]
        · rw [sendSeg_frame]
          rfl
      · rfl

theorem partnerGone_pair (s : State) : s.partnerGone.pair.unsent = { s.pair.unsent with
    unconf := [], replies := [], releases := [], syncTo := none, segs := [], parcels := [], own := [], peer := [] } := by
  have hsessions (t : State) (x : Session) : (State.pair (match x.waits with
      | some w => t.mgmtReply w.1 w.2.1 x.tsid 0x42 w.2.2 0 (sessionFields x.tsid x.tenant)
      | none => t)).unsent = t.pair.unsent := by
    split
    · rw [State.mgmtReply, sendAt_frame]
    · rfl
  have hreplies (t : State) (r : List Nat) : (t.replyLater (r.drop 2) (at' r 1 0) 0 0).pair.unsent = t.pair.unsent := reply_unsent ..
  have hall := (foldl_keeps (fun t : State => t.pair.unsent) hreplies s.pair.replies _).trans
    (foldl_keeps (fun t : State => t.pair.unsent) hsessions (s.secure.sessions.filter (·.waits.isSome)) s)
  unfold State.partnerGone
  dsimp only at hall ⊢
  rw [← hall]
  rfl

/-- Records sent to the partner. -/
theorem sendRecords_fields (l : List PairRecord) (s : State) : l.foldl (fun s r => s.sendRecord r) s = { s with
    out := (l.foldl (fun s r => s.sendRecord r) s).out
    pair := { s.pair with pseq := (l.foldl (fun s r => s.sendRecord r) s).pair.pseq } } := by
  induction l generalizing s with
  | nil => rfl
  | cons r l ih =>
    rw [List.foldl_cons, ih, State.sendRecord, sendPair_fields]

/-- A partner that is heard (R431, R432). -/
theorem hear_fields (s : State) (netB : Bool) : (s.hear netB).pair.misses = 0 ∧
    (s.hear netB).pair.st = (if s.pair.st = .suspect then .paired else s.pair.st) ∧
    s.hear netB = { s with out := (s.hear netB).out, pair := (s.hear netB).pair } := by
  unfold State.hear
  dsimp only
  split
  · rw [sendRecords_fields]
    exact ⟨rfl, rfl, rfl⟩
  · exact ⟨rfl, rfl, rfl⟩

theorem heard_fields (s : State) (p : PairIn) : (s.heard p).pair.misses = 0 ∧
    (s.heard p).pair.st = (if s.pair.st = .suspect then .paired else s.pair.st) ∧
    s.heard p = { s with out := (s.heard p).out, pair := (s.heard p).pair } := hear_fields _ _

section
variable {s : State} {p : PairIn} {pop : Nat} {ok : Bool} {f : State → State}

/-- A PAIR frame of the operation under a `PBOOT` in use (R430). -/
theorem pairFrame_checked (htakes : s.takes p.port p.wire = true) (hlive : s.pairLive = true) (his : p.is pop = true) (hok : ok = true)
    (hretired : p.pboot ∉ s.pair.retired) : s.pairFrame p pop ok f = if s.pair.peerBoot = some p.pboot
      then if s.pair.isNew p.pseq = true then f (s.heard p) else s.hear p.netB
      else if pop = 1 ∧ s.peerOpen = true then f (({ s with pair := s.pair.reboot p.pboot p.pseq } : State).hear p.netB) else s := by
  unfold State.pairFrame
  rw [if_neg (by simp [htakes]), if_neg (by simp [hlive, his, hok, hretired])]
  rfl

/-- A PAIR frame that is new has its effect. -/
theorem pairFrame_taken (h : s.takesPair p pop) (hok : ok = true) : s.pairFrame p pop ok f = f (s.heard p) := by
  obtain ⟨-, htakes, hlive, his, hretired, hboot, hnew⟩ := h
  rw [pairFrame_checked htakes hlive his hok hretired, if_pos hboot, if_pos hnew]

/-- Operands that are not the frame's fields have no effect. -/
theorem pairFrame_other (h : s.takesPair p pop) (hok : ok = false) : s.pairFrame p pop ok f = s := by
  obtain ⟨-, htakes, -⟩ := h
  unfold State.pairFrame
  rw [if_neg (by simp [htakes]), if_pos (by simp [hok])]

end

/-- The survivor before its partner's commits and sessions are given up (R432). -/
def State.soloed (s : State) : State :=
  { s with
    pair := { s.pair with
      st := .solo, leader := true, partnerLost := true, fresh := false, misses := 0, lostAt := s.pkg.aon, syncTo := none
      replaysLeft := [], regs := { s.pair.regs with event := setBit s.pair.regs.event 1, lost := s.pair.regs.lost + 1 } }
    pkg := { s.pkg with cseqNext := max s.pkg.cseqNext (s.pkg.cseq + 1) }
    streams := s.streams.map (fun p => (p.1, { p.2 with homeHere := true }))
    entries := s.entries.map (fun e => { e with homeHere := true, away := false }) }

/-- A partner lost to whom no commit and no entry is owed. -/
theorem declareLost_calm {s : State} (hhere : ∀ e ∈ s.entries, e.here = true) (hpeer : ∀ c ∈ s.commits, c.needPeer = false) {t : State}
    (ht : t = s.declareLost) : t.pair.st = .solo ∧ t.pair.leader = true ∧ t.pair.partnerLost = true ∧
      t.pair.regs.lost = s.pair.regs.lost + 1 ∧ t.pair.unconf = [] ∧
      t.streams = s.streams.map (fun x => (x.1, { x.2 with homeHere := true })) ∧
      t.entries = s.entries.map (fun e => { e with homeHere := true, away := false }) ∧ t.cores = s.cores := by
  have htheirs : inOrder (s.entries.filter (fun e => !e.here)) = [] := by
    rw [List.filter_eq_nil_iff.2 fun e he => by simp [hhere e he]]
    rfl
  have hlost : s.declareLost = s.soloed.partnerGone := by
    unfold State.declareLost
    dsimp only
    rw [htheirs, List.filter_eq_nil_iff (l := s.commits).2 fun c hc => by simp [hpeer c hc]]
    rfl
  have hpair := partnerGone_pair s.soloed
  have hkeep {β : Type} (g : State → β) (hg : ∀ (t : State) inst out secure free pair, g { t with
      inst := inst, out := out, secure := secure, pkg := { t.pkg with free := free }, pair := pair } = g t)
      (hcommits : ∀ (t : State) commits, g { t with commits := commits } = g t) : g s.soloed.partnerGone = g s.soloed :=
    partnerGone_keeps hg hcommits _
  rw [ht, hlost]
  refine ⟨congrArg Pair.st hpair, congrArg Pair.leader hpair, congrArg Pair.partnerLost hpair, congrArg (fun p : Pair => p.regs.lost) hpair, congrArg Pair.unconf hpair,
    hkeep State.streams (fun _ _ _ _ _ _ => rfl) fun _ _ => rfl, hkeep State.entries (fun _ _ _ _ _ _ => rfl) fun _ _ => rfl,
    hkeep State.cores (fun _ _ _ _ _ _ => rfl) fun _ _ => rfl⟩

/-- Settles O51: PAIR frames, heartbeats, misses and the loss of the partner. -/
theorem pairFrames : Obligations.PairFrames := by
  unfold Obligations.PairFrames
  refine ⟨?frames, fun s => ⟨fun hdead => ?_, fun hlive => ?timer, fun hheard => answer_eq_next rfl (if_neg (by simp [hheard])), ?missed,
    fun hhere hpeer => declareLost_calm hhere hpeer rfl⟩⟩
  case frames =>
    intro s p pop ok f r
    obtain ⟨hmisses, hst, hframe⟩ := heard_fields s p
    refine ⟨fun h => if_pos (by rw [h]; rfl), fun htakes h => ?_, pairFrame_taken, fun htakes hlive his hok hretired => ?_, hmisses, hst,
      by rw [hframe], by rw [hframe]⟩
    · refine (if_neg (by simp [htakes])).trans (if_pos ?_)
      rcases h with h | h | h | h <;> simp [h]
    · have hr := pairFrame_checked (f := f) htakes hlive his hok hretired
      refine ⟨fun hboot hold => ?_, fun hboot hno => ?_, fun hboot hpop hopen => ?_⟩
      · exact hr.trans ((if_pos hboot).trans (if_neg (by simp [hold])))
      · exact hr.trans ((if_neg hboot).trans (if_neg fun h => hno.elim (· h.1) fun hno => by simp [h.2] at hno))
      · exact hr.trans ((if_neg hboot).trans (if_pos ⟨hpop, hopen⟩))
  case timer =>
    refine ⟨_, answer_eq_next rfl (if_pos hlive), ?_, ?_, rfl, rfl, sendPair_ports .., ?_⟩ <;> rw [sendPair_fields]
  case missed =>
    intro hlive hsilent m mine
    have hexec : exec .pairHeartbeatMiss s = .next s.miss := answer_eq_next rfl (if_pos (by simp only [hlive, hsilent]; rfl))
    have hlose : m.canLose = true ↔ mine := by
      show (((if s.pair.st = .paired then PairSt.suspect else s.pair.st) == .paired ||
        (if s.pair.st = .paired then PairSt.suspect else s.pair.st) == .suspect) ||
        (if s.pair.st = .paired then PairSt.suspect else s.pair.st) == .joining) = true ↔
        (s.pair.st = .paired ∨ s.pair.st = .suspect ∨ s.pair.st = .joining)
      cases s.pair.st <;> decide
    refine ⟨fun h => hexec.trans (congrArg _ (if_neg (by omega))), fun h hno => hexec.trans (congrArg _ (if_neg fun hc => hno (hlose.1 hc.2))),
      fun h hmine => hexec.trans (congrArg _ (if_pos ⟨by omega, hlose.2 hmine⟩))⟩
  · exact ⟨answer_eq_next rfl (if_neg (by simp [hdead])), answer_eq_next rfl (if_neg (by simp [hdead]))⟩

/-! #### A COMMIT record whose copied segments are of another operation (R428)

The operation of an entry that a COMMIT record makes is that of the segments copied before it, when they are all here, and the
record's `OPC` decides only without them. A record of a CLOSE over the copied segment of a CANCEL therefore cancels a RUN that runs
here, and its core is free: the record is of no CANCEL, and cores change all the same. -/

/-- The RUN 0 of stream 9 at home here, with no image. -/
def runningFrame : Entry :=
  { cseq := 3, stream := 9, incarn := 4, seq := 0, tsid := 1, tenant := 7
    op := .run ⟨[], [], [], 128, 0, 0, 0, 0, 0, []⟩, st := .running, epoch := some 0, status := .done, wreason := 0
    replays := 0, reruns := 0, tadmit := 0, inputOk := true, ipar := ⟨0, 0, 0, 0, 0⟩, rpar := ⟨0, 0, 0, 0, 0⟩, homeHere := true
    away := false, payload := [], port := 0, addr := 0, acked := true, ended := false, parcelOk := false, powered := false
    frame := FrameRun.fresh, order := 12 }

/-- The copied segment of a CANCEL of that RUN, sequence number 1. -/
def copiedCancel : Seg := ⟨0, 8, 0, ⟨1, 1, 1, 9, 4, 0, 1, 16, 1, 0, 0⟩, 2 :: List.replicate 15 0⟩

/-- A paired package whose core 0 runs the RUN, with the CANCEL copied. -/
def pairedOverCancel : State :=
  { State.reset with
    secure := { State.reset.secure with pwrap := true }
    entries := [runningFrame]
    cores := [(0, { Core.fresh with st := .run, entry := some 3 })]
    pair := { State.reset.pair with
      st := .paired, bound := true, pboot := 40, peerBoot := some 50, peerHigh := 9, peerSeen := [9], heardSinceCold := true
      segs := [copiedCancel] } }

/-- The record of a CLOSE of stream 9, sequence number 1, commit number 6, ADMITTED. -/
def closeRecord : PairRecord := ⟨6, 9, 4, 1, 1, 3, 1, 0, 0, 0, 0, 0, 0, 0, 0, 0, 0, false, 1, 2, 3, 1⟩

/-- The partner's COMMIT frame of that record. -/
def closeCommit : PairIn :=
  let body := fieldBytes ([(1, 2), (1, 1), (2, 0), (8, 10), (4, 50)] ++ commitFields 1) ++ closeRecord.bytes
  ⟨2, ⟨.ipv4, 47210, false, none, 5, Hdr.bytes ⟨1, 7, 0xFFFF, 0, 0, 0, 1, body.length, 0, 0, 0⟩, false⟩, true, body, 0⟩

theorem closeCommit_taken : pairedOverCancel.takesPair closeCommit 2 := by
  refine ⟨?_, ?_, ?_, ?_, ?_, ?_, ?_⟩ <;> decide +kernel

theorem closeCommit_commits : closeCommit.commits [closeRecord] = true := by decide +kernel

theorem closeRecord_new : (pairedOverCancel.heard closeCommit).recordEntry closeRecord = none := by decide +kernel

/-- Core 0 has no frame after the COMMIT. -/
theorem closeCommit_frees {u : State} (h : exec (.pairCommit closeCommit [closeRecord]) pairedOverCancel = .next u) :
    (u.core 0).entry = none := by
  have hrun : (match exec (.pairCommit closeCommit [closeRecord]) pairedOverCancel with
    | .next u => (u.core 0).entry.isNone
    | _ => false) = true := by decide +kernel
  rw [h] at hrun
  exact Option.isNone_iff_eq_none.1 hrun

/-- Refutes O52: a COMMIT record with an `OPC` other than CANCEL, over the copied segment of a CANCEL, ends a frame that runs here. -/
theorem not_pairStates : ¬ Obligations.PairStates := by
  unfold Obligations.PairStates
  intro h
  obtain ⟨-, hcommit, -⟩ := h
  obtain ⟨-, -, -, hone⟩ := hcommit pairedOverCancel closeCommit closeCommit_taken
  obtain ⟨hnew, -⟩ := hone (by decide +kernel) closeRecord closeCommit_commits (by decide)
  obtain ⟨u, ⟨hexec, -⟩, -, -, hcores⟩ := hnew closeRecord_new (by decide) (by decide) rfl
  have hcore : u.core 0 = (pairedOverCancel.heard closeCommit).core 0 := by rw [State.core, hcores, State.core]
  have hruns : ((pairedOverCancel.heard closeCommit).core 0).entry = some 3 := by decide +kernel
  rw [← hcore, closeCommit_frees hexec] at hruns
  cases hruns

/-! #### Copies of the partner's bodies, objects, sessions and digests (R428, R434, R437, R438, R485) -/

section
variable {s : State} {h : Hdr} {body : List Byte}

/-- A segment copied in place of an earlier copy of it. -/
abbrev State.copied (s : State) (h : Hdr) (body : List Byte) : State :=
  { s with pair := { s.pair with
      segs := s.pair.segs.filter (fun x => !(sameFrame x.hdr h && x.hdr.segidx == h.segidx)) ++ [⟨0, 8, 0, h, body⟩] } }

theorem takeSegment_stored (hno : (∀ e, s.target? h.stream h.incarn h.seq = some e → e.cseq ∉ s.pair.hollow) ∨
    (s.copied h body).mirroredOp h.stream h.incarn h.seq = none) : s.takeSegment h body = s.copied h body := by
  unfold State.takeSegment
  dsimp only
  split
  · next e op he hop =>
    obtain ⟨htarget, hhollow⟩ := Option.filter_eq_some_iff.1 he
    rcases hno with hno | hno
    · exact absurd (List.contains_iff_mem.1 hhollow) (hno e htarget)
    · cases hno.symm.trans hop
  · rfl

theorem takeSegment_fills {e : Entry} {op : WorkOp} (he : s.target? h.stream h.incarn h.seq = some e) (hhollow : e.cseq ∈ s.pair.hollow)
    (hop : (s.copied h body).mirroredOp h.stream h.incarn h.seq = some op) : s.takeSegment h body = (s.copied h body).fillEntry e op := by
  have hfilter : ((s.copied h body).target? h.stream h.incarn h.seq).filter (fun e => (s.copied h body).pair.hollow.contains e.cseq) = some e :=
    Option.filter_eq_some_iff.2 ⟨he, List.contains_iff_mem.2 hhollow⟩
  unfold State.takeSegment
  dsimp only
  rw [hfilter, hop]

end

section
variable {s : State} {n : Nat} {b : List Byte}

/-- The bytes of an input parcel so far. -/
abbrev State.parcelled (s : State) (n : Nat) (b : List Byte) : State :=
  { s with pair := { s.pair with
      parcels := Tbl.set s.pair.parcels n b } }

theorem takeParcel_kept {off : Nat} {data : List Byte} (hb : putBytes ((Tbl.get s.pair.parcels n).getD []) off data = b)
    (hno : n ∉ s.pair.hollow ∨ s.entry? n = none ∨ ∀ op, parseBody b ≠ .ok op) : s.takeParcel n off data = s.parcelled n b := by
  subst hb
  unfold State.takeParcel
  dsimp only
  split
  · next e op he hop =>
    obtain ⟨hentry, hhollow⟩ := Option.filter_eq_some_iff.1 he
    have hn : e.cseq = n := entry?_cseq hentry
    rcases hno with hno | hno | hno
    · exact absurd (hn ▸ List.contains_iff_mem.1 hhollow) hno
    · cases hno.symm.trans hentry
    · exact absurd hop (hno op)
  · rfl

theorem takeParcel_fills {off : Nat} {data : List Byte} (hb : putBytes ((Tbl.get s.pair.parcels n).getD []) off data = b) {e : Entry}
    {op : WorkOp} (he : s.entry? n = some e) (hhollow : n ∈ s.pair.hollow) (hop : parseBody b = .ok op) :
    s.takeParcel n off data = (s.parcelled n b).fillEntry e op := by
  subst hb
  have hfilter : ((s.parcelled n (putBytes ((Tbl.get s.pair.parcels n).getD []) off data)).entry? n).filter
      (fun e => s.pair.hollow.contains e.cseq) = some e :=
    Option.filter_eq_some_iff.2 ⟨he, List.contains_iff_mem.2 ((entry?_cseq he).symm ▸ hhollow)⟩
  unfold State.takeParcel
  dsimp only
  rw [hfilter, hop]

end

section
variable {tenant target name off : Nat} {data : List Byte}

/-- The objects, with the named one among them (R427). -/
def State.objectsWith (s : State) (tenant target name : Nat) : List Obj :=
  match s.obj? tenant target name with
  | some _ => s.objects
  | none => s.objects ++ [⟨tenant, target, name, 0, [], [], false⟩]

/-- An object with bytes staged at `off`. -/
def Obj.stagedAt (o : Obj) (off : Nat) (data : List Byte) : Obj :=
  { o with len := max o.len (off + data.length), data := Mem.writeBytes o.data off data
           staged := o.staged ++ [(off, off + data.length)] }

theorem takeObject_eq (s : State) : s.takeObject tenant target name off data = { s with
    objects := (s.objectsWith tenant target name).map (fun o => if o.is tenant target name then o.stagedAt off data else o) } := by
  unfold State.takeObject State.objectsWith
  cases s.obj? tenant target name <;> rfl

theorem exists_mem_objectsWith (s : State) : ∃ o ∈ s.objectsWith tenant target name, o.is tenant target name = true := by
  unfold State.objectsWith
  cases hobj : s.obj? tenant target name with
  | none => exact ⟨_, List.mem_append_right _ (List.mem_singleton.2 rfl), by simp [Obj.is]⟩
  | some o => exact ⟨o, List.mem_of_find?_eq_some hobj, List.find?_some (p := fun o : Obj => o.is tenant target name) hobj⟩

theorem mem_objectsWith {s : State} {o : Obj} (h : o ∈ s.objects) : o ∈ s.objectsWith tenant target name := by
  unfold State.objectsWith
  cases s.obj? tenant target name with
  | none => exact List.mem_append_left _ h
  | some _ => exact h

theorem takeObject_staged (s : State) : ∃ o ∈ (s.takeObject tenant target name off data).objects, o.is tenant target name = true ∧
    (off, off + data.length) ∈ o.staged ∧ ∀ i : Nat, i < data.length → Mem.read o.data (off + i) = (data[i]?).getD 0 := by
  obtain ⟨o, hmem, his⟩ := exists_mem_objectsWith (tenant := tenant) (target := target) (name := name) s
  refine ⟨o.stagedAt off data, ?_, his, List.mem_append_right _ (List.mem_singleton.2 rfl), fun i hi => ?_⟩
  · rw [takeObject_eq]
    exact List.mem_map.2 ⟨o, hmem, if_pos his⟩
  · rw [List.getElem?_eq_getElem hi]
    exact Mem_read_writeBytes_in data o.data off i hi

theorem takeObject_others {s : State} {o : Obj} (hmem : o ∈ s.objects) (hother : o.is tenant target name = false) :
    o ∈ (s.takeObject tenant target name off data).objects := by
  rw [takeObject_eq]
  exact List.mem_map.2 ⟨o, mem_objectsWith hmem, if_neg (Bool.eq_false_iff.1 hother)⟩

end

/-- The answer to an OBJCOMMIT is passed on, and waited for no more. -/
theorem takeObjcommit_answers {s : State} {tenant target name status : Nat} {o : CommitIn} {r : List Nat}
    (h : s.pair.replies.find? (fun r => at' r 0 9 == target && at' r 1 0 == name) = some r) :
    (s.takeObjcommit tenant target name status o).pair.replies = s.pair.replies.erase r ∧
      (s.takeObjcommit tenant target name status o).placements = s.placements := by
  unfold State.takeObjcommit
  rw [h]
  exact ⟨congrArg (·.replies) (reply_unsent ..), replyLater_keeps (g := (·.placements)) (fun _ _ _ _ _ _ => rfl) ..⟩

theorem takeObjcommit_mirrored {s : State} {tenant target name status : Nat} {o : CommitIn}
    (h : s.pair.replies.find? (fun r => at' r 0 9 == target && at' r 1 0 == name) = none) :
    s.takeObjcommit tenant target name status o = if !s.follows ∨ status ≠ 0 then s else
      (s.bulkCommit (mirroredBulk target name) tenant (bulkHead (mirroredBulk target name).body) o).tryJoin := by
  unfold State.takeObjcommit
  rw [h]

/-- What a joiner lacks before it is PAIRED (R434). -/
def State.lacksUpTo (s : State) (n : Nat) : Prop :=
  s.pkg.cseq < n ∨ s.pair.hollow ≠ [] ∨ s.pair.failedObj = true ∨ s.mirrorBusy = true

theorem tryJoin_lacking {s : State} {n : Nat} (hsync : s.pair.syncTo = some n) (h : s.lacksUpTo n) : s.tryJoin = s := by
  unfold State.tryJoin
  rw [hsync]
  refine if_neg fun ⟨_, hn, hhollow, hfailed, hbusy⟩ => ?_
  rcases h with h | h | h | h
  · exact Nat.not_lt_of_le hn h
  · exact h (List.isEmpty_iff.1 hhollow)
  · rw [h] at hfailed
    cases hfailed
  · rw [h] at hbusy
    cases hbusy

theorem tryJoin_joins {s : State} {n : Nat} (hst : s.pair.st = .joining) (hsync : s.pair.syncTo = some n) (h : ¬ s.lacksUpTo n) :
    s.tryJoin = (s.becomePaired true).runMirrored := by
  unfold State.lacksUpTo at h
  simp only [not_or, Bool.not_eq_true, ne_eq, Classical.not_not, Nat.not_lt] at h
  obtain ⟨hn, hhollow, hfailed, hbusy⟩ := h
  unfold State.tryJoin
  rw [hsync]
  exact if_pos ⟨hst, hn, List.isEmpty_iff.2 hhollow, by rw [hfailed]; rfl, by rw [hbusy]; rfl⟩

theorem runMirrored_off {s : State} (h : s.profile.work.dualRun = false) : s.runMirrored = s :=
  if_neg (by simp [State.dualRun, h])

/-- A session opened at the partner lives here too, and every port of the pair carries its acknowledgement (R485). -/
theorem takeKeysync_opens (s : State) (tsid tenant key : Nat) :
    (s.takeKeysync tsid tenant key true).secure = { s.secure with
      sessions := s.secure.sessions.filter (fun x => x.tsid != tsid) ++ [⟨tsid, tenant, none, key⟩] } ∧
    s.takeKeysync tsid tenant key true = { s with
      secure := (s.takeKeysync tsid tenant key true).secure
      pair := (s.takeKeysync tsid tenant key true).pair, out := (s.takeKeysync tsid tenant key true).out } ∧
    (s.takeKeysync tsid tenant key true).out.length = s.out.length + s.pairPorts.length := by
  unfold State.takeKeysync
  dsimp only
  rw [if_pos rfl]
  refine ⟨?_, ?_, ?_⟩
  · rw [sendPair_fields]
  · rw [sendPair_fields]
  · rw [sendPair_ports, List.length_append, List.length_map]
    rfl

section
variable {s : State} {n : Nat} {e : Entry}

theorem queueSweeps_keeps {β : Type} {g : State → β} (hg : ∀ (t : State) maint next, g { t with maint := maint, nextAct := next } = g t)
    (s : State) (e : Entry) : g (s.queueSweeps e) = g s :=
  foldl_keeps g (fun _ _ => hg ..) _ _

theorem ledger_regs (s : State) (e : Entry) : (s.ledger e).pair.regs = s.pair.regs := by
  unfold State.ledger State.ledgerAs State.sendRecord State.sendPair
  grind [State.applied, State.await]

theorem requeue_regs (s : State) (n order : Nat) (f : Entry → Entry) : (s.requeue n order f).pair.regs = s.pair.regs := by
  have hcommit (t : State) (f : Entry → Entry) : (t.commitEntry n f).pair.regs = t.pair.regs := by
    unfold State.commitEntry
    split
    · exact ledger_regs ..
    · rfl
  rw [State.requeue, hcommit, clearFrame_frame]

/-- The digest that the partner sent of a run, in place of an earlier one. -/
abbrev State.digested (s : State) (n run d : Nat) : State :=
  { s with pair := { s.pair with
      peer := s.pair.peer.filter (fun x => !(x.1 == n && x.2.1 == run)) ++ [(n, run, d)] } }

theorem find?_digested (s : State) (n run d : Nat) :
    (s.digested n run d).pair.peer.find? (fun x => x.1 == n && x.2.1 == run) = some (n, run, d) := by
  have hnone : (s.pair.peer.filter (fun x => !(x.1 == n && x.2.1 == run))).find? (fun x => x.1 == n && x.2.1 == run) = none := by
    refine List.find?_eq_none.2 fun x hx hsame => ?_
    have hother := (List.mem_filter.1 hx).2
    rw [hsame] at hother
    cases hother
  exact List.find?_append.trans (by rw [hnone]; simp)

/-- A digest that nothing is compared with, or that agrees, is kept and changes nothing else. -/
theorem takeDigest_agrees {run d : Nat} (he : s.entry? n = some e)
    (hown : s.pair.own.find? (fun x => x.1 == n) = none ∨ s.pair.own.find? (fun x => x.1 == n) = some (n, run, d)) :
    s.takeDigest n run d = s.digested n run d := by
  have hentry : (s.digested n run d).entry? n = some e := he
  change (s.digested n run d).dualCheck n = _
  unfold State.dualCheck
  rw [hentry]
  dsimp only
  split
  · next a b ha hb =>
    rcases hown with hown | hown
    · cases hown.symm.trans ha
    · cases hown.symm.trans ha
      by_cases hrun : run = e.reruns
      · subst hrun
        cases (find?_digested s n e.reruns d).symm.trans hb
        exact if_pos (.inr (.inl rfl))
      · exact if_pos (.inl hrun)
  · rfl

/-- The two digests of a run are forgotten, and their difference is counted. -/
def State.undigested (s : State) (n : Nat) : State :=
  { s with pair := { s.pair with
      own := s.pair.own.filter (fun x => x.1 != n), peer := s.pair.peer.filter (fun x => x.1 != n)
      regs := { s.pair.regs with event := setBit s.pair.regs.event 4, dual := inc s.pair.regs.dual } } }

/-- A frame whose engines are to be swept, with its references taken again for another run. -/
def State.resweeping (s : State) (e : Entry) : State := (s.queueSweeps e).takeRefs e

theorem resweeping_keeps (s : State) (e : Entry) : (s.resweeping e).pair = s.pair ∧ (s.resweeping e).entry? n = s.entry? n := by
  unfold State.resweeping
  rw [takeRefs_frame]
  exact ⟨queueSweeps_keeps (g := (·.pair)) (fun _ _ _ => rfl) .., queueSweeps_keeps (g := (·.entry? n)) (fun _ _ _ => rfl) ..⟩

/-- A digest that differs from this package's own has the frame run again (R438). -/
theorem takeDigest_differs {d d' : Nat} (he : s.entry? n = some e)
    (hown : s.pair.own.find? (fun x => x.1 == n) = some (n, e.reruns, d')) (hne : d' ≠ d) (hran : e.ranOut = true)
    (hst : e.st = .complete) (hmax : e.replays + 1 ≤ s.profile.work.replayMax) : s.takeDigest n e.reruns d =
      (((s.digested n e.reruns d).undigested n).resweeping e).requeue n 0
        (fun x => { x with replays := x.replays + 1, reruns := x.reruns + 1 }) := by
  have hentry : (s.digested n e.reruns d).entry? n = some e := he
  have hours : (s.digested n e.reruns d).pair.own.find? (fun x => x.1 == n) = some (n, e.reruns, d') := hown
  have hgoes : ¬ (e.reruns ≠ e.reruns ∨ d' = d ∨ (!e.ranOut) = true ∨ e.st ≠ .complete) := by
    simp [hne, hran, hst]
  change (s.digested n e.reruns d).dualCheck n = _
  unfold State.dualCheck
  rw [hentry]
  dsimp only
  rw [hours, find?_digested]
  exact (if_neg hgoes).trans (if_neg (Nat.not_lt.2 hmax))

end

/-- Settles O53: copied segments, parcels and objects, SYNCDONE, sessions of the partner and digests. -/
theorem pairCopies : Obligations.PairCopies := by
  unfold Obligations.PairCopies
  refine ⟨fun s p hp => ?segment, fun s p hp => ?parcel, fun s p hp => ?object, fun s p hp => ?objcommit, fun s p hp => ?syncdone,
    fun s p hp => ?keysync, fun s p hp => ?digest⟩
  case segment =>
    intro t h body hcopies l t1
    have hexec : exec (.pairSegment p h body) s = .next (if t.follows then (t.takeSegment h body).tryJoin else t) :=
      answer_eq_next hp.1 (pairFrame_taken hp hcopies)
    rw [hexec]
    refine ⟨fun hf => congrArg _ (if_neg (by simp [hf])), fun hf hno => ?_, fun hf e op he hhollow hop => ?_⟩
    · rw [if_pos hf, takeSegment_stored hno]
    · rw [if_pos hf, takeSegment_fills he hhollow hop]
  case parcel =>
    intro t n off data hlen hholds b t1
    have hexec : exec (.pairParcel p n off data) s =
        .next (if t.pair.st == .joining then (t.takeParcel n off data).tryJoin else t) :=
      answer_eq_next hp.1 (pairFrame_taken hp (by rw [hholds, decide_eq_true hlen]; rfl))
    rw [hexec]
    refine ⟨fun hst => congrArg _ (if_neg (by simpa using hst)), fun hst hno => ?_, fun hst hhollow e op he hop => ?_⟩
    · rw [if_pos (beq_iff_eq.2 hst), takeParcel_kept rfl hno]
    · rw [if_pos (beq_iff_eq.2 hst), takeParcel_fills rfl he hhollow hop]
  case object =>
    intro t tenant target name off data htarget hlen hholds
    have hexec : exec (.pairObject p tenant target name off data) s =
        .next (if t.follows then t.takeObject tenant target name off data else t) :=
      answer_eq_next hp.1 (pairFrame_taken hp (by rw [hholds, decide_eq_true hlen, decide_eq_true htarget]; rfl))
    rw [hexec]
    refine ⟨fun hf => congrArg _ (if_neg (by simp [hf])), fun hf => ⟨t.takeObject tenant target name off data, ?_, takeObject_staged t,
      fun o hmem hother => takeObject_others hmem hother, ?_⟩⟩
    · rw [if_pos hf]
    · rw [takeObject_eq]
  case objcommit =>
    intro t tenant target name status o htarget hstatus hholds does
    have hexec : exec (.pairObjcommit p tenant target name status o) s = .next (t.takeObjcommit tenant target name status o) :=
      answer_eq_next hp.1 (pairFrame_taken hp (by rw [hholds, decide_eq_true hstatus, decide_eq_true htarget]; rfl))
    refine ⟨fun r hr => ⟨_, hexec, takeObjcommit_answers hr⟩, fun hnone => ⟨fun hnot => ?_, fun hstat hf => ?_⟩⟩
    · refine hexec.trans (congrArg _ ((takeObjcommit_mirrored hnone).trans (if_pos ?_)))
      rcases hnot with hnot | hnot
      · exact .inr hnot
      · exact .inl (by rw [hnot]; rfl)
    · exact hexec.trans (congrArg _ ((takeObjcommit_mirrored hnone).trans (if_neg (by simp [hf, hstat]))))
  case syncdone =>
    intro t n hholds t1 lacks
    have hexec : exec (.pairSyncdone p n) s = .next (if t.pair.st = .joining then t1.tryJoin else t) :=
      answer_eq_next hp.1 (pairFrame_taken hp hholds)
    rw [hexec]
    refine ⟨fun hst => congrArg _ (if_neg hst), fun hst hlacks => ?_, fun hst hholdsAll => ?_, rfl, rfl, fun hoff => runMirrored_off hoff⟩
    · rw [if_pos hst, tryJoin_lacking (s := t1) rfl hlacks]
    · rw [if_pos hst, tryJoin_joins (s := t1) hst rfl hholdsAll]
  case keysync =>
    intro t tsid tenant rest
    have hexec (opened : Bool) (h : p.keysyncs tsid tenant opened = true) : exec (.pairKeysync p tsid tenant opened) s =
        .next (if t.follows then t.takeKeysync tsid tenant (beAt p.body 32 32) opened else t) :=
      answer_eq_next hp.1 (pairFrame_taken hp h)
    refine ⟨fun hf opened h => (hexec opened h).trans (congrArg _ (if_neg (by simp [hf]))), fun hf => ⟨fun h => ?_, fun h => ?_⟩⟩
    · obtain ⟨hsessions, hkept, hsent⟩ := takeKeysync_opens t tsid tenant (beAt p.body 32 32)
      exact ⟨_, (hexec true h).trans (congrArg _ (if_pos hf)), hsessions, hsent, hkept⟩
    · exact (hexec false h).trans (congrArg _ (if_pos hf))
  case digest =>
    intro t
    have hdual : t.dualRun = true ↔ t.profile.work.dualRun = true ∧ t.pair.peerProf = t.pkg.profDigest := by
      simp [State.dualRun]
    refine ⟨hdual, ?_⟩
    intro holds'
    have hexec (n run d : Nat) (h : holds' n run d) : exec (.pairDigest p n run d) s =
        .next (if t.paired && t.dualRun && (t.entry? n).isSome then t.takeDigest n run d else t) :=
      answer_eq_next hp.1 (pairFrame_taken hp h)
    refine ⟨fun n run d h hnot => ?_, fun hpaired hdualRun n e he => ?_⟩
    · refine (hexec n run d h).trans (congrArg _ (if_neg ?_))
      rcases hnot with hnot | hnot | hnot <;> simp [hnot]
    · have htakes : (t.paired && t.dualRun && (t.entry? n).isSome) = true := by
        rw [hpaired, hdualRun, he]
        rfl
      refine ⟨fun run d h hown => ?_, fun d d' h hown hne hran hst hmax => ?_⟩
      · rw [hexec n run d h, if_pos htakes, takeDigest_agrees he hown]
      · refine ⟨_, (hexec n e.reruns d h).trans (congrArg _ ((if_pos htakes).trans (takeDigest_differs he hown hne hran hst hmax))), ?_, ?_⟩
        · rw [requeue_regs, (resweeping_keeps (n := n) _ e).1]
          rfl
        · have hentry : (((t.digested n e.reruns d).undigested n).resweeping e).entry? n = some e := (resweeping_keeps _ e).2.trans he
          exact ⟨_, List.mem_of_find?_eq_some (entry?_requeue hentry 0 (fun _ => rfl)), entry?_cseq (s := t) (e := e) he, rfl, rfl, rfl⟩

end Sys2Proof.Machine
end
